-- ==== Sys2Proof/Word.lean ====
section
/-! DEFINITION. The word types of the register space and of the line and Ethernet frames (R2, R3). -/

namespace Sys2Proof

/-- One octet. -/
abbrev Byte := BitVec 8

/-- One 32-bit register word (R3). -/
abbrev Word32 := BitVec 32

/-- One 64-bit canvas or step word (R197, R246). -/
abbrev Word64 := BitVec 64

/-- A 17-bit node address (R115, R224). -/
abbrev NodeAddr := BitVec 17

/-- Line channel 0 to 63 (R25). -/
abbrev ChanId := Fin 64

/-- Easel sequencer 0 to 127 (R195). -/
abbrev SeqId := Fin 128

/-- Ethernet port: 0 for ETHA, 1 for ETHB. -/
abbrev PortId := Fin 2

/-- Hedged page 0 to 15 (R302). -/
abbrev PageId := Fin 16

/-- Front-end die 0 to 3 (R25). -/
abbrev DieId := Fin 4

/-- A queue of the canvas: shallow 0 to 8,191 or deep 0 to 1,023 (R249). -/
inductive QueueId where
  | shallow (q : Fin 8192)
  | deep (d : Fin 1024)
deriving DecidableEq, Repr

/-- Sign of a two's complement field of `w` bits read as a natural number. -/
def toSigned (w n : Nat) : Int :=
  if n % 2 ^ w < 2 ^ (w - 1) then ((n % 2 ^ w : Nat) : Int) else ((n % 2 ^ w : Nat) : Int) - 2 ^ w

/-- The two's complement field of `w` bits that holds `i` modulo 2^w. -/
def ofSigned (w : Nat) (i : Int) : Nat := (i % (2 ^ w : Int)).toNat

/-- Division rounding towards zero (R52, R53). -/
def divZero (a b : Int) : Int := Int.tdiv a b

/-- The smallest natural number of which `b` multiples reach `a`. -/
def ceilDiv (a b : Nat) : Nat := (a + b - 1) / b

end Sys2Proof
end

