-- ==== Sys2Proof/Config.lean ====
section
/-! DEFINITION. The free values: what the specification leaves open, as constants with no body. -/

namespace Sys2Proof.Config

/-- Block `i` of a restore record, which holds a head and the words of its registers by offset: R342 lays it out in no way (log
entry 164). -/
opaque restoreBlock : List (Nat × BitVec 32) → Nat → BitVec 128

/-- 64 bits asked of the DRBG while it refuses requests, by draw: R319 gives no value (log entry 5). -/
opaque refused : Nat → BitVec 64

/-- The word that a read through a failed parity delivers (R260 calls it poisoned and gives no value; log entry 7). -/
opaque poisonWord : Nat → BitVec 64

/-- Whether a quotient whose rounding the specification does not state is taken upward, by its numerator (R55, R157;
log entry 10). -/
opaque roundsUp : Int → Bool

/-- RPTREQ of a POLL or RELAY, which no rule sets: by channel and draw (R170; log entry 11). -/
opaque rptReq : Nat → Nat → Bool

/-- WOPEN, IGAIN, WLEN and RTX of a RELAY, which no rule sets: by entry and draw (R170, R188; log entry 11). -/
opaque relayPlan : Nat → Nat → BitVec 50

/-- The body octets of a frame that are sealed when its encryption is aborted, by draw: the rest are zeros (R292; log
entry 132). -/
opaque sealedOctets : Nat → Nat

/-- Whether the cosine (false) or sine (true) of an NCO accumulator, scaled by 2^17, is taken upward: R67 states no rounding for
them (log entry 133). -/
opaque ncoUp : BitVec 32 → Bool → Bool

/-- A quotient by 0 where the specification states no result: the ratio and the log-likelihood ratio of a window or symbol without
energy, and a pivot of the equaliser that is 0 (R138, R148 to R150; log entry 155). -/
opaque zeroDiv : Int → Int

/-- The level in 1/16 dB of a power of 0 against a reference, or of a power against a reference of 0 (R157, R159; log entry 155). -/
opaque zeroLevel : Nat → Nat → Int

/-- The argument of 0 in units of 2^−64 π (R139; log entry 155). -/
opaque zeroArg : Int

/-- VALUE of a counter whose event the model does not raise (HBM traffic; R370), by counter and draw (log entry 23). -/
opaque looseCount : Nat → Nat → BitVec 48

/-- WRAP of such a counter, by counter and draw (log entry 23). -/
opaque looseWrap : Nat → Nat → Bool

/-- The bandwidth figure of HBM by direction and window, whose traffic the model does not carry (R379; log entry 23). -/
opaque hbmRate : Nat → Nat → BitVec 24

/-- The temperature that an HBM stack reports at an instant, in °C (HBM_STATUS; log entry 191). -/
opaque hbmTemp : Nat → Nat → BitVec 8

/-- The result code of an ATTEST refused with ALARM, which R361 does not number (R316; log entry 24). -/
opaque alarmRefusal : BitVec 4

/-- What an interrupted OTP command leaves programmed, by draw (R311; log entry 25). -/
opaque otpCut : Nat → BitVec 256

/-- Where octet `j` of a failed block of interleaver memory stood among the soft values of its channel, by draw: no rule lays the
memory out (R132, R416; log entry 110). -/
opaque softPlace : Nat → Nat → Nat

/-- What an upset of a table word has hit, by draw: the half of a step word, the STATE field, the FCINIT field (R414;
log entry 27). -/
opaque upset : Nat → BitVec 3

/-- Octets of a seed of the mask generator (R299). -/
opaque maskSeed : Nat

end Sys2Proof.Config
end

