-- ==== Sys2Proof/Syntax.lean ====
section
/-! DEFINITION. The commands of the block: one constructor per row of spec/opcode_table.json, with the operands that the
rule of the row names.  Every command carries `t`, the nanosecond instant at which it falls (R13; log entry 1). -/

namespace Sys2Proof

/-- Who issues a register write: the image loader (R388), a version-2 session (R301, R363) or a version-1 principal
(R360; 0 to 15 a page, 16 administration). -/
inductive Writer where
  | loader
  | session (n : Fin 256)
  | v1 (prin : Fin 17)
deriving DecidableEq, Repr

/-- A timed item that can miss its deadline (R57, R60). -/
inductive MissItem where
  /-- The step on which a sequencer executes or holds (R201, R215). -/
  | step (q : SeqId)
  /-- An undecided BUDGET request (R212, R451). -/
  | budget (q : SeqId)
  /-- A key not resident by the deadline of a KEYFETCH (R451). -/
  | key (q : SeqId)
  /-- An ARM PATH not committed by its deadline (R451). -/
  | path (q : SeqId)
  /-- A transmit slot whose chips ran out (CHQ_TX empty, R17). -/
  | slot (k : ChanId)
deriving DecidableEq, Repr

/-- The samples that come in with a command: the instant of the first of them, and the ADC codes of every member of the channel's bundle,
the lead's first, one per ns (R64, R65).  `stalled` holds where a fault keeps the chip part from taking chips meanwhile (R17). -/
structure Feed where
  first : Nat := 0
  codes : List (List Int) := []
  stalled : Bool := false
deriving DecidableEq, Repr

/-- Cause of a sequencer fault found at fetch (R216). -/
inductive SeqCause where
  | parity | stack | runaway | outlive
deriving DecidableEq, Repr

/-- Slot header fields of R386 that the slot choice of R384 reads. -/
structure SlotHeader where
  magic : BitVec 32
  fver : Nat
  ilen : Nat
  iseq : Nat
deriving DecidableEq, Repr

/-- ASSOC record (R389). -/
structure AssocRecord where
  saidx : Nat
  kind : Nat
  tenant : Nat
  key0 : Option (BitVec 256)
  key1 : Option (BitVec 256)
  cph : Bool
  salt : BitVec 31
deriving DecidableEq, Repr

/-- CHANNEL record (R390); a palette is its list of 1,024 words. -/
structure ChannelRecord where
  chan : Nat
  role : Nat
  palA : Option (List Word32)
  palB : Option (List Word32)
  activeB : Bool
  regs : List (Nat × Word32)
deriving DecidableEq, Repr

/-- PATHS record (R391): rungs are (FORM, QREQ, NLEN). -/
structure PathsRecord where
  chan : Nat
  hyst : Nat
  nbrAge : Nat
  margin : Nat
  rungs : List (Word32 × Int × Nat)
  repeaters : List Nat
deriving DecidableEq, Repr

/-- The content of one image section (R387): `reserved` is a reserved TYPE, and `broken` one that breaks its layout. -/
inductive SectionBody where
  | regs (late : Bool) (recs : List (Nat × Word32))
  | domains (ds : List Nat)
  | assoc (recs : List AssocRecord)
  | nodes (recs : List (Nat × List Word32))
  | seqtab (recs : List (Nat × Nat × List Word64))
  | channel (recs : List ChannelRecord)
  | paths (recs : List PathsRecord)
  | service (chans : List Nat)
  | info
  | reserved
  | broken
deriving DecidableEq, Repr

/-- A section with its place in the image (R387). -/
structure ImageSection where
  offset : Nat
  length : Nat
  body : SectionBody
deriving DecidableEq, Repr

/-- A configuration image (R385 to R391). -/
structure Image where
  header : SlotHeader
  svn : Nat
  svcwait : Nat
  part : Nat
  step : Nat
  sections : List ImageSection
  /-- The image is as long as ILEN says, and the reserved octets of its header are 0 (R386). -/
  octetsOk : Bool
  /-- The octets of the signed part, whose last 1,312 are the public key, and those of the signature (R312, R385). -/
  signed : List Byte
  sig : List Byte
deriving DecidableEq, Repr

/-- A management request frame (R354). -/
structure MgmtFrame where
  mver : Nat
  prin : Fin 32
  kph : Bool
  sess : Fin 256
  mseq : BitVec 64
  payload : List Byte
deriving DecidableEq, Repr

/-- The commands: one constructor per row of the opcode table, in the table's order. -/
inductive Instr where
  | refclkSysLoss (t : Nat)
  | sampleSync (t : Nat)
  | sync (t : Nat)
  | syncReset (t : Nat)
  | transmitEntry (t : Nat) (k : ChanId)
  | transmissionEnd (t : Nat) (k : ChanId)
  | driverOvercurrent (t : Nat) (k : ChanId)
  | vhvFeLow (t : Nat) (die : DieId)
  | vhvFeRestored (t : Nat) (die : DieId)
  | zeroCrossing (t : Nat) (input : Fin 4) (falling : Bool)
  | cycleRecordFix (t : Nat)
  | missedCycles (t : Nat)
  | freerun (t : Nat)
  | mtCfgWrite (t : Nat) (w : Writer) (v : Word32)
  | mtNowCycRead (t : Nat)
  | deadlineMiss (t : Nat) (item : MissItem)
  | responseWindowCommit (t : Nat) (k : ChanId)
  | commitA (t : Nat) (k : ChanId)
  | commitB (t : Nat) (k : ChanId)
  | paletteSwap (t : Nat) (k : ChanId)
  | fadeEnd (t : Nat) (k : ChanId)
  | windowOpen (t : Nat) (k : ChanId)
  | preambleDetection (t : Nat) (k : ChanId) (f : Feed)
  | trimApply (t : Nat) (k : ChanId)
  | signReversal (t : Nat) (k : ChanId) (f : Feed)
  | syncReversalTimeout (t : Nat) (k : ChanId) (f : Feed)
  | syncWordDecision (t : Nat) (k : ChanId) (f : Feed)
  | headerDecode (t : Nat) (k : ChanId) (f : Feed)
  | sentinelCandidate (t : Nat) (k : ChanId) (f : Feed)
  | payloadSymbol (t : Nat) (k : ChanId) (f : Feed)
  | interleaverBlockComplete (t : Nat) (k : ChanId)
  | codewordDecode (t : Nat) (k : ChanId)
  | tagVerdict (t : Nat) (k : ChanId) (up : Bool)
  | noiseFloorMeasurement (t : Nat) (k : ChanId) (f : Feed)
  | beacon (t : Nat) (k : ChanId)
  | poll (t : Nat) (k : ChanId)
  | resp (t : Nat) (k : ChanId)
  | relay (t : Nat) (k : ChanId)
  | joinreq (t : Nat) (k : ChanId)
  | joinacc (t : Nat) (k : ChanId)
  | nodeLost (t : Nat) (index : NodeAddr)
  | joinAbandon (t : Nat) (index : NodeAddr)
  | outstationLoss (t : Nat) (k : ChanId)
  | halt (t : Nat) (q : SeqId)
  | waitTime (t : Nat) (q : SeqId)
  | waitTimeComplete (t : Nat) (q : SeqId)
  | waitRxdone (t : Nat) (q : SeqId)
  | waitTxdone (t : Nat) (q : SeqId)
  | waitGrant (t : Nat) (q : SeqId)
  | waitKey (t : Nat) (q : SeqId)
  | waitFlagSet (t : Nat) (q : SeqId)
  | waitFlagClear (t : Nat) (q : SeqId)
  | armNode (t : Nat) (q : SeqId)
  | armSwap (t : Nat) (q : SeqId)
  | armPath (t : Nat) (q : SeqId)
  | armPathCommit (t : Nat) (q : SeqId)
  | tx (t : Nat) (q : SeqId)
  | rx (t : Nat) (q : SeqId)
  | branch (t : Nat) (q : SeqId)
  | loop (t : Nat) (q : SeqId)
  | call (t : Nat) (q : SeqId)
  | ret (t : Nat) (q : SeqId)
  | budgetTxslot (t : Nat) (q : SeqId)
  | budgetIter (t : Nat) (q : SeqId)
  | budgetBringup (t : Nat) (q : SeqId)
  | keyfetch (t : Nat) (q : SeqId)
  | noteNotice (t : Nat) (q : SeqId)
  | noteEvent (t : Nat) (q : SeqId)
  | noteFlagSet (t : Nat) (q : SeqId)
  | noteFlagClear (t : Nat) (q : SeqId)
  | sequencerFault (t : Nat) (q : SeqId) (cause : SeqCause)
  | seqWatchdog (t : Nat) (q : SeqId)
  | start (t : Nat) (q : SeqId)
  | startCheckComplete (t : Nat) (q : SeqId)
  | seqRunEntry (t : Nat) (q : SeqId)
  | stop (t : Nat) (q : SeqId)
  | clear (t : Nat) (q : SeqId)
  | pfset (t : Nat) (k : ChanId) (mask : BitVec 3)
  | pfclr (t : Nat) (k : ChanId) (mask : BitVec 3)
  | sqLiveWrite (t : Nat) (q : SeqId) (v : Word32)
  | seqTableWrite (t : Nat) (q : SeqId) (step : Fin 8192) (high : Bool) (v : Word32)
  | seqAutoRestart (t : Nat) (q : SeqId)
  | txslotDecision (t : Nat) (q : SeqId)
  | iterDecision (t : Nat) (q : SeqId)
  | bringupDecision (t : Nat) (q : SeqId)
  | governorTick (t : Nat) (rails : List Nat)
  | temperatureSample (t : Nat) (x : Int) (sensor : Fin 24)
  | thermalTrip (t : Nat)
  | gvPdcmdOn (t : Nat) (w : Writer) (dom : Fin 128)
  | gvPdcmdOff (t : Nat) (w : Writer) (dom : Fin 128)
  | domainSwitchOnDone (t : Nat)
  | gvChcmdOn (t : Nat) (w : Writer) (k : ChanId) (role : Option (Fin 8))
  | gvChcmdOff (t : Nat) (w : Writer) (k : ChanId)
  | gvChcmdHold (t : Nat) (w : Writer) (k : ChanId) (role : Option (Fin 8))
  | restoreDone (t : Nat) (k : ChanId)
  | calibrationDone (t : Nat) (k : ChanId) (within : Bool)
  | drainComplete (t : Nat) (k : ChanId)
  | drainTimeout (t : Nat) (k : ChanId)
  | captureDone (t : Nat) (k : ChanId)
  | queuePush (t : Nat) (q : QueueId) (cls : Fin 4) (words : List Word64) (last : Option (Fin 9))
  | queuePop (t : Nat) (q : QueueId) (n : Nat) (badWord : Option Nat) (badLink : Bool)
  | prune (t : Nat) (q : Fin 8192)
  | flush (t : Nat) (q : QueueId)
  | abort (t : Nat) (q : QueueId)
  | zeroingDone (t : Nat)
  | sectorEncryptDone (t : Nat) (d : Fin 1024)
  | sectorDecryptDone (t : Nat) (d : Fin 1024)
  | queueEnable (t : Nat) (q : QueueId)
  | queueDisable (t : Nat) (q : QueueId)
  | half1Set (t : Nat)
  | half1Clear (t : Nat)
  | frameReceive (t : Nat) (p : PortId) (octets : List Byte)
  | egressFrameStart (t : Nat) (p : PortId)
  | lossOfSignal (t : Nat) (p : PortId) (lane : Fin 8)
  | lossOfAlignment (t : Nat) (p : PortId) (hiser : Bool)
  | portUp (t : Nat) (p : PortId)
  | failholdExpiry (t : Nat) (p : PortId)
  | revert (t : Nat) (p : PortId)
  | pfcFrame (t : Nat) (p : PortId) (prio : Fin 8) (quanta : BitVec 16)
  | pauseExpiry (t : Nat) (p : PortId) (prio : Fin 8)
  | pfcRepeat (t : Nat)
  | load (t : Nat) (slot : Fin 17) (index : NodeAddr)
  | commit (t : Nat) (slot : Fin 17) (index : NodeAddr) (setabs clrhold : Bool)
  | keyResident (t : Nat) (saidx : NodeAddr) (phase : Bool) (intact : Bool)
  | keywaitExpiry (t : Nat) (k : ChanId)
  | keywr (t : Nat) (src : Fin 17) (saidx : NodeAddr) (phase : Bool)
  | keyerase (t : Nat) (src : Fin 17) (saidx : NodeAddr) (phase : Bool)
  | roll (t : Nat) (src : Fin 17) (saidx : NodeAddr)
  | query (t : Nat) (src : Fin 17) (saidx : NodeAddr)
  | create (t : Nat) (src : Fin 17) (saidx : NodeAddr) (kind : Fin 4)
  | delete (t : Nat) (src : Fin 17) (saidx : NodeAddr)
  | pageerase (t : Nat) (src : Fin 17)
  | saCommandDone (t : Nat) (src : Fin 17)
  | acq (t : Nat) (sess : Fin 256)
  | rel (t : Nat) (sess : Fin 256)
  | leaseExpiry (t : Nat)
  | jen (t : Nat) (p : PageId)
  | jgo (t : Nat) (p : PageId)
  | jobComplete (t : Nat) (p : PageId)
  | pgJdone3Read (t : Nat) (p : PageId)
  | ownkeySet (t : Nat) (w : Writer)
  | lock (t : Nat) (w : Writer)
  | svnCommit (t : Nat) (w : Writer)
  | decommission (t : Nat) (w : Writer)
  | imageVerify (t : Nat)
  | identityReady (t : Nat)
  | attestReportReady (t : Nat)
  | entropyStartupPass (t : Nat) (bits : List Bool)
  | entropyFailure (t : Nat) (bits : List Bool)
  | entropyRetest (t : Nat) (bits : List Bool)
  | entropyStartTimeout (t : Nat)
  | drbgReseed (t : Nat)
  | tamp (t : Nat) (i : Fin 4) (level : Bool)
  | lid (t : Nat)
  | volt (t : Nat)
  | clock (t : Nat) (absent : Bool)
  | temp (t : Nat)
  | jtag (t : Nat)
  | almlock (t : Nat)
  | resetNAssert (t : Nat)
  | resetNRelease (t : Nat)
  | flashDiscoveryDone (t : Nat) (mode : Fin 4) (dens : Fin 64) (mhz : Fin 256) (a b : List Byte)
  | slotReadDone (t : Nat) (octets : Option (List Byte))
  | serviceStart (t : Nat)
  | serviceWaitTimeout (t : Nat)
  | squelchClear (t : Nat) (p : PortId)
  | squelchSet (t : Nat) (p : PortId)
  | openFrame (t : Nat) (p : PortId) (mac : BitVec 48) (f : MgmtFrame) (tagOk : Bool)
  | req (t : Nat) (p : PortId) (mac : BitVec 48) (f : MgmtFrame) (tagOk : Bool)
  | flashWriteDone (t : Nat) (ok : Bool)
  | sessionLapse (t : Nat) (sess : Fin 256)
  | sessionIdleTimeout (t : Nat) (sess : Fin 256)
  | noticeSend (t : Nat)
  | windowBoundary (t : Nat) (timer : Fin 8)
  | wrapclr (t : Nat) (c : Fin 2048)
  | cntRdRead (t : Nat) (c : Fin 2048) (reader : Fin 18)
  | counterSettingWrite (t : Nat) (c : Fin 2048) (which : Fin 3) (v : Word32)
  | wtCfgWrite (t : Nat) (timer : Fin 8) (v : Word32)
  | bwCfgWrite (t : Nat) (v : Word32)
  | scrubPass (t : Nat)
  | wordRepair (t : Nat) (addr : Nat)
  | hbmUncorrectable (t : Nat) (block : Nat) (octets16 : Fin 256)
  | registerWrite (t : Nat) (w : Writer) (addr : Nat) (v : Word32)
  | refclkSysRestored (t : Nat)
  | vddFeOutOfRange (t : Nat)
  | discoveryWindowEnd (t : Nat) (k : ChanId)
  | nfAgeExpiry (t : Nat) (k : ChanId)
  | portUpTimeout (t : Nat) (p : PortId) (sigdet : BitVec 8)
  | otpCommandDone (t : Nat)
deriving DecidableEq, Repr

end Sys2Proof
end

