-- ==== Sys2Proof/Decode.lean ====
section
/-! DEFINITION. The command that a word of spec/opcode_table.json spells. -/

namespace Sys2Proof

/-- The opcode table gives none of its 189 rows any bits (each row's `fields` is empty and it names no width), so no word
spells a command. -/
def decodeTableWord (_nbits _w : Nat) : Option Instr := none

end Sys2Proof
end

