-- ==== Sys2Proof/Machine/Keccak.lean ====
section
/-! DEFINITION. SHA3-256 and SHAKE of FIPS 202, and octet strings as numbers (R271, R275, R312, R314, R317). -/

namespace Sys2Proof.Machine

open Sys2Proof

/-- Octets of a number, most significant first. -/
def octetsBE : Nat → Nat → List Byte
  | 0, _ => []
  | n + 1, v => octetsBE n (v / 256) ++ [BitVec.ofNat 8 v]

/-- Octets of a number, least significant first. -/
def octetsLE (n v : Nat) : List Byte := (octetsBE n v).reverse

/-- Number of octets, most significant first. -/
def beNat (l : List Byte) : Nat := l.foldl (fun n b => n * 256 + b.toNat) 0

/-- Number of octets, least significant first. -/
def leNat (l : List Byte) : Nat := beNat l.reverse

/-- Two octet strings added bit by bit. -/
def xorOctets (a b : List Byte) : List Byte := a.zipWith (· ^^^ ·) b

/-- A list in pieces of `n`; `fuel` bounds their number. -/
def chunks {α : Type} (n : Nat) : Nat → List α → List (List α)
  | 0, _ => []
  | _, [] => []
  | fuel + 1, l => l.take n :: chunks n fuel (l.drop n)

/-! ### Keccak-f[1600] -/

/-- Lane (x, y) of a state of 25 lanes, at place x + 5y. -/
def laneOf (a : List Word64) (x y : Nat) : Word64 := a.getD (x % 5 + 5 * (y % 5)) 0

/-- θ: to every lane the parities of two columns. -/
def keccakTheta (a : List Word64) : List Word64 :=
  let c := (List.range 5).map (fun x => (List.range 5).foldl (fun s y => s ^^^ laneOf a x y) 0#64)
  let d := (List.range 5).map (fun x => c.getD ((x + 4) % 5) 0 ^^^ (c.getD ((x + 1) % 5) 0).rotateLeft 1)
  a.zipIdx.map (fun e => e.1 ^^^ d.getD (e.2 % 5) 0)

/-- Rotations of ρ, by the place of the lane. -/
def keccakRot : List Nat :=
  [0, 1, 62, 28, 27, 36, 44, 6, 55, 20, 3, 10, 43, 25, 39, 41, 45, 15, 21, 8, 18, 2, 61, 56, 14]

/-- ρ and π: lane (x, y) of the result is lane (x + 3y, x), rotated. -/
def keccakRhoPi (a : List Word64) : List Word64 :=
  (List.range 25).map (fun i =>
    let p := (i % 5 + 3 * (i / 5)) % 5 + 5 * (i % 5)
    (a.getD p 0).rotateLeft (keccakRot.getD p 0))

/-- χ within every row. -/
def keccakChi (a : List Word64) : List Word64 :=
  (List.range 25).map (fun i =>
    a.getD i 0 ^^^ (~~~(laneOf a (i % 5 + 1) (i / 5)) &&& laneOf a (i % 5 + 2) (i / 5)))

/-- Round constants of ι. -/
def keccakRc : List Word64 :=
  [0x0000000000000001, 0x0000000000008082, 0x800000000000808A, 0x8000000080008000, 0x000000000000808B, 0x0000000080000001,
   0x8000000080008081, 0x8000000000008009, 0x000000000000008A, 0x0000000000000088, 0x0000000080008009, 0x000000008000000A,
   0x000000008000808B, 0x800000000000008B, 0x8000000000008089, 0x8000000000008003, 0x8000000000008002, 0x8000000000000080,
   0x000000000000800A, 0x800000008000000A, 0x8000000080008081, 0x8000000000008080, 0x0000000080000001, 0x8000000080008008]

/-- One round. -/
def keccakRound (a : List Word64) (rc : Word64) : List Word64 :=
  (keccakChi (keccakRhoPi (keccakTheta a))).modify 0 (· ^^^ rc)

/-- The permutation of 24 rounds. -/
def keccakF (a : List Word64) : List Word64 := keccakRc.foldl keccakRound a

/-! ### The sponge -/

/-- The padding of a message of `n` octets at rate `r`: the domain bits with the first 1, and the last 1. -/
def spongePad (r n : Nat) (dom : Byte) : List Byte :=
  let q := r - n % r
  if q = 1 then [dom ||| 0x80#8] else dom :: List.replicate (q - 2) 0#8 ++ [0x80#8]

/-- The lanes of a block. -/
def lanesOf (b : List Byte) : List Word64 := (chunks 8 25 b).map (fun l => BitVec.ofNat 64 (leNat l))

/-- A block is absorbed. -/
def absorb (a : List Word64) (b : List Byte) : List Word64 :=
  let l := lanesOf b
  keccakF (a.zipIdx.map (fun e => e.1 ^^^ l.getD e.2 0))

/-- The first `r` octets of a state. -/
def blockOut (r : Nat) (a : List Word64) : List Byte := (a.flatMap (fun w => octetsLE 8 w.toNat)).take r

/-- `n` blocks squeezed. -/
def squeeze (r : Nat) : Nat → List Word64 → List Byte
  | 0, _ => []
  | n + 1, a => blockOut r a ++ squeeze r n (keccakF a)

/-- `len` octets of the sponge of rate `r` and domain `dom` over a message. -/
def sponge (r : Nat) (dom : Byte) (msg : List Byte) (len : Nat) : List Byte :=
  let m := msg ++ spongePad r msg.length dom
  let a := (chunks r m.length m).foldl absorb (List.replicate 25 0#64)
  (squeeze r (ceilDiv len r) a).take len

/-- SHA3-256 of an octet string: octet 0 of the digest in bits 255 to 248. -/
def sha3_256 (msg : List Byte) : BitVec 256 := BitVec.ofNat 256 (beNat (sponge 136 0x06#8 msg 32))

/-- SHAKE128 and SHAKE256. -/
def shake128 (msg : List Byte) (len : Nat) : List Byte := sponge 168 0x1F#8 msg len
def shake256 (msg : List Byte) (len : Nat) : List Byte := sponge 136 0x1F#8 msg len

end Sys2Proof.Machine
end

