-- ==== Sys2Proof/Machine/Aes.lean ====
section
/-! DEFINITION. AES-256 of FIPS 197, and on it AES-256-GCM, AES-KW and CTR_DRBG (R271, R279, R297, R318). -/

namespace Sys2Proof.Machine

open Sys2Proof

/-! ### AES-256 (FIPS 197) -/

/-- Octet times x in GF(2^8). -/
def xtime (b : Byte) : Byte := (b <<< 1) ^^^ (if b.getLsbD 7 then 0x1B#8 else 0#8)

/-- A product in GF(2^8): the multiples by x of `a` that the bits of `b` name. -/
def gfMul (a b : Byte) : Byte :=
  ((List.range 8).foldl (fun (r : Byte × Byte) i => (if b.getLsbD i then r.1 ^^^ r.2 else r.1, xtime r.2)) (0#8, a)).1

/-- The inverse in GF(2^8), 0 of 0: the 254th power. -/
def gfInv (a : Byte) : Byte :=
  let a2 := gfMul a a
  let a4 := gfMul a2 a2
  let a8 := gfMul a4 a4
  let a16 := gfMul a8 a8
  let a32 := gfMul a16 a16
  let a64 := gfMul a32 a32
  gfMul (gfMul (gfMul a2 a4) (gfMul a8 a16)) (gfMul (gfMul a32 a64) (gfMul a64 a64))

/-- SubBytes on one octet: the inverse, then the affine map. -/
def subByte (a : Byte) : Byte :=
  let b := gfInv a
  b ^^^ b.rotateLeft 1 ^^^ b.rotateLeft 2 ^^^ b.rotateLeft 3 ^^^ b.rotateLeft 4 ^^^ 0x63#8

/-- InvSubBytes on one octet. -/
def invSubByte (a : Byte) : Byte := gfInv (a.rotateLeft 1 ^^^ a.rotateLeft 3 ^^^ a.rotateLeft 6 ^^^ 0x05#8)

/-- The next eight words of the key schedule, from the eight before them and the round constant. -/
def nextKeys (l : List (List Byte)) (rc : Byte) : List (List Byte) :=
  let last := l.getD 7 []
  let t := (((last.drop 1 ++ last.take 1).map subByte).modify 0 (· ^^^ rc))
  let a := xorOctets (l.getD 0 []) t
  let b := xorOctets (l.getD 1 []) a
  let c := xorOctets (l.getD 2 []) b
  let d := xorOctets (l.getD 3 []) c
  let e := xorOctets (l.getD 4 []) (d.map subByte)
  let f := xorOctets (l.getD 5 []) e
  let g := xorOctets (l.getD 6 []) f
  [a, b, c, d, e, f, g, xorOctets (l.getD 7 []) g]

/-- Words of the key schedule from a key of 32 octets, eight at a time. -/
def keyWords (rc : Byte) : Nat → List (List Byte) → List (List Byte)
  | 0, l => l
  | n + 1, l => l ++ keyWords (xtime rc) n (nextKeys l rc)

/-- The fifteen round keys of 16 octets. -/
def roundKeys (key : List Byte) : List (List Byte) := (chunks 4 15 ((keyWords 1#8 7 (chunks 4 8 key)).take 60)).map List.flatten

/-- Octet (row, column) of a state that stands column by column. -/
def stateAt (s : List Byte) (row col : Nat) : Byte := s.getD (4 * (col % 4) + row % 4) 0

/-- ShiftRows, and its inverse: row r moves by r columns. -/
def shiftRows (s : List Byte) : List Byte := (List.range 16).map (fun i => stateAt s (i % 4) (i / 4 + i % 4))
def invShiftRows (s : List Byte) : List Byte := (List.range 16).map (fun i => stateAt s (i % 4) (i / 4 + 4 - i % 4))

/-- A column times the circulant matrix of a row of four factors. -/
def mixBy (m : List Byte) (s : List Byte) : List Byte :=
  (List.range 16).map (fun i =>
    (List.range 4).foldl (fun (r : Byte) j => r ^^^ gfMul (stateAt s j (i / 4)) (m.getD ((j + 4 - i % 4) % 4) 0)) 0#8)

/-- MixColumns and its inverse. -/
def mixColumns (s : List Byte) : List Byte := mixBy [2, 3, 1, 1] s
def invMixColumns (s : List Byte) : List Byte := mixBy [14, 11, 13, 9] s

/-- Rounds of the cipher under the keys that are left; the last one mixes no columns. -/
def encRounds : List (List Byte) → List Byte → List Byte
  | [], s => s
  | [k], s => xorOctets (shiftRows (s.map subByte)) k
  | k :: l, s => encRounds l (xorOctets (mixColumns (shiftRows (s.map subByte))) k)

/-- Rounds of the inverse cipher under the keys that are left, the last first. -/
def decRounds : List (List Byte) → List Byte → List Byte
  | [], s => s
  | [k], s => xorOctets ((invShiftRows s).map invSubByte) k
  | k :: l, s => decRounds l (invMixColumns (xorOctets ((invShiftRows s).map invSubByte) k))

/-- AES-256 on a block of 16 octets under a key of 32, and its inverse. -/
def aesEnc (key b : List Byte) : List Byte :=
  match roundKeys key with
  | [] => b
  | k :: l => encRounds l (xorOctets b k)
def aesDec (key b : List Byte) : List Byte :=
  match (roundKeys key).reverse with
  | [] => b
  | k :: l => decRounds l (xorOctets b k)

/-- The octets of a 256-bit key, octet 0 in bits 255 to 248. -/
def keyOctets (k : BitVec 256) : List Byte := octetsBE 32 k.toNat

/-- The same on a block that holds octet i in bits 8i + 7 to 8i. -/
def aes256 (k : BitVec 256) (b : BitVec 128) : BitVec 128 := BitVec.ofNat 128 (leNat (aesEnc (keyOctets k) (octetsLE 16 b.toNat)))
def aes256Inv (k : BitVec 256) (b : BitVec 128) : BitVec 128 := BitVec.ofNat 128 (leNat (aesDec (keyOctets k) (octetsLE 16 b.toNat)))

/-! ### AES-256-GCM (NIST SP 800-38D) -/

/-- A product in GF(2^128) as GCM writes it: bit 127 holds the coefficient of x^0. -/
def gcmMul (x y : BitVec 128) : BitVec 128 :=
  ((List.range 128).foldl (fun (r : BitVec 128 × BitVec 128) i =>
    (if x.getLsbD (127 - i) then r.1 ^^^ r.2 else r.1,
     (r.2 >>> 1) ^^^ (if r.2.getLsbD 0 then 0xE1#128 <<< 120 else 0#128))) (0#128, y)).1

/-- A string padded with zeros to whole blocks. -/
def padBlocks (l : List Byte) : List Byte := l ++ List.replicate ((16 - l.length % 16) % 16) 0

/-- GHASH of whole blocks under H. -/
def ghash (h : BitVec 128) (l : List Byte) : BitVec 128 :=
  (chunks 16 l.length l).foldl (fun y b => gcmMul (y ^^^ BitVec.ofNat 128 (beNat b)) h) 0

/-- GCTR: a string under the key stream of counter `c` and the following, for an IV of 12 octets. -/
def gctr (key iv : List Byte) (l : List Byte) : Nat → List Byte :=
  fun c => (chunks 16 l.length l).zipIdx.flatMap (fun e => xorOctets e.1 (aesEnc key (iv ++ octetsBE 4 (c + e.2))))

/-- The tag over AAD and ciphertext. -/
def gcmTag (key iv aad ct : List Byte) : List Byte :=
  let h := BitVec.ofNat 128 (beNat (aesEnc key (List.replicate 16 0)))
  let s := ghash h (padBlocks aad ++ padBlocks ct ++ octetsBE 8 (8 * aad.length) ++ octetsBE 8 (8 * ct.length))
  gctr key iv (octetsBE 16 s.toNat) 1

/-- Ciphertext and tag of a message under a key, a nonce of 12 octets and an AAD. -/
def gcmSeal (key iv aad msg : List Byte) : List Byte :=
  let ct := gctr key iv msg 2
  ct ++ gcmTag key iv aad ct

/-- The message that ciphertext and tag open to, none where the tag fails. -/
def gcmOpen (key iv aad body : List Byte) : Option (List Byte) :=
  let ct := body.take (body.length - 16)
  if 16 ≤ body.length ∧ gcmTag key iv aad ct = body.drop (body.length - 16) then some (gctr key iv ct 2) else none

/-! ### AES-KW (NIST SP 800-38F) -/

/-- One step of the wrapping: integrity block and semiblocks, of which semiblock `i` is wrapped at step `t`. -/
def wrapStep (key : List Byte) (s : List Byte × List (List Byte)) (i t : Nat) : List Byte × List (List Byte) :=
  let b := aesEnc key (s.1 ++ s.2.getD i [])
  (xorOctets (b.take 8) (octetsBE 8 t), s.2.set i (b.drop 8))

def unwrapStep (key : List Byte) (s : List Byte × List (List Byte)) (i t : Nat) : List Byte × List (List Byte) :=
  let b := aesDec key (xorOctets s.1 (octetsBE 8 t) ++ s.2.getD i [])
  (b.take 8, s.2.set i (b.drop 8))

/-- The wrapped form of a 256-bit key under a wrapping key: 40 octets, octet 0 in the highest bits. -/
def aesKw (kek key : BitVec 256) : BitVec 320 :=
  let s := (List.range 24).foldl (fun s n => wrapStep (keyOctets kek) s (n % 4) (n + 1))
    (List.replicate 8 0xA6#8, chunks 8 4 (keyOctets key))
  BitVec.ofNat 320 (beNat (s.1 ++ s.2.flatten))

/-- The key that 40 octets unwrap to, none where the integrity check fails. -/
def aesUnwrap (kek : BitVec 256) (w : BitVec 320) : Option (BitVec 256) :=
  let l := octetsBE 40 w.toNat
  let s := (List.range 24).reverse.foldl (fun s n => unwrapStep (keyOctets kek) s (n % 4) (n + 1)) (l.take 8, chunks 8 4 (l.drop 8))
  if s.1 = List.replicate 8 0xA6#8 then some (BitVec.ofNat 256 (beNat s.2.flatten)) else none

/-! ### CTR_DRBG with AES-256 and a derivation function (NIST SP 800-90A) -/

/-- The working state: Key and V. -/
structure Drbg where
  key : List Byte := List.replicate 32 0
  v : List Byte := List.replicate 16 0
deriving DecidableEq, Repr

/-- V + 1 modulo 2^128. -/
def incBlock (v : List Byte) : List Byte := octetsBE 16 (beNat v + 1)

/-- `n` blocks of output, with V after them. -/
def Drbg.stream (key : List Byte) : Nat → List Byte → List Byte × List Byte
  | 0, v => ([], v)
  | n + 1, v =>
    let v := incBlock v
    let r := Drbg.stream key n v
    (aesEnc key v ++ r.1, r.2)

/-- CTR_DRBG_Update with 48 octets. -/
def Drbg.update (s : Drbg) (data : List Byte) : Drbg :=
  let t := xorOctets (Drbg.stream s.key 3 s.v).1 data
  { key := t.take 32, v := t.drop 32 }

/-- BCC: the chained encryption of whole blocks. -/
def bcc (key l : List Byte) : List Byte :=
  (chunks 16 l.length l).foldl (fun c b => aesEnc key (xorOctets c b)) (List.replicate 16 0)

/-- `n` blocks chained from X under K. -/
def chainBlocks (key : List Byte) : Nat → List Byte → List Byte
  | 0, _ => []
  | n + 1, x =>
    let x := aesEnc key x
    x ++ chainBlocks key n x

/-- Block_Cipher_df for 48 octets. -/
def blockDf (l : List Byte) : List Byte :=
  let s := padBlocks (octetsBE 4 l.length ++ octetsBE 4 48 ++ l ++ [0x80#8])
  let k0 := (List.range 32).map (fun i => BitVec.ofNat 8 i)
  let t := (List.range 3).flatMap (fun i => bcc k0 (octetsBE 4 i ++ List.replicate 12 0 ++ s))
  chainBlocks (t.take 32) 3 (t.drop 32)

/-- Instantiation from entropy and a personalisation string, and reseeding. -/
def Drbg.instantiate (entropy pers : List Byte) : Drbg := ({} : Drbg).update (blockDf (entropy ++ pers))
def Drbg.reseed (s : Drbg) (entropy : List Byte) : Drbg := s.update (blockDf entropy)

/-- A generate request for `n` octets, without additional input. -/
def Drbg.generate (s : Drbg) (n : Nat) : List Byte × Drbg :=
  let (out, v) := Drbg.stream s.key (ceilDiv n 16) s.v
  (out.take n, ({ s with v := v } : Drbg).update (List.replicate 48 0))

end Sys2Proof.Machine
end

