-- ==== Sys2Proof/Machine/State.lean ====
section
/-! DEFINITION. The state of the block as plain data.  Every register of the register map (R419 to R425) lives in ONE
sparse table keyed by its byte address (`Dev.regs`); what the specification gives the machine besides its registers lies in
the structures below.  A default value in a structure is its value after reset. -/

namespace Sys2Proof.Machine

open Sys2Proof

/-- Reasons for a fault.  No command of this block faults: an access to an address that does not exist reads 0 and writes
nothing (R420), and every other departure is an error flag or a cause that the specification names. -/
inductive Fault where
  /-- Raised by no meaning: the type needs an inhabitant to be printed.  Safe. -/
  | unreachable
deriving DecidableEq, Repr

/-- Reasons for a refusal. -/
inductive Refusal where
  /-- Raised by an arm of `exec` whose command has no meaning yet.  Safe: the machine stops where the hardware goes on. -/
  | notModelled (mnemonic : String)
deriving DecidableEq, Repr

/-- A sparse table: indices strictly rising, no entry equal to the default of its table. -/
abbrev Tab (α : Type) := List (Nat × α)

/-- Record of one mains cycle: number, start instant in ns, grain length in 2^−20 ns (R47). -/
structure CycleRec where
  c : Nat := 0
  t0 : Nat := 0
  l : Nat := 0
deriving DecidableEq, Repr

/-- Mains time beyond its registers (R47 to R56). -/
structure Mains where
  cur : CycleRec := {}
  /-- Record of the cycle before the current one, to which a late crossing may belong (R52). -/
  prev : Option CycleRec := none
  /-- Record of the next cycle once it is fixed (R48). -/
  next : Option CycleRec := none
  /-- Period estimate in units of 2^−20 ns (R51). -/
  p : Int := 0
  /-- Accepted crossings, newest first: cycle, corrected instant, phase error in ns (R52, R53). -/
  hits : List (Nat × Int × Int) := []
  /-- Corrected instants seen in ACQUIRE or on the primary in HOLDOVER and FREERUN, newest first (R51, R56). -/
  seek : List Int := []
  /-- Consecutive outliers, newest first: corrected instant and phase error in ns (R54). -/
  outs : List (Int × Int) := []
  /-- Corrected instant and cycle of the last crossing in the group or accepted in SLEW (R54). -/
  zLast : Option (Int × Nat) := none
  /-- The cycle after which missed cycles count: the last one with an accepted crossing, or the one of a switch of input (R55). -/
  okCyc : Nat := 0
  /-- Cycles spent in HOLDOVER (R56). -/
  held : Nat := 0
  /-- The alternate input provides the crossings (R55). -/
  onAlt : Bool := false
  /-- Grains of the last alternate crossings, newest first, at most 16 (R55). -/
  altGrains : List Nat := []
  /-- Instant of the last accepted comparator crossing of each input (R46). -/
  lastHit : Tab Nat := []
  /-- REFCLK_SYS is present (R14). -/
  refclk : Bool := true
deriving DecidableEq, Repr

/-- Kinds of timed entries in PRMQ[k] (R18). -/
inductive PrmqKind where
  | tx
  | rx
  | gain (code : Nat)
  | swap (fade : Bool) (f : Nat)
  | trim (v : Int)
  | reset
deriving DecidableEq, Repr

/-- A timed entry of PRMQ[k], with the sequencer and step that issued it (R18; 128 stands for none). -/
structure PrmqEntry where
  at_ : Nat
  kind : PrmqKind
  seq : Nat := 128
  step : Nat := 0
deriving DecidableEq, Repr

/-! ### Samples and chips (R64 to R91) -/

/-- A complex sample, or a value with 96 bits of fraction. -/
abbrev Cx := Int × Int

/-- Registers of one component of a CIC stage: 5 integrators and 5 combs of 45 bits (R70). -/
structure Cic where
  int : List (BitVec 45) := List.replicate 5 0
  comb : List (BitVec 45) := List.replicate 5 0
deriving DecidableEq, Repr

/-- A 1,000 MS/s sample that carries a flag: its instant, clip, whether the comparator of R39 set it, impulse (R73). -/
structure Mark where
  at_ : Nat
  clip : Bool := false
  comp : Bool := false
  imp : Bool := false
deriving DecidableEq, Repr

/-- A receive chain (R64 to R73): its registers, cleared as R87 clears them, the instant of its next sample in ns, the referred
instant of its next output in 2^−24 ns, the flagged samples that later outputs may see, and the outputs that it has formed and not
emitted. -/
structure RxChain where
  at_ : Nat := 0
  ref : Nat := 0
  nco : BitVec 32 := 0
  /-- Rank window, oldest first. -/
  win : List Cx := List.replicate 15 (0, 0)
  ci : Cic := {}
  cq : Cic := {}
  /-- Inputs since the last CIC output. -/
  dec : Nat := 0
  /-- FIR delay line, newest first, and its decimation phase. -/
  fir : List Cx := List.replicate 128 (0, 0)
  odd : Bool := false
  /-- Fraction of P, inputs still to be taken before the next output, and the 8 held inputs, oldest first. -/
  p : Nat := 0
  need : Nat := 1
  held : List Cx := List.replicate 8 (0, 0)
  marks : List Mark := []
  out : List (Nat × Cx) := []
  /-- Outputs of the fade that started last, and the emission instant of its last one (R84). -/
  fade : Nat := 0
  fadeEnd : Nat := 0
deriving DecidableEq, Repr

/-- A transmit chain (R75): its registers, cleared as R87 clears them, and the chips of the frame under way that it has taken. -/
structure TxChain where
  nco : BitVec 32 := 0
  p : Nat := 0
  need : Nat := 1
  held : List Cx := List.replicate 8 (0, 0)
  fir : List Cx := List.replicate 64 (0, 0)
  ci : Cic := {}
  cq : Cic := {}
  done : Nat := 0
deriving DecidableEq, Repr

/-- A swap that has started: its boundary in the receive chain in ns and in the transmit chain in 2^−24 ns, the palette it made
active, and the order of its fade (R82 to R85). -/
structure Swap where
  rxAt : Nat
  txAt : Nat
  toB : Bool
  fade : Option Nat := none
deriving DecidableEq, Repr

/-- One chip of every member of a bundle, the lead's first, as CHQ_RX delivers it, with its referred instant in 2^−24 ns (R74,
R136). -/
structure Col where
  ref : Nat
  ch : List (BitVec 48)
deriving DecidableEq, Repr

/-- What a correlator keeps of a window: the referred instants of its first and last chip, its peak tine, â_p of every member, the
members' |â_p|² with 96 bits of fraction, and whether it followed the window before it directly (R138, R139). -/
structure Peak where
  start : Nat
  last : Nat
  p : Nat
  val : List Cx
  pow : Nat
  joined : Bool := true
deriving DecidableEq, Repr

/-- A correlator: the chips of the window under way, newest first, chips to drop before the next one, and the counting windows
since the count last restarted, newest first (R138, R144). -/
structure Corr where
  buf : List Col := []
  skip : Nat := 0
  peaks : List Peak := []
deriving DecidableEq, Repr

/-- A noise-floor run: its chips, those flagged, and the power of the others (R157). -/
structure NfRun where
  n : Nat := 0
  flagged : Nat := 0
  power : Nat := 0
deriving DecidableEq, Repr

/-- What the receiver has of a payload symbol: its number, the copies that have come, those usable, the sum of E_m over them, and
their flagged chips (R131, R151, R152). -/
structure SymAcc where
  t : Nat
  copies : Nat := 0
  used : Nat := 0
  e : List Nat := []
  flagged : Nat := 0
deriving DecidableEq, Repr

/-- Waveform and framing parameters of one frame (R107, R119, R120). -/
structure Form where
  mode : Nat := 0
  strm : Nat := 0
  span : Nat := 0
  kh : Nat := 8
  np : Nat := 16
  lvl : Int := 0
deriving DecidableEq, Repr

/-- An item copied out of a queue into a frame or between queues. -/
structure Unit_ where
  dseq : Nat := 0
  rel : Bool := false
  cls : Nat := 0
  content : List Byte := []
deriving DecidableEq, Repr

/-- A TXSLOT grant held or charged (R332). -/
structure SlotGrant where
  chan : Nat
  charged : Nat
  floor : Bool
  d : Nat
deriving DecidableEq, Repr

/-- A transmission issued on a channel and not yet ended (R205). -/
structure TxJob where
  seq : Nat
  step : Nat
  t : Nat
  fin : Nat
  typ : Nat
  entry : Nat
  saidx : Nat := 0
  phase : Bool := false
  fctr : Nat := 0
  ver : Nat := 1
  form : Form := {}
  /-- Levels of the members, the lead's first (R30). -/
  lvls : List Int := []
  len : Nat := 0
  anchor : Nat := 0
  msg : List Byte := []
  /-- The innermost message, where RELAYs carry it. -/
  core : List Byte := []
  /-- Sent through the espalier of `entry` (R188). -/
  via : Bool := false
  /-- Deep queue whose MARK this step set (R264). -/
  marked : Option Nat := none
  /-- The grant it consumed, charged until its outcome is committed (R332). -/
  grant : Option SlotGrant := none
  /-- Cells of the items that it detached (R253). -/
  cells : List Nat := []
  /-- Record and phase of every association that protects a frame of it, nested ones too (R287). -/
  keys : List (Nat × Bool) := []
  /-- Chips of the frame (R110). -/
  chips : Nat := 0
  /-- Header with its HCRC (R115), and the body to the end of PAD before whitening (R122). -/
  hdr : BitVec 96 := 0
  body : List Byte := []
  /-- The sync field carries FR_SYNCB (R113, R167). -/
  syncB : Bool := false
  begun : Bool := false
  /-- Rest of the frame is zeros with the FCS inverted (R292), from this body octet on. -/
  voided : Bool := false
  voidFrom : Nat := 0
  /-- CHQ_TX ran empty, from this chip on (R17). -/
  starved : Bool := false
  starveFrom : Nat := 0
deriving DecidableEq, Repr

/-- A receive window issued on a channel (R209). -/
structure RxWin where
  seq : Nat
  step : Nat
  opn : Nat
  close : Nat
  /-- Open instant of the step, where a transmission makes the window open later (R35). -/
  want : Option Nat := none
  kh : Nat
  sync : Nat
  gains : List Nat
  relay : Bool := false
  entry : Nat := 0
  opened : Bool := false
  /-- The arrival-or-timeout outcome once committed (R59). -/
  outcome : Option Bool := none
  /-- The earliest arrival stamped at or before D (R59). -/
  arrival : Option Nat := none
  /-- A transmission has begun over it: the rest of the window is blanked, and nothing is detected in it (R35). -/
  cut : Bool := false
  /-- Result of the last frame locked in the window and not followed by another (R147). -/
  last : Option Nat := none
  /-- Its sequencer has faulted: the outcome is counted and returns to no step (R216). -/
  orphan : Bool := false
deriving DecidableEq, Repr

/-- The frame that a receiver has locked (R136 to R156). -/
structure RxLock where
  stamp : Nat
  /-- Open instant of its window. -/
  opn : Nat := 0
  ss : Int := 0
  ssLatched : Bool := false
  /-- The preamble windows, or the symbol under way, of the frame; the windows since detection (R139, R141). -/
  corr : Corr := {}
  windows : Nat := 0
  /-- The mean phase step in 2^−64 π, clamped as R139 says; `freq` holds once an estimate stands. -/
  step : Int := 0
  freq : Bool := false
  /-- The window of the sign reversal has come (R141). -/
  reversed : Bool := false
  /-- The sync symbols so far: 1 where the sign is reversed (R142). -/
  bits : List Bool := []
  /-- The sentinel correlator, and whether the count under way has declared its candidate (R144). -/
  sent : Corr := {}
  declared : Bool := false
  /-- Soft values of the header symbols so far (R143). -/
  soft : List Int := []
  hdr : Option (BitVec 96) := none
  /-- Flagged chips in the prefix of the symbol under way (R137). -/
  pre : Nat := 0
  /-- Payload chips taken, and whether the last has been (R136). -/
  pos : Nat := 0
  ended : Bool := false
  /-- Tap estimates of the symbols of the running mean, newest first: members, then streams, then taps (R148, R149). -/
  taps : List (List (List (List Cx))) := []
  /-- Mean power of the reserved tines of R148 in the last 16 symbols, newest first. -/
  noise : List Nat := []
  /-- Symbols of which copies are still to come, and the soft values of the symbols of blocks not yet issued (R129, R152). -/
  acc : List SymAcc := []
  syms : List (Nat × List Int) := []
  /-- Soft values of the extended stream from the first codeword not started (R128). -/
  stream : List Int := []
  /-- Caps and soft values of the codewords that the decoder pool has started, oldest first (R153, R154). -/
  started : List (Nat × List Int) := []
  /-- Smallest cap less count of a codeword decoded (R155). -/
  margin : Option Nat := none
  /-- Interleaver blocks complete, the codewords that lie in them, and those decoded or failed (R129, R154). -/
  blocks : Nat := 0
  codewords : Nat := 0
  decoded : Nat := 0
  /-- Information octets of the codewords so far, still whitened (R124, R127). -/
  body : List Byte := []
  failed : Bool := false
  /-- A payload chip carried CLIP with CCMP and without IMP; the largest power of a payload chip (R159). -/
  clipOnly : Bool := false
  peak : Nat := 0
  /-- End of KEYWAIT, and the pair that the frame waits for (R283). -/
  keyWait : Option Nat := none
  wants : Option (Nat × Bool) := none
  /-- Entry whose association protects the frame; none for one kept undecrypted (R189). -/
  entry : Option Nat := none
  /-- Key bound by the decryption, and whether an erase aborted it (R289, R293). -/
  key : Option (Nat × Bool) := none
  aborted : Bool := false
  /-- Instant of the frame's last chip. -/
  fin : Nat := 0
  /-- Gain code in force at that chip (R159). -/
  gain : Option Nat := none
deriving DecidableEq, Repr

/-- A capture candidate of the sentinel (R144). -/
structure Candidate where
  stamp : Nat
  ss : Int
  /-- Its most recent window still counted (R146). -/
  live : Bool := true
deriving DecidableEq, Repr

/-- A frame accepted on a channel whose message waits to act (R166). -/
structure Accepted where
  typ : Nat
  src : Nat
  dst : Nat
  ver : Nat
  /-- Entry whose association protected it. -/
  entry : Nat
  via : Bool := false
  /-- The repeaters through which it came, R1 first (R190). -/
  path : List Nat := []
  /-- Referred instant of its last chip. -/
  fin : Nat
  q : Int := 0
  qsrc : Bool := false
  dmargin : Nat := 0
  gainAdv : Nat := 0
  ss : Int := 0
  msg : List Byte
deriving DecidableEq, Repr

/-- The values of the last accepted POLL or RELAY that later steps use (R177, R189, R207). -/
structure Grant where
  relay : Bool
  umode : Nat
  ustrm : Nat
  uspan : Nat
  ulen : Nat
  ulvl : Int
  gap : Nat
  rptreq : Bool := false
  wopen : Nat := 0
  ikh : Nat := 8
  inp : Nat := 8
  isync : Nat := 0
  igain : Nat := 0
  wlen : Nat := 0
  rtx : Nat := 0
  ilvl : Int := 0
  inner : List Byte := []
  /-- Quality record of the frame answered (R158, R170). -/
  q : Int := 0
  qsrc : Bool := false
  dmargin : Nat := 0
  gainAdv : Nat := 0
  ss : Int := 0
  /-- Gaps not yet used: of the POLL's RESP or the inner frame, of the listen window, of the RELAY's RESP. -/
  gapFree : Bool := true
  winFree : Bool := true
  rtxFree : Bool := true
  /-- UPRES of a refused RELAY is 8 (R190). -/
  refused : Bool := false
deriving DecidableEq, Repr

/-- The quality of a hop as one of its ends has reported it to the head-end: the station that measured it, 0 for the head-end, the
station it heard, and the cycle in which it heard it (R170, R192). -/
structure HopReport where
  of_ : Nat
  heard : Nat
  q : Int
  cycle : Nat
deriving DecidableEq, Repr

/-- Luafen state of a channel beyond its registers (R181 to R186). -/
structure Luafen where
  /-- Last cycle with a valid POLL or RELAY, and the loss timer in force (R186). -/
  lastPoll : Nat := 0
  lostc : Nat := 0
  /-- Consecutive failed join windows and windows still to skip (R183). -/
  joinFails : Nat := 0
  skip : Nat := 0
  /-- Nonce of the JOINREQ under way. -/
  nonceN : BitVec 64 := 0
  /-- NONCE_H to confirm in the first RESP (R185). -/
  nonceH : Option (BitVec 64) := none
  /-- Head-end: the discovery window in progress, by number, and the requests handled in it (R184). -/
  window : Option Nat := none
  handled : Nat := 0
  /-- Head-end: requests handled and not yet answered: entry and its JOINREQ message (R184). -/
  pend : List (Nat × List Byte) := []
  /-- Head-end: addresses sent a JOINACC, with the window number (R184). -/
  held : List (Nat × Nat) := []
  /-- Outstation: announced discovery window from the last beacon: first cycle, DGRN, slots, largest exponent, open. -/
  disc : Option (Nat × Nat × Nat × Nat × Bool) := none
  /-- Outstation: slot drawn in the window and whether its JOINREQ was sent (R183). -/
  drawn : Option Nat := none
  sentJoin : Bool := false
  /-- Result of the listen window and the upward frame that a repeater keeps (R189). -/
  upward : Option (Nat × List Byte) := none
  /-- Head-end: upward frame that a RESP carried, still to be checked (R190). -/
  nested : Option (List Byte) := none
  /-- Head-end: the repeaters through which that frame came, R1 first. -/
  nestedPath : List Nat := []
  /-- Head-end: that frame passed its header's checks and waits for its key until this instant (R184, R283). -/
  nestedWait : Option Nat := none
  /-- Head-end: for each request that waits, the repeaters through which it came (R184). -/
  joinPath : List (Nat × List Nat) := []
  /-- Head-end: the hop qualities known (R192). -/
  reports : List HopReport := []
  /-- Head-end: JOINREQ messages answered with STATUS 0, kept until their sessions are confirmed (R185). -/
  offers : List (Nat × List Byte) := []
  /-- Head-end: ACTIVE entries polled whose exchange has no outcome yet (R174, R229). -/
  polled : List Nat := []
  /-- Head-end: entry of the POLL sent last while its exchange has no RX outcome (R174, R185). -/
  exch : Option Nat := none
  /-- Head-end: UMODE and ULEN of the last POLL or RELAY to an entry: entry, UMODE, ULEN (R178). -/
  asked : List (Nat × Nat × Nat) := []
  /-- Outstation: quality of the last accepted beacon, for BQ (R170). -/
  beaconQ : Int := 0
deriving DecidableEq, Repr

/-- The record that an RX step returns (R158). -/
structure RxRecord where
  code : Nat
  ss : Int := 0
  q : Int := 0
  qsrc : Bool := false
  dmargin : Nat := 0
  gainAdv : Nat := 0
deriving DecidableEq, Repr

/-- A channel beyond its registers; it is lost when its domain goes off (R23). -/
structure Chan where
  /-- Role in force, coded as in R390. -/
  role : Nat := 0
  /-- The driver is enabled for a transmission; it is out of high-impedance from `drvFrom` to `drvTo` (R33). -/
  driverOn : Bool := false
  drvFrom : Nat := 0
  drvTo : Nat := 0
  /-- The switch is in transmit, or moving to it, until `swTo` (R33). -/
  swTx : Bool := false
  swTo : Nat := 0
  /-- Receive samples from `blankFrom` to `blankUntil` are blanked (R33). -/
  blankFrom : Nat := 0
  blankUntil : Nat := 0
  /-- The blanked spans before that one whose samples may still come in (R34). -/
  blanked : List (Nat × Nat) := []
  /-- The slot's drive class is the high band's: 12 Vpp in place of 24 (R29). -/
  highBand : Bool := false
  /-- Driver held high-impedance until the next transmit instant (R31). -/
  tripped : Bool := false
  /-- Mains cycles of the last DRVOC trips, newest first (R31). -/
  trips : List Nat := []
  gain : Nat := 20
  /-- Instant of the last change of gain code (R37). -/
  gainAt : Nat := 0
  /-- The changes before that one whose samples may still come in (R37). -/
  gained : List Nat := []
  /-- Last changes of TRIM, newest first: the instant and the value before it (R18, R72). -/
  trims : List (Nat × Int) := []
  prmq : List PrmqEntry := []
  /-- Entries of the receiver and the always-on domain that wait for room in PRMQ[k] (R17). -/
  prmqWait : List PrmqEntry := []
  txs : List TxJob := []
  wins : List RxWin := []
  lastTx : Option Nat := none
  lastRx : Option Nat := none
  lastRxPoll : Bool := false
  lastRec : Option RxRecord := none
  eRx : Option Nat := none
  eTx : Option Nat := none
  grant : Option Grant := none
  lock : Option RxLock := none
  /-- Frames whose last chip has been taken and that await their verdict while a later one is received, oldest first (R136). -/
  behind : List RxLock := []
  cand : Option Candidate := none
  nfCycle : Option Nat := none
  nfValid : Bool := false
  jamCycle : Nat := 0
  jamCount : Nat := 0
  /-- Referred instants below this carry SETL (R88). -/
  settleTo : Nat := 0
  /-- Instant of the last clear of the chains (R87). -/
  cleared : Nat := 0
  /-- Pending swap: fade and order (R85). -/
  swapPend : Option (Bool × Nat) := none
  /-- The swaps that have started, newest first, as far back as a chain may still need them (R82 to R85). -/
  swaps : List Swap := []
  /-- The chains of the channel and CHQ_RX[k], whose entries keep their referred instants (R64, R74, R75). -/
  rx : RxChain := {}
  tx : TxChain := {}
  chq : List (Nat × BitVec 48) := []
  /-- Chips that the receiver has taken from CHQ_RX of every member and not yet examined (R136). -/
  inbox : List Col := []
  /-- Referred instant of the last chip that the receiver took (R162). -/
  lastRef : Nat := 0
  /-- The primary correlator of SEARCH, and the open instant of the window that it serves (R138). -/
  search : Corr := {}
  searchOpn : Nat := 0
  /-- The noise-floor run under way, and the complete ones not yet reported, oldest first (R157). -/
  nfRun : NfRun := {}
  nfDue : List NfRun := []
  accepted : Option Accepted := none
  /-- Stamp of the frame that is being handed on directly or held, and the staging cells of a held message (R294). -/
  handing : Option Nat := none
  stage : List Nat := []
  lf : Luafen := {}
  /-- Standing charge of the iteration allowance (R337). -/
  iterCharge : Nat := 0
deriving DecidableEq, Repr

/-- Kinds of BUDGET request (R202). -/
inductive BudgetKind where
  | txslot | iter | bringup
deriving DecidableEq, Repr

/-- Outcome of a sequencer's last BUDGET (R212). -/
inductive BudgetOut where
  | grant | degrade (d : Nat) | deny | failed
deriving DecidableEq, Repr

/-- A BUDGET request waiting for its decision (R212). -/
structure BudgetReq where
  kind : BudgetKind
  chan : Nat
  energy : Nat
  iter : Nat := 0
  deadline : Nat
  step : Nat
  deferred : Bool := false
  /-- The decision, with the TXSLOT grant, that is on its way through GOVQ_GNT while CCLK stands still (R14, R335). -/
  answer : Option (BudgetOut × Option SlotGrant) := none
deriving DecidableEq, Repr

/-- A KEYFETCH whose deadline is still watched (R213, R451): its step, the deadline, the keys not yet resident, and whether it is
the sequencer's last one. -/
structure KeyAsked where
  step : Nat
  deadline : Nat
  keys : List (Nat × Bool)
  newest : Bool := true
deriving DecidableEq, Repr

/-- The actions on the flags of a pair in one CCLK cycle (R214). -/
structure FlagOps where
  pair : Nat
  base : Nat
  /-- Rank (0 a management write, then the sequencers by number), mask, and whether it sets. -/
  ops : List (Nat × Nat × Bool)
deriving DecidableEq, Repr

/-- A sequencer beyond its registers (R195 to R220). -/
structure Seq where
  /-- Base time BT. -/
  btc : Nat := 0
  btg : Nat := 0
  stack : List Nat := []
  loops : List Nat := [0, 0, 0, 0]
  armed : Option Nat := none
  /-- Deadline of the step on which the sequencer holds (R201). -/
  held : Option Nat := none
  /-- Time X of the step on which the sequencer holds (R198). -/
  target : Nat := 0
  /-- Close of the RX step on which the sequencer holds (R199). -/
  close : Nat := 0
  /-- Time X of an ARM SWAP that waits for room in PRMQ (R17, R198). -/
  stall : Option Nat := none
  /-- Steps fetched since the last executed WAIT (R216). -/
  run : Nat := 0
  /-- Mains cycle of the last completed WAIT with SETBT, or of the entry to RUN (R216). -/
  wdog : Nat := 0
  /-- Requests not yet decided, oldest first (R212). -/
  reqs : List BudgetReq := []
  /-- The last BUDGET has no outcome yet; its outcome, a failure at the deadline among them (R203, R212). -/
  open_ : Bool := false
  out : Option BudgetOut := none
  /-- The decision made last, which GNT and DEG read (R200). -/
  decided : Option BudgetOut := none
  /-- A TXSLOT was requested since the last grant was consumed (R212). -/
  asked : Bool := false
  /-- That request failed at its deadline (R451). -/
  slotFailed : Bool := false
  grant : Option SlotGrant := none
  /-- Result code of the last swap that a step of the sequencer requested, returned through STSQ[k] (R86). -/
  swapCode : Option Nat := none
  /-- Keys asked for by the last KEYFETCH and still to come: record and phase. -/
  keys : List (Nat × Bool) := []
  /-- Keys pinned for the sequencer (R281). -/
  pins : List (Nat × Bool) := []
  /-- The last KEYFETCH ended without a key (R281). -/
  keyBad : Bool := false
  /-- The KEYFETCHes that still have a key missing, oldest first (R451). -/
  fetched : List KeyAsked := []
  /-- ARM PATHs under way, oldest first: entry, deadline, step (R204). -/
  paths : List (Nat × Nat × Nat) := []
  /-- The live range in force while the one in SQ_LIVE is pending (R220). -/
  live2 : Option (Nat × Nat) := none
  /-- A start check is under way, for this start cycle, 0 for none named (R217, R412). -/
  checking : Option Nat := none
  /-- Cycle at whose grain 0 an ARMED sequencer enters RUN. -/
  startAt : Nat := 0
  /-- Mains cycles of automatic restarts, newest first (R412). -/
  restarts : List Nat := []
  /-- An automatic restart is due (R412). -/
  restart : Bool := false
deriving DecidableEq, Repr

/-- An item of a queue (R250); a word is its value and whether it carries the poison tag. -/
structure Item where
  cls : Nat := 0
  words : List (Word64 × Bool) := []
  len : Nat := 0
  complete : Bool := false
  aborted : Bool := false
  /-- VOID of a deep-queue item (R265). -/
  void : Bool := false
  /-- Of an uplink unit: the entry it came from, and whether it came through an espalier (R235). -/
  node : Nat := 0
  via : Bool := false
deriving DecidableEq, Repr

/-- What one CCLK cycle has done to a queue, against the sample at the start of that cycle (R251, R255): data words and ENDs
pushed, and the room at the start where words have been freed since. -/
structure CycleLog where
  cycle : Nat := 0
  words : Nat := 0
  ends : Nat := 0
  room : Option Nat := none
  /-- Of a deep queue: RD at the start, where a TX step has moved it since (R264). -/
  rd : Option Nat := none
deriving DecidableEq, Repr

/-- What the arbitration of one direction of the canvas has granted in a CCLK cycle (R249): ports, words, and whether a request has
stopped it. -/
structure Grants where
  cycle : Nat := 0
  ports : List Nat := []
  words : Nat := 0
  stop : Bool := false
deriving DecidableEq, Repr

/-- A shallow queue (R246 to R259): its items, the canvas cells that hold them, the words of the first cell already gone
and the words stored from the start of the first cell. -/
structure Shallow where
  items : List Item := []
  cells : List Nat := []
  gone : Nat := 0
  fill : Nat := 0
  /-- The consumer has begun the first item (R258). -/
  taking : Bool := false
  /-- Words pushed are discarded up to END (R256, R258). -/
  discard : Bool := false
  log : CycleLog := {}
deriving DecidableEq, Repr

/-- A deep queue (R262 to R266): items from HEAD to TAIL, and its staging cells. -/
structure Deep where
  items : List Item := []
  staging : List Nat := []
  discard : Bool := false
  /-- Words in the write staging sector being filled, and full sectors awaiting encryption (R263). -/
  wfill : Nat := 0
  full : Nat := 0
  /-- A sector is being decrypted into read staging. -/
  reading : Bool := false
  /-- Read staging: the blocks of the sector decrypted last (R263). -/
  rstage : List (BitVec 128) := []
  /-- A push waits for a free staging sector (R263). -/
  waiting : List (List (Word64 × Bool) × Option Nat × Nat) := []
  log : CycleLog := {}
deriving DecidableEq, Repr

/-- An association record (R280). -/
structure Assoc where
  wk0 : BitVec 320 := 0
  wk1 : BitVec 320 := 0
  salt : BitVec 31 := 0
  sess : Bool := false
  ssalt : BitVec 31 := 0
  valid0 : Bool := false
  valid1 : Bool := false
  cph : Bool := false
  txph : Bool := false
  sentNew : Bool := false
  rcvdNew : Bool := false
  kind : Nat := 0
  tenant : Nat := 0
  failcnt : Nat := 0
  /-- The receive window holds no counter yet (R277). -/
  empty : Bool := true
  rxhi : Nat := 0
  rxwin : BitVec 64 := 0
  jctr : Nat := 0
deriving DecidableEq, Repr

/-- A record command in progress (R285, R286). -/
structure SaCmd where
  op : Nat
  saidx : Nat
  phase : Bool
  res : Nat
  /-- Of a KEYWR to a resident phase: the key that its slot keeps until the command completes (R290). -/
  old : Option (BitVec 320) := none
deriving DecidableEq, Repr

/-- A tenant job (R304). -/
structure Job where
  id : Nat
  op : Nat
  saidx : Nat
  phase : Bool
  aad : Nat
  dlen : Nat
  ctr : Nat
  masked : Bool := false
  /-- The job has taken its item. -/
  taken : Bool := false
  /-- The job has bound its key and runs in cluster X. -/
  started : Bool := false
  item : List Byte := []
  /-- The key was erased while the job ran (R290). -/
  erased : Bool := false
deriving DecidableEq, Repr

/-- A completion record (R305). -/
structure JobDone where
  id : Nat
  status : Nat
  outlen : Nat
  ctr : Nat
deriving DecidableEq, Repr

/-- Jobs of one hedged page. -/
structure PageJobs where
  jobs : List Job := []
  ring : List JobDone := []
deriving DecidableEq, Repr

/-- A notice record (R365); 255 stands for none in channel, sequencer and page. -/
structure Notice where
  cls : Nat
  code : Nat
  chan : Nat := 255
  seq : Nat := 255
  step : Nat := 0
  cyc : Nat := 0
  grn : Nat := 0
  page : Nat := 255
  ns : Nat := 0
  arg : Nat := 0
deriving DecidableEq, Repr

/-- A management session (R357). -/
structure Session where
  num : Nat
  prin : Nat
  kph : Bool := false
  ssalt : BitVec 30 := 0
  confirmed : Bool := false
  last : Nat := 0
  opened : Nat := 0
  heard : Nat := 0
  mac : BitVec 48 := 0
  port : Nat := 0
  mask : Word32 := 0xFFFFFFFF#32
  ncount : Nat := 0
  buf : List Notice := []
  /-- Notice frames sent in the current millisecond (R366). -/
  rate : Nat × Nat := (0, 0)
deriving DecidableEq, Repr

/-- A PFC frame that leaves the module (R244, R353). -/
structure PfcOut where
  port : Nat
  prio : Nat
  quanta : Nat
  src : BitVec 48
deriving DecidableEq, Repr

/-- A management frame that leaves the module (R354). -/
structure MgmtOut where
  port : Nat
  mac : BitVec 48
  mver : Nat
  mtype : Nat
  prin : Nat
  kph : Bool := false
  sess : Nat
  mseq : BitVec 64
  payload : List Byte
  /-- Salt word of its nonce (R356), and what the frame carries after its header: the payload sealed and the tag, or the
  payload in clear for PRIN 31 (R354). -/
  salt : Word32 := 0
  body : List Byte := []
  /-- SSALT of a session that has ended with the request that this frame answers (R359). -/
  ended : Option (BitVec 30) := none
  /-- The frame as it leaves: from its destination address to its FCS (R353, R354). -/
  octets : List Byte := []
deriving DecidableEq, Repr

/-- A management request that the engine holds (R362): its frame, the commands still to run, and the response so far.
`waits` holds while an attestation report is awaited. -/
structure MgmtJob where
  port : Nat
  mac : BitVec 48
  frame : MgmtFrame
  rest : List (Nat × Option (List Byte)) := []
  resp : List Byte := []
  waits : Bool := false
  /-- CLOSE was accepted: SSALT of the session that has ended, under which the response still leaves. -/
  close : Option (BitVec 30) := none
  /-- CCLK cycle of arrival (R362). -/
  at_ : Nat := 0
deriving DecidableEq, Repr

/-- An Ethernet frame that a port has begun (R238): the queue, the octets before the content, whether it ended truncated. -/
structure EthOut where
  port : Nat
  queue : Nat
  head : List Byte
  content : List Byte := []
  done : Bool := false
  truncated : Bool := false
deriving DecidableEq, Repr

/-- A hardware update of a register field, by the address, low bit and width of the field: its instant, the value before it and what
it added (R6, R423). -/
structure HwUpdate where
  ns : Nat
  addr : Nat
  lo : Nat
  width : Nat
  old : Nat
  n : Nat
deriving DecidableEq, Repr

/-- An event as counters see it (R370): group, SUB, INST, increment, and the tag of a SEQNOTE event. -/
structure CountEvent where
  grp : Nat
  sub : Nat
  inst : Nat
  inc : Nat
  tag : Option Nat := none
deriving DecidableEq, Repr

/-- A performance counter (R369): VALUE, the active setting and the pending one (CNT_SEL, CNT_THR, WT). -/
structure Counter where
  value : Nat := 0
  wrap : Bool := false
  sel : Word32 := 0
  thr : Word32 := 0
  wt : Nat := 0
  pend : Option (Word32 × Word32 × Nat) := none
  /-- CCLK cycle, plus 1, of the write that `pend` came with, and the pending setting that it replaced (R374). -/
  pendAt : Nat := 0
  older : Option (Word32 × Word32 × Nat) := none
  /-- What the present cycle adds under the pending setting where it counts every cycle (R374). -/
  first : Nat := 0
  /-- CCLK cycle, plus 1, of the last carry (R374). -/
  carry : Nat := 0
deriving DecidableEq, Repr

/-- A capture set (R376). -/
structure Capture where
  value : Nat := 0
  wrap : Bool := false
  pend : Bool := false
  ns : Nat := 0
  cyc : Nat := 0
  grn : Nat := 0
  idx : Nat := 0
  valid : Bool := false
deriving DecidableEq, Repr

/-- A window timer (R372): its setting in force and its last boundary. -/
structure Timer where
  cfg : Word32 := 0x03E80000#32
  last : Nat := 0
  lastCycle : Nat := 0
deriving DecidableEq, Repr

/-- Restore record of a channel (R342): service role, active palette, LOADED flags, and register words by offset. -/
structure Restore where
  role : Nat := 0
  activeB : Bool := false
  loadedA : Bool := false
  loadedB : Bool := false
  words : List (Nat × Word32) := []
  /-- An HBM error has hit the record (R416). -/
  bad : Bool := false
deriving DecidableEq, Repr

/-- A bring-up under way (R343). -/
structure Bring where
  energy : Nat := 0
  hold : Bool := false
  /-- OFF arrived: end at the next phase boundary (R345). -/
  abort : Bool := false
  /-- Phase 4 has completed. -/
  restored : Bool := false
  /-- The channel's own calibration has ended within its limits (phase 5). -/
  calibrated : Bool := false
deriving DecidableEq, Repr

/-- The power governor beyond its registers (R327 to R346). -/
structure Gov where
  /-- Domains switching on: the first one is under way, the others wait (R328). -/
  queue : List Nat := []
  /-- MODE and GV_CUSTOM in force, taken over at a tick (R331). -/
  mode : Nat := 2
  custom : Word32 := 0x0A55008C#32
  /-- Energy of the rail samples within the last window in nJ, by the instant of the tick that read them, oldest first (R330). -/
  power : List (Nat × Nat) := []
  m : Nat := 0
  /-- The last reading of each temperature sensor, and Tj, the highest of them (R330). -/
  temps : Tab Int := []
  tj : Int := 0
  /-- Tj has been at or above 110 °C since this instant (R334). -/
  hotFrom : Option Nat := none
  /-- A trip bars GV_CHCMD ON until Tj falls below Tc − 10 °C (R340). -/
  barred : Bool := false
  /-- VHV_FEn of a die is below its operating range (R433). -/
  vhvLow : List Nat := []
  vddFeLow : Bool := false
  /-- Floor grants: instant, channel, energy (R332). -/
  floors : List (Nat × Nat × Nat) := []
  bring : Tab Bring := []
  /-- Channels being taken out, by the instant the drain began (R345). -/
  drain : Tab Nat := []
deriving DecidableEq, Repr

/-- One-time-programmable store (R308). -/
structure Otp where
  serial : BitVec 64 := 0
  vkhV : BitVec 256 := 0
  vkhO : BitVec 256 := 0
  dus : BitVec 256 := 0
  /-- SVNCTR, whose value is the number of bits set. -/
  svnBits : BitVec 128 := 0
  /-- LCS: group g in bits 8·g + 7 to 8·g. -/
  lcs : Word32 := 0x0000FF00
  /-- VKH_O holds part of a hash only: an interrupted OWNKEY_SET (R311). -/
  ownBroken : Bool := false
  /-- Words that hold bit errors, each with their number: the ECC corrects one and detects two. -/
  errors : Tab Nat := []
deriving DecidableEq, Repr

/-- Bits of a vector that are set. -/
def onesIn (n : Nat) (w : BitVec n) : Nat := ((List.range n).filter (fun i => w.getLsbD i)).length

/-- A word holds two bit errors (R308). -/
def Otp.bad (o : Otp) : Bool := o.errors.any (fun e => decide (2 ≤ e.2))

/-- The value of SVNCTR (R308). -/
def Otp.svn (o : Otp) : Nat := onesIn 128 o.svnBits

/-- The lifecycle state: the highest group of LCS that holds at least 5 set bits, 0 where none does (R308, R309). -/
def Otp.lc (o : Otp) : Nat :=
  (([3, 2, 1].find? (fun g => decide (5 ≤ onesIn 8 (o.lcs.extractLsb' (8 * g) 8)))).getD 0)

/-- A group of LCS is programmed, all at once (R308). -/
def Otp.programGroup (o : Otp) (g : Nat) : Otp := { o with lcs := o.lcs ||| (0xFF#32 <<< (8 * g)) }

/-- SVNCTR with bits set, the lowest first, until its value is at least `n` (R313). -/
def raiseBits (n : Nat) : Nat → BitVec 128 → BitVec 128
  | 0, w => w
  | k + 1, w =>
    let w := raiseBits n k w
    if onesIn 128 w < n then w ||| (1#128 <<< k) else w

/-- An attestation request (R315, R316). -/
structure AttestReq where
  nonce : List Byte
  abandoned : Bool := false
  /-- Its request has ended with its session (R359). -/
  orphan : Bool := false
deriving DecidableEq, Repr

/-- The two tests of the raw bits of the entropy source (R317): the last bit and its run, the place in the window of 1,024 bits
with its first bit and how often it came, and how many bits in a row have passed both. -/
structure RawTests where
  last : Option Bool := none
  run : Nat := 0
  pos : Nat := 0
  sample : Bool := false
  hits : Nat := 0
  good : Nat := 0
deriving DecidableEq, Repr

/-- The Chiale root beyond its registers. -/
structure Root where
  otp : Otp := {}
  pwk : Tab (BitVec 256) := []
  /-- The memory key pair (R279): the data key and the tweak key of XTS. -/
  memKey : BitVec 256 × BitVec 256 := (0, 0)
  /-- The root holds keys (R326). -/
  keyed : Bool := false
  tests : RawTests := {}
  /-- The working state of the DRBG, once it is instantiated, and the last raw bits that have been tested, 2,048 at most (R317,
  R318). -/
  drbg : Option Drbg := none
  raw : List Bool := []
  generates : Nat := 0
  seeded : Nat := 0
  passes : Nat := 0
  identity : Bool := false
  attest : List AttestReq := []
  alarms : Nat := 0
  /-- OTP command in progress and its result (R310). -/
  cmd : Option (Nat × Nat) := none
  /-- Seed of the identity derived at this start (R314). -/
  idSeed : BitVec 256 := 0
  /-- Levels of TAMP[3:0], high until reported low (R320). -/
  tampLevel : Nat := 15
  digest : BitVec 256 := 0
  keyHash : BitVec 256 := 0
  /-- The monitors of R320 are armed. -/
  armed : Bool := false
deriving DecidableEq, Repr

/-- The image loader and its flash beyond its registers (R381 to R397). -/
structure Loader where
  /-- Instant of the release of RESET_N (R319). -/
  released : Nat := 0
  hdrA : Option SlotHeader := none
  hdrB : Option SlotHeader := none
  /-- Slots already tried in this start (R384). -/
  triedA : Bool := false
  triedB : Bool := false
  image : Option Image := none
  /-- Image cells 0 to `cells` − 1, off the free list while they hold the image (R393). -/
  cells : Nat := 0
  /-- Step of R394 that waits: 2 for the first domain of `domains`, 3 for ESTATE TRUSTED. -/
  stage : Nat := 0
  domains : List Nat := []
  /-- Step 11: the bring-ups have begun, those still to issue, and the one whose outcome is awaited (R395). -/
  serving : Bool := false
  service : List Nat := []
  current : Option Nat := none
  since : Nat := 0
  svcwait : Nat := 1
  paths : Tab PathsRecord := []
  /-- Recovery buffer with the canvas cells that hold it, and the client of a flash write under way: port, address, MSEQ (R364). -/
  rimg : List Byte := []
  rimgCells : List Nat := []
  writing : Option (Nat × BitVec 48 × BitVec 64) := none
  /-- Flash lands are driven (R396). -/
  lands : Bool := false
deriving DecidableEq, Repr

/-- The device: everything but the queue of waiting commands. -/
structure Dev where
  /-- Nanosecond time of the last command (R13). -/
  now : Nat := 0
  /-- Every register of the register space by byte address (R419). -/
  regs : Tab Word32 := []
  mains : Mains := {}
  chan : Tab Chan := []
  /-- Decoder pool: blocks issued and not yet started whole, oldest first, as channel, arrival stamp of the frame and codewords to
  go, and channel and stamp of the codewords that its quarters decode (R154). -/
  pool : List (Nat × Nat × Nat) := []
  poolBusy : List (Nat × Nat) := []
  seq : Tab Seq := []
  gov : Gov := {}
  /-- Free list of canvas cells as runs (first cell, length), head first (R247). -/
  free : List (Nat × Nat) := [(0, 98304)]
  /-- Cells at the tail of the free list that may not be taken yet: cell and the CCLK cycle in which it was freed (R247). -/
  fresh : List (Nat × Nat) := []
  zeroing : List Nat := []
  shallow : Tab Shallow := []
  deep : Tab Deep := []
  /-- Cells found in no list by the last scrub pass (R413). -/
  suspects : List Nat := []
  /-- Words whose parity bit disagrees, by register address (R196, R224). -/
  badParity : List Nat := []
  /-- Repair copy of both tables, and its words that an HBM error has hit (R414, R416). -/
  copy : Tab Word32 := []
  copyBad : List Nat := []
  /-- Start of the scrub pass under way (R413). -/
  scrubFrom : Nat := 0
  /-- Edit generation of node entries and of the LOADs in the shadow slots (R232, R234). -/
  edits : Tab Nat := []
  shadow : Tab (Nat × Nat) := []
  restore : Tab Restore := []
  assoc : Tab Assoc := []
  /-- Blocks of 16 octets that the HBM holds of the deep-queue region, encrypted, by sector · 256 + block (R262, R280, R297). -/
  hbm : Tab (BitVec 128) := []
  /-- Key-cache slots that hold a key, as record and phase, most recently used first (R281). -/
  cache : List (Nat × Bool) := []
  /-- Slots of the key cache that fail parity (R417). -/
  slotBad : List (Nat × Bool) := []
  /-- CCLK cycle of the last erase of resident pairs, and those pairs (R291). -/
  erased : Nat × List (Nat × Bool) := (0, [])
  /-- CCLK cycle of the last rewrite of resident pairs, and those pairs with the keys they held (R291). -/
  rewrote : Nat × List ((Nat × Bool) × BitVec 320) := (0, [])
  /-- Requests in flight at the store engine (R281, R282). -/
  fetches : List (Nat × Bool) := []
  /-- Entries that a COMMIT wrote in a CCLK cycle, with their words before it (R234). -/
  committed : Nat × List (Nat × List Word32) := (0, [])
  /-- ARM PATH results applied in a CCLK cycle: entry, its edit generation before, and the hops and form adopted (R234). -/
  adopted : Nat × List (Nat × Nat × List Nat) := (0, [])
  /-- Ports of the canvas that pushed, and that popped, in a CCLK cycle (R249). -/
  pushes : Grants := {}
  pops : Grants := {}
  /-- Channels that return to a port when the frame that they send ends (R241). -/
  returning : List (Nat × Nat) := []
  /-- Instant at which SQUELCH of a port was cleared, until its UP (R350). -/
  linkWait : Tab (Option Nat) := []
  /-- Pair flags written in a CCLK cycle: the cycle, and for each pair its flags at the start and the actions, in their order
  (R214). -/
  flagOps : Nat × List FlagOps := (0, [])
  sa : Tab SaCmd := []
  pages : Tab PageJobs := []
  leaseEnd : Option Nat := none
  /-- The cipher clusters run masked (R299). -/
  masked : Bool := false
  /-- The operation that they change to, and the pipelines that have yet to reach the end of their job: channel k sending in k and
  receiving in 64 + k, page p in 128 + p (R300). -/
  maskWant : Bool := false
  maskWait : List Nat := []
  /-- Blocks masked since the mask generator was last reseeded (R299). -/
  maskBlocks : Nat := 0
  counters : Tab Counter := []
  captures : Tab Capture := []
  timers : Tab Timer := []
  bwSum : Tab Nat := []
  bwLast : Option Nat := none
  /-- The first boundary after a BW_CFG write closes no window (R380). -/
  bwFresh : Bool := true
  root : Root := {}
  loader : Loader := {}
  sessions : List Session := []
  /-- The second, plus 1, in which AUTHFAIL, MGREPLAY and NOTLOST last rose (class MGMT of R365), keyed 0 to 2. -/
  mgSec : Tab Nat := []
  /-- Notices held for the next administration session (R366). -/
  ring : List Notice := []
  /-- Start of the current gathering interval: FAULT records queued since then merge (R366, R409). -/
  gather : Nat := 0
  /-- AOCLK cycle, plus 1, and code of the cause that FT_LAST names (R409). -/
  lastCause : Nat × Nat := (0, 0)
  /-- Hardware updates of register fields in the present AOCLK cycle, newest first (R6, R423). -/
  hw : List HwUpdate := []
  /-- CCLK cycle of the last counter events, and those events (R374). -/
  evNow : Nat × List CountEvent := (0, [])
  mgtOut : List MgmtOut := []
  /-- Requests that the management engine holds, in order of arrival (R362). -/
  engine : List MgmtJob := []
  ethOut : List EthOut := []
  /-- Uplink count of the shim, keyed 4·channel + class (R235). -/
  shimSeq : Tab Nat := []
  /-- Round-robin position per port and priority (R447), keyed 8·port + priority. -/
  rr : Tab Nat := []
  /-- Port down since, and up since (R240, R241), keyed by port. -/
  downSince : Tab (Option Nat) := []
  upSince : Tab (Option Nat) := []
  /-- Port that went down last (R365). -/
  lastDown : Nat := 0
  /-- CCLK cycle of the last deadline misses, and how many of it are in the log (R61). -/
  missAt : Nat × Nat := (0, 0)
  /-- End of a pause, keyed 8·port + priority (R243). -/
  paused : Tab Nat := []
  /-- PFC frames sent (R244), newest first. -/
  pfcOut : List PfcOut := []
  pfcOff : Bool := false
  /-- Instant of the last pause sent (R244). -/
  pfcAt : Nat := 0
  /-- Held upper words of 64-bit reads, by principal (R424): lower-word address and upper value. -/
  hold64 : Tab (Nat × Word32) := []
  /-- A synchronising reset is pending for this instant (R20). -/
  syncAt : Option Nat := none
  /-- Draws made from the free values of `Config` (the model's own field, log entry 5). -/
  draws : Nat := 0
  /-- Levels of the output pins: low (R367, R368). -/
  faultLow : Bool := false
  alarmLow : Bool := false
  /-- An erase-class alarm has occurred since reset (R322). -/
  alarmed : Bool := false
  /-- RESET_N is held low (R381). -/
  inReset : Bool := false
deriving DecidableEq, Repr

/-- The machine: the device, and the queue of commands that wait, first in, first out. -/
structure State where
  dev : Dev
  pending : List Instr
deriving DecidableEq, Repr

/-- The registers whose value after reset is not their map's fixed reset word: RT_STATUS loads LC, OWNKEY and SVNCTR from the OTP
store (R308, R425); its word in the map, 1, is that of the store of log entry 3. -/
def resetRegs (o : Otp) : Tab Word32 :=
  (if o.serial = 0 then [] else
    [(0x8, o.serial.setWidth 32), (0xC, (o.serial >>> 32).setWidth 32)].filter (fun e => e.2 ≠ 0)) ++
  (let w : Nat := o.lc + (if o.vkhO = 0 ∧ !o.ownBroken then 0 else 4) + o.svn * 256
   if w = 1 then [] else [(0x3300000, BitVec.ofNat 32 w)])

/-- The device after a module reset with the OTP store `o` (R24, R381, R425). -/
def Dev.reset (o : Otp) : Dev := { regs := resetRegs o, root := { otp := o } }

/-- The machine right after reset: only PD_AON is on (R24) and no command waits. -/
def State.reset : State := { dev := Dev.reset {}, pending := [] }

end Sys2Proof.Machine
end

