-- ==== Sys2Proof/Machine/RegMap.lean ====
section
/-! DEFINITION. The register map (R419, R425): the address of every register, the place of every field, and for each block
the rows (offset, count, stride, reset word and the masks of the access codes of R5) read from the tables of its chapter. -/

namespace Sys2Proof.Machine

/-- A field of a register: address, lowest bit, width. -/
structure Field where
  addr : Nat
  lo : Nat
  width : Nat
deriving DecidableEq, Repr

/-- A register of a block: name, offset, number of instances and their stride, reset word, and the masks of the fields
with access codes RW, WO, W1C, W1S and RC (R5). -/
structure RegRow where
  name : String
  off : Nat
  count : Nat
  stride : Nat
  reset : Nat
  rw : Nat
  wo : Nat
  w1c : Nat
  w1s : Nat
  rc : Nat
deriving DecidableEq, Repr

/-- Base of the global block (R419). -/
def blkGl : Nat := 0x0
/-- Base of the power governor (R419). -/
def blkGv : Nat := 0x10000
/-- Base of mains time (R419). -/
def blkMt : Nat := 0x20000
/-- Base of the canvas (R419). -/
def blkCv : Nat := 0x1800000
/-- Base of the cipher (R419). -/
def blkCi : Nat := 0x2000000
/-- Base of the counters (R419). -/
def blkCt : Nat := 0x3000000
/-- Base of the Ethernet block (R419). -/
def blkEth : Nat := 0x3100000
/-- Base of the HBM controller (R419). -/
def blkHb : Nat := 0x3200000
/-- Base of the Chiale root (R419). -/
def blkRt : Nat := 0x3300000
/-- Base of the image loader (R419). -/
def blkLd : Nat := 0x3400000
/-- Base of channel k (R419). -/
def chBase (k : Nat) : Nat := 0x100000 + 0x10000 * k
/-- Register set of sequencer q, in the block of its home channel (R195, R419). -/
def sqBase (q : Nat) : Nat := 0x100000 + 0x10000 * (q / 2) + 0x680 + 0x80 * (q % 2)
/-- Command registers of a source: page 0 to 15, or 16 for administration (R285, R307). -/
def saBase (i : Nat) : Nat := if i = 16 then 0x2000000 else 0x2100000 + 0x10000 * i
/-- Base of hedged page p (R307). -/
def pgBase (p : Nat) : Nat := 0x2100000 + 0x10000 * p
/-- Register set of port p (R419). -/
def ethBase (p : Nat) : Nat := 0x3100000 + 0x100 * p
/-- Word of step i of sequencer q; `h` is 1 for bits [63:32] (R196). -/
def seqWord (q i h : Nat) : Nat := 0x800000 + 0x10000 * q + 8 * i + 4 * h
/-- Word w of node entry i (R224). -/
def nodeWord (i w : Nat) : Nat := 0x1000000 + 64 * i + 4 * w

/-- LIF_CFG (R40). -/
def A.LIF_CFG (k : Nat) : Nat := (chBase k) + 0x0
def F.LIF_CFG_BUNDLE (k : Nat) : Field := ⟨(A.LIF_CFG k), 0, 2⟩
def F.LIF_CFG_TXCAP (k : Nat) : Field := ⟨(A.LIF_CFG k), 4, 6⟩
def F.LIF_CFG_GAIN_IDLE (k : Nat) : Field := ⟨(A.LIF_CFG k), 16, 6⟩
/-- LIF_CLIP (R40). -/
def A.LIF_CLIP (k : Nat) : Nat := (chBase k) + 0x4
def F.LIF_CLIP_CLIP_LEVEL (k : Nat) : Field := ⟨(A.LIF_CLIP k), 0, 14⟩
/-- LIF_STATUS (R40). -/
def A.LIF_STATUS (k : Nat) : Nat := (chBase k) + 0x8
def F.LIF_STATUS_CLIP (k : Nat) : Field := ⟨(A.LIF_STATUS k), 0, 1⟩
def F.LIF_STATUS_DRVOC (k : Nat) : Field := ⟨(A.LIF_STATUS k), 1, 1⟩
def F.LIF_STATUS_DRVLOCK (k : Nat) : Field := ⟨(A.LIF_STATUS k), 2, 1⟩
def F.LIF_STATUS_GAINREJ (k : Nat) : Field := ⟨(A.LIF_STATUS k), 3, 1⟩
def F.LIF_STATUS_CFGREJ (k : Nat) : Field := ⟨(A.LIF_STATUS k), 4, 1⟩
def F.LIF_STATUS_TRCONF (k : Nat) : Field := ⟨(A.LIF_STATUS k), 5, 1⟩
def F.LIF_STATUS_CAPPED (k : Nat) : Field := ⟨(A.LIF_STATUS k), 6, 1⟩
/-- LIF_CLIPCNT (R40). -/
def A.LIF_CLIPCNT (k : Nat) : Nat := (chBase k) + 0xc
def F.LIF_CLIPCNT_CLIPCNT (k : Nat) : Field := ⟨(A.LIF_CLIPCNT k), 0, 16⟩
/-- MSNS_CFG (R46). -/
def A.MSNS_CFG (n : Nat) : Nat := blkMt + 0x100 + 4 * n
def F.MSNS_CFG_EN (n : Nat) : Field := ⟨(A.MSNS_CFG n), 0, 1⟩
def F.MSNS_CFG_EDGE (n : Nat) : Field := ⟨(A.MSNS_CFG n), 1, 2⟩
def F.MSNS_CFG_HYST (n : Nat) : Field := ⟨(A.MSNS_CFG n), 3, 4⟩
def F.MSNS_CFG_BLANK (n : Nat) : Field := ⟨(A.MSNS_CFG n), 8, 8⟩
/-- MT_CFG (R62). -/
def A.MT_CFG : Nat := blkMt + 0x0
def F.MT_CFG_EN : Field := ⟨A.MT_CFG, 0, 1⟩
def F.MT_CFG_REFSEL : Field := ⟨A.MT_CFG, 1, 2⟩
def F.MT_CFG_ALT_EN : Field := ⟨A.MT_CFG, 3, 1⟩
def F.MT_CFG_ALTSEL : Field := ⟨A.MT_CFG, 4, 2⟩
def F.MT_CFG_REF_EDGE : Field := ⟨A.MT_CFG, 6, 1⟩
def F.MT_CFG_TC : Field := ⟨A.MT_CFG, 8, 3⟩
def F.MT_CFG_LOCK_N : Field := ⟨A.MT_CFG, 12, 4⟩
/-- MT_HOLD (R62). -/
def A.MT_HOLD : Nat := blkMt + 0x4
def F.MT_HOLD_JUMP_TH : Field := ⟨A.MT_HOLD, 0, 8⟩
def F.MT_HOLD_HOLD_MISS : Field := ⟨A.MT_HOLD, 8, 4⟩
def F.MT_HOLD_HOLD_MAX : Field := ⟨A.MT_HOLD, 16, 16⟩
/-- MT_OFS (R62). -/
def A.MT_OFS (n : Nat) : Nat := blkMt + 0x10 + 4 * n
def F.MT_OFS_ZC_OFFSET (n : Nat) : Field := ⟨(A.MT_OFS n), 0, 20⟩
/-- MT_STATUS (R62). -/
def A.MT_STATUS : Nat := blkMt + 0x20
def F.MT_STATUS_STATE : Field := ⟨A.MT_STATUS, 0, 3⟩
def F.MT_STATUS_ACTIVE : Field := ⟨A.MT_STATUS, 4, 2⟩
def F.MT_STATUS_ALTUSED : Field := ⟨A.MT_STATUS, 6, 1⟩
def F.MT_STATUS_MAINSLOST : Field := ⟨A.MT_STATUS, 7, 1⟩
def F.MT_STATUS_OUTLIER : Field := ⟨A.MT_STATUS, 8, 1⟩
def F.MT_STATUS_REFCFG : Field := ⟨A.MT_STATUS, 9, 1⟩
def F.MT_STATUS_RANGE : Field := ⟨A.MT_STATUS, 10, 1⟩
def F.MT_STATUS_DLMISS : Field := ⟨A.MT_STATUS, 11, 1⟩
def F.MT_STATUS_CFGREJ : Field := ⟨A.MT_STATUS, 12, 1⟩
def F.MT_STATUS_ALTVALID : Field := ⟨A.MT_STATUS, 13, 1⟩
/-- MT_NOW_CYC (R63). -/
def A.MT_NOW_CYC : Nat := blkMt + 0x24
def F.MT_NOW_CYC_CYCLE : Field := ⟨A.MT_NOW_CYC, 0, 32⟩
/-- MT_NOW_GRN (R63). -/
def A.MT_NOW_GRN : Nat := blkMt + 0x28
def F.MT_NOW_GRN_GRAIN : Field := ⟨A.MT_NOW_GRN, 0, 16⟩
/-- MT_NOW_NS_LO (R63). -/
def A.MT_NOW_NS_LO : Nat := blkMt + 0x2c
def F.MT_NOW_NS_LO_NS : Field := ⟨A.MT_NOW_NS_LO, 0, 32⟩
/-- MT_NOW_NS_HI (R63). -/
def A.MT_NOW_NS_HI : Nat := blkMt + 0x30
def F.MT_NOW_NS_HI_NS : Field := ⟨A.MT_NOW_NS_HI, 0, 32⟩
/-- MT_FREQ (R63). -/
def A.MT_FREQ : Nat := blkMt + 0x34
def F.MT_FREQ_FREQ : Field := ⟨A.MT_FREQ, 0, 23⟩
/-- MT_PHERR (R63). -/
def A.MT_PHERR : Nat := blkMt + 0x38
def F.MT_PHERR_PHERR : Field := ⟨A.MT_PHERR, 0, 16⟩
def F.MT_PHERR_ALTPH : Field := ⟨A.MT_PHERR, 16, 16⟩
/-- MT_CNT (R63). -/
def A.MT_CNT : Nat := blkMt + 0x40
def F.MT_CNT_OUTLIERS : Field := ⟨A.MT_CNT, 0, 16⟩
def F.MT_CNT_LATEARR : Field := ⟨A.MT_CNT, 16, 16⟩
/-- DL_LOG_IDX (R63). -/
def A.DL_LOG_IDX : Nat := blkMt + 0x44
def F.DL_LOG_IDX_NEXT : Field := ⟨A.DL_LOG_IDX, 0, 4⟩
def F.DL_LOG_IDX_DL_TOTAL : Field := ⟨A.DL_LOG_IDX, 16, 16⟩
/-- DL_LOG_W0 (R63). -/
def A.DL_LOG_W0 (n : Nat) : Nat := blkMt + 0x200 + 16 * n
def F.DL_LOG_W0_SEQ (n : Nat) : Field := ⟨(A.DL_LOG_W0 n), 0, 7⟩
def F.DL_LOG_W0_CHAN (n : Nat) : Field := ⟨(A.DL_LOG_W0 n), 8, 6⟩
def F.DL_LOG_W0_CHVALID (n : Nat) : Field := ⟨(A.DL_LOG_W0 n), 14, 1⟩
def F.DL_LOG_W0_SUB (n : Nat) : Field := ⟨(A.DL_LOG_W0 n), 16, 4⟩
/-- DL_LOG_W1 (R63). -/
def A.DL_LOG_W1 (n : Nat) : Nat := blkMt + 0x204 + 16 * n
def F.DL_LOG_W1_STEP (n : Nat) : Field := ⟨(A.DL_LOG_W1 n), 0, 13⟩
def F.DL_LOG_W1_GRAIN (n : Nat) : Field := ⟨(A.DL_LOG_W1 n), 16, 16⟩
/-- DL_LOG_W2 (R63). -/
def A.DL_LOG_W2 (n : Nat) : Nat := blkMt + 0x208 + 16 * n
def F.DL_LOG_W2_CYCLE (n : Nat) : Field := ⟨(A.DL_LOG_W2 n), 0, 32⟩
/-- DL_LOG_W3 (R63). -/
def A.DL_LOG_W3 (n : Nat) : Nat := blkMt + 0x20c + 16 * n
def F.DL_LOG_W3_LATENESS (n : Nat) : Field := ⟨(A.DL_LOG_W3 n), 0, 32⟩
/-- SC_STATUS (R88). -/
def A.SC_STATUS (k : Nat) : Nat := (chBase k) + 0x100
def F.SC_STATUS_ACTIVE (k : Nat) : Field := ⟨(A.SC_STATUS k), 0, 1⟩
def F.SC_STATUS_FADING (k : Nat) : Field := ⟨(A.SC_STATUS k), 1, 1⟩
def F.SC_STATUS_PENDING (k : Nat) : Field := ⟨(A.SC_STATUS k), 2, 1⟩
def F.SC_STATUS_LOADED_A (k : Nat) : Field := ⟨(A.SC_STATUS k), 3, 1⟩
def F.SC_STATUS_LOADED_B (k : Nat) : Field := ⟨(A.SC_STATUS k), 4, 1⟩
def F.SC_STATUS_SETTLING (k : Nat) : Field := ⟨(A.SC_STATUS k), 5, 1⟩
def F.SC_STATUS_LASTCODE (k : Nat) : Field := ⟨(A.SC_STATUS k), 8, 3⟩
def F.SC_STATUS_PALBUSY (k : Nat) : Field := ⟨(A.SC_STATUS k), 16, 1⟩
def F.SC_STATUS_PALBAD (k : Nat) : Field := ⟨(A.SC_STATUS k), 17, 1⟩
def F.SC_STATUS_SWAPREJ (k : Nat) : Field := ⟨(A.SC_STATUS k), 18, 1⟩
def F.SC_STATUS_FIRSAT (k : Nat) : Field := ⟨(A.SC_STATUS k), 19, 1⟩
/-- SC_CTL (R88). -/
def A.SC_CTL (k : Nat) : Nat := (chBase k) + 0x104
def F.SC_CTL_COMMIT_A (k : Nat) : Field := ⟨(A.SC_CTL k), 0, 1⟩
def F.SC_CTL_COMMIT_B (k : Nat) : Field := ⟨(A.SC_CTL k), 1, 1⟩
/-- SC_CNT (R88). -/
def A.SC_CNT (k : Nat) : Nat := (chBase k) + 0x108
def F.SC_CNT_IMPCNT (k : Nat) : Field := ⟨(A.SC_CNT k), 0, 16⟩
def F.SC_CNT_LIMCNT (k : Nat) : Field := ⟨(A.SC_CNT k), 16, 16⟩
/-- SC_CNT2 (R88). -/
def A.SC_CNT2 (k : Nat) : Nat := (chBase k) + 0x10c
def F.SC_CNT2_REJCNT (k : Nat) : Field := ⟨(A.SC_CNT2 k), 0, 8⟩
def F.SC_CNT2_SATCNT (k : Nat) : Field := ⟨(A.SC_CNT2 k), 16, 16⟩
/-- SC_FADE (R88). -/
def A.SC_FADE (k : Nat) : Nat := (chBase k) + 0x110
def F.SC_FADE_FADE_POS (k : Nat) : Field := ⟨(A.SC_FADE k), 0, 13⟩
def F.SC_FADE_FADE_F (k : Nat) : Field := ⟨(A.SC_FADE k), 16, 4⟩
/-- PAL_A_W (R88). -/
def A.PAL_A_W (k n : Nat) : Nat := (chBase k) + 0x4000 + 4 * n
def F.PAL_A_W_WORD (k n : Nat) : Field := ⟨(A.PAL_A_W k n), 0, 32⟩
/-- PAL_B_W (R88). -/
def A.PAL_B_W (k n : Nat) : Nat := (chBase k) + 0x5000 + 4 * n
def F.PAL_B_W_WORD (k n : Nat) : Field := ⟨(A.PAL_B_W k n), 0, 32⟩
/-- WF_LIMIT (R108). -/
def A.WF_LIMIT (k : Nat) : Nat := (chBase k) + 0x200
def F.WF_LIMIT_MAXQ (k : Nat) : Field := ⟨(A.WF_LIMIT k), 0, 3⟩
def F.WF_LIMIT_MINK (k : Nat) : Field := ⟨(A.WF_LIMIT k), 4, 4⟩
def F.WF_LIMIT_MAXK (k : Nat) : Field := ⟨(A.WF_LIMIT k), 8, 4⟩
def F.WF_LIMIT_PMIN (k : Nat) : Field := ⟨(A.WF_LIMIT k), 12, 2⟩
def F.WF_LIMIT_MUXEN (k : Nat) : Field := ⟨(A.WF_LIMIT k), 16, 1⟩
/-- WF_STATUS (R108). -/
def A.WF_STATUS (k : Nat) : Nat := (chBase k) + 0x204
def F.WF_STATUS_WFREJ (k : Nat) : Field := ⟨(A.WF_STATUS k), 0, 1⟩
/-- WF_CNT (R108). -/
def A.WF_CNT (k : Nat) : Nat := (chBase k) + 0x208
def F.WF_CNT_WFREJCNT (k : Nat) : Field := ⟨(A.WF_CNT k), 0, 16⟩
/-- FR_CFG (R135). -/
def A.FR_CFG (k : Nat) : Nat := (chBase k) + 0x300
def F.FR_CFG_FNOM (k : Nat) : Field := ⟨(A.FR_CFG k), 0, 2⟩
def F.FR_CFG_TNOM_US (k : Nat) : Field := ⟨(A.FR_CFG k), 4, 17⟩
/-- FR_ILBASE (R135). -/
def A.FR_ILBASE (k : Nat) : Nat := (chBase k) + 0x304
def F.FR_ILBASE_ILBASE (k : Nat) : Field := ⟨(A.FR_ILBASE k), 0, 15⟩
/-- FR_ILMEM (R135). -/
def A.FR_ILMEM (k : Nat) : Nat := (chBase k) + 0x308
def F.FR_ILMEM_ILMEM (k : Nat) : Field := ⟨(A.FR_ILMEM k), 0, 10⟩
/-- FR_SYNCW (R135). -/
def A.FR_SYNCW (k : Nat) : Nat := (chBase k) + 0x30c
def F.FR_SYNCW_SYNCW (k : Nat) : Field := ⟨(A.FR_SYNCW k), 0, 32⟩
/-- FR_SYNCB (R135). -/
def A.FR_SYNCB (k : Nat) : Nat := (chBase k) + 0x310
def F.FR_SYNCB_SYNCB (k : Nat) : Field := ⟨(A.FR_SYNCB k), 0, 32⟩
/-- FR_STATUS (R135). -/
def A.FR_STATUS (k : Nat) : Nat := (chBase k) + 0x314
def F.FR_STATUS_FRREJ (k : Nat) : Field := ⟨(A.FR_STATUS k), 0, 1⟩
def F.FR_STATUS_HDRINV (k : Nat) : Field := ⟨(A.FR_STATUS k), 1, 1⟩
def F.FR_STATUS_PLCRC (k : Nat) : Field := ⟨(A.FR_STATUS k), 2, 1⟩
/-- FR_CNT (R135). -/
def A.FR_CNT (k : Nat) : Nat := (chBase k) + 0x318
def F.FR_CNT_HDRCRCCNT (k : Nat) : Field := ⟨(A.FR_CNT k), 0, 16⟩
def F.FR_CNT_HDRINVCNT (k : Nat) : Field := ⟨(A.FR_CNT k), 16, 16⟩
/-- FR_CNT2 (R135). -/
def A.FR_CNT2 (k : Nat) : Nat := (chBase k) + 0x31c
def F.FR_CNT2_PLCRCCNT (k : Nat) : Field := ⟨(A.FR_CNT2 k), 0, 16⟩
def F.FR_CNT2_FRREJCNT (k : Nat) : Field := ⟨(A.FR_CNT2 k), 16, 16⟩
/-- AQ_CFG (R163). -/
def A.AQ_CFG (k : Nat) : Nat := (chBase k) + 0x400
def F.AQ_CFG_NDET (k : Nat) : Field := ⟨(A.AQ_CFG k), 0, 3⟩
def F.AQ_CFG_SYNC_TOL (k : Nat) : Field := ⟨(A.AQ_CFG k), 4, 3⟩
def F.AQ_CFG_CAPPOL (k : Nat) : Field := ⟨(A.AQ_CFG k), 7, 1⟩
def F.AQ_CFG_CAP_DB (k : Nat) : Field := ⟨(A.AQ_CFG k), 8, 5⟩
def F.AQ_CFG_DET_TH (k : Nat) : Field := ⟨(A.AQ_CFG k), 16, 8⟩
def F.AQ_CFG_ERAS_MAX (k : Nat) : Field := ⟨(A.AQ_CFG k), 24, 8⟩
/-- AQ_CFG2 (R163). -/
def A.AQ_CFG2 (k : Nat) : Nat := (chBase k) + 0x404
def F.AQ_CFG2_SP_TAPS (k : Nat) : Field := ⟨(A.AQ_CFG2 k), 0, 8⟩
def F.AQ_CFG2_PT_AVG (k : Nat) : Field := ⟨(A.AQ_CFG2 k), 8, 2⟩
def F.AQ_CFG2_PT_JUMP (k : Nat) : Field := ⟨(A.AQ_CFG2 k), 12, 4⟩
def F.AQ_CFG2_NF_AGE (k : Nat) : Field := ⟨(A.AQ_CFG2 k), 16, 8⟩
def F.AQ_CFG2_JAM_N (k : Nat) : Field := ⟨(A.AQ_CFG2 k), 24, 4⟩
/-- AQ_CFG3 (R163). -/
def A.AQ_CFG3 (k : Nat) : Nat := (chBase k) + 0x408
def F.AQ_CFG3_ITCAP (k : Nat) : Field := ⟨(A.AQ_CFG3 k), 0, 6⟩
def F.AQ_CFG3_MS_OFFSET (k : Nat) : Field := ⟨(A.AQ_CFG3 k), 8, 3⟩
def F.AQ_CFG3_ADV_HEAD (k : Nat) : Field := ⟨(A.AQ_CFG3 k), 12, 4⟩
def F.AQ_CFG3_CLIP_STEP (k : Nat) : Field := ⟨(A.AQ_CFG3 k), 16, 4⟩
/-- AQ_STATUS (R163). -/
def A.AQ_STATUS (k : Nat) : Nat := (chBase k) + 0x40c
def F.AQ_STATUS_STATE (k : Nat) : Field := ⟨(A.AQ_STATUS k), 0, 3⟩
def F.AQ_STATUS_NFSTALE (k : Nat) : Field := ⟨(A.AQ_STATUS k), 3, 1⟩
def F.AQ_STATUS_SYNCFAIL (k : Nat) : Field := ⟨(A.AQ_STATUS k), 4, 1⟩
def F.AQ_STATUS_CAPSW (k : Nat) : Field := ⟨(A.AQ_STATUS k), 5, 1⟩
def F.AQ_STATUS_SENTSEEN (k : Nat) : Field := ⟨(A.AQ_STATUS k), 6, 1⟩
def F.AQ_STATUS_FREQLIM (k : Nat) : Field := ⟨(A.AQ_STATUS k), 7, 1⟩
def F.AQ_STATUS_TAPJUMP (k : Nat) : Field := ⟨(A.AQ_STATUS k), 8, 1⟩
def F.AQ_STATUS_DECSKIP (k : Nat) : Field := ⟨(A.AQ_STATUS k), 9, 1⟩
def F.AQ_STATUS_JAM (k : Nat) : Field := ⟨(A.AQ_STATUS k), 10, 1⟩
def F.AQ_STATUS_CUT (k : Nat) : Field := ⟨(A.AQ_STATUS k), 11, 1⟩
/-- AQ_LEVEL (R163). -/
def A.AQ_LEVEL (k : Nat) : Nat := (chBase k) + 0x410
def F.AQ_LEVEL_NF (k : Nat) : Field := ⟨(A.AQ_LEVEL k), 0, 16⟩
def F.AQ_LEVEL_SS (k : Nat) : Field := ⟨(A.AQ_LEVEL k), 16, 16⟩
/-- AQ_QUAL (R163). -/
def A.AQ_QUAL (k : Nat) : Nat := (chBase k) + 0x414
def F.AQ_QUAL_Q (k : Nat) : Field := ⟨(A.AQ_QUAL k), 0, 16⟩
def F.AQ_QUAL_QSRC (k : Nat) : Field := ⟨(A.AQ_QUAL k), 16, 1⟩
def F.AQ_QUAL_GAIN_ADV (k : Nat) : Field := ⟨(A.AQ_QUAL k), 18, 6⟩
def F.AQ_QUAL_DMARGIN (k : Nat) : Field := ⟨(A.AQ_QUAL k), 24, 8⟩
/-- AQ_FREQ (R163). -/
def A.AQ_FREQ (k : Nat) : Nat := (chBase k) + 0x418
def F.AQ_FREQ_TRIM (k : Nat) : Field := ⟨(A.AQ_FREQ k), 0, 13⟩
def F.AQ_FREQ_FOFS (k : Nat) : Field := ⟨(A.AQ_FREQ k), 16, 16⟩
/-- AQ_CNT (R163). -/
def A.AQ_CNT (k : Nat) : Nat := (chBase k) + 0x41c
def F.AQ_CNT_DETCNT (k : Nat) : Field := ⟨(A.AQ_CNT k), 0, 16⟩
def F.AQ_CNT_SYNCFAILCNT (k : Nat) : Field := ⟨(A.AQ_CNT k), 16, 16⟩
/-- AQ_CNT2 (R163). -/
def A.AQ_CNT2 (k : Nat) : Nat := (chBase k) + 0x420
def F.AQ_CNT2_SENTCNT (k : Nat) : Field := ⟨(A.AQ_CNT2 k), 0, 16⟩
def F.AQ_CNT2_CAPCNT (k : Nat) : Field := ⟨(A.AQ_CNT2 k), 16, 16⟩
/-- AQ_CNT3 (R163). -/
def A.AQ_CNT3 (k : Nat) : Nat := (chBase k) + 0x424
def F.AQ_CNT3_DECFAILCNT (k : Nat) : Field := ⟨(A.AQ_CNT3 k), 0, 16⟩
def F.AQ_CNT3_DECSKIPCNT (k : Nat) : Field := ⟨(A.AQ_CNT3 k), 16, 16⟩
/-- AQ_CNT4 (R163). -/
def A.AQ_CNT4 (k : Nat) : Nat := (chBase k) + 0x428
def F.AQ_CNT4_ERASCNT (k : Nat) : Field := ⟨(A.AQ_CNT4 k), 0, 16⟩
def F.AQ_CNT4_TAPJUMPCNT (k : Nat) : Field := ⟨(A.AQ_CNT4 k), 16, 8⟩
def F.AQ_CNT4_CUTCNT (k : Nat) : Field := ⟨(A.AQ_CNT4 k), 24, 8⟩
/-- LF_CFG (R194). -/
def A.LF_CFG (k : Nat) : Nat := (chBase k) + 0x500
def F.LF_CFG_VMAX (k : Nat) : Field := ⟨(A.LF_CFG k), 0, 2⟩
def F.LF_CFG_RETRY_MAX (k : Nat) : Field := ⟨(A.LF_CFG k), 4, 4⟩
def F.LF_CFG_RELAY_EN (k : Nat) : Field := ⟨(A.LF_CFG k), 8, 1⟩
def F.LF_CFG_JOIN_EN (k : Nat) : Field := ⟨(A.LF_CFG k), 9, 1⟩
def F.LF_CFG_BCN_EN (k : Nat) : Field := ⟨(A.LF_CFG k), 10, 1⟩
def F.LF_CFG_LF_WIN (k : Nat) : Field := ⟨(A.LF_CFG k), 16, 16⟩
/-- LF_BCN (R194). -/
def A.LF_BCN (k : Nat) : Nat := (chBase k) + 0x504
def F.LF_BCN_BCN_OFS (k : Nat) : Field := ⟨(A.LF_BCN k), 0, 16⟩
def F.LF_BCN_BCN_TOL (k : Nat) : Field := ⟨(A.LF_BCN k), 16, 8⟩
/-- LF_DISC (R194). -/
def A.LF_DISC (k : Nat) : Nat := (chBase k) + 0x508
def F.LF_DISC_DISC_K (k : Nat) : Field := ⟨(A.LF_DISC k), 0, 8⟩
def F.LF_DISC_NSLOT (k : Nat) : Field := ⟨(A.LF_DISC k), 8, 4⟩
def F.LF_DISC_BOFF_MAX (k : Nat) : Field := ⟨(A.LF_DISC k), 12, 3⟩
def F.LF_DISC_DGRN (k : Nat) : Field := ⟨(A.LF_DISC k), 16, 16⟩
/-- LF_TIME (R194). -/
def A.LF_TIME (k : Nat) : Nat := (chBase k) + 0x50c
def F.LF_TIME_GUARD (k : Nat) : Field := ⟨(A.LF_TIME k), 0, 8⟩
def F.LF_TIME_RGMIN (k : Nat) : Field := ⟨(A.LF_TIME k), 8, 12⟩
def F.LF_TIME_LOSTC (k : Nat) : Field := ⟨(A.LF_TIME k), 20, 12⟩
/-- LF_JOIN (R194). -/
def A.LF_JOIN (k : Nat) : Nat := (chBase k) + 0x510
def F.LF_JOIN_JOIN_MAX (k : Nat) : Field := ⟨(A.LF_JOIN k), 0, 8⟩
def F.LF_JOIN_JHOLD (k : Nat) : Field := ⟨(A.LF_JOIN k), 8, 8⟩
/-- LF_STATUS (R194). -/
def A.LF_STATUS (k : Nat) : Nat := (chBase k) + 0x514
def F.LF_STATUS_OSTATE (k : Nat) : Field := ⟨(A.LF_STATUS k), 0, 2⟩
def F.LF_STATUS_HOFSV (k : Nat) : Field := ⟨(A.LF_STATUS k), 2, 1⟩
def F.LF_STATUS_LOST (k : Nat) : Field := ⟨(A.LF_STATUS k), 4, 1⟩
def F.LF_STATUS_JOINDROP (k : Nat) : Field := ⟨(A.LF_STATUS k), 5, 1⟩
def F.LF_STATUS_GRANTX (k : Nat) : Field := ⟨(A.LF_STATUS k), 6, 1⟩
def F.LF_STATUS_BCNODD (k : Nat) : Field := ⟨(A.LF_STATUS k), 7, 1⟩
def F.LF_STATUS_RELAYX (k : Nat) : Field := ⟨(A.LF_STATUS k), 8, 1⟩
def F.LF_STATUS_MSGBAD (k : Nat) : Field := ⟨(A.LF_STATUS k), 9, 1⟩
/-- LF_HOFS_CYC (R194). -/
def A.LF_HOFS_CYC (k : Nat) : Nat := (chBase k) + 0x518
def F.LF_HOFS_CYC_HCYC (k : Nat) : Field := ⟨(A.LF_HOFS_CYC k), 0, 32⟩
/-- LF_HOFS_GRN (R194). -/
def A.LF_HOFS_GRN (k : Nat) : Nat := (chBase k) + 0x51c
def F.LF_HOFS_GRN_HGRN (k : Nat) : Field := ⟨(A.LF_HOFS_GRN k), 0, 16⟩
/-- LF_CNT (R194). -/
def A.LF_CNT (k : Nat) : Nat := (chBase k) + 0x520
def F.LF_CNT_NOTME (k : Nat) : Field := ⟨(A.LF_CNT k), 0, 16⟩
def F.LF_CNT_DUPDU (k : Nat) : Field := ⟨(A.LF_CNT k), 16, 16⟩
/-- LF_CNT2 (R194). -/
def A.LF_CNT2 (k : Nat) : Nat := (chBase k) + 0x524
def F.LF_CNT2_OOODU (k : Nat) : Field := ⟨(A.LF_CNT2 k), 0, 16⟩
def F.LF_CNT2_REWINDCNT (k : Nat) : Field := ⟨(A.LF_CNT2 k), 16, 16⟩
/-- LF_CNT3 (R194). -/
def A.LF_CNT3 (k : Nat) : Nat := (chBase k) + 0x528
def F.LF_CNT3_JOINDROPCNT (k : Nat) : Field := ⟨(A.LF_CNT3 k), 0, 16⟩
def F.LF_CNT3_GRANTXCNT (k : Nat) : Field := ⟨(A.LF_CNT3 k), 16, 16⟩
/-- LF_CNT4 (R194). -/
def A.LF_CNT4 (k : Nat) : Nat := (chBase k) + 0x52c
def F.LF_CNT4_RELAYCNT (k : Nat) : Field := ⟨(A.LF_CNT4 k), 0, 16⟩
def F.LF_CNT4_BCNODDCNT (k : Nat) : Field := ⟨(A.LF_CNT4 k), 16, 16⟩
/-- SQ_PAIR (R223). -/
def A.SQ_PAIR (k : Nat) : Nat := (chBase k) + 0x600
def F.SQ_PAIR_TGT (k : Nat) : Field := ⟨(A.SQ_PAIR k), 0, 6⟩
def F.SQ_PAIR_OWNER (k : Nat) : Field := ⟨(A.SQ_PAIR k), 8, 1⟩
/-- SQ_PFLAG (R223). -/
def A.SQ_PFLAG (k : Nat) : Nat := (chBase k) + 0x604
def F.SQ_PFLAG_PF (k : Nat) : Field := ⟨(A.SQ_PFLAG k), 0, 3⟩
def F.SQ_PFLAG_PFSET (k : Nat) : Field := ⟨(A.SQ_PFLAG k), 8, 3⟩
def F.SQ_PFLAG_PFCLR (k : Nat) : Field := ⟨(A.SQ_PFLAG k), 16, 3⟩
/-- SQ_CTL (R223). -/
def A.SQ_CTL (q : Nat) : Nat := (sqBase q) + 0x0
def F.SQ_CTL_START (q : Nat) : Field := ⟨(A.SQ_CTL q), 0, 1⟩
def F.SQ_CTL_STOP (q : Nat) : Field := ⟨(A.SQ_CTL q), 1, 1⟩
def F.SQ_CTL_CLEAR (q : Nat) : Field := ⟨(A.SQ_CTL q), 2, 1⟩
/-- SQ_CFG (R223). -/
def A.SQ_CFG (q : Nat) : Nat := (sqBase q) + 0x4
def F.SQ_CFG_ENTRY (q : Nat) : Field := ⟨(A.SQ_CFG q), 0, 13⟩
def F.SQ_CFG_MISSACT (q : Nat) : Field := ⟨(A.SQ_CFG q), 13, 2⟩
def F.SQ_CFG_MISSVEC (q : Nat) : Field := ⟨(A.SQ_CFG q), 16, 13⟩
def F.SQ_CFG_WDOG (q : Nat) : Field := ⟨(A.SQ_CFG q), 29, 3⟩
/-- SQ_LIVE (R223). -/
def A.SQ_LIVE (q : Nat) : Nat := (sqBase q) + 0x8
def F.SQ_LIVE_LO (q : Nat) : Field := ⟨(A.SQ_LIVE q), 0, 13⟩
def F.SQ_LIVE_HI (q : Nat) : Field := ⟨(A.SQ_LIVE q), 16, 13⟩
/-- SQ_STATUS (R223). -/
def A.SQ_STATUS (q : Nat) : Nat := (sqBase q) + 0xc
def F.SQ_STATUS_STATE (q : Nat) : Field := ⟨(A.SQ_STATUS q), 0, 3⟩
def F.SQ_STATUS_DEPTH (q : Nat) : Field := ⟨(A.SQ_STATUS q), 4, 4⟩
def F.SQ_STATUS_TBLBAD (q : Nat) : Field := ⟨(A.SQ_STATUS q), 8, 1⟩
def F.SQ_STATUS_SQBUSY (q : Nat) : Field := ⟨(A.SQ_STATUS q), 9, 1⟩
def F.SQ_STATUS_STARTREJ (q : Nat) : Field := ⟨(A.SQ_STATUS q), 10, 1⟩
def F.SQ_STATUS_DLMISS (q : Nat) : Field := ⟨(A.SQ_STATUS q), 11, 1⟩
def F.SQ_STATUS_OVERLAP (q : Nat) : Field := ⟨(A.SQ_STATUS q), 12, 1⟩
def F.SQ_STATUS_PC (q : Nat) : Field := ⟨(A.SQ_STATUS q), 16, 13⟩
/-- SQ_FAULT (R223). -/
def A.SQ_FAULT (q : Nat) : Nat := (sqBase q) + 0x10
def F.SQ_FAULT_FCODE (q : Nat) : Field := ⟨(A.SQ_FAULT q), 0, 4⟩
def F.SQ_FAULT_FSTEP (q : Nat) : Field := ⟨(A.SQ_FAULT q), 16, 13⟩
/-- SQ_STARTC (R223). -/
def A.SQ_STARTC (q : Nat) : Nat := (sqBase q) + 0x14
def F.SQ_STARTC_CYCLE (q : Nat) : Field := ⟨(A.SQ_STARTC q), 0, 32⟩
/-- SQ_CNT (R223). -/
def A.SQ_CNT (q : Nat) : Nat := (sqBase q) + 0x18
def F.SQ_CNT_MISSCNT (q : Nat) : Field := ⟨(A.SQ_CNT q), 0, 16⟩
def F.SQ_CNT_REFCNT (q : Nat) : Field := ⟨(A.SQ_CNT q), 16, 16⟩
/-- SQ_FORM (R223). -/
def A.SQ_FORM (q n : Nat) : Nat := (sqBase q) + 0x40 + 4 * n
def F.SQ_FORM_MODE (q n : Nat) : Field := ⟨(A.SQ_FORM q n), 0, 12⟩
def F.SQ_FORM_STRM (q n : Nat) : Field := ⟨(A.SQ_FORM q n), 12, 2⟩
def F.SQ_FORM_SPAN (q n : Nat) : Field := ⟨(A.SQ_FORM q n), 14, 3⟩
def F.SQ_FORM_KH (q n : Nat) : Field := ⟨(A.SQ_FORM q n), 17, 3⟩
def F.SQ_FORM_NPC (q n : Nat) : Field := ⟨(A.SQ_FORM q n), 20, 3⟩
def F.SQ_FORM_LVL (q n : Nat) : Field := ⟨(A.SQ_FORM q n), 23, 8⟩
/-- FW_CFG (R245). -/
def A.FW_CFG : Nat := blkGl + 0x4000
def F.FW_CFG_SHIM_ET : Field := ⟨A.FW_CFG, 0, 16⟩
def F.FW_CFG_MGT_ET : Field := ⟨A.FW_CFG, 16, 16⟩
/-- FW_UPL (R245). -/
def A.FW_UPL : Nat := blkGl + 0x4004
def F.FW_UPL_UPMODE : Field := ⟨A.FW_UPL, 0, 2⟩
def F.FW_UPL_REVERT : Field := ⟨A.FW_UPL, 2, 1⟩
def F.FW_UPL_FAILHOLD : Field := ⟨A.FW_UPL, 8, 8⟩
def F.FW_UPL_RESTORE : Field := ⟨A.FW_UPL, 16, 16⟩
/-- FW_UPSTAT (R245). -/
def A.FW_UPSTAT : Nat := blkGl + 0x4008
def F.FW_UPSTAT_A_UP : Field := ⟨A.FW_UPSTAT, 0, 1⟩
def F.FW_UPSTAT_B_UP : Field := ⟨A.FW_UPSTAT, 1, 1⟩
def F.FW_UPSTAT_MOVED : Field := ⟨A.FW_UPSTAT, 2, 1⟩
def F.FW_UPSTAT_BOTHDOWN : Field := ⟨A.FW_UPSTAT, 3, 1⟩
def F.FW_UPSTAT_FWREJ : Field := ⟨A.FW_UPSTAT, 4, 1⟩
def F.FW_UPSTAT_LASTDROP : Field := ⟨A.FW_UPSTAT, 8, 4⟩
/-- FW_PFC (R245). -/
def A.FW_PFC : Nat := blkGl + 0x4010
def F.FW_PFC_PRI0 : Field := ⟨A.FW_PFC, 0, 12⟩
def F.FW_PFC_PFCRX : Field := ⟨A.FW_PFC, 12, 1⟩
def F.FW_PFC_PFCTX : Field := ⟨A.FW_PFC, 13, 1⟩
def F.FW_PFC_QUANTA : Field := ⟨A.FW_PFC, 16, 16⟩
/-- FW_XOFF (R245). -/
def A.FW_XOFF : Nat := blkGl + 0x4014
def F.FW_XOFF_XOFF : Field := ⟨A.FW_XOFF, 0, 16⟩
def F.FW_XOFF_XON : Field := ⟨A.FW_XOFF, 16, 16⟩
/-- FW_CNT (R245). -/
def A.FW_CNT : Nat := blkGl + 0x4018
def F.FW_CNT_DROPCNT : Field := ⟨A.FW_CNT, 0, 16⟩
def F.FW_CNT_RELDOWN : Field := ⟨A.FW_CNT, 16, 16⟩
/-- FW_SCOPE (R245). -/
def A.FW_SCOPE (n : Nat) : Nat := blkGl + 0x4100 + 4 * n
def F.FW_SCOPE_BASE (n : Nat) : Field := ⟨(A.FW_SCOPE n), 0, 17⟩
def F.FW_SCOPE_SIZE (n : Nat) : Field := ⟨(A.FW_SCOPE n), 17, 15⟩
/-- FW_CHUP (R245). -/
def A.FW_CHUP (n : Nat) : Nat := blkGl + 0x4200 + 4 * n
def F.FW_CHUP_UQBASE (n : Nat) : Field := ⟨(A.FW_CHUP n), 0, 13⟩
def F.FW_CHUP_PRIM (n : Nat) : Field := ⟨(A.FW_CHUP n), 13, 1⟩
def F.FW_CHUP_CUR (n : Nat) : Field := ⟨(A.FW_CHUP n), 14, 1⟩
/-- FW_TDA_LO (R245). -/
def A.FW_TDA_LO (n : Nat) : Nat := blkGl + 0x4300 + 8 * n
def F.FW_TDA_LO_DA (n : Nat) : Field := ⟨(A.FW_TDA_LO n), 0, 32⟩
/-- FW_TDA_HI (R245). -/
def A.FW_TDA_HI (n : Nat) : Nat := blkGl + 0x4304 + 8 * n
def F.FW_TDA_HI_DA (n : Nat) : Field := ⟨(A.FW_TDA_HI n), 0, 16⟩
def F.FW_TDA_HI_VID (n : Nat) : Field := ⟨(A.FW_TDA_HI n), 16, 12⟩
def F.FW_TDA_HI_TAGEN (n : Nat) : Field := ⟨(A.FW_TDA_HI n), 28, 1⟩
/-- NT_SH_W (R245). -/
def A.NT_SH_W (n : Nat) : Nat := blkGl + 0x5000 + 4 * n
def F.NT_SH_W_WORD (n : Nat) : Field := ⟨(A.NT_SH_W n), 0, 32⟩
/-- NT_SH_CTL (R245). -/
def A.NT_SH_CTL (n : Nat) : Nat := blkGl + 0x5800 + 4 * n
def F.NT_SH_CTL_INDEX (n : Nat) : Field := ⟨(A.NT_SH_CTL n), 0, 17⟩
def F.NT_SH_CTL_LOAD (n : Nat) : Field := ⟨(A.NT_SH_CTL n), 17, 1⟩
def F.NT_SH_CTL_COMMIT (n : Nat) : Field := ⟨(A.NT_SH_CTL n), 18, 1⟩
def F.NT_SH_CTL_SETABS (n : Nat) : Field := ⟨(A.NT_SH_CTL n), 19, 1⟩
def F.NT_SH_CTL_CLRHOLD (n : Nat) : Field := ⟨(A.NT_SH_CTL n), 20, 1⟩
def F.NT_SH_CTL_RES (n : Nat) : Field := ⟨(A.NT_SH_CTL n), 24, 4⟩
/-- CV_CFG (R269). -/
def A.CV_CFG : Nat := blkCv + 0x0
def F.CV_CFG_HALF1 : Field := ⟨A.CV_CFG, 0, 1⟩
/-- CV_FREE (R269). -/
def A.CV_FREE : Nat := blkCv + 0x4
def F.CV_FREE_FREE : Field := ⟨A.CV_FREE, 0, 18⟩
/-- CV_UPPER (R269). -/
def A.CV_UPPER : Nat := blkCv + 0x8
def F.CV_UPPER_UPPER : Field := ⟨A.CV_UPPER, 0, 17⟩
/-- CV_STATUS (R269). -/
def A.CV_STATUS : Nat := blkCv + 0xc
def F.CV_STATUS_LINKERR : Field := ⟨A.CV_STATUS, 0, 1⟩
def F.CV_STATUS_POOLEMPTY : Field := ⟨A.CV_STATUS, 1, 1⟩
def F.CV_STATUS_DQERASE : Field := ⟨A.CV_STATUS, 2, 1⟩
def F.CV_STATUS_QREJ : Field := ⟨A.CV_STATUS, 3, 1⟩
/-- CV_CMD (R269). -/
def A.CV_CMD : Nat := blkCv + 0x10
def F.CV_CMD_QUEUE : Field := ⟨A.CV_CMD, 0, 13⟩
def F.CV_CMD_DEEP : Field := ⟨A.CV_CMD, 13, 1⟩
def F.CV_CMD_OP : Field := ⟨A.CV_CMD, 16, 2⟩
def F.CV_CMD_RES : Field := ⟨A.CV_CMD, 20, 2⟩
/-- CV_CNT (R269). -/
def A.CV_CNT : Nat := blkCv + 0x14
def F.CV_CNT_OVERCNT : Field := ⟨A.CV_CNT, 0, 16⟩
def F.CV_CNT_POISCNT : Field := ⟨A.CV_CNT, 16, 16⟩
/-- CV_CNT2 (R269). -/
def A.CV_CNT2 : Nat := blkCv + 0x18
def F.CV_CNT2_FLPCNT : Field := ⟨A.CV_CNT2, 0, 16⟩
def F.CV_CNT2_PRUNECNT : Field := ⟨A.CV_CNT2, 16, 16⟩
/-- QS_CFG (R269). -/
def A.QS_CFG (n : Nat) : Nat := blkCv + 0x10000 + 16 * n
def F.QS_CFG_QMAX (n : Nat) : Field := ⟨(A.QS_CFG n), 0, 16⟩
def F.QS_CFG_CT (n : Nat) : Field := ⟨(A.QS_CFG n), 16, 12⟩
def F.QS_CFG_EN (n : Nat) : Field := ⟨(A.QS_CFG n), 28, 1⟩
def F.QS_CFG_RETAIN (n : Nat) : Field := ⟨(A.QS_CFG n), 29, 1⟩
/-- QS_OWN (R269). -/
def A.QS_OWN (n : Nat) : Nat := blkCv + 0x10004 + 16 * n
def F.QS_OWN_CHAN (n : Nat) : Field := ⟨(A.QS_OWN n), 0, 6⟩
def F.QS_OWN_TENANT (n : Nat) : Field := ⟨(A.QS_OWN n), 8, 4⟩
def F.QS_OWN_CELLS (n : Nat) : Field := ⟨(A.QS_OWN n), 16, 16⟩
/-- QS_DEPTH (R269). -/
def A.QS_DEPTH (n : Nat) : Nat := blkCv + 0x10008 + 16 * n
def F.QS_DEPTH_DEPTH (n : Nat) : Field := ⟨(A.QS_DEPTH n), 0, 21⟩
/-- QS_STAT (R269). -/
def A.QS_STAT (n : Nat) : Nat := blkCv + 0x1000c + 16 * n
def F.QS_STAT_ITEMS (n : Nat) : Field := ⟨(A.QS_STAT n), 0, 18⟩
def F.QS_STAT_OVERRUN (n : Nat) : Field := ⟨(A.QS_STAT n), 20, 1⟩
def F.QS_STAT_FLUSHPART (n : Nat) : Field := ⟨(A.QS_STAT n), 21, 1⟩
def F.QS_STAT_POISON (n : Nat) : Field := ⟨(A.QS_STAT n), 22, 1⟩
def F.QS_STAT_UNDERRUN (n : Nat) : Field := ⟨(A.QS_STAT n), 23, 1⟩
def F.QS_STAT_PRODOPEN (n : Nat) : Field := ⟨(A.QS_STAT n), 24, 1⟩
def F.QS_STAT_CONSOPEN (n : Nat) : Field := ⟨(A.QS_STAT n), 25, 1⟩
/-- QD_BASE (R269). -/
def A.QD_BASE (n : Nat) : Nat := blkCv + 0x40000 + 32 * n
def F.QD_BASE_DBASE (n : Nat) : Field := ⟨(A.QD_BASE n), 0, 22⟩
def F.QD_BASE_CHAN (n : Nat) : Field := ⟨(A.QD_BASE n), 22, 6⟩
def F.QD_BASE_TENANT (n : Nat) : Field := ⟨(A.QD_BASE n), 28, 4⟩
/-- QD_CFG (R269). -/
def A.QD_CFG (n : Nat) : Nat := blkCv + 0x40004 + 32 * n
def F.QD_CFG_DLOG (n : Nat) : Field := ⟨(A.QD_CFG n), 0, 5⟩
def F.QD_CFG_EN (n : Nat) : Field := ⟨(A.QD_CFG n), 8, 1⟩
def F.QD_CFG_RETAIN (n : Nat) : Field := ⟨(A.QD_CFG n), 9, 1⟩
/-- QD_HEAD (R269). -/
def A.QD_HEAD (n : Nat) : Nat := blkCv + 0x40008 + 32 * n
def F.QD_HEAD_POS (n : Nat) : Field := ⟨(A.QD_HEAD n), 0, 32⟩
/-- QD_MARK (R269). -/
def A.QD_MARK (n : Nat) : Nat := blkCv + 0x4000c + 32 * n
def F.QD_MARK_POS (n : Nat) : Field := ⟨(A.QD_MARK n), 0, 32⟩
/-- QD_RD (R269). -/
def A.QD_RD (n : Nat) : Nat := blkCv + 0x40010 + 32 * n
def F.QD_RD_POS (n : Nat) : Field := ⟨(A.QD_RD n), 0, 32⟩
/-- QD_TAIL (R269). -/
def A.QD_TAIL (n : Nat) : Nat := blkCv + 0x40014 + 32 * n
def F.QD_TAIL_POS (n : Nat) : Field := ⟨(A.QD_TAIL n), 0, 32⟩
/-- QD_HWM (R269). -/
def A.QD_HWM (n : Nat) : Nat := blkCv + 0x40018 + 32 * n
def F.QD_HWM_POS (n : Nat) : Field := ⟨(A.QD_HWM n), 0, 32⟩
/-- QD_STAT (R269). -/
def A.QD_STAT (n : Nat) : Nat := blkCv + 0x4001c + 32 * n
def F.QD_STAT_OVERRUN (n : Nat) : Field := ⟨(A.QD_STAT n), 0, 1⟩
def F.QD_STAT_FLUSHPART (n : Nat) : Field := ⟨(A.QD_STAT n), 1, 1⟩
def F.QD_STAT_POISON (n : Nat) : Field := ⟨(A.QD_STAT n), 2, 1⟩
def F.QD_STAT_RELERR (n : Nat) : Field := ⟨(A.QD_STAT n), 3, 1⟩
def F.QD_STAT_PRODOPEN (n : Nat) : Field := ⟨(A.QD_STAT n), 4, 1⟩
def F.QD_STAT_ITEMS (n : Nat) : Field := ⟨(A.QD_STAT n), 16, 16⟩
/-- CI_CFG (R307). -/
def A.CI_CFG : Nat := blkCi + 0x0
def F.CI_CFG_FAIL_TH : Field := ⟨A.CI_CFG, 0, 16⟩
def F.CI_CFG_KEYWAIT : Field := ⟨A.CI_CFG, 16, 8⟩
/-- CI_STATUS (R307). -/
def A.CI_STATUS : Nat := blkCi + 0x4
def F.CI_STATUS_MASKED_G : Field := ⟨A.CI_STATUS, 0, 1⟩
def F.CI_STATUS_MASKED_X : Field := ⟨A.CI_STATUS, 1, 1⟩
def F.CI_STATUS_MASKLOST : Field := ⟨A.CI_STATUS, 2, 1⟩
def F.CI_STATUS_ASSOCALM : Field := ⟨A.CI_STATUS, 3, 1⟩
def F.CI_STATUS_KEYERR : Field := ⟨A.CI_STATUS, 4, 1⟩
def F.CI_STATUS_ALMERASE : Field := ⟨A.CI_STATUS, 5, 1⟩
def F.CI_STATUS_HEDGEV : Field := ⟨A.CI_STATUS, 6, 1⟩
/-- CI_CNT (R307). -/
def A.CI_CNT : Nat := blkCi + 0x8
def F.CI_CNT_TAGCNT : Field := ⟨A.CI_CNT, 0, 16⟩
def F.CI_CNT_REPLAYCNT : Field := ⟨A.CI_CNT, 16, 16⟩
/-- CI_CNT2 (R307). -/
def A.CI_CNT2 : Nat := blkCi + 0xc
def F.CI_CNT2_KEYMISS : Field := ⟨A.CI_CNT2, 0, 16⟩
def F.CI_CNT2_TAGCUT : Field := ⟨A.CI_CNT2, 16, 16⟩
/-- CI_CNT3 (R307). -/
def A.CI_CNT3 : Nat := blkCi + 0x10
def F.CI_CNT3_KEYABORT : Field := ⟨A.CI_CNT3, 0, 16⟩
def F.CI_CNT3_HEDGECNT : Field := ⟨A.CI_CNT3, 16, 16⟩
/-- KC_STAT (R307). -/
def A.KC_STAT : Nat := blkCi + 0x14
def F.KC_STAT_RESIDENT : Field := ⟨A.KC_STAT, 0, 14⟩
def F.KC_STAT_PINNED : Field := ⟨A.KC_STAT, 16, 14⟩
def F.KC_STAT_KCFULL : Field := ⟨A.KC_STAT, 30, 1⟩
/-- KC_CNT (R307). -/
def A.KC_CNT : Nat := blkCi + 0x18
def F.KC_CNT_KCFULLCNT : Field := ⟨A.KC_CNT, 0, 16⟩
/-- ADMIN_LOCK (R307). -/
def A.ADMIN_LOCK : Nat := blkCi + 0x20
def F.ADMIN_LOCK_HOLDER : Field := ⟨A.ADMIN_LOCK, 0, 8⟩
def F.ADMIN_LOCK_ACQ : Field := ⟨A.ADMIN_LOCK, 8, 1⟩
def F.ADMIN_LOCK_REL : Field := ⟨A.ADMIN_LOCK, 9, 1⟩
def F.ADMIN_LOCK_LEFT : Field := ⟨A.ADMIN_LOCK, 16, 16⟩
/-- ADMIN_LEASE (R307). -/
def A.ADMIN_LEASE : Nat := blkCi + 0x24
def F.ADMIN_LEASE_LEASE : Field := ⟨A.ADMIN_LEASE, 0, 16⟩
/-- SA_CMD (R307). -/
def A.SA_CMD (i : Nat) : Nat := (saBase i) + 0x100
def F.SA_CMD_OP (i : Nat) : Field := ⟨(A.SA_CMD i), 0, 4⟩
def F.SA_CMD_PH (i : Nat) : Field := ⟨(A.SA_CMD i), 4, 1⟩
def F.SA_CMD_SAIDX (i : Nat) : Field := ⟨(A.SA_CMD i), 8, 17⟩
def F.SA_CMD_KIND (i : Nat) : Field := ⟨(A.SA_CMD i), 25, 2⟩
def F.SA_CMD_BUSYST (i : Nat) : Field := ⟨(A.SA_CMD i), 27, 1⟩
def F.SA_CMD_RES (i : Nat) : Field := ⟨(A.SA_CMD i), 28, 4⟩
/-- SA_ARG (R307). -/
def A.SA_ARG (i : Nat) : Nat := (saBase i) + 0x104
def F.SA_ARG_TENANT (i : Nat) : Field := ⟨(A.SA_ARG i), 0, 4⟩
/-- SA_SALT (R307). -/
def A.SA_SALT (i : Nat) : Nat := (saBase i) + 0x108
def F.SA_SALT_SALT (i : Nat) : Field := ⟨(A.SA_SALT i), 0, 31⟩
/-- SA_INFO (R307). -/
def A.SA_INFO (i : Nat) : Nat := (saBase i) + 0x10c
def F.SA_INFO_VALID0 (i : Nat) : Field := ⟨(A.SA_INFO i), 0, 1⟩
def F.SA_INFO_VALID1 (i : Nat) : Field := ⟨(A.SA_INFO i), 1, 1⟩
def F.SA_INFO_CPH (i : Nat) : Field := ⟨(A.SA_INFO i), 2, 1⟩
def F.SA_INFO_TXPH (i : Nat) : Field := ⟨(A.SA_INFO i), 3, 1⟩
def F.SA_INFO_KIND (i : Nat) : Field := ⟨(A.SA_INFO i), 4, 2⟩
def F.SA_INFO_TENANT (i : Nat) : Field := ⟨(A.SA_INFO i), 6, 4⟩
def F.SA_INFO_SESS (i : Nat) : Field := ⟨(A.SA_INFO i), 10, 1⟩
def F.SA_INFO_FAILCNT (i : Nat) : Field := ⟨(A.SA_INFO i), 16, 16⟩
/-- SA_KEY (R307). -/
def A.SA_KEY (i n : Nat) : Nat := (saBase i) + 0x120 + 4 * n
def F.SA_KEY_KEY (i n : Nat) : Field := ⟨(A.SA_KEY i n), 0, 32⟩
/-- PG_JCFG (R307). -/
def A.PG_JCFG (p : Nat) : Nat := (pgBase p) + 0x200
def F.PG_JCFG_JINQ (p : Nat) : Field := ⟨(A.PG_JCFG p), 0, 13⟩
def F.PG_JCFG_JEN (p : Nat) : Field := ⟨(A.PG_JCFG p), 13, 1⟩
def F.PG_JCFG_JOUTQ (p : Nat) : Field := ⟨(A.PG_JCFG p), 16, 13⟩
/-- PG_JD0 (R307). -/
def A.PG_JD0 (p : Nat) : Nat := (pgBase p) + 0x204
def F.PG_JD0_JOBID (p : Nat) : Field := ⟨(A.PG_JD0 p), 0, 16⟩
def F.PG_JD0_JOP (p : Nat) : Field := ⟨(A.PG_JD0 p), 16, 4⟩
def F.PG_JD0_MASKREQ (p : Nat) : Field := ⟨(A.PG_JD0 p), 20, 1⟩
def F.PG_JD0_JPH (p : Nat) : Field := ⟨(A.PG_JD0 p), 21, 1⟩
/-- PG_JD1 (R307). -/
def A.PG_JD1 (p : Nat) : Nat := (pgBase p) + 0x208
def F.PG_JD1_SAIDX (p : Nat) : Field := ⟨(A.PG_JD1 p), 0, 17⟩
/-- PG_JD2 (R307). -/
def A.PG_JD2 (p : Nat) : Nat := (pgBase p) + 0x20c
def F.PG_JD2_AADLEN (p : Nat) : Field := ⟨(A.PG_JD2 p), 0, 14⟩
def F.PG_JD2_DLEN (p : Nat) : Field := ⟨(A.PG_JD2 p), 16, 14⟩
/-- PG_JD3 (R307). -/
def A.PG_JD3 (p : Nat) : Nat := (pgBase p) + 0x210
def F.PG_JD3_JCOUNT (p : Nat) : Field := ⟨(A.PG_JD3 p), 0, 32⟩
/-- PG_JD4 (R307). -/
def A.PG_JD4 (p : Nat) : Nat := (pgBase p) + 0x214
def F.PG_JD4_JCOUNT (p : Nat) : Field := ⟨(A.PG_JD4 p), 0, 32⟩
/-- PG_JGO (R307). -/
def A.PG_JGO (p : Nat) : Nat := (pgBase p) + 0x218
def F.PG_JGO_GO (p : Nat) : Field := ⟨(A.PG_JGO p), 0, 1⟩
/-- PG_JSTAT (R307). -/
def A.PG_JSTAT (p : Nat) : Nat := (pgBase p) + 0x21c
def F.PG_JSTAT_OUTST (p : Nat) : Field := ⟨(A.PG_JSTAT p), 0, 3⟩
def F.PG_JSTAT_JREJ (p : Nat) : Field := ⟨(A.PG_JSTAT p), 3, 1⟩
def F.PG_JSTAT_JLOST (p : Nat) : Field := ⟨(A.PG_JSTAT p), 4, 1⟩
def F.PG_JSTAT_JRING (p : Nat) : Field := ⟨(A.PG_JSTAT p), 5, 5⟩
/-- PG_JDONE0 (R307). -/
def A.PG_JDONE0 (p : Nat) : Nat := (pgBase p) + 0x220
def F.PG_JDONE0_JOBID (p : Nat) : Field := ⟨(A.PG_JDONE0 p), 0, 16⟩
def F.PG_JDONE0_STATUS (p : Nat) : Field := ⟨(A.PG_JDONE0 p), 16, 4⟩
/-- PG_JDONE1 (R307). -/
def A.PG_JDONE1 (p : Nat) : Nat := (pgBase p) + 0x224
def F.PG_JDONE1_OUTLEN (p : Nat) : Field := ⟨(A.PG_JDONE1 p), 0, 14⟩
/-- PG_JDONE2 (R307). -/
def A.PG_JDONE2 (p : Nat) : Nat := (pgBase p) + 0x228
def F.PG_JDONE2_CTR (p : Nat) : Field := ⟨(A.PG_JDONE2 p), 0, 32⟩
/-- PG_JDONE3 (R307). -/
def A.PG_JDONE3 (p : Nat) : Nat := (pgBase p) + 0x22c
def F.PG_JDONE3_CTR (p : Nat) : Field := ⟨(A.PG_JDONE3 p), 0, 32⟩
/-- RT_STATUS (R326). -/
def A.RT_STATUS : Nat := blkRt + 0x0
def F.RT_STATUS_LC : Field := ⟨A.RT_STATUS, 0, 2⟩
def F.RT_STATUS_OWNKEY : Field := ⟨A.RT_STATUS, 2, 1⟩
def F.RT_STATUS_OWNIMG : Field := ⟨A.RT_STATUS, 3, 1⟩
def F.RT_STATUS_RSTATE : Field := ⟨A.RT_STATUS, 4, 2⟩
def F.RT_STATUS_ESTATE : Field := ⟨A.RT_STATUS, 6, 2⟩
def F.RT_STATUS_SVNCTR : Field := ⟨A.RT_STATUS, 8, 8⟩
def F.RT_STATUS_IMGSVN : Field := ⟨A.RT_STATUS, 16, 8⟩
def F.RT_STATUS_LCPEND : Field := ⟨A.RT_STATUS, 24, 1⟩
/-- RT_DEVID (R326). -/
def A.RT_DEVID (n : Nat) : Nat := blkRt + 0x10 + 4 * n
def F.RT_DEVID_DEVID (n : Nat) : Field := ⟨(A.RT_DEVID n), 0, 32⟩
/-- RT_CMD (R326). -/
def A.RT_CMD : Nat := blkRt + 0x20
def F.RT_CMD_OP : Field := ⟨A.RT_CMD, 0, 4⟩
def F.RT_CMD_RES : Field := ⟨A.RT_CMD, 8, 4⟩
def F.RT_CMD_BUSY : Field := ⟨A.RT_CMD, 12, 1⟩
/-- RT_CONFIRM (R326). -/
def A.RT_CONFIRM : Nat := blkRt + 0x24
def F.RT_CONFIRM_CONFIRM : Field := ⟨A.RT_CONFIRM, 0, 32⟩
/-- RT_HASH (R326). -/
def A.RT_HASH (n : Nat) : Nat := blkRt + 0x40 + 4 * n
def F.RT_HASH_HASH (n : Nat) : Field := ⟨(A.RT_HASH n), 0, 32⟩
/-- ALM_CFG (R326). -/
def A.ALM_CFG : Nat := blkRt + 0x100
def F.ALM_CFG_TEN : Field := ⟨A.ALM_CFG, 0, 4⟩
def F.ALM_CFG_TPOL : Field := ⟨A.ALM_CFG, 4, 4⟩
def F.ALM_CFG_LIDEN : Field := ⟨A.ALM_CFG, 8, 1⟩
def F.ALM_CFG_VMEN : Field := ⟨A.ALM_CFG, 9, 1⟩
def F.ALM_CFG_CKEN : Field := ⟨A.ALM_CFG, 10, 1⟩
def F.ALM_CFG_TMEN : Field := ⟨A.ALM_CFG, 11, 1⟩
def F.ALM_CFG_TCLS : Field := ⟨A.ALM_CFG, 12, 4⟩
def F.ALM_CFG_LIDCLS : Field := ⟨A.ALM_CFG, 20, 1⟩
def F.ALM_CFG_VMCLS : Field := ⟨A.ALM_CFG, 21, 1⟩
def F.ALM_CFG_CKCLS : Field := ⟨A.ALM_CFG, 22, 1⟩
def F.ALM_CFG_TMCLS : Field := ⟨A.ALM_CFG, 23, 1⟩
def F.ALM_CFG_ALMLOCK : Field := ⟨A.ALM_CFG, 31, 1⟩
/-- ALM_SRC (R326). -/
def A.ALM_SRC : Nat := blkRt + 0x104
def F.ALM_SRC_ERASED : Field := ⟨A.ALM_SRC, 0, 10⟩
def F.ALM_SRC_REPORTED : Field := ⟨A.ALM_SRC, 16, 8⟩
/-- ENT_STATUS (R326). -/
def A.ENT_STATUS : Nat := blkRt + 0x200
def F.ENT_STATUS_ESTATE : Field := ⟨A.ENT_STATUS, 0, 2⟩
def F.ENT_STATUS_RCTFAIL : Field := ⟨A.ENT_STATUS, 16, 8⟩
def F.ENT_STATUS_APTFAIL : Field := ⟨A.ENT_STATUS, 24, 8⟩
/-- GV_MODE (R347). -/
def A.GV_MODE : Nat := blkGv + 0x0
def F.GV_MODE_MODE : Field := ⟨A.GV_MODE, 0, 2⟩
def F.GV_MODE_WIN : Field := ⟨A.GV_MODE, 8, 8⟩
def F.GV_MODE_WARM_BAND : Field := ⟨A.GV_MODE, 16, 4⟩
def F.GV_MODE_WARM_DEG : Field := ⟨A.GV_MODE, 20, 4⟩
def F.GV_MODE_DEG_MAX : Field := ⟨A.GV_MODE, 24, 6⟩
/-- GV_CUSTOM (R347). -/
def A.GV_CUSTOM : Nat := blkGv + 0x4
def F.GV_CUSTOM_BUDGET : Field := ⟨A.GV_CUSTOM, 0, 9⟩
def F.GV_CUSTOM_CEIL : Field := ⟨A.GV_CUSTOM, 16, 7⟩
def F.GV_CUSTOM_ITMAX : Field := ⟨A.GV_CUSTOM, 24, 6⟩
/-- GV_ITER (R347). -/
def A.GV_ITER : Nat := blkGv + 0x8
def F.GV_ITER_ITER_MIN : Field := ⟨A.GV_ITER, 0, 6⟩
def F.GV_ITER_DRAIN_MAX : Field := ⟨A.GV_ITER, 16, 8⟩
def F.GV_ITER_AUTOFE : Field := ⟨A.GV_ITER, 24, 1⟩
/-- GV_STATUS (R347). -/
def A.GV_STATUS : Nat := blkGv + 0xc
def F.GV_STATUS_TSTATE : Field := ⟨A.GV_STATUS, 0, 2⟩
def F.GV_STATUS_OVERBUD : Field := ⟨A.GV_STATUS, 4, 1⟩
def F.GV_STATUS_THERMTRIP : Field := ⟨A.GV_STATUS, 5, 1⟩
def F.GV_STATUS_GVREJ : Field := ⟨A.GV_STATUS, 6, 1⟩
def F.GV_STATUS_DEFERRED : Field := ⟨A.GV_STATUS, 16, 8⟩
/-- GV_PWR (R347). -/
def A.GV_PWR : Nat := blkGv + 0x10
def F.GV_PWR_PWR : Field := ⟨A.GV_PWR, 0, 16⟩
def F.GV_PWR_TJ : Field := ⟨A.GV_PWR, 16, 8⟩
def F.GV_PWR_HOTS : Field := ⟨A.GV_PWR, 24, 5⟩
/-- GV_HEAD (R347). -/
def A.GV_HEAD : Nat := blkGv + 0x14
def F.GV_HEAD_H : Field := ⟨A.GV_HEAD, 0, 24⟩
/-- GV_CNT (R347). -/
def A.GV_CNT : Nat := blkGv + 0x18
def F.GV_CNT_GRANTS : Field := ⟨A.GV_CNT, 0, 16⟩
def F.GV_CNT_DEGRADES : Field := ⟨A.GV_CNT, 16, 16⟩
/-- GV_CNT2 (R347). -/
def A.GV_CNT2 : Nat := blkGv + 0x1c
def F.GV_CNT2_DENIES : Field := ⟨A.GV_CNT2, 0, 16⟩
def F.GV_CNT2_DEFERS : Field := ⟨A.GV_CNT2, 16, 16⟩
/-- GV_CHCMD (R347). -/
def A.GV_CHCMD : Nat := blkGv + 0x20
def F.GV_CHCMD_CHAN : Field := ⟨A.GV_CHCMD, 0, 6⟩
def F.GV_CHCMD_OP : Field := ⟨A.GV_CHCMD, 8, 2⟩
def F.GV_CHCMD_RES : Field := ⟨A.GV_CHCMD, 12, 4⟩
def F.GV_CHCMD_ROLESET : Field := ⟨A.GV_CHCMD, 16, 1⟩
def F.GV_CHCMD_ROLE : Field := ⟨A.GV_CHCMD, 17, 3⟩
/-- GV_PDCMD (R347). -/
def A.GV_PDCMD : Nat := blkGv + 0x24
def F.GV_PDCMD_DOM : Field := ⟨A.GV_PDCMD, 0, 7⟩
def F.GV_PDCMD_OP : Field := ⟨A.GV_PDCMD, 8, 2⟩
def F.GV_PDCMD_RES : Field := ⟨A.GV_PDCMD, 12, 4⟩
/-- GV_PDSTAT0 (R347). -/
def A.GV_PDSTAT0 : Nat := blkGv + 0x30
def F.GV_PDSTAT0_ON : Field := ⟨A.GV_PDSTAT0, 0, 32⟩
/-- GV_PDSTAT1 (R347). -/
def A.GV_PDSTAT1 : Nat := blkGv + 0x34
def F.GV_PDSTAT1_ON : Field := ⟨A.GV_PDSTAT1, 0, 32⟩
/-- GV_PDSTAT2 (R347). -/
def A.GV_PDSTAT2 : Nat := blkGv + 0x38
def F.GV_PDSTAT2_ON : Field := ⟨A.GV_PDSTAT2, 0, 16⟩
/-- GV_FLOOR (R347). -/
def A.GV_FLOOR (n : Nat) : Nat := blkGv + 0x100 + 4 * n
def F.GV_FLOOR_FLOOR (n : Nat) : Field := ⟨(A.GV_FLOOR n), 0, 16⟩
def F.GV_FLOOR_USED (n : Nat) : Field := ⟨(A.GV_FLOOR n), 16, 16⟩
/-- GV_CHSTAT (R347). -/
def A.GV_CHSTAT (n : Nat) : Nat := blkGv + 0x200 + 4 * n
def F.GV_CHSTAT_PHASE (n : Nat) : Field := ⟨(A.GV_CHSTAT n), 0, 4⟩
def F.GV_CHSTAT_LASTRES (n : Nat) : Field := ⟨(A.GV_CHSTAT n), 4, 4⟩
def F.GV_CHSTAT_ITER (n : Nat) : Field := ⟨(A.GV_CHSTAT n), 8, 6⟩
def F.GV_CHSTAT_ROLE (n : Nat) : Field := ⟨(A.GV_CHSTAT n), 14, 3⟩
/-- ETH_CFG (R368). -/
def A.ETH_CFG (p : Nat) : Nat := (ethBase p) + 0x0
def F.ETH_CFG_SQUELCH (p : Nat) : Field := ⟨(A.ETH_CFG p), 0, 1⟩
def F.ETH_CFG_TXPOL (p : Nat) : Field := ⟨(A.ETH_CFG p), 8, 8⟩
def F.ETH_CFG_RXPOL (p : Nat) : Field := ⟨(A.ETH_CFG p), 16, 8⟩
/-- ETH_LANE (R368). -/
def A.ETH_LANE (p : Nat) : Nat := (ethBase p) + 0x4
def F.ETH_LANE_RXMAP (p : Nat) : Field := ⟨(A.ETH_LANE p), 0, 24⟩
/-- ETH_MAXFR (R368). -/
def A.ETH_MAXFR (p : Nat) : Nat := (ethBase p) + 0x8
def F.ETH_MAXFR_MAXFR (p : Nat) : Field := ⟨(A.ETH_MAXFR p), 0, 15⟩
/-- ETH_SA_LO (R368). -/
def A.ETH_SA_LO (p : Nat) : Nat := (ethBase p) + 0xc
def F.ETH_SA_LO_SA (p : Nat) : Field := ⟨(A.ETH_SA_LO p), 0, 32⟩
/-- ETH_SA_HI (R368). -/
def A.ETH_SA_HI (p : Nat) : Nat := (ethBase p) + 0x10
def F.ETH_SA_HI_SA (p : Nat) : Field := ⟨(A.ETH_SA_HI p), 0, 16⟩
/-- ETH_STATUS (R368). -/
def A.ETH_STATUS (p : Nat) : Nat := (ethBase p) + 0x14
def F.ETH_STATUS_SIGDET (p : Nat) : Field := ⟨(A.ETH_STATUS p), 0, 8⟩
def F.ETH_STATUS_ALIGN (p : Nat) : Field := ⟨(A.ETH_STATUS p), 8, 1⟩
def F.ETH_STATUS_UP (p : Nat) : Field := ⟨(A.ETH_STATUS p), 9, 1⟩
def F.ETH_STATUS_HISER (p : Nat) : Field := ⟨(A.ETH_STATUS p), 10, 1⟩
def F.ETH_STATUS_LOS (p : Nat) : Field := ⟨(A.ETH_STATUS p), 16, 1⟩
def F.ETH_STATUS_LOA (p : Nat) : Field := ⟨(A.ETH_STATUS p), 17, 1⟩
def F.ETH_STATUS_ETHREJ (p : Nat) : Field := ⟨(A.ETH_STATUS p), 18, 1⟩
/-- ETH_FEC (R368). -/
def A.ETH_FEC (p : Nat) : Nat := (ethBase p) + 0x18
def F.ETH_FEC_CORR (p : Nat) : Field := ⟨(A.ETH_FEC p), 0, 16⟩
def F.ETH_FEC_UNCORR (p : Nat) : Field := ⟨(A.ETH_FEC p), 16, 16⟩
/-- ETH_CNT (R368). -/
def A.ETH_CNT (p : Nat) : Nat := (ethBase p) + 0x1c
def F.ETH_CNT_FCSERR (p : Nat) : Field := ⟨(A.ETH_CNT p), 0, 16⟩
def F.ETH_CNT_OVERSIZE (p : Nat) : Field := ⟨(A.ETH_CNT p), 16, 16⟩
/-- MG_CFG (R368). -/
def A.MG_CFG : Nat := blkEth + 0x1000
def F.MG_CFG_IDLE : Field := ⟨A.MG_CFG, 0, 8⟩
def F.MG_CFG_NHOLD : Field := ⟨A.MG_CFG, 8, 8⟩
def F.MG_CFG_NRATE : Field := ⟨A.MG_CFG, 16, 4⟩
def F.MG_CFG_V1EN : Field := ⟨A.MG_CFG, 20, 1⟩
/-- MG_AKEY (R368). -/
def A.MG_AKEY : Nat := blkEth + 0x1004
def F.MG_AKEY_SAIDX : Field := ⟨A.MG_AKEY, 0, 17⟩
def F.MG_AKEY_KEYV : Field := ⟨A.MG_AKEY, 17, 1⟩
/-- MG_PKEY (R368). -/
def A.MG_PKEY (n : Nat) : Nat := blkEth + 0x1040 + 4 * n
def F.MG_PKEY_SAIDX (n : Nat) : Field := ⟨(A.MG_PKEY n), 0, 17⟩
def F.MG_PKEY_KEYV (n : Nat) : Field := ⟨(A.MG_PKEY n), 17, 1⟩
/-- MG_STATUS (R368). -/
def A.MG_STATUS : Nat := blkEth + 0x1008
def F.MG_STATUS_OPEN : Field := ⟨A.MG_STATUS, 0, 6⟩
def F.MG_STATUS_LASTSESS : Field := ⟨A.MG_STATUS, 8, 8⟩
/-- MG_CNT (R368). -/
def A.MG_CNT : Nat := blkEth + 0x100c
def F.MG_CNT_AUTHFAIL : Field := ⟨A.MG_CNT, 0, 16⟩
def F.MG_CNT_MGREPLAY : Field := ⟨A.MG_CNT, 16, 16⟩
/-- MG_CNT2 (R368). -/
def A.MG_CNT2 : Nat := blkEth + 0x1010
def F.MG_CNT2_MGDROP : Field := ⟨A.MG_CNT2, 0, 16⟩
def F.MG_CNT2_NOTLOST : Field := ⟨A.MG_CNT2, 16, 16⟩
/-- FLT_LATCH (R368). -/
def A.FLT_LATCH : Nat := blkEth + 0x1020
def F.FLT_LATCH_DLMISS : Field := ⟨A.FLT_LATCH, 0, 1⟩
def F.FLT_LATCH_PARITY : Field := ⟨A.FLT_LATCH, 1, 1⟩
def F.FLT_LATCH_POISON : Field := ⟨A.FLT_LATCH, 2, 1⟩
def F.FLT_LATCH_OVERRUN : Field := ⟨A.FLT_LATCH, 3, 1⟩
def F.FLT_LATCH_BUDGETDENY : Field := ⟨A.FLT_LATCH, 4, 1⟩
def F.FLT_LATCH_MAINSLOST : Field := ⟨A.FLT_LATCH, 5, 1⟩
def F.FLT_LATCH_TAGFAIL : Field := ⟨A.FLT_LATCH, 6, 1⟩
def F.FLT_LATCH_SEQFAULT : Field := ⟨A.FLT_LATCH, 7, 1⟩
def F.FLT_LATCH_CALFAIL : Field := ⟨A.FLT_LATCH, 8, 1⟩
def F.FLT_LATCH_ENTFAIL : Field := ⟨A.FLT_LATCH, 9, 1⟩
def F.FLT_LATCH_UPFAIL : Field := ⟨A.FLT_LATCH, 10, 1⟩
def F.FLT_LATCH_THERM : Field := ⟨A.FLT_LATCH, 11, 1⟩
def F.FLT_LATCH_ALARM : Field := ⟨A.FLT_LATCH, 12, 1⟩
def F.FLT_LATCH_IMGFAIL : Field := ⟨A.FLT_LATCH, 13, 1⟩
def F.FLT_LATCH_DRVOC : Field := ⟨A.FLT_LATCH, 14, 1⟩
/-- FLT_MASK (R368). -/
def A.FLT_MASK : Nat := blkEth + 0x1024
def F.FLT_MASK_DLMISS : Field := ⟨A.FLT_MASK, 0, 1⟩
def F.FLT_MASK_PARITY : Field := ⟨A.FLT_MASK, 1, 1⟩
def F.FLT_MASK_POISON : Field := ⟨A.FLT_MASK, 2, 1⟩
def F.FLT_MASK_OVERRUN : Field := ⟨A.FLT_MASK, 3, 1⟩
def F.FLT_MASK_BUDGETDENY : Field := ⟨A.FLT_MASK, 4, 1⟩
def F.FLT_MASK_MAINSLOST : Field := ⟨A.FLT_MASK, 5, 1⟩
def F.FLT_MASK_TAGFAIL : Field := ⟨A.FLT_MASK, 6, 1⟩
def F.FLT_MASK_SEQFAULT : Field := ⟨A.FLT_MASK, 7, 1⟩
def F.FLT_MASK_CALFAIL : Field := ⟨A.FLT_MASK, 8, 1⟩
def F.FLT_MASK_ENTFAIL : Field := ⟨A.FLT_MASK, 9, 1⟩
def F.FLT_MASK_UPFAIL : Field := ⟨A.FLT_MASK, 10, 1⟩
def F.FLT_MASK_THERM : Field := ⟨A.FLT_MASK, 11, 1⟩
def F.FLT_MASK_ALARM : Field := ⟨A.FLT_MASK, 12, 1⟩
def F.FLT_MASK_IMGFAIL : Field := ⟨A.FLT_MASK, 13, 1⟩
def F.FLT_MASK_DRVOC : Field := ⟨A.FLT_MASK, 14, 1⟩
/-- MG_V1SEQ_LO (R368). -/
def A.MG_V1SEQ_LO (n : Nat) : Nat := blkEth + 0x1100 + 8 * n
def F.MG_V1SEQ_LO_V1SEQ (n : Nat) : Field := ⟨(A.MG_V1SEQ_LO n), 0, 32⟩
/-- MG_V1SEQ_HI (R368). -/
def A.MG_V1SEQ_HI (n : Nat) : Nat := blkEth + 0x1104 + 8 * n
def F.MG_V1SEQ_HI_V1SEQ (n : Nat) : Field := ⟨(A.MG_V1SEQ_HI n), 0, 32⟩
/-- CNT_SEL (R380). -/
def A.CNT_SEL (n : Nat) : Nat := blkCt + 0x0 + 16 * n
def F.CNT_SEL_INST (n : Nat) : Field := ⟨(A.CNT_SEL n), 0, 13⟩
def F.CNT_SEL_SUB (n : Nat) : Field := ⟨(A.CNT_SEL n), 16, 5⟩
def F.CNT_SEL_GRP (n : Nat) : Field := ⟨(A.CNT_SEL n), 24, 5⟩
def F.CNT_SEL_THR (n : Nat) : Field := ⟨(A.CNT_SEL n), 29, 1⟩
/-- CNT_CTL (R380). -/
def A.CNT_CTL (n : Nat) : Nat := blkCt + 0x4 + 16 * n
def F.CNT_CTL_WT (n : Nat) : Field := ⟨(A.CNT_CTL n), 0, 3⟩
def F.CNT_CTL_OWNPG (n : Nat) : Field := ⟨(A.CNT_CTL n), 4, 4⟩
def F.CNT_CTL_PGV (n : Nat) : Field := ⟨(A.CNT_CTL n), 8, 1⟩
/-- CNT_THR (R380). -/
def A.CNT_THR (n : Nat) : Nat := blkCt + 0x8 + 16 * n
def F.CNT_THR_N (n : Nat) : Field := ⟨(A.CNT_THR n), 0, 32⟩
/-- CNT_STAT (R380). -/
def A.CNT_STAT (n : Nat) : Nat := blkCt + 0xc + 16 * n
def F.CNT_STAT_PEND (n : Nat) : Field := ⟨(A.CNT_STAT n), 0, 1⟩
def F.CNT_STAT_WRAP (n : Nat) : Field := ⟨(A.CNT_STAT n), 1, 1⟩
/-- CNT_RD (R380). -/
def A.CNT_RD (n : Nat) : Nat := blkCt + 0x10000 + 4 * n
def F.CNT_RD_VALUE (n : Nat) : Field := ⟨(A.CNT_RD n), 0, 32⟩
/-- CAP_VHI (R380). -/
def A.CAP_VHI : Nat := blkCt + 0x20000
def F.CAP_VHI_VALUE : Field := ⟨A.CAP_VHI, 0, 16⟩
def F.CAP_VHI_WRAP : Field := ⟨A.CAP_VHI, 16, 1⟩
def F.CAP_VHI_PEND : Field := ⟨A.CAP_VHI, 17, 1⟩
def F.CAP_VHI_VALID : Field := ⟨A.CAP_VHI, 31, 1⟩
/-- CAP_NS_LO (R380). -/
def A.CAP_NS_LO : Nat := blkCt + 0x20004
def F.CAP_NS_LO_NSTIME : Field := ⟨A.CAP_NS_LO, 0, 32⟩
/-- CAP_NS_HI (R380). -/
def A.CAP_NS_HI : Nat := blkCt + 0x20008
def F.CAP_NS_HI_NSTIME : Field := ⟨A.CAP_NS_HI, 0, 32⟩
/-- CAP_MCYC (R380). -/
def A.CAP_MCYC : Nat := blkCt + 0x2000c
def F.CAP_MCYC_MCYC : Field := ⟨A.CAP_MCYC, 0, 32⟩
/-- CAP_MGRN (R380). -/
def A.CAP_MGRN : Nat := blkCt + 0x20010
def F.CAP_MGRN_MGRN : Field := ⟨A.CAP_MGRN, 0, 16⟩
def F.CAP_MGRN_IDX : Field := ⟨A.CAP_MGRN, 16, 11⟩
/-- CNT_CMD (R380). -/
def A.CNT_CMD : Nat := blkCt + 0x20020
def F.CNT_CMD_IDX : Field := ⟨A.CNT_CMD, 0, 11⟩
def F.CNT_CMD_WRAPCLR : Field := ⟨A.CNT_CMD, 12, 1⟩
/-- WT_CFG (R380). -/
def A.WT_CFG (n : Nat) : Nat := blkCt + 0x20100 + 4 * n
def F.WT_CFG_BASE (n : Nat) : Field := ⟨(A.WT_CFG n), 0, 1⟩
def F.WT_CFG_LEN (n : Nat) : Field := ⟨(A.WT_CFG n), 16, 16⟩
/-- BW_CFG (R380). -/
def A.BW_CFG : Nat := blkCt + 0x20200
def F.BW_CFG_BW_WT : Field := ⟨A.BW_CFG, 0, 3⟩
def F.BW_CFG_EN : Field := ⟨A.BW_CFG, 3, 1⟩
/-- BW_STAT (R380). -/
def A.BW_STAT : Nat := blkCt + 0x20204
def F.BW_STAT_SEQ : Field := ⟨A.BW_STAT, 0, 16⟩
def F.BW_STAT_VALID : Field := ⟨A.BW_STAT, 16, 1⟩
/-- BW_E_LO (R380). -/
def A.BW_E_LO : Nat := blkCt + 0x20208
def F.BW_E_LO_E : Field := ⟨A.BW_E_LO, 0, 32⟩
/-- BW_E_HI (R380). -/
def A.BW_E_HI : Nat := blkCt + 0x2020c
def F.BW_E_HI_E : Field := ⟨A.BW_E_HI, 0, 32⟩
/-- BW_NS_LO (R380). -/
def A.BW_NS_LO : Nat := blkCt + 0x20210
def F.BW_NS_LO_NS : Field := ⟨A.BW_NS_LO, 0, 32⟩
/-- BW_NS_HI (R380). -/
def A.BW_NS_HI : Nat := blkCt + 0x20214
def F.BW_NS_HI_NS : Field := ⟨A.BW_NS_HI, 0, 32⟩
/-- BW_RATE (R380). -/
def A.BW_RATE (n : Nat) : Nat := blkCt + 0x30000 + 4 * n
def F.BW_RATE_RATE (n : Nat) : Field := ⟨(A.BW_RATE n), 0, 24⟩
/-- PG_CNTEN (R380). -/
def A.PG_CNTEN (p : Nat) : Nat := (pgBase p) + 0x230
def F.PG_CNTEN_CNTEN (p : Nat) : Field := ⟨(A.PG_CNTEN p), 0, 1⟩
/-- LD_STATUS (R398). -/
def A.LD_STATUS : Nat := blkLd + 0x0
def F.LD_STATUS_LSTATE : Field := ⟨A.LD_STATUS, 0, 3⟩
def F.LD_STATUS_SLOT : Field := ⟨A.LD_STATUS, 3, 1⟩
def F.LD_STATUS_NOMAINS : Field := ⟨A.LD_STATUS, 4, 1⟩
def F.LD_STATUS_SVCFAIL : Field := ⟨A.LD_STATUS, 5, 1⟩
def F.LD_STATUS_SUB_A : Field := ⟨A.LD_STATUS, 8, 4⟩
def F.LD_STATUS_SUB_B : Field := ⟨A.LD_STATUS, 12, 4⟩
def F.LD_STATUS_SECT : Field := ⟨A.LD_STATUS, 16, 6⟩
def F.LD_STATUS_DETAIL : Field := ⟨A.LD_STATUS, 24, 8⟩
/-- LD_FLASH (R398). -/
def A.LD_FLASH : Nat := blkLd + 0x4
def F.LD_FLASH_FMODE : Field := ⟨A.LD_FLASH, 0, 2⟩
def F.LD_FLASH_DENS : Field := ⟨A.LD_FLASH, 2, 6⟩
def F.LD_FLASH_FLMHZ : Field := ⟨A.LD_FLASH, 8, 8⟩
/-- LD_IMG (R398). -/
def A.LD_IMG : Nat := blkLd + 0x8
def F.LD_IMG_ISEQ : Field := ⟨A.LD_IMG, 0, 32⟩
/-- LD_TIME (R398). -/
def A.LD_TIME : Nat := blkLd + 0xc
def F.LD_TIME_TDONE : Field := ⟨A.LD_TIME, 0, 32⟩
/-- FT_CFG (R418). -/
def A.FT_CFG : Nat := blkGl + 0x6000
def F.FT_CFG_SCRUB_MS : Field := ⟨A.FT_CFG, 0, 16⟩
def F.FT_CFG_AUTORST : Field := ⟨A.FT_CFG, 16, 1⟩
def F.FT_CFG_ARMAX : Field := ⟨A.FT_CFG, 17, 3⟩
/-- FT_STAT (R418). -/
def A.FT_STAT : Nat := blkGl + 0x6004
def F.FT_STAT_PASSES : Field := ⟨A.FT_STAT, 0, 16⟩
def F.FT_STAT_SCRUBOFF : Field := ⟨A.FT_STAT, 16, 1⟩
/-- FT_CNT (R418). -/
def A.FT_CNT : Nat := blkGl + 0x6008
def F.FT_CNT_REPAIRS : Field := ⟨A.FT_CNT, 0, 16⟩
def F.FT_CNT_ORPHANS : Field := ⟨A.FT_CNT, 16, 16⟩
/-- FT_CNT2 (R418). -/
def A.FT_CNT2 : Nat := blkGl + 0x600c
def F.FT_CNT2_HBMCE : Field := ⟨A.FT_CNT2, 0, 16⟩
def F.FT_CNT2_HBMUE : Field := ⟨A.FT_CNT2, 16, 16⟩
/-- FT_LAST (R418). -/
def A.FT_LAST : Nat := blkGl + 0x6010
def F.FT_LAST_CODE : Field := ⟨A.FT_LAST, 0, 5⟩
def F.FT_LAST_CHAN : Field := ⟨A.FT_LAST, 8, 6⟩
def F.FT_LAST_CHVALID : Field := ⟨A.FT_LAST, 14, 1⟩
/-- FT_CH0 (R418). -/
def A.FT_CH0 (n : Nat) : Nat := blkGl + 0x6100 + 16 * n
def F.FT_CH0_DLMISS (n : Nat) : Field := ⟨(A.FT_CH0 n), 0, 16⟩
def F.FT_CH0_OVERRUN (n : Nat) : Field := ⟨(A.FT_CH0 n), 16, 16⟩
/-- FT_CH1 (R418). -/
def A.FT_CH1 (n : Nat) : Nat := blkGl + 0x6104 + 16 * n
def F.FT_CH1_TAGFAIL (n : Nat) : Field := ⟨(A.FT_CH1 n), 0, 16⟩
def F.FT_CH1_POISON (n : Nat) : Field := ⟨(A.FT_CH1 n), 16, 16⟩
/-- FT_CH2 (R418). -/
def A.FT_CH2 (n : Nat) : Nat := blkGl + 0x6108 + 16 * n
def F.FT_CH2_PARITY (n : Nat) : Field := ⟨(A.FT_CH2 n), 0, 16⟩
def F.FT_CH2_BUDGETDENY (n : Nat) : Field := ⟨(A.FT_CH2 n), 16, 16⟩
/-- FT_CH3 (R418). -/
def A.FT_CH3 (n : Nat) : Nat := blkGl + 0x610c + 16 * n
def F.FT_CH3_DRVOC (n : Nat) : Field := ⟨(A.FT_CH3 n), 0, 8⟩
def F.FT_CH3_CALFAIL (n : Nat) : Field := ⟨(A.FT_CH3 n), 8, 8⟩
def F.FT_CH3_ABANDON (n : Nat) : Field := ⟨(A.FT_CH3 n), 16, 16⟩
/-- GL_ID (R425). -/
def A.GL_ID : Nat := blkGl + 0x0
def F.GL_ID_VENDOR : Field := ⟨A.GL_ID, 0, 16⟩
def F.GL_ID_PART : Field := ⟨A.GL_ID, 16, 16⟩
/-- GL_REV (R425). -/
def A.GL_REV : Nat := blkGl + 0x4
def F.GL_REV_STEP : Field := ⟨A.GL_REV, 0, 8⟩
def F.GL_REV_GRADE : Field := ⟨A.GL_REV, 8, 2⟩
def F.GL_REV_MGVER : Field := ⟨A.GL_REV, 16, 4⟩
def F.GL_REV_IMGVER : Field := ⟨A.GL_REV, 20, 4⟩
def F.GL_REV_LFVER : Field := ⟨A.GL_REV, 24, 4⟩
/-- GL_SERIAL_LO (R425). -/
def A.GL_SERIAL_LO : Nat := blkGl + 0x8
def F.GL_SERIAL_LO_SERIAL : Field := ⟨A.GL_SERIAL_LO, 0, 32⟩
/-- GL_SERIAL_HI (R425). -/
def A.GL_SERIAL_HI : Nat := blkGl + 0xc
def F.GL_SERIAL_HI_SERIAL : Field := ⟨A.GL_SERIAL_HI, 0, 32⟩
/-- GL_CTL (R425). -/
def A.GL_CTL : Nat := blkGl + 0x10
def F.GL_CTL_SYNC : Field := ⟨A.GL_CTL, 0, 1⟩
/-- GL_SYNCST (R426). -/
def A.GL_SYNCST : Nat := blkGl + 0x14
def F.GL_SYNCST_SYNCIGN : Field := ⟨A.GL_SYNCST, 0, 16⟩
def F.GL_SYNCST_SYNCSRC : Field := ⟨A.GL_SYNCST, 16, 1⟩
def F.GL_SYNCST_SYNCV : Field := ⟨A.GL_SYNCST, 17, 1⟩
/-- GL_SYNC_NS_LO (R426). -/
def A.GL_SYNC_NS_LO : Nat := blkGl + 0x18
def F.GL_SYNC_NS_LO_T : Field := ⟨A.GL_SYNC_NS_LO, 0, 32⟩
/-- GL_SYNC_NS_HI (R426). -/
def A.GL_SYNC_NS_HI : Nat := blkGl + 0x1c
def F.GL_SYNC_NS_HI_T : Field := ⟨A.GL_SYNC_NS_HI, 0, 32⟩
/-- GL_SCRATCH (R426). -/
def A.GL_SCRATCH : Nat := blkGl + 0x20
def F.GL_SCRATCH_SCRATCH : Field := ⟨A.GL_SCRATCH, 0, 32⟩
/-- HBM_STATUS (R426). -/
def A.HBM_STATUS : Nat := blkHb + 0x0
def F.HBM_STATUS_READY0 : Field := ⟨A.HBM_STATUS, 0, 1⟩
def F.HBM_STATUS_READY1 : Field := ⟨A.HBM_STATUS, 1, 1⟩
def F.HBM_STATUS_TEMP0 : Field := ⟨A.HBM_STATUS, 8, 8⟩
def F.HBM_STATUS_TEMP1 : Field := ⟨A.HBM_STATUS, 16, 8⟩
/-- HBM_ERRLOC (R426). -/
def A.HBM_ERRLOC : Nat := blkHb + 0x4
def F.HBM_ERRLOC_BLOCK : Field := ⟨A.HBM_ERRLOC, 0, 24⟩
def F.HBM_ERRLOC_ERRV : Field := ⟨A.HBM_ERRLOC, 24, 1⟩

/-- The register rows of a block, from the tables of its chapter. -/
def rowsGl : List RegRow :=
  [⟨"FW_CFG", 0x4000, 1, 4, 0x88b688b5, 0xffffffff, 0x0, 0x0, 0x0, 0x0⟩,
   ⟨"FW_UPL", 0x4004, 1, 4, 0x3e81404, 0xffffff07, 0x0, 0x0, 0x0, 0x0⟩,
   ⟨"FW_UPSTAT", 0x4008, 1, 4, 0x0, 0x0, 0x0, 0x1c, 0x0, 0x0⟩,
   ⟨"FW_PFC", 0x4010, 1, 4, 0x4000688, 0xffff3fff, 0x0, 0x0, 0x0, 0x0⟩,
   ⟨"FW_XOFF", 0x4014, 1, 4, 0x8000400, 0xffffffff, 0x0, 0x0, 0x0, 0x0⟩,
   ⟨"FW_CNT", 0x4018, 1, 4, 0x0, 0x0, 0x0, 0x0, 0x0, 0xffffffff⟩,
   ⟨"FW_SCOPE", 0x4100, 64, 4, 0x0, 0xffffffff, 0x0, 0x0, 0x0, 0x0⟩,
   ⟨"FW_CHUP", 0x4200, 64, 4, 0x0, 0x3fff, 0x0, 0x0, 0x0, 0x0⟩,
   ⟨"FW_TDA_LO", 0x4300, 16, 8, 0x0, 0xffffffff, 0x0, 0x0, 0x0, 0x0⟩,
   ⟨"FW_TDA_HI", 0x4304, 16, 8, 0x0, 0x1fffffff, 0x0, 0x0, 0x0, 0x0⟩,
   ⟨"NT_SH_W", 0x5000, 272, 4, 0x0, 0xffffffff, 0x0, 0x0, 0x0, 0x0⟩,
   ⟨"NT_SH_CTL", 0x5800, 17, 4, 0x0, 0x1ffff, 0x1e0000, 0x0, 0x0, 0x0⟩,
   ⟨"FT_CFG", 0x6000, 1, 4, 0x703e8, 0xfffff, 0x0, 0x0, 0x0, 0x0⟩,
   ⟨"FT_STAT", 0x6004, 1, 4, 0x0, 0x0, 0x0, 0x0, 0x0, 0x0⟩,
   ⟨"FT_CNT", 0x6008, 1, 4, 0x0, 0x0, 0x0, 0x0, 0x0, 0xffffffff⟩,
   ⟨"FT_CNT2", 0x600c, 1, 4, 0x0, 0x0, 0x0, 0x0, 0x0, 0xffffffff⟩,
   ⟨"FT_LAST", 0x6010, 1, 4, 0x0, 0x0, 0x0, 0x0, 0x0, 0x0⟩,
   ⟨"FT_CH0", 0x6100, 64, 16, 0x0, 0x0, 0x0, 0x0, 0x0, 0xffffffff⟩,
   ⟨"FT_CH1", 0x6104, 64, 16, 0x0, 0x0, 0x0, 0x0, 0x0, 0xffffffff⟩,
   ⟨"FT_CH2", 0x6108, 64, 16, 0x0, 0x0, 0x0, 0x0, 0x0, 0xffffffff⟩,
   ⟨"FT_CH3", 0x610c, 64, 16, 0x0, 0x0, 0x0, 0x0, 0x0, 0xffffffff⟩,
   ⟨"GL_ID", 0x0, 1, 4, 0x40640a7d, 0x0, 0x0, 0x0, 0x0, 0x0⟩,
   ⟨"GL_REV", 0x4, 1, 4, 0x33200c0, 0x0, 0x0, 0x0, 0x0, 0x0⟩,
   ⟨"GL_SERIAL_LO", 0x8, 1, 4, 0x0, 0x0, 0x0, 0x0, 0x0, 0x0⟩,
   ⟨"GL_SERIAL_HI", 0xc, 1, 4, 0x0, 0x0, 0x0, 0x0, 0x0, 0x0⟩,
   ⟨"GL_CTL", 0x10, 1, 4, 0x0, 0x0, 0x1, 0x0, 0x0, 0x0⟩,
   ⟨"GL_SYNCST", 0x14, 1, 4, 0x0, 0x0, 0x0, 0x0, 0x0, 0xffff⟩,
   ⟨"GL_SYNC_NS_LO", 0x18, 1, 4, 0x0, 0x0, 0x0, 0x0, 0x0, 0x0⟩,
   ⟨"GL_SYNC_NS_HI", 0x1c, 1, 4, 0x0, 0x0, 0x0, 0x0, 0x0, 0x0⟩,
   ⟨"GL_SCRATCH", 0x20, 1, 4, 0x0, 0xffffffff, 0x0, 0x0, 0x0, 0x0⟩]

/-- The register rows of a block, from the tables of its chapter. -/
def rowsGv : List RegRow :=
  [⟨"GV_MODE", 0x0, 1, 4, 0x18651402, 0x3fffff03, 0x0, 0x0, 0x0, 0x0⟩,
   ⟨"GV_CUSTOM", 0x4, 1, 4, 0xa55008c, 0x3f7f01ff, 0x0, 0x0, 0x0, 0x0⟩,
   ⟨"GV_ITER", 0x8, 1, 4, 0x1320004, 0x1ff003f, 0x0, 0x0, 0x0, 0x0⟩,
   ⟨"GV_STATUS", 0xc, 1, 4, 0x0, 0x0, 0x0, 0x70, 0x0, 0x0⟩,
   ⟨"GV_PWR", 0x10, 1, 4, 0x0, 0x0, 0x0, 0x0, 0x0, 0x0⟩,
   ⟨"GV_HEAD", 0x14, 1, 4, 0x0, 0x0, 0x0, 0x0, 0x0, 0x0⟩,
   ⟨"GV_CNT", 0x18, 1, 4, 0x0, 0x0, 0x0, 0x0, 0x0, 0xffffffff⟩,
   ⟨"GV_CNT2", 0x1c, 1, 4, 0x0, 0x0, 0x0, 0x0, 0x0, 0xffffffff⟩,
   ⟨"GV_CHCMD", 0x20, 1, 4, 0x0, 0xf003f, 0x300, 0x0, 0x0, 0x0⟩,
   ⟨"GV_PDCMD", 0x24, 1, 4, 0x0, 0x7f, 0x300, 0x0, 0x0, 0x0⟩,
   ⟨"GV_PDSTAT0", 0x30, 1, 4, 0x0, 0x0, 0x0, 0x0, 0x0, 0x0⟩,
   ⟨"GV_PDSTAT1", 0x34, 1, 4, 0x0, 0x0, 0x0, 0x0, 0x0, 0x0⟩,
   ⟨"GV_PDSTAT2", 0x38, 1, 4, 0x8000, 0x0, 0x0, 0x0, 0x0, 0x0⟩,
   ⟨"GV_FLOOR", 0x100, 64, 4, 0x0, 0xffff, 0x0, 0x0, 0x0, 0x0⟩,
   ⟨"GV_CHSTAT", 0x200, 64, 4, 0x0, 0x0, 0x0, 0x0, 0x0, 0x0⟩]

/-- The register rows of a block, from the tables of its chapter. -/
def rowsMt : List RegRow :=
  [⟨"MSNS_CFG", 0x100, 4, 4, 0x6418, 0xff7f, 0x0, 0x0, 0x0, 0x0⟩,
   ⟨"MT_CFG", 0x0, 1, 4, 0x8310, 0xf77f, 0x0, 0x0, 0x0, 0x0⟩,
   ⟨"MT_HOLD", 0x4, 1, 4, 0xbb8020a, 0xffff0fff, 0x0, 0x0, 0x0, 0x0⟩,
   ⟨"MT_OFS", 0x10, 4, 4, 0x0, 0xfffff, 0x0, 0x0, 0x0, 0x0⟩,
   ⟨"MT_STATUS", 0x20, 1, 4, 0x0, 0x0, 0x0, 0x1fc0, 0x0, 0x0⟩,
   ⟨"MT_NOW_CYC", 0x24, 1, 4, 0x0, 0x0, 0x0, 0x0, 0x0, 0x0⟩,
   ⟨"MT_NOW_GRN", 0x28, 1, 4, 0x0, 0x0, 0x0, 0x0, 0x0, 0x0⟩,
   ⟨"MT_NOW_NS_LO", 0x2c, 1, 4, 0x0, 0x0, 0x0, 0x0, 0x0, 0x0⟩,
   ⟨"MT_NOW_NS_HI", 0x30, 1, 4, 0x0, 0x0, 0x0, 0x0, 0x0, 0x0⟩,
   ⟨"MT_FREQ", 0x34, 1, 4, 0x0, 0x0, 0x0, 0x0, 0x0, 0x0⟩,
   ⟨"MT_PHERR", 0x38, 1, 4, 0x0, 0x0, 0x0, 0x0, 0x0, 0x0⟩,
   ⟨"MT_CNT", 0x40, 1, 4, 0x0, 0x0, 0x0, 0x0, 0x0, 0xffffffff⟩,
   ⟨"DL_LOG_IDX", 0x44, 1, 4, 0x0, 0x0, 0x0, 0x0, 0x0, 0xffff0000⟩,
   ⟨"DL_LOG_W0", 0x200, 16, 16, 0x0, 0x0, 0x0, 0x0, 0x0, 0x0⟩,
   ⟨"DL_LOG_W1", 0x204, 16, 16, 0x0, 0x0, 0x0, 0x0, 0x0, 0x0⟩,
   ⟨"DL_LOG_W2", 0x208, 16, 16, 0x0, 0x0, 0x0, 0x0, 0x0, 0x0⟩,
   ⟨"DL_LOG_W3", 0x20c, 16, 16, 0x0, 0x0, 0x0, 0x0, 0x0, 0x0⟩]

/-- The register rows of a block, from the tables of its chapter. -/
def rowsCh : List RegRow :=
  [⟨"LIF_CFG", 0x0, 1, 4, 0x140000, 0x3f03f3, 0x0, 0x0, 0x0, 0x0⟩,
   ⟨"LIF_CLIP", 0x4, 1, 4, 0x1ff0, 0x3fff, 0x0, 0x0, 0x0, 0x0⟩,
   ⟨"LIF_STATUS", 0x8, 1, 4, 0x0, 0x0, 0x0, 0x7f, 0x0, 0x0⟩,
   ⟨"LIF_CLIPCNT", 0xc, 1, 4, 0x0, 0x0, 0x0, 0x0, 0x0, 0xffff⟩,
   ⟨"SC_STATUS", 0x100, 1, 4, 0x0, 0x0, 0x0, 0xf0000, 0x0, 0x0⟩,
   ⟨"SC_CTL", 0x104, 1, 4, 0x0, 0x0, 0x3, 0x0, 0x0, 0x0⟩,
   ⟨"SC_CNT", 0x108, 1, 4, 0x0, 0x0, 0x0, 0x0, 0x0, 0xffffffff⟩,
   ⟨"SC_CNT2", 0x10c, 1, 4, 0x0, 0x0, 0x0, 0x0, 0x0, 0xffff00ff⟩,
   ⟨"SC_FADE", 0x110, 1, 4, 0x0, 0x0, 0x0, 0x0, 0x0, 0x0⟩,
   ⟨"PAL_A_W", 0x4000, 1024, 4, 0x0, 0xffffffff, 0x0, 0x0, 0x0, 0x0⟩,
   ⟨"PAL_B_W", 0x5000, 1024, 4, 0x0, 0xffffffff, 0x0, 0x0, 0x0, 0x0⟩,
   ⟨"WF_LIMIT", 0x200, 1, 4, 0x10e86, 0x13ff7, 0x0, 0x0, 0x0, 0x0⟩,
   ⟨"WF_STATUS", 0x204, 1, 4, 0x0, 0x0, 0x0, 0x1, 0x0, 0x0⟩,
   ⟨"WF_CNT", 0x208, 1, 4, 0x0, 0x0, 0x0, 0x0, 0x0, 0xffff⟩,
   ⟨"FR_CFG", 0x300, 1, 4, 0x0, 0x1ffff3, 0x0, 0x0, 0x0, 0x0⟩,
   ⟨"FR_ILBASE", 0x304, 1, 4, 0x0, 0x7fff, 0x0, 0x0, 0x0, 0x0⟩,
   ⟨"FR_ILMEM", 0x308, 1, 4, 0x0, 0x3ff, 0x0, 0x0, 0x0, 0x0⟩,
   ⟨"FR_SYNCW", 0x30c, 1, 4, 0x9e3764b1, 0xffffffff, 0x0, 0x0, 0x0, 0x0⟩,
   ⟨"FR_SYNCB", 0x310, 1, 4, 0xb4e15a2d, 0xffffffff, 0x0, 0x0, 0x0, 0x0⟩,
   ⟨"FR_STATUS", 0x314, 1, 4, 0x0, 0x0, 0x0, 0x7, 0x0, 0x0⟩,
   ⟨"FR_CNT", 0x318, 1, 4, 0x0, 0x0, 0x0, 0x0, 0x0, 0xffffffff⟩,
   ⟨"FR_CNT2", 0x31c, 1, 4, 0x0, 0x0, 0x0, 0x0, 0x0, 0xffffffff⟩,
   ⟨"AQ_CFG", 0x400, 1, 4, 0x20300624, 0xffff1ff7, 0x0, 0x0, 0x0, 0x0⟩,
   ⟨"AQ_CFG2", 0x404, 1, 4, 0x832a210, 0xffff3ff, 0x0, 0x0, 0x0, 0x0⟩,
   ⟨"AQ_CFG3", 0x408, 1, 4, 0x6920c, 0xff73f, 0x0, 0x0, 0x0, 0x0⟩,
   ⟨"AQ_STATUS", 0x40c, 1, 4, 0x8, 0x0, 0x0, 0xff0, 0x0, 0x0⟩,
   ⟨"AQ_LEVEL", 0x410, 1, 4, 0x0, 0x0, 0x0, 0x0, 0x0, 0x0⟩,
   ⟨"AQ_QUAL", 0x414, 1, 4, 0x0, 0x0, 0x0, 0x0, 0x0, 0x0⟩,
   ⟨"AQ_FREQ", 0x418, 1, 4, 0x0, 0x0, 0x0, 0x0, 0x0, 0x0⟩,
   ⟨"AQ_CNT", 0x41c, 1, 4, 0x0, 0x0, 0x0, 0x0, 0x0, 0xffffffff⟩,
   ⟨"AQ_CNT2", 0x420, 1, 4, 0x0, 0x0, 0x0, 0x0, 0x0, 0xffffffff⟩,
   ⟨"AQ_CNT3", 0x424, 1, 4, 0x0, 0x0, 0x0, 0x0, 0x0, 0xffffffff⟩,
   ⟨"AQ_CNT4", 0x428, 1, 4, 0x0, 0x0, 0x0, 0x0, 0x0, 0xffffffff⟩,
   ⟨"LF_CFG", 0x500, 1, 4, 0x10000043, 0xffff07f3, 0x0, 0x0, 0x0, 0x0⟩,
   ⟨"LF_BCN", 0x504, 1, 4, 0x200800, 0xffffff, 0x0, 0x0, 0x0, 0x0⟩,
   ⟨"LF_DISC", 0x508, 1, 4, 0x80006832, 0xffff7fff, 0x0, 0x0, 0x0, 0x0⟩,
   ⟨"LF_TIME", 0x50c, 1, 4, 0xc820004, 0xffffffff, 0x0, 0x0, 0x0, 0x0⟩,
   ⟨"LF_JOIN", 0x510, 1, 4, 0x408, 0xffff, 0x0, 0x0, 0x0, 0x0⟩,
   ⟨"LF_STATUS", 0x514, 1, 4, 0x0, 0x0, 0x0, 0x3f0, 0x0, 0x0⟩,
   ⟨"LF_HOFS_CYC", 0x518, 1, 4, 0x0, 0x0, 0x0, 0x0, 0x0, 0x0⟩] ++
  [⟨"LF_HOFS_GRN", 0x51c, 1, 4, 0x0, 0x0, 0x0, 0x0, 0x0, 0x0⟩,
   ⟨"LF_CNT", 0x520, 1, 4, 0x0, 0x0, 0x0, 0x0, 0x0, 0xffffffff⟩,
   ⟨"LF_CNT2", 0x524, 1, 4, 0x0, 0x0, 0x0, 0x0, 0x0, 0xffffffff⟩,
   ⟨"LF_CNT3", 0x528, 1, 4, 0x0, 0x0, 0x0, 0x0, 0x0, 0xffffffff⟩,
   ⟨"LF_CNT4", 0x52c, 1, 4, 0x0, 0x0, 0x0, 0x0, 0x0, 0xffffffff⟩,
   ⟨"SQ_PAIR", 0x600, 1, 4, 0x100, 0x13f, 0x0, 0x0, 0x0, 0x0⟩,
   ⟨"SQ_PFLAG", 0x604, 1, 4, 0x0, 0x0, 0x70700, 0x0, 0x0, 0x0⟩,
   ⟨"SQ_CTL", 0x680, 1, 4, 0x0, 0x0, 0x7, 0x0, 0x0, 0x0⟩,
   ⟨"SQ_CTL", 0x700, 1, 4, 0x0, 0x0, 0x7, 0x0, 0x0, 0x0⟩,
   ⟨"SQ_CFG", 0x684, 1, 4, 0x0, 0xffff7fff, 0x0, 0x0, 0x0, 0x0⟩,
   ⟨"SQ_CFG", 0x704, 1, 4, 0x0, 0xffff7fff, 0x0, 0x0, 0x0, 0x0⟩,
   ⟨"SQ_LIVE", 0x688, 1, 4, 0x1fff0000, 0x1fff1fff, 0x0, 0x0, 0x0, 0x0⟩,
   ⟨"SQ_LIVE", 0x708, 1, 4, 0x1fff0000, 0x1fff1fff, 0x0, 0x0, 0x0, 0x0⟩,
   ⟨"SQ_STATUS", 0x68c, 1, 4, 0x0, 0x0, 0x0, 0x1f00, 0x0, 0x0⟩,
   ⟨"SQ_STATUS", 0x70c, 1, 4, 0x0, 0x0, 0x0, 0x1f00, 0x0, 0x0⟩,
   ⟨"SQ_FAULT", 0x690, 1, 4, 0x0, 0x0, 0x0, 0x0, 0x0, 0x0⟩,
   ⟨"SQ_FAULT", 0x710, 1, 4, 0x0, 0x0, 0x0, 0x0, 0x0, 0x0⟩,
   ⟨"SQ_STARTC", 0x694, 1, 4, 0x0, 0xffffffff, 0x0, 0x0, 0x0, 0x0⟩,
   ⟨"SQ_STARTC", 0x714, 1, 4, 0x0, 0xffffffff, 0x0, 0x0, 0x0, 0x0⟩,
   ⟨"SQ_CNT", 0x698, 1, 4, 0x0, 0x0, 0x0, 0x0, 0x0, 0xffffffff⟩,
   ⟨"SQ_CNT", 0x718, 1, 4, 0x0, 0x0, 0x0, 0x0, 0x0, 0xffffffff⟩,
   ⟨"SQ_FORM", 0x6c0, 16, 4, 0x0, 0x7fffffff, 0x0, 0x0, 0x0, 0x0⟩,
   ⟨"SQ_FORM", 0x740, 16, 4, 0x0, 0x7fffffff, 0x0, 0x0, 0x0, 0x0⟩]

/-- The register rows of a block, from the tables of its chapter. -/
def rowsCv : List RegRow :=
  [⟨"CV_CFG", 0x0, 1, 4, 0x0, 0x1, 0x0, 0x0, 0x0, 0x0⟩,
   ⟨"CV_FREE", 0x4, 1, 4, 0x18000, 0x0, 0x0, 0x0, 0x0, 0x0⟩,
   ⟨"CV_UPPER", 0x8, 1, 4, 0x0, 0x0, 0x0, 0x0, 0x0, 0x0⟩,
   ⟨"CV_STATUS", 0xc, 1, 4, 0x0, 0x0, 0x0, 0xf, 0x0, 0x0⟩,
   ⟨"CV_CMD", 0x10, 1, 4, 0x0, 0x3fff, 0x30000, 0x0, 0x0, 0x0⟩,
   ⟨"CV_CNT", 0x14, 1, 4, 0x0, 0x0, 0x0, 0x0, 0x0, 0xffffffff⟩,
   ⟨"CV_CNT2", 0x18, 1, 4, 0x0, 0x0, 0x0, 0x0, 0x0, 0xffffffff⟩,
   ⟨"QS_CFG", 0x10000, 8192, 16, 0x0, 0x3fffffff, 0x0, 0x0, 0x0, 0x0⟩,
   ⟨"QS_OWN", 0x10004, 8192, 16, 0x0, 0xf3f, 0x0, 0x0, 0x0, 0x0⟩,
   ⟨"QS_DEPTH", 0x10008, 8192, 16, 0x0, 0x0, 0x0, 0x0, 0x0, 0x0⟩,
   ⟨"QS_STAT", 0x1000c, 8192, 16, 0x0, 0x0, 0x0, 0xf00000, 0x0, 0x0⟩,
   ⟨"QD_BASE", 0x40000, 1024, 32, 0x0, 0xffffffff, 0x0, 0x0, 0x0, 0x0⟩,
   ⟨"QD_CFG", 0x40004, 1024, 32, 0x0, 0x31f, 0x0, 0x0, 0x0, 0x0⟩,
   ⟨"QD_HEAD", 0x40008, 1024, 32, 0x0, 0x0, 0x0, 0x0, 0x0, 0x0⟩,
   ⟨"QD_MARK", 0x4000c, 1024, 32, 0x0, 0x0, 0x0, 0x0, 0x0, 0x0⟩,
   ⟨"QD_RD", 0x40010, 1024, 32, 0x0, 0x0, 0x0, 0x0, 0x0, 0x0⟩,
   ⟨"QD_TAIL", 0x40014, 1024, 32, 0x0, 0x0, 0x0, 0x0, 0x0, 0x0⟩,
   ⟨"QD_HWM", 0x40018, 1024, 32, 0x0, 0x0, 0x0, 0x0, 0x0, 0x0⟩,
   ⟨"QD_STAT", 0x4001c, 1024, 32, 0x0, 0x0, 0x0, 0xf, 0x0, 0x0⟩]

/-- The register rows of a block, from the tables of its chapter. -/
def rowsCi : List RegRow :=
  [⟨"CI_CFG", 0x0, 1, 4, 0x640010, 0xffffff, 0x0, 0x0, 0x0, 0x0⟩,
   ⟨"CI_STATUS", 0x4, 1, 4, 0x0, 0x0, 0x0, 0x7c, 0x0, 0x0⟩,
   ⟨"CI_CNT", 0x8, 1, 4, 0x0, 0x0, 0x0, 0x0, 0x0, 0xffffffff⟩,
   ⟨"CI_CNT2", 0xc, 1, 4, 0x0, 0x0, 0x0, 0x0, 0x0, 0xffffffff⟩,
   ⟨"CI_CNT3", 0x10, 1, 4, 0x0, 0x0, 0x0, 0x0, 0x0, 0xffffffff⟩,
   ⟨"KC_STAT", 0x14, 1, 4, 0x0, 0x0, 0x0, 0x40000000, 0x0, 0x0⟩,
   ⟨"KC_CNT", 0x18, 1, 4, 0x0, 0x0, 0x0, 0x0, 0x0, 0xffff⟩,
   ⟨"ADMIN_LOCK", 0x20, 1, 4, 0x0, 0x0, 0x300, 0x0, 0x0, 0x0⟩,
   ⟨"ADMIN_LEASE", 0x24, 1, 4, 0x7530, 0xffff, 0x0, 0x0, 0x0, 0x0⟩,
   ⟨"SA_CMD", 0x100, 1, 4, 0x0, 0x7ffff10, 0xf, 0x0, 0x0, 0x0⟩,
   ⟨"SA_ARG", 0x104, 1, 4, 0x0, 0xf, 0x0, 0x0, 0x0, 0x0⟩,
   ⟨"SA_SALT", 0x108, 1, 4, 0x0, 0x7fffffff, 0x0, 0x0, 0x0, 0x0⟩,
   ⟨"SA_INFO", 0x10c, 1, 4, 0x0, 0x0, 0x0, 0x0, 0x0, 0x0⟩,
   ⟨"SA_KEY", 0x120, 8, 4, 0x0, 0x0, 0xffffffff, 0x0, 0x0, 0x0⟩]

/-- The register rows of a block, from the tables of its chapter. -/
def rowsPg : List RegRow :=
  [⟨"SA_CMD", 0x100, 1, 4, 0x0, 0x7ffff10, 0xf, 0x0, 0x0, 0x0⟩,
   ⟨"SA_ARG", 0x104, 1, 4, 0x0, 0xf, 0x0, 0x0, 0x0, 0x0⟩,
   ⟨"SA_SALT", 0x108, 1, 4, 0x0, 0x7fffffff, 0x0, 0x0, 0x0, 0x0⟩,
   ⟨"SA_INFO", 0x10c, 1, 4, 0x0, 0x0, 0x0, 0x0, 0x0, 0x0⟩,
   ⟨"SA_KEY", 0x120, 8, 4, 0x0, 0x0, 0xffffffff, 0x0, 0x0, 0x0⟩,
   ⟨"PG_JCFG", 0x200, 1, 4, 0x0, 0x1fff3fff, 0x0, 0x0, 0x0, 0x0⟩,
   ⟨"PG_JD0", 0x204, 1, 4, 0x0, 0x3fffff, 0x0, 0x0, 0x0, 0x0⟩,
   ⟨"PG_JD1", 0x208, 1, 4, 0x0, 0x1ffff, 0x0, 0x0, 0x0, 0x0⟩,
   ⟨"PG_JD2", 0x20c, 1, 4, 0x0, 0x3fff3fff, 0x0, 0x0, 0x0, 0x0⟩,
   ⟨"PG_JD3", 0x210, 1, 4, 0x0, 0xffffffff, 0x0, 0x0, 0x0, 0x0⟩,
   ⟨"PG_JD4", 0x214, 1, 4, 0x0, 0xffffffff, 0x0, 0x0, 0x0, 0x0⟩,
   ⟨"PG_JGO", 0x218, 1, 4, 0x0, 0x0, 0x1, 0x0, 0x0, 0x0⟩,
   ⟨"PG_JSTAT", 0x21c, 1, 4, 0x0, 0x0, 0x0, 0x18, 0x0, 0x0⟩,
   ⟨"PG_JDONE0", 0x220, 1, 4, 0x0, 0x0, 0x0, 0x0, 0x0, 0x0⟩,
   ⟨"PG_JDONE1", 0x224, 1, 4, 0x0, 0x0, 0x0, 0x0, 0x0, 0x0⟩,
   ⟨"PG_JDONE2", 0x228, 1, 4, 0x0, 0x0, 0x0, 0x0, 0x0, 0x0⟩,
   ⟨"PG_JDONE3", 0x22c, 1, 4, 0x0, 0x0, 0x0, 0x0, 0x0, 0x0⟩,
   ⟨"PG_CNTEN", 0x230, 1, 4, 0x0, 0x1, 0x0, 0x0, 0x0, 0x0⟩]

/-- The register rows of a block, from the tables of its chapter. -/
def rowsCt : List RegRow :=
  [⟨"CNT_SEL", 0x0, 2048, 16, 0x0, 0x3f1f1fff, 0x0, 0x0, 0x0, 0x0⟩,
   ⟨"CNT_CTL", 0x4, 2048, 16, 0x0, 0x1f7, 0x0, 0x0, 0x0, 0x0⟩,
   ⟨"CNT_THR", 0x8, 2048, 16, 0x0, 0xffffffff, 0x0, 0x0, 0x0, 0x0⟩,
   ⟨"CNT_STAT", 0xc, 2048, 16, 0x0, 0x0, 0x0, 0x0, 0x0, 0x0⟩,
   ⟨"CNT_RD", 0x10000, 2048, 4, 0x0, 0x0, 0x0, 0x0, 0x0, 0x0⟩,
   ⟨"CAP_VHI", 0x20000, 1, 4, 0x0, 0x0, 0x0, 0x0, 0x0, 0x0⟩,
   ⟨"CAP_NS_LO", 0x20004, 1, 4, 0x0, 0x0, 0x0, 0x0, 0x0, 0x0⟩,
   ⟨"CAP_NS_HI", 0x20008, 1, 4, 0x0, 0x0, 0x0, 0x0, 0x0, 0x0⟩,
   ⟨"CAP_MCYC", 0x2000c, 1, 4, 0x0, 0x0, 0x0, 0x0, 0x0, 0x0⟩,
   ⟨"CAP_MGRN", 0x20010, 1, 4, 0x0, 0x0, 0x0, 0x0, 0x0, 0x0⟩,
   ⟨"CNT_CMD", 0x20020, 1, 4, 0x0, 0x7ff, 0x1000, 0x0, 0x0, 0x0⟩,
   ⟨"WT_CFG", 0x20100, 8, 4, 0x3e80000, 0xffff0001, 0x0, 0x0, 0x0, 0x0⟩,
   ⟨"BW_CFG", 0x20200, 1, 4, 0x0, 0xf, 0x0, 0x0, 0x0, 0x0⟩,
   ⟨"BW_STAT", 0x20204, 1, 4, 0x0, 0x0, 0x0, 0x0, 0x0, 0x0⟩,
   ⟨"BW_E_LO", 0x20208, 1, 4, 0x0, 0x0, 0x0, 0x0, 0x0, 0x0⟩,
   ⟨"BW_E_HI", 0x2020c, 1, 4, 0x0, 0x0, 0x0, 0x0, 0x0, 0x0⟩,
   ⟨"BW_NS_LO", 0x20210, 1, 4, 0x0, 0x0, 0x0, 0x0, 0x0, 0x0⟩,
   ⟨"BW_NS_HI", 0x20214, 1, 4, 0x0, 0x0, 0x0, 0x0, 0x0, 0x0⟩,
   ⟨"BW_RATE", 0x30000, 134, 4, 0x0, 0x0, 0x0, 0x0, 0x0, 0x0⟩]

/-- The register rows of a block, from the tables of its chapter. -/
def rowsEth : List RegRow :=
  [⟨"ETH_CFG", 0x0, 1, 4, 0x1, 0xffff01, 0x0, 0x0, 0x0, 0x0⟩,
   ⟨"ETH_LANE", 0x4, 1, 4, 0xfac688, 0xffffff, 0x0, 0x0, 0x0, 0x0⟩,
   ⟨"ETH_MAXFR", 0x8, 1, 4, 0x4020, 0x7fff, 0x0, 0x0, 0x0, 0x0⟩,
   ⟨"ETH_SA_LO", 0xc, 1, 4, 0x0, 0xffffffff, 0x0, 0x0, 0x0, 0x0⟩,
   ⟨"ETH_SA_HI", 0x10, 1, 4, 0x0, 0xffff, 0x0, 0x0, 0x0, 0x0⟩,
   ⟨"ETH_STATUS", 0x14, 1, 4, 0x0, 0x0, 0x0, 0x70000, 0x0, 0x0⟩,
   ⟨"ETH_FEC", 0x18, 1, 4, 0x0, 0x0, 0x0, 0x0, 0x0, 0xffffffff⟩,
   ⟨"ETH_CNT", 0x1c, 1, 4, 0x0, 0x0, 0x0, 0x0, 0x0, 0xffffffff⟩]

/-- The register rows of a block, from the tables of its chapter. -/
def rowsMg : List RegRow :=
  [⟨"MG_CFG", 0x1000, 1, 4, 0x4643c, 0x1fffff, 0x0, 0x0, 0x0, 0x0⟩,
   ⟨"MG_AKEY", 0x1004, 1, 4, 0x0, 0x3ffff, 0x0, 0x0, 0x0, 0x0⟩,
   ⟨"MG_PKEY", 0x1040, 16, 4, 0x0, 0x3ffff, 0x0, 0x0, 0x0, 0x0⟩,
   ⟨"MG_STATUS", 0x1008, 1, 4, 0x0, 0x0, 0x0, 0x0, 0x0, 0x0⟩,
   ⟨"MG_CNT", 0x100c, 1, 4, 0x0, 0x0, 0x0, 0x0, 0x0, 0xffffffff⟩,
   ⟨"MG_CNT2", 0x1010, 1, 4, 0x0, 0x0, 0x0, 0x0, 0x0, 0xffffffff⟩,
   ⟨"FLT_LATCH", 0x1020, 1, 4, 0x0, 0x0, 0x0, 0x7fff, 0x0, 0x0⟩,
   ⟨"FLT_MASK", 0x1024, 1, 4, 0x3f82, 0x63ff, 0x0, 0x0, 0x0, 0x0⟩,
   ⟨"MG_V1SEQ_LO", 0x1100, 17, 8, 0x0, 0x0, 0x0, 0x0, 0x0, 0x0⟩,
   ⟨"MG_V1SEQ_HI", 0x1104, 17, 8, 0x0, 0x0, 0x0, 0x0, 0x0, 0x0⟩]

/-- The register rows of a block, from the tables of its chapter. -/
def rowsHb : List RegRow :=
  [⟨"HBM_STATUS", 0x0, 1, 4, 0x0, 0x0, 0x0, 0x0, 0x0, 0x0⟩,
   ⟨"HBM_ERRLOC", 0x4, 1, 4, 0x0, 0x0, 0x0, 0x1000000, 0x0, 0x0⟩]

/-- The register rows of a block, from the tables of its chapter. -/
def rowsRt : List RegRow :=
  [⟨"RT_STATUS", 0x0, 1, 4, 0x1, 0x0, 0x0, 0x0, 0x0, 0x0⟩,
   ⟨"RT_DEVID", 0x10, 4, 4, 0x0, 0x0, 0x0, 0x0, 0x0, 0x0⟩,
   ⟨"RT_CMD", 0x20, 1, 4, 0x0, 0x0, 0xf, 0x0, 0x0, 0x0⟩,
   ⟨"RT_CONFIRM", 0x24, 1, 4, 0x0, 0x0, 0xffffffff, 0x0, 0x0, 0x0⟩,
   ⟨"RT_HASH", 0x40, 8, 4, 0x0, 0x0, 0xffffffff, 0x0, 0x0, 0x0⟩,
   ⟨"ALM_CFG", 0x100, 1, 4, 0xf00f00, 0xf0ffff, 0x0, 0x0, 0x80000000, 0x0⟩,
   ⟨"ALM_SRC", 0x104, 1, 4, 0x0, 0x0, 0x0, 0xff0000, 0x0, 0x0⟩,
   ⟨"ENT_STATUS", 0x200, 1, 4, 0x0, 0x0, 0x0, 0x0, 0x0, 0xffff0000⟩]

/-- The register rows of a block, from the tables of its chapter. -/
def rowsLd : List RegRow :=
  [⟨"LD_STATUS", 0x0, 1, 4, 0x0, 0x0, 0x0, 0x0, 0x0, 0x0⟩,
   ⟨"LD_FLASH", 0x4, 1, 4, 0x0, 0x0, 0x0, 0x0, 0x0, 0x0⟩,
   ⟨"LD_IMG", 0x8, 1, 4, 0x0, 0x0, 0x0, 0x0, 0x0, 0x0⟩,
   ⟨"LD_TIME", 0xc, 1, 4, 0x0, 0x0, 0x0, 0x0, 0x0, 0x0⟩]

/-- The masks of the named fields of a node entry's words (R227); words 3 and 4 are laid out as SQ_FORM, whose bit 31 is
RSV. -/
def nodeMask (w : Nat) : Nat :=
  match w with
  | 1 => 0x1fffffff | 2 => 0xffff1fff | 3 => 0x7fffffff | 4 => 0x7fffffff | 7 => 0x1fffffff | 8 => 0x1fffff | 9 => 0x1fffffff
  | _ => 0xffffffff

/-- The masks of the named fields of a palette's words (R79); words 784 to 1,023 are reserved. -/
def palMask (w : Nat) : Nat :=
  match w with
  | 0 => 0xffffffff | 1 => 0x377f7 | 2 => 0x3ffffff | 3 => 0xfff0fff | 4 => 0xfffff00f | 5 => 0x3fff0fff
  | _ => if w < 784 then 0x3ffff else 0

/-- A block of the register map: first and last address, stride and count of its instances, register rows (R419). -/
structure Block where
  first : Nat
  last : Nat
  stride : Nat
  rows : List RegRow
deriving DecidableEq, Repr

/-- The blocks of R419 but for the two table windows. -/
def blocks : List Block :=
  [⟨0x0, 0xFFFF, 0x10000, rowsGl⟩, ⟨0x10000, 0x1FFFF, 0x10000, rowsGv⟩, ⟨0x20000, 0x2FFFF, 0x10000, rowsMt⟩,
   ⟨0x100000, 0x4FFFFF, 0x10000, rowsCh⟩, ⟨0x1800000, 0x1FFFFFF, 0x800000, rowsCv⟩,
   ⟨0x2000000, 0x20FFFFF, 0x100000, rowsCi⟩, ⟨0x2100000, 0x21FFFFF, 0x10000, rowsPg⟩,
   ⟨0x3000000, 0x30FFFFF, 0x100000, rowsCt⟩, ⟨0x3100000, 0x31001FF, 0x100, rowsEth⟩,
   ⟨0x3100200, 0x31FFFFF, 0x100000, rowsMg.map (fun r => { r with off := r.off - 0x200 })⟩,
   ⟨0x3200000, 0x32FFFFF, 0x100000, rowsHb⟩, ⟨0x3300000, 0x33FFFFF, 0x100000, rowsRt⟩,
   ⟨0x3400000, 0x34FFFFF, 0x100000, rowsLd⟩]

/-- Whether offset `o` names an instance of row `r`. -/
def RegRow.has (r : RegRow) (o : Nat) : Bool :=
  r.off ≤ o && (o - r.off) % r.stride == 0 && (o - r.off) / r.stride < r.count

/-- A word of the sequencer table memory or of the node table: plain storage (R196, R224). -/
def windowRow (a : Nat) : RegRow :=
  if a < 0x1000000 then ⟨"SEQ_TABLE", 0, 1, 4, 0, 0xffffffff, 0, 0, 0, 0⟩
  else ⟨"NODE_TABLE", 0, 1, 4, 0, nodeMask ((a / 4) % 16), 0, 0, 0, 0⟩

/-- A register whose words are laid out one by one takes the mask of the word: a shadow slot is laid out as R227, a palette as
R79. -/
def RegRow.laidOut (r : RegRow) (a : Nat) : RegRow :=
  if 0x5000 ≤ a && a < 0x5440 then { r with rw := nodeMask ((a / 4) % 16) }
  else if 0x100000 ≤ a && a < 0x500000 && 0x4000 ≤ a % 0x10000 then { r with rw := palMask (a % 0x1000 / 4) }
  else r

/-- The register at a byte address, if there is one (R419, R420). -/
def rowAt (a : Nat) : Option RegRow :=
  if a % 4 ≠ 0 then none
  else if 0x800000 ≤ a && a ≤ 0x17FFFFF then some (windowRow a)
  else
    match blocks.find? (fun b => b.first ≤ a && a ≤ b.last) with
    | none => none
    | some b => (b.rows.find? (fun r => r.has ((a - b.first) % b.stride))).map (fun r => r.laidOut a)

/-- The register domain of an address (R419): 79 is PD_AON, which is always on. -/
def regDomain (a : Nat) : Nat :=
  if a < 0x100000 then 79
  else if a < 0x500000 then (a - 0x100000) / 0x10000
  else if a < blkCi then 76
  else if a < 0x2100000 then (if a = blkCi + 0x20 ∨ a = blkCi + 0x24 then 79 else 70)
  else if a < blkCt then (if a % 0x10000 = 0x230 then 79 else 70)
  else if a < blkEth then 76
  else if a < blkEth + 0x200 then 68 + (a - blkEth) / 0x100
  else if a < blkHb then 79
  else if a < blkRt then 78
  else 79

/-- The word that a register holds until something is written to it: its reset word (R425); SQ_PAIR of channel k resets to
0x100 + k (R223). -/
def resetWord (a : Nat) : Word32 :=
  match rowAt a with
  | none => 0
  | some r =>
    if 0x100000 ≤ a ∧ a < 0x500000 ∧ a % 0x10000 = 0x600 then BitVec.ofNat 32 (0x100 + (a - 0x100000) / 0x10000)
    else BitVec.ofNat 32 r.reset

end Sys2Proof.Machine
end

