-- ==== Sys2Proof/Machine/Ops.lean ====
section
/-! DEFINITION. The named operations over the state that every family of commands shares: sparse tables, register fields,
time, power domains, counter events, notices and recorded causes. -/

namespace Sys2Proof.Machine

open Sys2Proof

/-! ### Sparse tables -/

/-- The entry at `k`, or the default. -/
def Tab.get {α : Type} (dflt : α) : Tab α → Nat → α
  | [], _ => dflt
  | (i, v) :: l, k => if i = k then v else Tab.get dflt l k

/-- Every entry but the one at `k`. -/
def Tab.del {α : Type} : Tab α → Nat → Tab α
  | [], _ => []
  | (i, v) :: l, k => if i = k then l else if k < i then (i, v) :: l else (i, v) :: Tab.del l k

/-- The table with `v` at `k`, in order. -/
def Tab.put {α : Type} : Tab α → Nat → α → Tab α
  | [], k, v => [(k, v)]
  | (i, w) :: l, k, v =>
    if i = k then (k, v) :: l else if k < i then (k, v) :: (i, w) :: l else (i, w) :: Tab.put l k v

/-- The table with `v` at `k`; an entry equal to the default is not listed. -/
def Tab.set {α : Type} [DecidableEq α] (dflt : α) (l : Tab α) (k : Nat) (v : α) : Tab α :=
  if v = dflt then Tab.del l k else Tab.put l k v

/-- The table without its entries from `lo` to `hi`. -/
def Tab.clear {α : Type} (l : Tab α) (lo hi : Nat) : Tab α := l.filter (fun e => !(lo ≤ e.1 && e.1 ≤ hi))

/-- Indices strictly rising. -/
def Tab.sorted {α : Type} : Tab α → Bool
  | [] => true
  | [_] => true
  | (i, _) :: (j, v) :: l => i < j && Tab.sorted ((j, v) :: l)

/-- The canonical form of the register space: addresses rising and no word equal to its reset word. -/
def Regs.wf (l : Tab Word32) : Bool := Tab.sorted l && l.all (fun e => e.2 != resetWord e.1)

/-! ### Register words and fields -/

/-- The word stored at a register address. -/
def Dev.word (d : Dev) (a : Nat) : Word32 := Tab.get (resetWord a) d.regs a

/-- Store a word at a register address. -/
def Dev.setWord (d : Dev) (a : Nat) (w : Word32) : Dev :=
  { d with regs := Tab.set (resetWord a) d.regs a w }

/-- Field of `width` bits from bit `lo` of a word. -/
def getBits (w : Word32) (lo width : Nat) : Nat := w.toNat / 2 ^ lo % 2 ^ width

/-- The word with `v` in the field of `width` bits from bit `lo`. -/
def putBits (w : Word32) (lo width v : Nat) : Word32 :=
  BitVec.ofNat 32 (w.toNat - getBits w lo width * 2 ^ lo + v % 2 ^ width * 2 ^ lo)

/-- The value of a register field. -/
def Dev.rd (d : Dev) (f : Field) : Nat := getBits (d.word f.addr) f.lo f.width

/-- Write a register field; a value beyond its width wraps. -/
def Dev.wr (d : Dev) (f : Field) (v : Nat) : Dev := d.setWord f.addr (putBits (d.word f.addr) f.lo f.width v)

/-- A one-bit field is set. -/
def Dev.on (d : Dev) (f : Field) : Bool := d.rd f != 0

/-- Hardware is about to add `n` to a field: those of the present AOCLK cycle of 4 ns are kept (R6, R12, R423). -/
def Dev.hwNote (d : Dev) (f : Field) (n : Nat) : Dev :=
  { d with hw := { ns := d.now, addr := f.addr, lo := f.lo, width := f.width, old := d.rd f, n := n } ::
      d.hw.filter (fun u => decide (u.ns / 4 = d.now / 4)) }

/-- Add to a saturating counter field. -/
def Dev.inc (d : Dev) (f : Field) (n : Nat := 1) : Dev := (d.hwNote f n).wr f (min (d.rd f + n) (2 ^ f.width - 1))

/-- Set a one-bit flag. -/
def Dev.raise (d : Dev) (f : Field) : Dev := (d.hwNote f 1).wr f 1

/-- Signed value of a two's complement field. -/
def Dev.rdS (d : Dev) (f : Field) : Int := toSigned f.width (d.rd f)

/-- Write a signed value, saturated to the field. -/
def Dev.wrS (d : Dev) (f : Field) (v : Int) : Dev :=
  d.wr f (ofSigned f.width (max (-(2 ^ (f.width - 1) : Int)) (min v (2 ^ (f.width - 1) - 1))))

/-- Write a 64-bit value to a low and a high word. -/
def Dev.wr64 (d : Dev) (lo hi : Field) (v : Nat) : Dev := (d.wr lo v).wr hi (v / 2 ^ 32)

/-- Registers of a block take their reset values (R425). -/
def Dev.resetRange (d : Dev) (lo hi : Nat) : Dev := { d with regs := Tab.clear d.regs lo hi }

/-! ### The structures kept by index -/

def Dev.ch (d : Dev) (k : Nat) : Chan := Tab.get {} d.chan k
def Dev.setCh (d : Dev) (k : Nat) (c : Chan) : Dev := { d with chan := Tab.set {} d.chan k c }
def Dev.modCh (d : Dev) (k : Nat) (f : Chan → Chan) : Dev := d.setCh k (f (d.ch k))
/-- Frames that the channel's receiver has locked and not yet judged, oldest first (R136). -/
def Chan.frames (c : Chan) : List RxLock := c.behind ++ c.lock.toList
/-- The channel with every such frame changed. -/
def Chan.mapFrames (c : Chan) (f : RxLock → RxLock) : Chan := { c with lock := c.lock.map f, behind := c.behind.map f }
def Dev.sq (d : Dev) (q : Nat) : Seq := Tab.get {} d.seq q
def Dev.setSq (d : Dev) (q : Nat) (s : Seq) : Dev := { d with seq := Tab.set {} d.seq q s }
def Dev.modSq (d : Dev) (q : Nat) (f : Seq → Seq) : Dev := d.setSq q (f (d.sq q))
def Dev.sh (d : Dev) (q : Nat) : Shallow := Tab.get {} d.shallow q
def Dev.setSh (d : Dev) (q : Nat) (s : Shallow) : Dev := { d with shallow := Tab.set {} d.shallow q s }
def Dev.dq (d : Dev) (q : Nat) : Deep := Tab.get {} d.deep q
def Dev.setDq (d : Dev) (q : Nat) (s : Deep) : Dev := { d with deep := Tab.set {} d.deep q s }
def Dev.sa_ (d : Dev) (i : Nat) : Assoc := Tab.get {} d.assoc i
def Dev.page (d : Dev) (p : Nat) : PageJobs := Tab.get {} d.pages p
def Dev.setPage (d : Dev) (p : Nat) (j : PageJobs) : Dev := { d with pages := Tab.set {} d.pages p j }
def Dev.bring (d : Dev) (k : Nat) : Bring := Tab.get {} d.gov.bring k
def Dev.modLf (d : Dev) (k : Nat) (f : Luafen → Luafen) : Dev := d.modCh k (fun c => { c with lf := f c.lf })

/-! ### Power domains (R21 to R24) -/

/-- Domain `n` is on. -/
def Dev.domOn (d : Dev) (n : Nat) : Bool :=
  getBits (d.word (A.GV_PDSTAT0 + 4 * (n / 32))) (n % 32) 1 == 1

/-- The channel's domain is on. -/
def Dev.chOn (d : Dev) (k : Nat) : Bool := d.domOn k

/-- Some channel domain is on. -/
def Dev.anyChOn (d : Dev) : Bool := (List.range 64).any d.chOn

/-- Every channel holds role off. -/
def Dev.allRolesOff (d : Dev) : Bool := d.chan.all (fun e => e.2.role == 0)

/-! ### Mains time (R47, R57) -/

/-- Length of a cycle in ns (R47). -/
def CycleRec.len (r : CycleRec) : Nat := 65536 * r.l / 2 ^ 20

/-- Instant of a grain (R47). -/
def CycleRec.grain (r : CycleRec) (g : Nat) : Nat := r.t0 + g * r.l / 2 ^ 20

/-- The cycle after a record, with the same grain length, unless it is fixed (R57). -/
def Mains.after (m : Mains) : CycleRec :=
  m.next.getD { c := m.cur.c + 1, t0 := m.cur.t0 + m.cur.len, l := m.cur.l }

/-- Cycle and grain of an instant under a record whose cycle length repeats. -/
def CycleRec.at_ (r : CycleRec) (t : Nat) : Nat × Nat :=
  if t < r.t0 ∨ r.l = 0 then (r.c, 0)
  else
    let n := (t - r.t0) / r.len
    let x := (t - r.t0) - n * r.len
    (r.c + n, min 65535 (((x + 1) * 2 ^ 20 - 1) / r.l))

/-- State of mains time. -/
def Dev.mst (d : Dev) : Nat := d.rd F.MT_STATUS_STATE

/-- Mains time runs: any state but OFF and ACQUIRE. -/
def Dev.timeRuns (d : Dev) : Bool := 2 ≤ d.mst

/-- Mains time of an instant as cycle and grain; 0:0 in OFF and ACQUIRE (R50, R365, R376). -/
def Dev.mainsAt (d : Dev) (t : Nat) : Nat × Nat :=
  if d.timeRuns then
    (match d.mains.next with
     | some r => if r.t0 ≤ t then r.at_ t else d.mains.cur.at_ t
     | none => d.mains.cur.at_ t)
  else (0, 0)

/-- The current cycle. -/
def Dev.cycle (d : Dev) : Nat := (d.mainsAt d.now).1 % 2 ^ 32

/-- The current grain. -/
def Dev.grn (d : Dev) : Nat := (d.mainsAt d.now).2

/-- Nanosecond instant of cycle:grain for a step issued at `issue` (R57); none where the step is not executed (CONV).
Cycle numbers compare modulo 2^32 (R7); which of them lie before the current one no rule says: those at a difference of 2^31 or more
do (DESIGN CHOICE, log entry 172). -/
def Dev.toInstant (d : Dev) (cyc g issue : Nat) : Option Nat :=
  let m := (cyc + 2 ^ 32 - d.cycle) % 2 ^ 32
  if !d.timeRuns then none
  else if 2 ^ 31 ≤ m then some (issue - 1)
  else if m = 0 then some (d.mains.cur.grain g)
  else if m ≤ 256 then some (d.mains.after.grain g + (m - 1) * d.mains.after.len)
  else none

/-- The span of `n` grains at the current grain length (R198). -/
def Dev.grains (d : Dev) (n : Nat) : Nat := n * d.mains.cur.l / 2 ^ 20

/-! ### Counter events (R369 to R371) -/

/-- The CCLK cycle of the present instant, of 0.8 ns (R12). -/
def Dev.cclk (d : Dev) : Nat := d.now * 5 / 4

/-- The counter with `inc` added to VALUE in CCLK cycle `cyc`. -/
def Counter.add (c : Counter) (cyc inc : Nat) : Counter :=
  let carried : Bool := decide (2 ^ 48 ≤ c.value + inc)
  { c with value := (c.value + inc) % 2 ^ 48, wrap := c.wrap || carried, carry := if carried then cyc + 1 else c.carry }

/-- A setting names an event; for SUB 3 of a sequencer the tag equals N[7:0] (R370). -/
def CountEvent.named (e : CountEvent) (sel thr : Word32) : Bool :=
  getBits sel 24 5 == e.grp && getBits sel 16 5 == e.sub && getBits sel 0 13 == e.inst &&
    (e.tag.map (fun g => getBits thr 0 8 == g)).getD true

/-- An event: every counter whose active setting names it advances, and the present cycle keeps it (R369, R370, R374). Counters
stand in CCLK, which stops without REFCLK_SYS (R12, R14). -/
def Dev.count (d : Dev) (x : CountEvent) : Dev :=
  if d.domOn 76 ∧ d.mains.refclk then
    { d with
      counters := d.counters.map (fun e => if x.named e.2.sel e.2.thr then (e.1, e.2.add d.cclk x.inc) else e)
      evNow := (d.cclk, x :: (if d.evNow.1 = d.cclk then d.evNow.2 else [])) }
  else d

/-- Raise an event of a group (R369, R370). -/
def Dev.event (d : Dev) (grp sub inst inc : Nat) : Dev := d.count { grp := grp, sub := sub, inst := inst, inc := inc }

/-- The SEQNOTE event of sequencer `q` with its tag: SUB 2 always, SUB 3 where N[7:0] is the tag (R370). -/
def Dev.seqnote (d : Dev) (q tag : Nat) : Dev :=
  (d.event 4 2 q 1).count { grp := 4, sub := 3, inst := q, inc := 1, tag := some tag }

/-- Data words held in a shallow queue and not popped (R251). -/
def Shallow.depth (s : Shallow) : Nat := (s.items.map (fun i => i.words.length)).sum

/-- Complete items not yet consumed (R252): one that the consumer has begun counts until its last word is popped. -/
def Shallow.complete (s : Shallow) : Nat :=
  (s.items.filter (fun i => i.complete && !i.aborted)).length

/-- Data words of a deep queue from RD to TAIL (R262): the items past the first `n` words of the ring. -/
def Deep.depthFrom : List Item → Nat → Nat
  | [], _ => 0
  | i :: l, n =>
    if n = 0 then i.words.length + Deep.depthFrom l 0 else Deep.depthFrom l (n - (i.words.length + 1))

/-- Items of a deep queue from RD on. -/
def Deep.itemsFrom : List Item → Nat → List Item
  | l, 0 => l
  | [], _ => []
  | i :: l, n => Deep.itemsFrom l (n - (i.words.length + 1))

/-- Cells on the free list (R247). -/
def Dev.freeCells (d : Dev) : Nat := (d.free.map Prod.snd).sum + d.fresh.length

/-- Words of a deep queue between HEAD and RD (R262). -/
def Dev.dqTaken (d : Dev) (q : Nat) : Nat := (d.rd (F.QD_RD_POS q) + 2 ^ 32 - d.rd (F.QD_HEAD_POS q)) % 2 ^ 32

/-- Occupancy that a QOCC counter reads at the start of a cycle (R370). -/
def Dev.occupancy (d : Dev) (sub inst : Nat) : Nat :=
  match sub with
  | 0 => (d.sh inst).depth
  | 1 => (d.sh inst).complete
  | 2 => Deep.depthFrom (d.dq inst).items (d.dqTaken inst)
  | 3 => d.freeCells
  | 4 => d.cache.length
  | 5 => ((d.seq.map (fun e => (e.2.reqs.filter BudgetReq.deferred).length)).sum)
  | _ => 0

/-- What one CCLK cycle adds under a setting of group CYCLES or QOCC (R369 to R371). -/
def Dev.perCycle (d : Dev) (sel thr : Word32) : Nat :=
  let grp := getBits sel 24 5
  let sub := getBits sel 16 5
  if grp = 1 ∧ sub = 0 ∧ getBits sel 0 13 = 0 then 1
  else if grp = 5 then
    let o := d.occupancy sub (getBits sel 0 13)
    if getBits sel 29 1 = 1 then (if thr.toNat < o then 1 else 0) else o
  else 0

/-- What the `n` CCLK cycles between two instants, the last of them `cyc`, add to a counter of group CYCLES or QOCC (R369 to R371; 5
cycles in 4 ns), and what the last one adds under a setting that waits (R374). -/
def Dev.tickCounter (d : Dev) (n cyc : Nat) (c : Counter) : Counter :=
  let x := d.perCycle c.sel c.thr
  let first := (c.pend.map (fun p => d.perCycle p.1 p.2.1)).getD 0
  { (c.add 0 ((n - 1) * x)).add cyc (if n = 0 then 0 else x) with first := first }

/-- The record of the cycle that holds instant `t`, where every cycle after the record repeats its length (R47, R57). -/
def CycleRec.follow (r : CycleRec) (t : Nat) : CycleRec :=
  if t < r.t0 ∨ r.len = 0 then r
  else { r with c := r.c + (t - r.t0) / r.len, t0 := r.t0 + (t - r.t0) / r.len * r.len }

/-- The cycle `n` cycles before a record, where those before it have its length. -/
def CycleRec.back (r : CycleRec) (n : Nat) : CycleRec := { r with c := r.c - n, t0 := r.t0 - n * r.len }

/-- Mains time takes the cycle that holds `t`, reached from record `r`, which follows the current one; the cycle before it is
kept. -/
def Mains.turn (m : Mains) (r : CycleRec) (t : Nat) : Mains :=
  let x := r.follow t
  if x.c = m.cur.c then m
  else { m with cur := x, prev := some (if x.c = m.cur.c + 1 then m.cur else x.back 1), next := none }

/-- Mains time moved to instant `t`: the fixed record of the next cycle takes over at its start (R47, R48). -/
def Mains.moveTo (m : Mains) (t : Nat) : Mains :=
  match m.next with
  | some r => if r.t0 ≤ t then m.turn r t else m
  | none => m.turn m.cur t

/-- Move nanosecond time to `t`; time never goes back (R13; log entry 1).  The current cycle record follows (R47), and the
counters that count every CCLK cycle advance (R369). -/
def Dev.advance (d : Dev) (t : Nat) : Dev :=
  if t ≤ d.now then d
  else
    let n := t * 5 / 4 - d.now * 5 / 4
    let cs := if d.domOn 76 ∧ d.mains.refclk then d.counters.map (fun e => (e.1, d.tickCounter n (t * 5 / 4) e.2)) else d.counters
    { d with now := t, counters := cs, mains := if d.timeRuns then d.mains.moveTo t else d.mains }

/-! ### Free values -/

/-- A generate request of `n` octets to the DRBG; while it is not instantiated or ESTATE is not TRUSTED it refuses, and what was
asked for is left free (R318, R319; log entry 5). -/
def Dev.random (d : Dev) (n : Nat) : List Byte × Dev :=
  match (if d.rd F.ENT_STATUS_ESTATE = 1 then d.root.drbg else none) with
  | some s =>
    ((s.generate n).1, { d with draws := d.draws + 1
                                root := { d.root with generates := d.root.generates + 1, drbg := some (s.generate n).2 } })
  | none =>
    ((List.range n).map (fun i => (Config.refused (d.draws + i / 8)).extractLsb' (56 - 8 * (i % 8)) 8),
     { d with draws := d.draws + ceilDiv n 8 })

/-- A draw of 64 bits. -/
def Dev.draw (d : Dev) : BitVec 64 × Dev := (BitVec.ofNat 64 (beNat (d.random 8).1), (d.random 8).2)

/-- A draw of 256 bits. -/
def Dev.drawKey (d : Dev) : BitVec 256 × Dev := (BitVec.ofNat 256 (beNat (d.random 32).1), (d.random 32).2)

/-- A counter start: DRBG output with bit 63 cleared (R276). -/
def Dev.drawCtr (d : Dev) : Nat × Dev := ((d.draw).1.toNat % 2 ^ 63, (d.draw).2)

/-- `a / b` where no rule states the rounding: downward or upward as the free value says (log entry 10). -/
def roundQuotient (a : Int) (b : Nat) : Int :=
  a / b + (if a % b ≠ 0 ∧ Config.roundsUp a then 1 else 0)

/-- Entropy state (R453). -/
def Dev.estate (d : Dev) : Nat := d.rd F.ENT_STATUS_ESTATE

/-- Root state: 0 start, 1 service, 2 recovery. -/
def Dev.rstate (d : Dev) : Nat := d.rd F.RT_STATUS_RSTATE

/-! ### Notices (R365, R366) -/

/-- A session of administration. -/
def Session.admin (s : Session) : Bool := s.prin == 16

/-- Whether a session is entitled to a record and has not masked its class (R366). -/
def Session.wants (s : Session) (n : Notice) : Bool :=
  s.confirmed && s.mask.getLsbD n.cls && (s.admin || ((n.cls == 5 || n.cls == 6) && n.page == s.prin))

/-- FAULT records of one cause, channel and subcode of one gathering interval, which began at `g`, merge into one (R409). -/
def Notice.merges (g : Nat) (a b : Notice) : Bool :=
  a.cls == 0 && b.cls == 0 && a.code == b.code && a.chan == b.chan && a.arg % 16 == b.arg % 16 && decide (g ≤ a.ns)

/-- A FAULT record with one more merged into it: ARG[63:48] counts, saturating (R409). -/
def Notice.bump (n : Notice) : Notice :=
  { n with arg := n.arg % 2 ^ 48 + min (n.arg / 2 ^ 48 + 1) 65535 * 2 ^ 48 }

/-- A record joins a buffer: FAULT records of one cycle stand in ascending order of code (R409). -/
def Notice.place (n : Notice) (buf : List Notice) : List Notice :=
  let after := (buf.reverse.takeWhile (fun b => b.cls == 0 && n.cls == 0 && b.ns == n.ns && decide (n.code < b.code))).length
  buf.take (buf.length - after) ++ n :: buf.drop (buf.length - after)

/-- Queue a record on a buffer, merging FAULT records of the gathering interval that began at `g`. -/
def Notice.onto (g : Nat) (n : Notice) (buf : List Notice) : List Notice :=
  if buf.any (·.merges g n) then buf.map (fun b => if b.merges g n then b.bump else b) else n.place buf

/-- Records dropped when a buffer of `cap` records takes one more (R366). -/
def trimBuf (cap : Nat) (l : List Notice) : List Notice := l.drop (l.length - cap)

/-- The start of the gathering interval to which a record raised now belongs: it opens a new one where none runs, that is, where no
record waits or NHOLD µs have passed since the last one began (R366, R409; log entry 59). -/
def Dev.interval (d : Dev) : Nat :=
  if (d.ring.isEmpty && d.sessions.all (fun s => s.buf.isEmpty)) || decide (d.gather + 1000 * d.rd F.MG_CFG_NHOLD ≤ d.now) then d.now
  else d.gather

/-- Queue a notice record to every entitled session; one that only administration may have waits in the ring of 64 while
no administration session is open (R366).  Answers the records dropped. -/
def Dev.queueNotice (d : Dev) (n : Notice) : Nat × Dev :=
  let (c, g) := d.mainsAt d.now
  let n := { n with ns := d.now, cyc := c % 2 ^ 32, grn := g }
  let from_ := d.interval
  let lost := (d.sessions.filter (fun s => s.wants n && decide (256 < (n.onto from_ s.buf).length))).length
  let ss := d.sessions.map (fun s => if s.wants n then { s with buf := trimBuf 256 (n.onto from_ s.buf) } else s)
  let adminOpen := d.sessions.any (fun s => s.admin && s.confirmed)
  let ring := if adminOpen ∨ n.cls = 5 ∨ n.cls = 6 then d.ring else trimBuf 64 (n.onto from_ d.ring)
  (lost, { d with sessions := ss, ring := ring, gather := from_ })

/-- NOTLOST counts dropped records. -/
def Dev.notLost (d : Dev) (lost : Nat) : Dev := if lost = 0 then d else d.inc F.MG_CNT2_NOTLOST lost

/-- A count of management rises, with an MGMT notice where it is the first rise of its second (R365; log entry 40). -/
def Dev.mgRise (d : Dev) (code count : Nat) : Dev :=
  let sec := d.now / 1000000000 + 1
  if Tab.get 0 d.mgSec code = sec then d
  else
    let (lost, d) := { d with mgSec := Tab.put d.mgSec code sec }.queueNotice { cls := 10, code := code, arg := count }
    d.notLost lost

/-- Raise a notice (R365, R366). -/
def Dev.notice (d : Dev) (n : Notice) : Dev :=
  let (lost, d) := d.queueNotice n
  if lost = 0 then d else (d.notLost lost).mgRise 2 lost

/-! ### Recorded causes (R408, R409) -/

/-- Cause codes of R408. -/
def causeDLMISS : Nat := 0
def causePARITY : Nat := 1
def causePOISON : Nat := 2
def causeOVERRUN : Nat := 3
def causeBUDGETDENY : Nat := 4
def causeMAINSLOST : Nat := 5
def causeTAGFAIL : Nat := 6
def causeSEQFAULT : Nat := 7
def causeCALFAIL : Nat := 8
def causeENTFAIL : Nat := 9
def causeUPFAIL : Nat := 10
def causeTHERM : Nat := 11
def causeALARM : Nat := 12
def causeIMGFAIL : Nat := 13
def causeDRVOC : Nat := 14

/-- The channel counter of a cause, where R408 gives it one. -/
def causeCounter (code k : Nat) : Option Field :=
  match code with
  | 0 => some (F.FT_CH0_DLMISS k)
  | 1 => some (F.FT_CH2_PARITY k)
  | 2 => some (F.FT_CH1_POISON k)
  | 3 => some (F.FT_CH0_OVERRUN k)
  | 4 => some (F.FT_CH2_BUDGETDENY k)
  | 6 => some (F.FT_CH1_TAGFAIL k)
  | 8 => some (F.FT_CH3_CALFAIL k)
  | 14 => some (F.FT_CH3_DRVOC k)
  | _ => none

/-- Where a cause is recorded: channel, sequencer and step concerned, subcode, and whether the record is one of AOCLK that
the CAUSE group does not count (R370). -/
structure CauseAt where
  chan : Option Nat := none
  seq : Option Nat := none
  step : Nat := 0
  sub : Nat := 0
  ao : Bool := false
deriving DecidableEq, Repr

/-- The latch bit of a cause in FLT_LATCH (R367). -/
def fltBit (code : Nat) : Field := ⟨A.FLT_LATCH, code, 1⟩

/-- FT_LAST takes a cause, unless one of a higher code was recorded in the same AOCLK cycle (R409). -/
def Dev.lastFault (d : Dev) (code : Nat) (chan : Option Nat) : Dev :=
  let c := d.now / 4 + 1
  if d.lastCause.1 = c ∧ code < d.lastCause.2 then d
  else
    let d := (d.wr F.FT_LAST_CODE code).wr F.FT_LAST_CHAN (chan.getD 0)
    { d.wr F.FT_LAST_CHVALID (if chan.isSome then 1 else 0) with lastCause := (c, code) }

/-- Record a cause: latch, FT_LAST, channel counter, CAUSE event and FAULT notice (R409). -/
def Dev.cause (d : Dev) (code : Nat) (w : CauseAt := {}) : Dev :=
  let d := (d.raise (fltBit code)).lastFault code w.chan
  let d := match w.chan with
    | some k => (match causeCounter code k with | some f => d.inc f | none => d)
    | none => d
  let d := if w.ao then d else d.event 11 0 code 1
  d.notice { cls := 0, code := code, chan := w.chan.getD 255, seq := w.seq.getD 255, step := w.step,
             arg := w.sub + 2 ^ 48 }

/-- A cause recorded `n` times, once for each item that it ends. -/
def Dev.causes (d : Dev) (n code : Nat) (w : CauseAt) : Dev := (List.range n).foldl (fun d _ => d.cause code w) d

/-! ### Entries of the node table (R227) -/

def N.ADDR (i : Nat) : Field := ⟨nodeWord i 0, 0, 17⟩
def N.CHAN (i : Nat) : Field := ⟨nodeWord i 0, 17, 6⟩
def N.TENANT (i : Nat) : Field := ⟨nodeWord i 0, 23, 4⟩
def N.STATE (i : Nat) : Field := ⟨nodeWord i 0, 27, 2⟩
def N.KIND (i : Nat) : Field := ⟨nodeWord i 0, 29, 2⟩
def N.HOLDJ (i : Nat) : Field := ⟨nodeWord i 0, 31, 1⟩
def N.SAIDX (i : Nat) : Field := ⟨nodeWord i 1, 0, 17⟩
def N.KEYPH (i : Nat) : Field := ⟨nodeWord i 1, 17, 1⟩
def N.VER (i : Nat) : Field := ⟨nodeWord i 1, 18, 2⟩
def N.SQV (i : Nat) : Field := ⟨nodeWord i 1, 20, 1⟩
def N.DQV (i : Nat) : Field := ⟨nodeWord i 1, 21, 1⟩
def N.RELMAP (i : Nat) : Field := ⟨nodeWord i 1, 22, 4⟩
def N.JPOLLED (i : Nat) : Field := ⟨nodeWord i 1, 26, 1⟩
def N.PIN (i : Nat) : Field := ⟨nodeWord i 1, 27, 1⟩
def N.FCINIT (i : Nat) : Field := ⟨nodeWord i 1, 28, 1⟩
def N.SQ (i : Nat) : Field := ⟨nodeWord i 2, 0, 13⟩
def N.DQ (i : Nat) : Field := ⟨nodeWord i 2, 16, 10⟩
def N.GAIN_ADV (i : Nat) : Field := ⟨nodeWord i 2, 26, 6⟩
def N.DFORM (i : Nat) : Field := ⟨nodeWord i 3, 0, 32⟩
def N.UFORM (i : Nat) : Field := ⟨nodeWord i 4, 0, 32⟩
def N.ULEN (i : Nat) : Field := ⟨nodeWord i 5, 0, 12⟩
def N.RGAP (i : Nat) : Field := ⟨nodeWord i 5, 12, 12⟩
def N.PPER (i : Nat) : Field := ⟨nodeWord i 5, 24, 8⟩
def N.GAINS (i : Nat) : Field := ⟨nodeWord i 6, 0, 24⟩
def N.DMARGIN (i : Nat) : Field := ⟨nodeWord i 6, 24, 8⟩
def N.ESP1 (i : Nat) : Field := ⟨nodeWord i 7, 0, 17⟩
def N.LASTP (i : Nat) : Field := ⟨nodeWord i 7, 17, 12⟩
def N.ESP2 (i : Nat) : Field := ⟨nodeWord i 8, 0, 17⟩
def N.FAILS (i : Nat) : Field := ⟨nodeWord i 8, 17, 4⟩
def N.ESP3 (i : Nat) : Field := ⟨nodeWord i 9, 0, 17⟩
def N.RGMIN (i : Nat) : Field := ⟨nodeWord i 9, 17, 12⟩
def N.CAPS (i : Nat) : Field := ⟨nodeWord i 10, 0, 32⟩
def N.HIST (i : Nat) : Field := ⟨nodeWord i 11, 0, 16⟩
def N.TXSEQ (i : Nat) : Field := ⟨nodeWord i 11, 16, 16⟩
def N.ACKA (i : Nat) : Field := ⟨nodeWord i 12, 0, 16⟩
def N.RXEXP (i : Nat) : Field := ⟨nodeWord i 12, 16, 16⟩
def N.NF (i : Nat) : Field := ⟨nodeWord i 13, 0, 16⟩
def N.SS (i : Nat) : Field := ⟨nodeWord i 13, 16, 16⟩
def N.FCTRLO (i : Nat) : Field := ⟨nodeWord i 14, 0, 32⟩
def N.FCTRHI (i : Nat) : Field := ⟨nodeWord i 15, 0, 32⟩
/-- NONCE_H held by a JOINING entry: word 11 is bits [63:32] (R228). -/
def N.W11 (i : Nat) : Field := ⟨nodeWord i 11, 0, 32⟩
def N.W12 (i : Nat) : Field := ⟨nodeWord i 12, 0, 32⟩

/-- Indices of the entries that hold a word other than 0. -/
def Dev.entriesUsed (d : Dev) : List Nat :=
  ((d.regs.filter (fun e => 0x1000000 ≤ e.1 && e.1 < 0x1800000)).map (fun e => (e.1 - 0x1000000) / 64)).eraseDups

/-! ### Combinational outputs -/

/-- Some latched cause is unmasked (R367). -/
def Dev.faultPending (d : Dev) : Bool := (d.word A.FLT_LATCH &&& d.word A.FLT_MASK) != 0#32

/-- FAULT_N is driven low (R367, R368): never before the root leaves its start state. -/
def Dev.faultOut (d : Dev) : Bool := d.rstate != 0 && (d.faultPending || d.rstate == 2)

/-- What holds at the end of every command: FAULT_N and ALARM_N follow their rules (R367, R368), and a channel or a
sequencer whose domain is off holds nothing: its line driver is high-impedance (R21, R23, R219).  Registers of a domain
that is off hold their reset words (R23, R425). -/
def Dev.settle (d : Dev) : Dev :=
  { d with
    faultLow := d.faultOut
    alarmLow := d.alarmed
    regs := d.regs.filter (fun e => regDomain e.1 == 79 || d.domOn (regDomain e.1))
    chan := d.chan.filter (fun e => d.domOn e.1)
    seq := d.seq.filter (fun e => d.domOn (e.1 / 2)) }

/-- Run a command's effect on the device at its instant, unless RESET_N is low; the queue is untouched (R381). -/
def State.run (s : State) (t : Nat) (f : Dev → Dev) : Host.Outcome State Fault Refusal :=
  let d := s.dev.advance t
  .next { s with dev := (if d.inReset then d else f d).settle }

/-- The same for a command of a clock domain that stops without REFCLK_SYS: it has its effect only while the clocks run
(R14). -/
def State.runClk (s : State) (t : Nat) (f : Dev → Dev) : Host.Outcome State Fault Refusal :=
  s.run t (fun d => if d.mains.refclk then f d else d)

end Sys2Proof.Machine
end

