-- ==== Sys2Proof/Machine/Xts.lean ====
section
/-! DEFINITION. The memory encryption of the deep-queue region: XTS-AES-256 of IEEE 1619 under the memory key pair, with the
sector number as the tweak (R297), and the octets of an association record (R280). -/

namespace Sys2Proof.Machine

open Sys2Proof

/-- A block of 16 octets as a number, octet 0 in its lowest bits (R297: little-endian under IEEE 1619). -/
def blockOf (l : List Byte) : BitVec 128 := l.foldr (fun b n => (n <<< 8) ||| b.setWidth 128) 0

/-- The tweak of the next block: times α in GF(2^128). -/
def nextTweak (t : BitVec 128) : BitVec 128 := (t <<< 1) ^^^ (if t.getLsbD 127 then 0x87 else 0)

/-- The tweak of block `j` of a sector under the second key of the pair. -/
def tweakOf (k2 : BitVec 256) (sector j : Nat) : BitVec 128 :=
  Nat.repeat nextTweak j (aes256 k2 (BitVec.ofNat 128 sector))

/-- Block `j` of a sector encrypted, and decrypted, under a key pair (R297; log entry 6). -/
def xtsSeal (k : BitVec 256 × BitVec 256) (sector j : Nat) (b : BitVec 128) : BitVec 128 :=
  let t := tweakOf k.2 sector j
  aes256 k.1 (b ^^^ t) ^^^ t

def xtsOpen (k : BitVec 256 × BitVec 256) (sector j : Nat) (c : BitVec 128) : BitVec 128 :=
  let t := tweakOf k.2 sector j
  aes256Inv k.1 (c ^^^ t) ^^^ t

/-- Octets 88 and 89 of a record: the flags, KIND and TENANT (R280). -/
def Assoc.flags (a : Assoc) : Nat :=
  let b := fun (x : Bool) (i : Nat) => if x then 2 ^ i else 0
  b a.valid0 15 + b a.valid1 14 + b a.cph 13 + b a.txph 12 + b a.sentNew 11 + b a.rcvdNew 10 + a.kind % 4 * 256 + a.tenant % 16 * 16

/-- The 128 octets of an association record (R280). -/
def Assoc.octets (a : Assoc) : List Byte :=
  octetsBE 40 a.wk0.toNat ++ octetsBE 40 a.wk1.toNat ++ octetsBE 4 a.salt.toNat ++
  octetsBE 4 ((if a.sess then 2 ^ 31 else 0) + a.ssalt.toNat) ++ octetsBE 2 a.flags ++ octetsBE 2 a.failcnt ++
  octetsBE 8 a.rxhi ++ octetsBE 8 a.rxwin.toNat ++ octetsBE 8 a.jctr ++ octetsBE 12 0

/-- Blocks of a sector and further sectors as the HBM holds them, numbered by sector · 256 + block: the ciphertext of plain blocks
that begin at number `n` (R297). -/
def Dev.sealBlocks (d : Dev) : Nat → List (BitVec 128) → Tab (BitVec 128) → Tab (BitVec 128)
  | _, [], t => t
  | n, b :: l, t => d.sealBlocks (n + 1) l (Tab.put t n (xtsSeal d.root.memKey (n / 256) (n % 256) b))

/-- Plain blocks are encrypted and written from block number `n` on. -/
def Dev.hbmWrite (d : Dev) (n : Nat) (l : List (BitVec 128)) : Dev := { d with hbm := d.sealBlocks n l d.hbm }

/-- Blocks from number `n` on, decrypted. -/
def Dev.hbmRead (d : Dev) (n count : Nat) : List (BitVec 128) :=
  (List.range' n count).map (fun i => xtsOpen d.root.memKey (i / 256) (i % 256) (Tab.get 0 d.hbm i))

/-- The store engine writes record SAIDX, a 16-octet block at a time: octet SAIDX · 128 of sectors 0 to 4,095 (R280, R297). -/
def Dev.storeRecord (d : Dev) (i : Nat) (a : Assoc) : Dev :=
  d.hbmWrite (8 * i) ((List.range 8).map (fun j => blockOf ((a.octets.drop (16 * j)).take 16)))

/-- An association record is stored: the record as the engines read it, and its ciphertext in HBM (R280). -/
def Dev.setSa (d : Dev) (i : Nat) (a : Assoc) : Dev := { d.storeRecord i a with assoc := Tab.set {} d.assoc i a }

end Sys2Proof.Machine
end

