-- ==== Sys2Proof/Machine/Queues.lean ====
section
/-! DEFINITION. The canvas and its queues: cells, items, push, pop, abort, prune, flush and the deep rings (R246 to R269),
with the priority flow control that follows the free cells (R244). -/

namespace Sys2Proof.Machine

open Sys2Proof

/-! ### Octets and words (R3, R250) -/

/-- The eight octets of a word, the first in bits [63:56]. -/
def octetsOf (w : Word64) : List Byte :=
  [56, 48, 40, 32, 24, 16, 8, 0].map (fun s => (w >>> s).setWidth 8)

/-- A word from up to eight octets, missing ones 0. -/
def wordOf (l : List Byte) : Word64 :=
  (List.range 8).foldl (fun w i => (w <<< 8) ||| ((l.getD i 0).setWidth 64)) 0

/-- The words of a content, the last one padded with zeros. -/
def wordsOf : List Byte → List Word64
  | a :: b :: c :: d :: e :: f :: g :: h :: l => wordOf [a, b, c, d, e, f, g, h] :: wordsOf l
  | [] => []
  | l => [wordOf l]

/-- Groups of at most eight, the most a producer pushes in one cycle (R249). -/
def groups8 {α : Type} : List α → List (List α)
  | a :: b :: c :: d :: e :: f :: g :: h :: l => [a, b, c, d, e, f, g, h] :: groups8 l
  | [] => []
  | l => [l]

/-- The content of an item. -/
def Item.content (i : Item) : List Byte := (i.words.flatMap (fun w => octetsOf w.1)).take i.len

/-- An item holds a poisoned word. -/
def Item.poisoned (i : Item) : Bool := i.words.any Prod.snd

/-- Ring or cell words of an item: its item word and its data words (R250, R262). -/
def Item.span (i : Item) : Nat := i.words.length + 1

/-! ### Cells (R246 to R248) -/

/-- First cell of PD_CNV1. -/
def upperCell : Nat := 98304

/-- The free list with a cell appended (R247); no run crosses the two halves. -/
def appendCell : List (Nat × Nat) → Nat → List (Nat × Nat)
  | [], c => [(c, 1)]
  | [(s, n)], c => if s + n = c ∧ c ≠ upperCell then [(s, n + 1)] else [(s, n), (c, 1)]
  | r :: l, c => r :: appendCell l c

/-- The head cell of the free list and the rest of the list. -/
def headCell : List (Nat × Nat) → Option (Nat × List (Nat × Nat))
  | [] => none
  | (_, 0) :: l => headCell l
  | (s, m + 1) :: l => some (s, if m = 0 then l else (s + 1, m) :: l)

/-- Take `n` cells from the head of the free list, none where it holds fewer. -/
def takeRuns : Nat → List (Nat × Nat) → Option (List Nat × List (Nat × Nat))
  | 0, l => some ([], l)
  | n + 1, l =>
    match headCell l with
    | none => none
    | some (c, r) => (takeRuns n r).map (fun p => (c :: p.1, p.2))

/-- The upper half is in use for allocation. -/
def Dev.half1 (d : Dev) : Bool := d.on F.CV_CFG_HALF1

/-- The cells freed in cycle c may be taken from cycle c + 2 on (R247). -/
def Dev.ripen (d : Dev) : Dev :=
  let ripe := fun e : Nat × Nat => decide (e.2 + 2 ≤ d.cclk)
  { d with free := ((d.fresh.takeWhile ripe).map Prod.fst).foldl appendCell d.free, fresh := d.fresh.dropWhile ripe }

/-- A freed cell returns to the free list; an upper cell only while HALF1 is 1 (R247, R248). -/
def Dev.returnCell (d : Dev) (c : Nat) : Dev :=
  if c < upperCell ∨ d.half1 then { d.ripen with fresh := d.ripen.fresh ++ [(c, d.cclk)] } else d

def Dev.returnCells (d : Dev) (cs : List Nat) : Dev := cs.foldl Dev.returnCell d

/-- Cells handed to the zeroing engine (R257). -/
def Dev.zeroCells (d : Dev) (cs : List Nat) : Dev := { d with zeroing := d.zeroing ++ cs }

/-- Every cell that is not free: held by a queue, a staging area, a detached item, the buffer of R364 or the zeroing engine. -/
def Dev.heldCells (d : Dev) : List Nat :=
  d.shallow.flatMap (fun e => e.2.cells) ++ d.deep.flatMap (fun e => e.2.staging) ++
  d.chan.flatMap (fun e => e.2.stage ++ e.2.txs.flatMap TxJob.cells) ++ d.loader.rimgCells ++ d.zeroing

/-- The cells of the items that a transmission detached return to the free list, without zeroing (R253): here when the
transmission ends or is withdrawn (DESIGN CHOICE, log entry 170). -/
def Dev.freeJob (d : Dev) (x : TxJob) : Dev := d.returnCells x.cells

/-- UPPER: upper cells held (R248). -/
def Dev.upperHeld (d : Dev) : Nat := (d.heldCells.filter (fun c => upperCell ≤ c)).length

/-- Insertion into a rising list. -/
def insertNat (n : Nat) : List Nat → List Nat
  | [] => [n]
  | a :: l => if n ≤ a then n :: a :: l else a :: insertNat n l

/-- The runs of cells from `lo` below `hi` that a rising list of cells leaves out. -/
def runsWithout (hi : Nat) : Nat → List Nat → List (Nat × Nat)
  | lo, [] => if lo < hi then [(lo, hi - lo)] else []
  | lo, c :: l =>
    if c < lo then runsWithout hi lo l else (if lo < c then [(lo, c - lo)] else []) ++ runsWithout hi (c + 1) l

/-- HALF1 becomes 1: the upper cells that are not held join the free list (R247). -/
def Dev.addUpper (d : Dev) : Dev :=
  let free := (d.free.filter (fun r => upperCell ≤ r.1)).flatMap (fun r => List.range' r.1 r.2) ++ d.fresh.map Prod.fst
  let held := ((d.heldCells ++ free).filter (fun c => upperCell ≤ c)).foldr insertNat []
  { d with free := d.free ++ runsWithout 196608 upperCell held }

/-- The part of a run that lies in the lower half. -/
def lowerPart (r : Nat × Nat) : Option (Nat × Nat) :=
  if r.1 < upperCell then some (r.1, min r.2 (upperCell - r.1)) else none

/-- HALF1 becomes 0: the upper free cells leave the free list (R248). -/
def Dev.dropUpper (d : Dev) : Dev :=
  { d with free := d.free.filterMap lowerPart, fresh := d.fresh.filter (fun e => e.1 < upperCell) }

/-- A write of HALF1; it adds the upper cells while PD_CNV1 is on (R247, R248). -/
def Dev.writeHalf1 (d : Dev) (v : Bool) : Dev :=
  let was := d.half1
  let d := d.wr F.CV_CFG_HALF1 (if v then 1 else 0)
  if v ∧ !was ∧ d.domOn 77 then d.addUpper else if !v ∧ was then d.dropUpper else d

/-! ### Priority flow control (R244) -/

/-- A port is up (R239). -/
def Dev.portUp (d : Dev) (p : Nat) : Bool := if p = 0 then d.on F.FW_UPSTAT_A_UP else d.on F.FW_UPSTAT_B_UP

/-- PRI[c], the priority of class `c`. -/
def Dev.pri (d : Dev) (c : Nat) : Nat := getBits (d.word A.FW_PFC) (3 * c) 3

/-- PFCTX, acting as 0 while XON does not exceed XOFF (R245). -/
def Dev.pfcTx (d : Dev) : Bool := d.on F.FW_PFC_PFCTX && decide (d.rd F.FW_XOFF_XOFF < d.rd F.FW_XOFF_XON)

/-- The station address of a port (R325, R353). -/
def Dev.station (d : Dev) (p : Nat) : BitVec 48 :=
  if d.rstate = 2 then BitVec.ofNat 48 (0x020000000000 + d.root.otp.serial.toNat % 2 ^ 40)
  else BitVec.ofNat 48 (d.rd (F.ETH_SA_HI_SA p) * 2 ^ 32 + d.rd (F.ETH_SA_LO_SA p))

/-- PFC frames for every named priority on every port that is up. -/
def Dev.sendPfc (d : Dev) (quanta : Nat) : Dev :=
  let ps := ((List.range 4).map d.pri).eraseDups
  let fs := (((List.range 2).filter d.portUp).flatMap (fun p => ps.map (fun r =>
    ({ port := p, prio := r, quanta := quanta, src := d.station p } : PfcOut)))).reverse
  fs.foldl (fun d f => d.event 7 6 f.port 1) { d with pfcOut := fs ++ d.pfcOut }

/-- Pause below 16·XOFF free cells and resume at 16·XON (R244). -/
def Dev.pfcCheck (d : Dev) : Dev :=
  if !d.pfcTx then d
  else if !d.pfcOff ∧ d.freeCells < 16 * d.rd F.FW_XOFF_XOFF then
    { d.sendPfc (d.rd F.FW_PFC_QUANTA) with pfcOff := true, pfcAt := d.now }
  else if d.pfcOff ∧ 16 * d.rd F.FW_XOFF_XON ≤ d.freeCells then { d.sendPfc 0 with pfcOff := false }
  else d

/-- A write of FW_PFC or FW_XOFF: without PFCTX no pause is kept up; with it, the present free cells are judged (R244). -/
def Dev.pfcRetune (d : Dev) : Dev := if d.pfcTx then d.pfcCheck else { d with pfcOff := false }

/-! ### Ethernet frames that a port has begun on an uplink queue -/

/-- MAXFR of a port: the largest frame in octets, clamped to 64 to 16,416 (R352). -/
def Dev.maxFr (d : Dev) (p : Nat) : Nat := max 64 (min 16416 (d.rd (F.ETH_MAXFR_MAXFR p)))

/-- The frame in progress on a queue. -/
def Dev.ethOn (d : Dev) (q : Nat) : Option EthOut := d.ethOut.find? (fun e => e.queue == q && !e.done)

/-- Append octets to the frame in progress on a queue. -/
def Dev.ethAdd (d : Dev) (q : Nat) (bs : List Byte) : Dev :=
  { d with ethOut := d.ethOut.map (fun e => if e.queue = q ∧ !e.done then { e with content := e.content ++ bs } else e) }

/-- Octets of a frame on the line: padding, unless it is truncated, and the FCS (R238, R240, R352). -/
def EthOut.octets (e : EthOut) (truncated : Bool) : Nat :=
  (if truncated then 0 else 60 - (e.head.length + e.content.length)) + e.head.length + e.content.length + 4

/-- The channels that wait for the frame on a queue to end return to their port (R241). -/
def Dev.returnAfter (d : Dev) (q : Nat) : Dev :=
  let mine := d.returning.filter (fun e => decide (d.rd (F.FW_CHUP_UQBASE e.1) ≤ q) && decide (q ≤ d.rd (F.FW_CHUP_UQBASE e.1) + 3))
  let d := { d with returning := d.returning.filter (fun e => !mine.contains e) }
  mine.foldl (fun d e => d.wr (F.FW_CHUP_CUR e.1) e.2) d

/-- End the frame in progress on a queue; truncated frames end with an inverted FCS (R240, R254, R261), and one longer than
MAXFR is not sent (R352; log entry 138). -/
def Dev.ethEnd (d : Dev) (q : Nat) (truncated : Bool) : Dev :=
  match d.ethOn q with
  | some e =>
    let d := d.returnAfter q
    let n := e.octets truncated
    if d.maxFr e.port < n then { d with ethOut := d.ethOut.filter (fun x => !(x.queue == q && !x.done)) }
    else
      let key := 2 * (64 + e.port) + 1
      let d := { d.event 7 3 e.port n with bwSum := Tab.set 0 d.bwSum key (Tab.get 0 d.bwSum key + n) }
      { d with ethOut := d.ethOut.map (fun x => if x.queue = q ∧ !x.done then { x with done := true, truncated := truncated }
                                                else x) }
  | none => d

/-! ### Shallow queues -/

/-- The producer is inside an item (PRODOPEN). -/
def Shallow.openTail (s : Shallow) : Bool :=
  match s.items.getLast? with
  | some i => !i.complete
  | none => false

/-- Take the whole cells that hold only words already gone; an empty queue holds no cell.  Answers those cells. -/
def Shallow.trim (s : Shallow) : List Nat × Shallow :=
  if s.items = [] then (s.cells, { s with cells := [], gone := 0, fill := 0 })
  else
    let front := s.gone / 32
    let keep := ceilDiv s.fill 32
    (s.cells.take front ++ s.cells.drop keep,
     { s with cells := (s.cells.take keep).drop front, gone := s.gone % 32, fill := s.fill - 32 * front })

/-- Store a queue after items were detached from it; answers the cells that they held alone (R253). -/
def Dev.detachSh (d : Dev) (q : Nat) (s : Shallow) : List Nat × Dev :=
  let (cs, s) := s.trim
  (cs, d.setSh q s)

/-- Store a queue after a command, returning its spare cells to the free list or to the zeroing engine. -/
def Dev.putSh (d : Dev) (q : Nat) (s : Shallow) (zero : Bool) : Dev :=
  let (cs, s) := s.trim
  let d := d.setSh q s
  if zero then d.zeroCells cs else d.returnCells cs

/-- QMAX, 0 treated as 1. -/
def Dev.qmax (d : Dev) (q : Nat) : Nat := max 1 (d.rd (F.QS_CFG_QMAX q))

/-- The log of a queue in the present CCLK cycle. -/
def Dev.cyc (d : Dev) (l : CycleLog) : CycleLog := if l.cycle = d.cclk then l else { cycle := d.cclk }

/-- A push in the present cycle: `words` data words of the `need` words that it takes, with END or not (R252, R255). -/
def Dev.cycPush (d : Dev) (l : CycleLog) (words need : Nat) (ended : Bool) : CycleLog :=
  let l := d.cyc l
  { l with words := l.words + words, ends := l.ends + (if ended then 1 else 0), room := l.room.map (fun r => r - need) }

/-- Words freed in the present cycle become room in the next: the room before them, `room`, still counts (R255). -/
def Dev.cycFree (d : Dev) (l : CycleLog) (room : Nat) : CycleLog :=
  let l := d.cyc l
  { l with room := some (l.room.getD room) }

/-- A request of a port of the canvas for `n` words: granted unless the port has had its grant in this cycle, the cycle's 64 words
would be exceeded, or a request before it was turned away (R249). -/
def Grants.ask (g : Grants) (cycle port n : Nat) : Bool × Grants :=
  let g := if g.cycle = cycle then g else { cycle := cycle }
  if g.ports.contains port then (false, g)
  else if g.stop ∨ 64 < g.words + n then (false, { g with stop := true })
  else (true, { g with ports := port :: g.ports, words := g.words + n })

/-- Number of a queue's port: shallow queues first, deep queues after them (R249). -/
def portOf : QueueId → Nat
  | .shallow q => q.val
  | .deep q => 8192 + q.val

/-- A producer's request to push `n` words, and a consumer's to pop them: whether it is granted, and the device after it. -/
def Dev.askPush (d : Dev) (q : QueueId) (n : Nat) : Bool × Dev :=
  let r := d.pushes.ask d.cclk (portOf q) n
  (r.1, { d with pushes := r.2 })
def Dev.askPop (d : Dev) (q : QueueId) (n : Nat) : Bool × Dev :=
  let r := d.pops.ask d.cclk (portOf q) n
  (r.1, { d with pops := r.2 })

/-- Room that a push may use, of the room `room` that a queue has now (R255). -/
def Dev.cycRoom (d : Dev) (l : CycleLog) (room : Nat) : Nat := min room ((d.cyc l).room.getD room)

/-- Items but those that were completed, or begun and completed, in the present cycle: the ones complete at its start are among them
(R252, R255). -/
def Dev.cycItems (d : Dev) (l : CycleLog) (items : List Item) : List Item := items.take (items.length - (d.cyc l).ends)

/-- Room of a shallow queue in words (R251); `full` counts the cells up to QMAX whatever the free list holds. -/
def Dev.room (d : Dev) (q : Nat) (full : Bool) : Nat :=
  let s := d.sh q
  32 * s.cells.length - s.fill + (if full ∨ 0 < d.freeCells then 32 * (d.qmax q - s.cells.length) else 0)

/-- The channel that a queue names. -/
def Dev.qChan (d : Dev) : QueueId → Nat
  | .shallow q => d.rd (F.QS_OWN_CHAN q.val)
  | .deep q => d.rd (F.QD_BASE_CHAN q.val)

/-- The open item at the tail ends ABORT (R256, R257): an item not begun goes; one begun stays with every word poisoned. -/
def Dev.abortTail (d : Dev) (q : Nat) : Dev :=
  let s := d.sh q
  match s.items.getLast? with
  | none => d
  | some i =>
    if i.complete then d
    else if s.taking ∧ s.items.length = 1 then
      d.setSh q { s with items := [{ i with words := i.words.map (fun w => (w.1, true)), complete := true, aborted := true }] }
    else d.putSh q { s with items := s.items.dropLast, fill := s.fill - i.span, log := d.cycFree s.log (d.room q false) } true

/-- A push without room (R256). -/
def Dev.overrunSh (d : Dev) (q need : Nat) (ended : Bool) : Dev :=
  let pool := decide (d.ripen.free = []) && decide (need ≤ d.room q true)
  let d := ((d.raise (F.QS_STAT_OVERRUN q)).inc F.CV_CNT_OVERCNT).event 6 1 q 1
  let d := if pool then d.raise F.CV_STATUS_POOLEMPTY else d
  let d := d.abortTail q
  let d := d.setSh q { d.sh q with discard := !ended }
  d.cause causeOVERRUN { chan := some (d.rd (F.QS_OWN_CHAN q)) }

/-- The items after words are pushed at the tail (R250): a new item begins unless one is open; `last` carries END with the
count of valid octets. -/
def pushItems (items : List Item) (isOpen : Bool) (cls : Nat) (words : List (Word64 × Bool)) (last : Option Nat) : List Item :=
  let i := if isOpen then items.getLast?.getD {} else { cls := cls }
  let rest := if isOpen then items.dropLast else items
  let len := i.len + 8 * words.length
  rest ++ [{ i with words := i.words ++ words, len := (match last with | some n => len - 8 + n | none => len),
                    complete := last.isSome }]

/-- Push words into a shallow queue (R250 to R256). -/
def Dev.pushShallow (d : Dev) (q cls : Nat) (words : List Word64) (last : Option Nat) : Dev :=
  let s := d.sh q
  if !d.on (F.QS_CFG_EN q) then d
  else if s.discard then d.setSh q { s with discard := last.isNone }
  else
    let need := words.length + (if s.openTail then 0 else 1)
    let more := ceilDiv (s.fill + need) 32 - s.cells.length
    let d := d.ripen
    match takeRuns more d.free with
    | none => d.overrunSh q need last.isSome
    | some (cs, free) =>
      if d.cycRoom s.log (d.room q false) < need then d.overrunSh q need last.isSome
      else
        let items := pushItems s.items s.openTail cls (words.map (fun w => (w, false))) last
        let d := { d with free := free }.setSh q
          { s with items := items, cells := s.cells ++ cs, fill := s.fill + need,
                   log := d.cycPush s.log words.length need last.isSome }
        if last.isSome then d.event 6 0 q 1 else d

/-- Push the rest of an item, eight words at a time. -/
def Dev.pushGroups (d : Dev) (q cls octets : Nat) : List (List Word64) → Dev
  | [] => d
  | [g] => d.pushShallow q cls g (some ((octets + 7) % 8 + 1))
  | g :: l => Dev.pushGroups (d.pushShallow q cls g none) q cls octets l

/-- Push a content as one item; words that the producer has already pushed of it are passed over. -/
def Dev.pushContent (d : Dev) (q cls : Nat) (content : List Byte) : Dev :=
  let s := d.sh q
  let done := if s.openTail then (s.items.getLast?.getD {}).len / 8 else 0
  d.pushGroups q cls content.length (groups8 ((wordsOf content).drop done))

/-- Cut-through threshold in data words (R253). -/
def Dev.cutThrough (d : Dev) (q : Nat) : Nat := min 2048 (d.rd (F.QS_CFG_CT q))

/-- Words of the first item that were pushed in the present cycle, which its consumer does not see yet (R255). -/
def Dev.newWords (d : Dev) (q : Nat) : Nat :=
  let s := d.sh q
  (d.cyc s.log).words - ((s.items.drop 1).map (fun i => i.words.length)).sum

/-- The consumer may begin the next item (R253). -/
def Dev.mayBegin (d : Dev) (q : Nat) : Bool :=
  let s := d.sh q
  !s.taking && (match s.items with
    | i :: _ => (i.complete && d.newWords q == 0) ||
        (d.cutThrough q != 0 && decide (d.cutThrough q ≤ i.words.length - d.newWords q))
    | [] => false)

/-- The consumer begins the first item: its item word is gone. -/
def Dev.beginItem (d : Dev) (q : Nat) : Dev :=
  let s := d.sh q
  d.setSh q { s with taking := true, gone := s.gone + 1 }

/-- PRUNE (R258). -/
def Dev.prune (d : Dev) (q : Nat) : Dev :=
  let s := d.sh q
  match s.items with
  | i :: l =>
    if s.taking then
      ((d.putSh q { s with items := l, gone := s.gone + i.words.length, taking := false,
                           discard := s.discard || !i.complete, log := d.cycFree s.log (d.room q false) } true).inc F.CV_CNT2_PRUNECNT).event 6 2 q 1
    else d
  | [] => d

/-- FLUSH of a shallow queue (R259). -/
def Dev.flushShallow (d : Dev) (q : Nat) : Dev :=
  let s := d.sh q
  let part := s.openTail
  let d := d.putSh q { s with items := [], taking := false, discard := s.discard || part, log := {} } true
  let d := if part then (d.raise (F.QS_STAT_FLUSHPART q)).inc F.CV_CNT2_FLPCNT else d
  if s.taking then d.ethEnd q true else d

/-- The port that serves an uplink queue ends its frame and prunes the item (R240, R254, R261). -/
def Dev.cutFrame (d : Dev) (q : Nat) : Dev := (d.ethEnd q true).prune q

/-- A structural parity failure: the queue is flushed; the cells past the first are cut off (R260, R413). -/
def Dev.linkError (d : Dev) (q : Nat) : Dev :=
  let s := d.sh q
  let d := d.setSh q { s with cells := s.cells.take 1 }
  ((d.flushShallow q).raise F.CV_STATUS_LINKERR).cause causePARITY { chan := some (d.rd (F.QS_OWN_CHAN q)) }

/-- Pop at most `n` words of the item begun; `bad` is the popped word that fails parity (R255, R257, R260, R261), and the last
`late` words of the item were pushed in this cycle. -/
def Dev.popWords (d : Dev) (q n : Nat) (bad : Option Nat) (late : Nat) : Dev :=
  let s := { d.sh q with log := d.cycFree (d.sh q).log (d.room q false) }
  match s.items with
  | [] => d
  | i :: l =>
    if !s.taking then d
    else
      let whole := i.complete && late == 0
      let got := (i.words.take (i.words.length - late)).take n
      let flaw := (bad.map (fun b => decide (b < got.length))).getD false
      let ch := d.rd (F.QS_OWN_CHAN q)
      let d := if flaw then ((d.raise (F.QS_STAT_POISON q)).cause causePARITY { chan := some ch }).cause causePOISON
          { chan := some ch } else d
      let d := d.event 6 3 q ((got.filter Prod.snd).length + (if flaw then 1 else 0))
      -- words before the first poisoned one leave on the port
      let clean := (got.takeWhile (fun w => !w.2)).take (if flaw then bad.getD 0 else n)
      let sent := (clean.flatMap (fun w => octetsOf w.1)).take
        (if whole then i.len - ((d.ethOn q).map (fun e => e.content.length)).getD 0 else 8 * n)
      let port := (d.ethOn q).isSome
      let d := d.ethAdd q sent
      let rest := i.words.drop got.length
      if port ∧ clean.length < got.length then
        (d.setSh q { s with items := { i with words := rest } :: l, gone := s.gone + got.length }).cutFrame q
      else if rest = [] ∧ whole then
        (d.putSh q { s with items := l, gone := s.gone + got.length, taking := false } i.aborted).ethEnd q i.aborted
      else if port ∧ i.words.length - late < n then
        -- R254: the port needs a word that has not been pushed
        let d := d.setSh q { s with items := { i with words := rest } :: l, gone := s.gone + got.length }
        ((d.cutFrame q).raise (F.QS_STAT_UNDERRUN q)).cause causeOVERRUN { chan := some ch }
      else d.putSh q { s with items := { i with words := rest } :: l, gone := s.gone + got.length } i.aborted

/-- Pop from a shallow queue: a queue that no port serves begins its next item with the pop. -/
def Dev.popShallow (d : Dev) (q n : Nat) (bad : Option Nat) : Dev :=
  let d := if (d.ethOn q).isNone ∧ d.mayBegin q then d.beginItem q else d
  d.popWords q n bad (d.newWords q)

/-- The first item, complete and not begun, is popped whole. -/
def Dev.popItem (d : Dev) (q : Nat) : Dev := (d.beginItem q).popWords q ((d.sh q).items.head?.getD {}).words.length none 0

/-! ### Deep queues (R262 to R266) -/

def Dev.dHead (d : Dev) (q : Nat) : Nat := d.rd (F.QD_HEAD_POS q)
def Dev.dTail (d : Dev) (q : Nat) : Nat := d.rd (F.QD_TAIL_POS q)
def Dev.dRd (d : Dev) (q : Nat) : Nat := d.rd (F.QD_RD_POS q)
def Dev.dMark (d : Dev) (q : Nat) : Nat := d.rd (F.QD_MARK_POS q)
def Dev.dHwm (d : Dev) (q : Nat) : Nat := d.rd (F.QD_HWM_POS q)

/-- Distance between two ring positions (R262). -/
def ringDist (a b : Nat) : Nat := (b + 2 ^ 32 - a) % 2 ^ 32

/-- Whether the sector at RD is being fetched into read staging: it is no longer in write staging (R263). A fetch that begins is
a job of cluster X (R270, R370). -/
def Dev.deepFetch (d : Dev) (q : Nat) : Dev :=
  let s := d.dq q
  let far := decide (d.dRd q ≠ d.dTail q) &&
    decide (s.full < (ringDist (d.dRd q) (d.dTail q) + d.dRd q % 512) / 512)
  (d.setDq q { s with reading := far }).event 8 1 1 (if far && !s.reading then 1 else 0)

/-- The producer is inside an item of a deep queue. -/
def Deep.openTail (s : Deep) : Bool :=
  match s.items.getLast? with
  | some i => !i.complete
  | none => false

/-- The item word (R250); LEN is 0 while the item is OPEN. -/
def Item.word (i : Item) : Word64 :=
  BitVec.ofNat 64 ((if i.complete then i.len * 2 ^ 50 else 0) + i.cls % 4 * 2 ^ 48 + (if i.complete then 2 ^ 46 else 0) +
    (if i.void then 2 ^ 45 else 0))

/-- The words of a deep queue from HEAD to TAIL: each item behind its item word (R262). -/
def Deep.ring (s : Deep) : List Word64 := s.items.flatMap (fun i => i.word :: i.words.map Prod.fst)

/-- The words at ring positions `p` to `p + n − 1`; one that a RELEASE has passed reads 0 (log entry 164). -/
def Dev.ringWords (d : Dev) (q p n : Nat) : List Word64 :=
  let gone := if ringDist p (d.dHead q) < 2 ^ 31 then ringDist p (d.dHead q) else 0
  (List.replicate gone 0 ++ (d.dq q).ring.drop (if gone = 0 then ringDist (d.dHead q) p else 0) ++ List.replicate n 0).take n

/-- Number of the block that holds ring position `p` (R262). -/
def Dev.ringBlock (d : Dev) (q p : Nat) : Nat := 256 * d.rd (F.QD_BASE_DBASE q) + p % (512 * 2 ^ d.rd (F.QD_CFG_DLOG q)) / 2

/-- The blocks of words, two words to a block. -/
def pairBlocks : List Word64 → List (BitVec 128)
  | a :: b :: l => blockOf (octetsOf a ++ octetsOf b) :: pairBlocks l
  | _ => []

/-- Words of the ring that still stand in write staging (R263). -/
def Dev.staged (d : Dev) (q : Nat) : Nat := 512 * (d.dq q).full + d.dTail q % 512

/-- The item word at `p` is rewritten: in staging, or by a read-modify-write of its block in cluster X (R250, R265, R298). -/
def Dev.rewriteWord (d : Dev) (q p : Nat) : Dev :=
  if ringDist p (d.dTail q) ≤ d.staged q then d
  else ((d.hbmWrite (d.ringBlock q p) (pairBlocks (d.ringWords q (p - p % 2) 2))).event 8 1 1 1).event 8 0 1 1

/-- Room of a deep queue in words (R262). -/
def Dev.deepRoom (d : Dev) (q : Nat) : Nat := 512 * 2 ^ d.rd (F.QD_CFG_DLOG q) - ringDist (d.dHead q) (d.dTail q)

/-- Drop the open item at the tail of a deep queue. -/
def Dev.dropDeepTail (d : Dev) (q : Nat) : Dev :=
  let s := d.dq q
  match s.items.getLast? with
  | none => d
  | some i =>
    if i.complete then d
    else
      let tail := (d.dTail q + 2 ^ 32 - i.span) % 2 ^ 32
      (d.setDq q { s with items := s.items.dropLast, full := (d.staged q - i.span) / 512, wfill := tail % 512,
                          log := d.cycFree s.log (d.deepRoom q) }).wr
        (F.QD_TAIL_POS q) tail

/-- Push words whose staging space is free. -/
def Dev.pushDeepNow (d : Dev) (q cls : Nat) (words : List (Word64 × Bool)) (last : Option Nat) : Dev :=
  let s := d.dq q
  let need := words.length + (if s.openTail then 0 else 1)
  if d.cycRoom s.log (d.deepRoom q) < need then
    let d := ((d.raise (F.QD_STAT_OVERRUN q)).inc F.CV_CNT_OVERCNT).event 6 1 (4096 + q) 1
    let d := d.dropDeepTail q
    let d := d.setDq q { d.dq q with discard := last.isNone }
    d.cause causeOVERRUN { chan := some (d.rd (F.QD_BASE_CHAN q)) }
  else
    let fill := d.dTail q % 512 + need
    let d := ((d.setDq q { s with items := pushItems s.items s.openTail cls words last, full := s.full + fill / 512,
                                  wfill := fill % 512,
                                  log := d.cycPush s.log words.length need last.isSome }).wr (F.QD_TAIL_POS q)
                                    (d.dTail q + need)).event 8 1 1 (fill / 512)
    if last.isSome then
      let span := ((d.dq q).items.getLast?.getD {}).span
      (d.rewriteWord q ((d.dTail q + 2 ^ 32 - span) % 2 ^ 32)).event 6 0 (4096 + q) 1
    else d

/-- Sector operations that cluster X has before it: full write staging sectors to encrypt, and sectors to decrypt (R298). -/
def Dev.sectorOps (d : Dev) : Nat := (d.deep.map (fun e => e.2.full + (if e.2.reading then 1 else 0))).sum

/-- A push of `need` words into a deep queue finds its staging: no staging sector more than the two is needed, and the sector
operation that it may complete is not one beyond 32 (R263, R298). -/
def Dev.stagingFor (d : Dev) (q need : Nat) : Bool :=
  decide (512 * (d.dq q).full + d.dTail q % 512 + need ≤ 1024) && (decide (d.dTail q % 512 + need < 512) || decide (d.sectorOps < 32))

/-- Push into a deep queue; a push that finds no staging sector free, or 32 sector operations waiting, waits (R263, R298). -/
def Dev.pushDeep (d : Dev) (q cls : Nat) (words : List (Word64 × Bool)) (last : Option Nat) : Dev :=
  let s := d.dq q
  if !d.on (F.QD_CFG_EN q) then d
  else if s.discard then d.setDq q { s with discard := last.isNone }
  else if s.waiting ≠ [] ∨ !d.stagingFor q (words.length + (if s.openTail then 0 else 1)) then
    d.setDq q { s with waiting := s.waiting ++ [(words, last, cls)] }
  else d.pushDeepNow q cls words last

/-- Push a content into a deep queue, eight words at a time. -/
def Dev.pushDeepGroups (d : Dev) (q cls octets : Nat) : List (List Word64) → Dev
  | [] => d
  | [g] => d.pushDeep q cls (g.map (fun w => (w, false))) (some ((octets + 7) % 8 + 1))
  | g :: l => Dev.pushDeepGroups (d.pushDeep q cls (g.map (fun w => (w, false))) none) q cls octets l

def Dev.pushDeepContent (d : Dev) (q cls : Nat) (content : List Byte) : Dev :=
  d.pushDeepGroups q cls content.length (groups8 (wordsOf content))

/-- Items of a deep queue that are not VOID and lie before RD: sent and not acknowledged. -/
def Dev.outstandingDq (d : Dev) (q : Nat) : Nat :=
  let l := (d.dq q).items
  let rest := (Deep.itemsFrom l (d.dqTaken q)).length
  ((l.take (l.length - rest)).filter (fun i => !i.void)).length

/-- TXSEQ is the DSEQ of the item at RD (R264). -/
def Dev.followRd (d : Dev) (i : Nat) : Dev :=
  if d.on (N.DQV i) then d.wr (N.TXSEQ i) (d.rd (N.ACKA i) + d.outstandingDq (d.rd (N.DQ i))) else d

/-- TXSEQ of the entry that names a deep queue follows its RD. -/
def Dev.followQueue (d : Dev) (q : Nat) : Dev :=
  match d.entriesUsed.find? (fun i => d.on (N.DQV i) && d.rd (N.DQ i) == q) with
  | some i => d.followRd i
  | none => d

/-- The pushes that wait for staging go on (R263). -/
def Dev.pushWaiting (d : Dev) (q : Nat) (l : List (List (Word64 × Bool) × Option Nat × Nat)) : Dev :=
  l.foldl (fun d w => d.pushDeep q w.2.2 w.1 w.2.1) d

/-- FLUSH of a deep queue (R266 with R259).  A push that waits for staging has not been made: one that continues the partial item is
discarded, and an item that begins with one is accepted into the emptied queue. -/
def Dev.flushDeep (d : Dev) (q : Nat) : Dev :=
  let s := d.dq q
  let part := s.openTail
  let t := d.dTail q
  let d := (((d.wr (F.QD_HEAD_POS q) t).wr (F.QD_MARK_POS q) t).wr (F.QD_RD_POS q) t).wr (F.QD_HWM_POS q) t
  let d := d.setDq q { s with items := [], discard := s.discard || part, full := 0, reading := false, rstage := [], waiting := [], log := {} }
  let d := if part then (d.raise (F.QD_STAT_FLUSHPART q)).inc F.CV_CNT2_FLPCNT else d
  (d.followQueue q).pushWaiting q s.waiting

/-- ABORT of a deep queue's open item (R257): what of it still waits for staging goes, and what stands in the ring with it unless
an END that waits completes that. -/
def Dev.abortDeep (d : Dev) (q : Nat) : Dev :=
  let w := (d.dq q).waiting
  let part := (w.reverse.takeWhile (fun x => x.2.1.isNone)).length
  let d := if part = w.length then d.dropDeepTail q else d
  d.setDq q { d.dq q with discard := false, waiting := w.take (w.length - part) }

/-- Flush a queue and disable it; a deep queue gives up its staging cells, zeroed (R266, R268). -/
def Dev.disableShallow (d : Dev) (q : Nat) : Dev :=
  let d := (d.flushShallow q).wr (F.QS_CFG_EN q) 0
  d.setSh q { d.sh q with discard := false }

def Dev.disableDeep (d : Dev) (q : Nat) : Dev :=
  let d := (d.wr (F.QD_CFG_EN q) 0).flushDeep q
  let cells := (d.dq q).staging
  (d.setDq q {}).zeroCells cells

/-- Sectors that count as rings of enabled deep queues: the association store (R280), the restore records (R342) and the
repair copy (R414). -/
def reservedRings : List (Nat × Nat) := [(0, 4096), (4096, 192), (4288, 4096)]

/-- Rings of the enabled deep queues but one. -/
def Dev.ringsBut (d : Dev) (q : Nat) : List (Nat × Nat) :=
  reservedRings ++ (d.deep.filter (fun e => e.1 ≠ q && d.on (F.QD_CFG_EN e.1))).map
    (fun e => (d.rd (F.QD_BASE_DBASE e.1), 2 ^ d.rd (F.QD_CFG_DLOG e.1)))

/-- The checks of R268 on setting EN of a deep queue with DLOG `dlog`. -/
def Dev.deepOk (d : Dev) (q dlog : Nat) : Bool :=
  let base := d.rd (F.QD_BASE_DBASE q)
  decide (dlog ≤ 22) && decide (base + 2 ^ dlog ≤ 4194304) &&
  (d.ringsBut q).all (fun r => decide (r.1 + r.2 ≤ base) || decide (base + 2 ^ dlog ≤ r.1)) &&
  d.domOn 78 && decide (48 ≤ d.freeCells)

/-- Set EN of a deep queue whose other fields are `v`: 48 staging cells are taken, or QREJ is set (R263, R268). -/
def Dev.enableDeep (d : Dev) (q : Nat) (v : Word32) : Dev :=
  let d := d.ripen
  match takeRuns 48 d.free with
  | none => d.raise F.CV_STATUS_QREJ
  | some (cs, free) =>
    if d.deepOk q (getBits v 0 5) then
      ({ d with free := free }.setWord (A.QD_CFG q) v).setDq q { staging := cs }
    else d.raise F.CV_STATUS_QREJ

/-- Set EN of a queue (R268). -/
def Dev.enableQueue (d : Dev) : QueueId → Dev
  | .shallow q => d.wr (F.QS_CFG_EN q.val) 1
  | .deep q => if d.on (F.QD_CFG_EN q.val) then d else d.enableDeep q.val (putBits (d.word (A.QD_CFG q.val)) 8 1 1)

def Dev.disableQueue (d : Dev) : QueueId → Dev
  | .shallow q => if d.on (F.QS_CFG_EN q.val) then d.disableShallow q.val else d
  | .deep q => if d.on (F.QD_CFG_EN q.val) then d.disableDeep q.val else d

def Dev.queueOn (d : Dev) : QueueId → Bool
  | .shallow q => d.on (F.QS_CFG_EN q.val)
  | .deep q => d.on (F.QD_CFG_EN q.val)

def Dev.flushQueue (d : Dev) : QueueId → Dev
  | .shallow q => d.flushShallow q.val
  | .deep q => d.flushDeep q.val

/-- Every deep queue is emptied and disabled: PD_HBM goes off, or an alarm erases the keys (R266). -/
def Dev.dropAllDeep (d : Dev) : Dev := d.deep.foldl (fun d e => d.disableDeep e.1) d

/-- The domain of a channel goes off: its queues with RETAIN 0 are flushed (R267). -/
def Dev.flushChannel (d : Dev) (k : Nat) : Dev :=
  let d := d.shallow.foldl (fun d e =>
    if d.rd (F.QS_OWN_CHAN e.1) = k ∧ !d.on (F.QS_CFG_RETAIN e.1) then d.flushShallow e.1 else d) d
  d.deep.foldl (fun d e =>
    if d.rd (F.QD_BASE_CHAN e.1) = k ∧ !d.on (F.QD_CFG_RETAIN e.1) then d.flushDeep e.1 else d) d

/-! ### Deep-queue commands (R264, R265) -/

/-- Items passed by RELEASE: from HEAD, `left` words before RD, `n` items to pass.  Answers what stays, the words passed
and whether `n` items were found. -/
def releaseItems : List Item → Nat → Nat → List Item × Nat × Bool
  | l, _, 0 => (l, 0, true)
  | [], _, _ + 1 => ([], 0, false)
  | i :: l, left, n + 1 =>
    if left < i.span then (i :: l, 0, false)
    else
      let r := releaseItems l (left - i.span) (if i.void then n + 1 else n)
      (r.1, r.2.1 + i.span, r.2.2)

/-- RD moves by a command of a TX step: a RELEASE of the same cycle comes before it (R264). -/
def Dev.moveRd (d : Dev) (q rd : Nat) : Dev :=
  let l := d.cyc (d.dq q).log
  (d.setDq q { d.dq q with log := { l with rd := some (l.rd.getD (d.dRd q)) } }).wr (F.QD_RD_POS q) rd

/-- Words from HEAD to RD as a RELEASE of this cycle finds them. -/
def Dev.releasable (d : Dev) (q : Nat) : Nat := ringDist (d.dHead q) (((d.cyc (d.dq q).log).rd).getD (d.dRd q))

/-- RELEASE n (R264). -/
def Dev.release (d : Dev) (q n : Nat) : Dev :=
  let s := d.dq q
  let r := releaseItems s.items (d.releasable q) n
  let head := (d.dHead q + r.2.1) % 2 ^ 32
  let behind := decide (ringDist (d.dHead q) (d.dMark q) < r.2.1)
  let passed := decide (d.dqTaken q < r.2.1)
  let d := (d.setDq q { s with items := r.1, log := d.cycFree s.log (d.deepRoom q) }).wr (F.QD_HEAD_POS q) head
  let d := if behind then d.wr (F.QD_MARK_POS q) head else d
  let d := if passed then d.wr (F.QD_RD_POS q) head else d
  if r.2.2 then d else d.raise (F.QD_STAT_RELERR q)

/-- REWIND HEAD (R264). -/
def Dev.rewindHead (d : Dev) (q : Nat) : Dev :=
  let h := d.dHead q
  (((d.moveRd q h).wr (F.QD_MARK_POS q) h).inc (F.LF_CNT2_REWINDCNT (d.rd (F.QD_BASE_CHAN q)))).deepFetch q

/-- REWIND MARK (R264). -/
def Dev.rewindMark (d : Dev) (q : Nat) : Dev := (d.moveRd q (d.dMark q)).deepFetch q

/-- MARK (R264). -/
def Dev.markDeep (d : Dev) (q : Nat) : Dev := d.wr (F.QD_MARK_POS q) (d.dRd q)

/-- Items of a shallow queue that the consumer has had notice of and not consumed (R252). -/
def Dev.ready (d : Dev) (q : Nat) : Nat := { d.sh q with items := d.cycItems (d.sh q).log (d.sh q).items }.complete

/-- Items of a deep queue from RD on, complete and not VOID, that the consumer has had notice of (R252). -/
def Dev.deepReady (d : Dev) (q : Nat) : Nat :=
  ((Deep.itemsFrom (d.cycItems (d.dq q).log (d.dq q).items) (d.dqTaken q)).filter (fun i => i.complete && !i.void)).length

/-- Complete items from RD to TAIL that are not VOID (QD_STAT.ITEMS). -/
def Dev.deepItems (d : Dev) (q : Nat) : Nat :=
  ((Deep.itemsFrom (d.dq q).items (d.dqTaken q)).filter (fun i => i.complete && !i.void)).length

/-- HWM becomes the later of HWM and RD. -/
def Dev.raiseHwm (d : Dev) (q : Nat) : Dev :=
  if ringDist (d.dHead q) (d.dHwm q) < ringDist (d.dHead q) (d.dRd q) ∨
     ringDist (d.dHead q) (d.dTail q) < ringDist (d.dHead q) (d.dHwm q)
  then d.wr (F.QD_HWM_POS q) (d.dRd q) else d

/-- Set VOID in the item at `pos` words from HEAD (R265). -/
def voidAt : List Item → Nat → List Item
  | [], _ => []
  | i :: l, 0 => { i with void := true } :: l
  | i :: l, n => i :: voidAt l (n - i.span)

/-! ### The commands -/

/-- QUEUE_PUSH (R249 to R256, R263): the request of a producer's port for up to eight words, which waits with the producer where
it is not granted (log entry 185); a push of none, of more, or an END that counts no octet is no push (log entry 4). -/
def execQueuePush (t : Nat) (q : QueueId) (cls : Fin 4) (words : List Word64) (last : Option (Fin 9)) (s : State) :
    Host.Outcome State Fault Refusal :=
  s.runClk t (fun d =>
    if words = [] ∨ 8 < words.length ∨ last = some 0 ∨ !d.domOn 76 then d
    else
      let (ok, d) := d.askPush q words.length
      if !ok then d
      else match q with
      | .shallow q => (d.pushShallow q.val cls.val words (last.map Fin.val)).pfcCheck
      | .deep q => d.pushDeep q.val cls.val (words.map (fun w => (w, false))) (last.map Fin.val))

/-- A word of a deep queue that fails parity as it is read: from then on it carries the poison tag (R260). -/
def Dev.poisonDeep (d : Dev) (q n : Nat) : Dev :=
  let s := d.dq q
  let before := s.items.length - (Deep.itemsFrom s.items (d.dqTaken q)).length
  match s.items[before]? with
  | none => d
  | some i =>
    if n < i.words.length then
      let i := { i with words := i.words.modify n (fun w => (w.1, true)) }
      ((((d.setDq q { s with items := s.items.set before i }).event 6 3 (4096 + q) 1).raise
        (F.QD_STAT_POISON q)).cause causePARITY
        { chan := some (d.rd (F.QD_BASE_CHAN q)) }).cause causePOISON { chan := some (d.rd (F.QD_BASE_CHAN q)) }
    else d

/-- A word of the first item of a shallow queue that no consumer has begun fails parity as a TX step reads it: from then on it
carries the poison tag (R260). -/
def Dev.poisonShallow (d : Dev) (q n : Nat) : Dev :=
  let s := d.sh q
  match s.items, s.taking with
  | i :: l, false =>
    if n < i.words.length then
      let ch := d.rd (F.QS_OWN_CHAN q)
      let i := { i with words := i.words.modify n (fun w => (w.1, true)) }
      ((((d.setSh q { s with items := i :: l }).event 6 3 q 1).raise (F.QS_STAT_POISON q)).cause causePARITY { chan := some ch }).cause
        causePOISON { chan := some ch }
    else d
  | _, _ => d

/-- QUEUE_POP (R249, R254, R255, R257, R260, R261): the request of a consumer's port for up to eight words; an item word or link
entry that fails parity flushes the queue. The items of a node queue leave it by a TX step: a row of no words reports the word
that fails parity as that step reads it, `badWord` of the first item, or of the item at RD of a deep queue (log entry 185). -/
def execQueuePop (t : Nat) (q : QueueId) (n : Nat) (badWord : Option Nat) (badLink : Bool) (s : State) :
    Host.Outcome State Fault Refusal :=
  s.runClk t (fun d =>
    match q with
    | .shallow q =>
      if badLink ∧ (d.sh q.val).cells ≠ [] then (d.linkError q.val).pfcCheck
      else if n = 0 then (match badWord with | some b => d.poisonShallow q.val b | none => d)
      else if 8 < n then d
      else
        let (ok, d) := d.askPop (.shallow q) n
        if ok then (d.popShallow q.val n badWord).pfcCheck else d
    | .deep q =>
      if badLink ∧ d.on (F.QD_CFG_EN q.val) then
        ((d.flushDeep q.val).raise F.CV_STATUS_LINKERR).cause causePARITY { chan := some (d.rd (F.QD_BASE_CHAN q.val)) }
      else match badWord with
        | some b => d.poisonDeep q.val b
        | none => d)

/-- PRUNE (R258); the frame that a port has begun on the queue ends truncated. -/
def execPrune (t : Nat) (q : Fin 8192) (s : State) : Host.Outcome State Fault Refusal :=
  s.runClk t (fun d => if (d.sh q.val).taking then d.cutFrame q.val else d)

/-- FLUSH (R259, R266) of an enabled queue. -/
def execFlush (t : Nat) (q : QueueId) (s : State) : Host.Outcome State Fault Refusal :=
  s.runClk t (fun d => if d.queueOn q then d.flushQueue q else d)

/-- ABORT (R257) by the producer. -/
def execAbort (t : Nat) (q : QueueId) (s : State) : Host.Outcome State Fault Refusal :=
  s.runClk t (fun d =>
    match q with
    | .shallow q => let d := d.abortTail q.val; d.setSh q.val { d.sh q.val with discard := false }
    | .deep q => d.abortDeep q.val)

/-- ZEROING_DONE (R257): the first cell of the zeroing engine is clean and returns to the free list (R247). -/
def execZeroingDone (t : Nat) (s : State) : Host.Outcome State Fault Refusal :=
  s.runClk t (fun d =>
    match d.zeroing with
    | c :: l => ({ d with zeroing := l }.returnCell c).pfcCheck
    | [] => d)

/-- The oldest full write staging sector goes to HBM, encrypted under its sector number (R262, R263, R297). -/
def Dev.encryptSector (d : Dev) (q : Nat) : Dev :=
  let p := (d.dTail q + 2 ^ 32 - d.staged q) % 2 ^ 32
  d.hbmWrite (d.ringBlock q p) (pairBlocks (d.ringWords q p 512))

/-- QUEUE_ENABLE (R263, R268). -/
def execQueueEnable (t : Nat) (q : QueueId) (s : State) : Host.Outcome State Fault Refusal :=
  s.runClk t (fun d => if d.domOn 76 then (d.enableQueue q).pfcCheck else d)

/-- QUEUE_DISABLE (R259, R268). -/
def execQueueDisable (t : Nat) (q : QueueId) (s : State) : Host.Outcome State Fault Refusal :=
  s.runClk t (fun d => d.disableQueue q)

/-- HALF1_SET (R247). -/
def execHalf1Set (t : Nat) (s : State) : Host.Outcome State Fault Refusal :=
  s.runClk t (fun d => if d.domOn 76 then (d.writeHalf1 true).pfcCheck else d)

/-- HALF1_CLEAR (R248). -/
def execHalf1Clear (t : Nat) (s : State) : Host.Outcome State Fault Refusal :=
  s.runClk t (fun d => if d.domOn 76 then (d.writeHalf1 false).pfcCheck else d)

/-- The pause is repeated QUANTA/2 quanta of 1.28 ns after it was last sent (R243, R244). -/
def Dev.pfcDue (d : Dev) : Bool := decide (d.pfcAt + ceilDiv (d.rd F.FW_PFC_QUANTA * 64) 100 ≤ d.now)

/-- PFC_REPEAT (R244): the pause is sent again while the free cells stay below 16·XON. -/
def execPfcRepeat (t : Nat) (s : State) : Host.Outcome State Fault Refusal :=
  s.runClk t (fun d =>
    if d.pfcTx ∧ d.pfcOff ∧ d.freeCells < 16 * d.rd F.FW_XOFF_XON then
      (if d.pfcDue then { d.sendPfc (d.rd F.FW_PFC_QUANTA) with pfcAt := d.now } else d)
    else d.pfcCheck)

end Sys2Proof.Machine
end

