-- ==== Sys2Proof/Machine/Node.lean ====
section
/-! DEFINITION. The node table: entry fields, scopes, lookup, live fields, and the shadow slots (R224 to R234, R448). -/

namespace Sys2Proof.Machine

open Sys2Proof

/-- STATE values of an entry. -/
def stABSENT : Nat := 0
def stJOINING : Nat := 1
def stACTIVE : Nat := 2
def stLOST : Nat := 3

/-- The transmit frame counter of an entry. -/
def Dev.fctr (d : Dev) (i : Nat) : Nat := d.rd (N.FCTRLO i) + 2 ^ 32 * d.rd (N.FCTRHI i)
def Dev.setFctr (d : Dev) (i v : Nat) : Dev := d.wr64 (N.FCTRLO i) (N.FCTRHI i) v

/-- NONCE_H of a JOINING entry. -/
def Dev.nonceH (d : Dev) (i : Nat) : BitVec 64 := BitVec.ofNat 64 (d.rd (N.W11 i) * 2 ^ 32 + d.rd (N.W12 i))

/-- The espalier of an entry: its hops up to the first zero (R227). -/
def Dev.espalier (d : Dev) (i : Nat) : List Nat :=
  [d.rd (N.ESP1 i), d.rd (N.ESP2 i), d.rd (N.ESP3 i)].takeWhile (fun a => a ≠ 0)

/-- A word of the entry disagrees with its parity bit (R224). -/
def Dev.entryBad (d : Dev) (i : Nat) : Bool := (List.range 16).any (fun w => d.badParity.contains (nodeWord i w))

/-! ### Scopes and lookup (R225, R226) -/

/-- The lead of a channel's bundle (R26). -/
def Dev.lead (d : Dev) (k : Nat) : Nat :=
  match d.rd (F.LIF_CFG_BUNDLE k) with
  | 1 => k / 2 * 2
  | 2 => k / 4 * 4
  | _ => k

/-- The members of a channel's bundle. -/
def Dev.members (d : Dev) (k : Nat) : List Nat :=
  match d.rd (F.LIF_CFG_BUNDLE k) with
  | 1 => [k / 2 * 2, k / 2 * 2 + 1]
  | 2 => [k / 4 * 4, k / 4 * 4 + 1, k / 4 * 4 + 2, k / 4 * 4 + 3]
  | _ => [k]

/-- First and number of entries of the scope that a channel uses. -/
def Dev.scope (d : Dev) (k : Nat) : Nat × Nat :=
  (d.rd (F.FW_SCOPE_BASE (d.lead k)), d.rd (F.FW_SCOPE_SIZE (d.lead k)))

/-- The entries of a channel's scope that hold a word other than 0. -/
def Dev.scopeEntries (d : Dev) (k : Nat) : List Nat :=
  d.entriesUsed.filter (fun i => (d.scope k).1 ≤ i && i < (d.scope k).1 + (d.scope k).2)

/-- The lookup of R226; an entry that fails parity counts as unused (R224). -/
def Dev.lookup (d : Dev) (k a : Nat) : Option Nat :=
  let (base, size) := d.scope k
  if a = 0x1FFFF then (if d.entryBad base then none else some base)
  else if base < a ∧ a < base + size ∧ d.rd (N.ADDR a) = a ∧ d.rd (N.KIND a) ≠ 0 ∧ !d.entryBad a ∧
      (d.rd (N.CHAN a) = k ∨ d.rd (N.CHAN a) = d.lead k) then some a
  else none

/-- A read of an entry that fails parity records PARITY (R224). -/
def Dev.entryParity (d : Dev) (k i : Nat) : Dev :=
  if d.entryBad i then d.cause causePARITY { chan := some k } else d

/-- The entry that a lookup of address `a` on channel `k` would read, its ADDR, KIND and CHAN aside (R226). -/
def Dev.lookupAt (d : Dev) (k a : Nat) : Option Nat :=
  let (base, size) := d.scope k
  if a = 0x1FFFF then some base else if base < a ∧ a < base + size then some a else none

/-- A lookup that reads an entry which fails parity records PARITY (R224, R226). -/
def Dev.lookupParity (d : Dev) (k a : Nat) : Dev :=
  match d.lookupAt k a with | some i => d.entryParity k i | none => d

/-- The device as an access to entry `i` sees it: an entry that fails parity counts as unused, all its words 0 (R224). -/
def Dev.seen (d : Dev) (i : Nat) : Dev :=
  if d.entryBad i then { d with regs := Tab.clear d.regs (nodeWord i 0) (nodeWord i 15) } else d

/-- An access to entry `i` outside a channel's work that fails parity records PARITY against the channel that its CHAN names
(R224). -/
def Dev.tableParity (d : Dev) (i : Nat) : Dev := d.entryParity (d.rd (N.CHAN i)) i

/-- A word of an entry as the image loader writes it: named fields alone, and FCTR and FCINIT, which nothing outside the hardware
writes, as 0 (R227, R229, R394). -/
def nodeImage (w : Nat) (v : Word32) : Word32 :=
  if w = 14 ∨ w = 15 then 0 else v &&& BitVec.ofNat 32 (nodeMask w) &&& (if w = 1 then ~~~0x10000000#32 else 0xFFFFFFFF#32)

/-- The own entry of an outstation's channel: KIND 2 (R227). -/
def Dev.ownEntry (d : Dev) (k : Nat) : Option Nat :=
  (d.scopeEntries k).find? (fun i => d.rd (N.KIND i) == 2 && (d.rd (N.CHAN i) == k || d.rd (N.CHAN i) == d.lead k))

/-- The neighbour entry of an address at an outstation or repeater: KIND 1 (R229). -/
def Dev.neighbour (d : Dev) (k a : Nat) : Option Nat :=
  (d.lookup k a).bind (fun i => if d.rd (N.KIND i) = 1 then some i else none)

/-- The broadcast entry of a channel. -/
def Dev.broadcast (d : Dev) (k : Nat) : Nat := (d.scope k).1

/-- Role in force of a channel. -/
def Dev.role (d : Dev) (k : Nat) : Nat := (d.ch k).role

/-- The roles of R10, coded as in R390. -/
def roleOFF : Nat := 0
def roleHEAD : Nat := 1
def roleOUT : Nat := 2
def roleREP : Nat := 3
def roleLISTEN : Nat := 4

/-- The channel acts as an outstation or repeater. -/
def Dev.isOut (d : Dev) (k : Nat) : Bool := d.role k == roleOUT || d.role k == roleREP

/-- First uplink queue of a channel (R238). -/
def Dev.uqBase (d : Dev) (k : Nat) : Nat := d.rd (F.FW_CHUP_UQBASE (d.lead k))

/-- A shallow queue is the valid SQ of some entry (R225). -/
def Dev.isNodeSq (d : Dev) (q : Nat) : Bool := d.entriesUsed.any (fun i => d.on (N.SQV i) && d.rd (N.SQ i) == q)

/-- Channels but `k` that hold a role other than off. -/
def Dev.otherLive (d : Dev) (k : Nat) : List Nat :=
  (d.chan.filter (fun e => e.1 ≠ k && e.2.role ≠ 0)).map Prod.fst

/-- Scope and uplink queues allow the channel to leave role off (R225). -/
def Dev.scopeOk (d : Dev) (k : Nat) : Bool :=
  let (b, n) := d.scope k
  let u := d.uqBase k
  let others := (d.otherLive k).filter (fun j => d.lead j ≠ d.lead k)
  decide (b ≠ 0) && decide (2 ≤ n) && decide (b + n - 1 ≤ 0x1FFFE) &&
  others.all (fun j => decide (b + n ≤ (d.scope j).1) || decide ((d.scope j).1 + (d.scope j).2 ≤ b)) &&
  d.rd (N.KIND b) == 3 && !d.entryBad b && d.rd (N.CHAN b) == d.lead k && decide (u + 3 ≤ 8191) &&
  others.all (fun j => decide (u + 4 ≤ d.uqBase j) || decide (d.uqBase j + 4 ≤ u)) &&
  (List.range 4).all (fun c => !d.isNodeSq (u + c))

/-! ### Repair copy and edit generation (R232, R234, R414) -/

/-- Store a table word with good parity and keep the repair copy in step (R414). -/
def Dev.setTable (d : Dev) (a : Nat) (w : Word32) : Dev :=
  { d.setWord a w with
    badParity := d.badParity.filter (fun b => b ≠ a), copy := Tab.set 0 d.copy a w
    copyBad := d.copyBad.filter (fun b => b ≠ a) }

/-- The edit generation of an entry advances (R234). -/
def Dev.edited (d : Dev) (i : Nat) : Dev := { d with edits := Tab.set 0 d.edits i (Tab.get 0 d.edits i + 1) }

/-- Copy the identity and tunable fields of an entry to the repair copy after an edit by hardware (R414). -/
def Dev.copyEntry (d : Dev) (i : Nat) : Dev :=
  { d with copy := (List.range 16).foldl (fun c w => Tab.set 0 c (nodeWord i w) (d.word (nodeWord i w))) d.copy }

/-! ### Live fields (R228, R229) -/

/-- The entry becomes ACTIVE: words 11 and 12 clear (R228). -/
def Dev.makeActive (d : Dev) (i : Nat) : Dev :=
  ((d.wr (N.STATE i) stACTIVE).wr (N.W11 i) 0).wr (N.W12 i) 0

/-- A header with the SRC of a neighbour entry passed HCRC: SS and LASTP (R229). -/
def Dev.neighbourHeard (d : Dev) (k src : Nat) (ss : Int) : Dev :=
  if d.isOut k then
    let d := d.lookupParity k src
    match d.neighbour k src with
    | some i => (d.wrS (N.SS i) ss).wr (N.LASTP i) d.cycle
    | none => d
  else d

/-- HIST takes the outcome of an exchange (R229). -/
def Dev.pushHist (d : Dev) (i : Nat) (ok : Bool) : Dev :=
  d.wr (N.HIST i) (d.rd (N.HIST i) * 2 + (if ok then 1 else 0))

/-- NDUE of R200 and R227. -/
def Dev.nodeDue (d : Dev) (i retryMax : Nat) : Bool :=
  (d.rd (N.STATE i) == stACTIVE && d.rd (N.PPER i) != 0 &&
    decide (d.rd (N.PPER i) ≤ (d.cycle + 4096 - d.rd (N.LASTP i)) % 4096)) ||
  (d.rd (N.STATE i) == stJOINING && !d.on (N.JPOLLED i) && decide (d.rd (N.FAILS i) < retryMax))

/-! ### Shadow slots (R231 to R233, R448) -/

/-- Masks of the identity and of the tunable fields of each word (R227). -/
def identMask (w : Nat) : Word32 :=
  match w with
  | 0 => 0x67FFFFFF#32
  | 1 => 0x3F1FFFF#32
  | 2 => 0x3FF1FFF#32
  | _ => 0
def tuneMask (w : Nat) : Word32 :=
  match w with
  | 1 => 0x8000000#32
  | 3 => 0x7FFFFFFF#32
  | 4 => 0x7FFFFFFF#32
  | 5 => 0xFFFFFFFF#32
  | 6 => 0xFFFFFF#32
  | 7 => 0x1FFFF#32
  | 8 => 0x1FFFF#32
  | 9 => 0x1FFFF#32
  | _ => 0

/-- Word w of a shadow slot. -/
def Dev.shWord (d : Dev) (slot w : Nat) : Word32 := d.word (A.NT_SH_W (16 * slot + w))
/-- A field of the staged entry. -/
def Dev.shField (d : Dev) (slot : Nat) (f : Field) : Nat := getBits (d.shWord slot (f.addr / 4 % 16)) f.lo f.width

/-- Result codes of R233. -/
def ntOK : Nat := 0
def ntBADIDX : Nat := 1
def ntPERM : Nat := 2
def ntIDENT : Nat := 3
def ntSCOPE : Nat := 4
def ntQSHARE : Nat := 5
def ntSTALE : Nat := 6

/-- LOAD (R232): the copy and RES; an entry that fails parity is copied as an unused one (R224). -/
def Dev.loadSlot (d : Dev) (slot i : Nat) : Dev :=
  if i = 0 ∨ i = 0x1FFFF then d.wr (F.NT_SH_CTL_RES slot) ntBADIDX
  else if slot < 16 ∧ (d.seen i).rd (N.TENANT i) ≠ slot then
    ((List.range 16).foldl (fun d w => d.setWord (A.NT_SH_W (16 * slot + w)) 0) (d.tableParity i)).wr (F.NT_SH_CTL_RES slot)
      ntPERM
  else
    let d := (List.range 16).foldl (fun x w => x.setWord (A.NT_SH_W (16 * slot + w)) ((d.seen i).word (nodeWord i w)))
      (d.tableParity i)
    { d.wr (F.NT_SH_CTL_RES slot) ntOK with shadow := Tab.put d.shadow slot (i, Tab.get 0 d.edits i) }

/-- An identity field of the slot differs from the entry's. -/
def Dev.identDiffers (d : Dev) (slot i : Nat) : Bool :=
  (List.range 16).any (fun w => (d.shWord slot w &&& identMask w) != (d.word (nodeWord i w) &&& identMask w))

/-- A tunable field of the slot differs from the entry's. -/
def Dev.tuneDiffers (d : Dev) (slot i : Nat) : Bool :=
  (List.range 16).any (fun w => (d.shWord slot w &&& tuneMask w) != (d.word (nodeWord i w) &&& tuneMask w))

/-- ADDR, KIND and INDEX agree with the scope of CHAN (R225, R226). -/
def Dev.slotScopeOk (d : Dev) (slot i : Nat) : Bool :=
  let (b, n) := d.scope (d.shField slot (N.CHAN 0))
  let kind := d.shField slot (N.KIND 0)
  let addr := d.shField slot (N.ADDR 0)
  decide (b ≤ i) && decide (i < b + n) &&
  (kind == 0 || (if i = b then kind == 3 && addr == 0x1FFFF else kind != 3 && addr == i))

/-- SQ or DQ of the slot is shared with another entry, or SQ lies in the uplink queues of a live channel (R233). -/
def Dev.slotShares (d : Dev) (slot i : Nat) : Bool :=
  let sqv := d.shField slot (N.SQV 0) == 1
  let dqv := d.shField slot (N.DQV 0) == 1
  let sq := d.shField slot (N.SQ 0)
  let dq := d.shField slot (N.DQ 0)
  d.entriesUsed.any (fun j => j != i && ((sqv && d.on (N.SQV j) && d.rd (N.SQ j) == sq) ||
    (dqv && d.on (N.DQV j) && d.rd (N.DQ j) == dq))) ||
  (sqv && (d.otherLive 64).any (fun k => decide (d.uqBase k ≤ sq) && decide (sq ≤ d.uqBase k + 3)))

/-- The result of a COMMIT (R233), the first failing check. -/
def Dev.commitResult (d : Dev) (slot i : Nat) : Nat :=
  if i = 0 ∨ i = 0x1FFFF then ntBADIDX
  else if slot < 16 ∧ (d.identDiffers slot i ∨ d.rd (N.TENANT i) ≠ slot) then ntPERM
  else if d.identDiffers slot i ∧ d.rd (N.STATE i) ≠ stABSENT then ntIDENT
  else if !d.slotScopeOk slot i then ntSCOPE
  else if d.slotShares slot i then ntQSHARE
  else if Tab.get (0x20000, 0) d.shadow slot ≠ (i, Tab.get 0 d.edits i) then ntSTALE
  else ntOK

/-- Write the identity and tunable fields of a slot to an entry, without a live field (R233, R414). -/
def Dev.writeSlot (d : Dev) (slot i : Nat) : Dev :=
  (List.range 16).foldl (fun d w =>
    let m := identMask w ||| tuneMask w
    if m = 0 then d else d.setTable (nodeWord i w) ((d.word (nodeWord i w) &&& ~~~m) ||| (d.shWord slot w &&& m))) d

/-- The session of an entry that returns to ABSENT is discarded: SALT serves again (R275). -/
def Dev.dropSession (d : Dev) (i : Nat) : Dev :=
  let sa := d.rd (N.SAIDX i)
  d.setSa sa { d.sa_ sa with sess := false, ssalt := 0 }

/-- The entry returns to ABSENT. -/
def Dev.makeAbsent (d : Dev) (i : Nat) : Dev := (d.wr (N.STATE i) stABSENT).dropSession i

/-- The words of an entry. -/
def Dev.entryWords (d : Dev) (i : Nat) : List Word32 := (List.range 16).map (fun w => d.word (nodeWord i w))

/-- The words of an entry become these. -/
def Dev.putEntry (d : Dev) (i : Nat) (l : List Word32) : Dev :=
  (List.range 16).foldl (fun d w => d.setWord (nodeWord i w) (l.getD w 0)) d

/-- Entries committed in the present CCLK cycle, with their words before it. -/
def Dev.justCommitted (d : Dev) : List (Nat × List Word32) := if d.committed.1 = d.cclk then d.committed.2 else []

/-- An entry after a step that read its words `old` from before a commit of its cycle, the commit having left `new`: the identity
and tunable fields of the commit, and a live field as the step left it where the step changed it. -/
def Dev.recommit (d : Dev) (i : Nat) (old new : List Word32) : Dev :=
  (List.range 16).foldl (fun d w =>
    let m := identMask w ||| tuneMask w
    let cur := d.word (nodeWord i w)
    let live := if cur &&& ~~~m = old.getD w 0 &&& ~~~m then new.getD w 0 else cur
    d.setWord (nodeWord i w) ((new.getD w 0 &&& m) ||| (live &&& ~~~m))) d

/-- A step reads the entries as they were before a commit of its cycle (R234). -/
def Dev.asBefore (d : Dev) (f : Dev → Dev) : Dev :=
  match d.justCommitted with
  | [] => f d
  | l =>
    let new := l.map (fun e => d.entryWords e.1)
    let d := f (l.foldl (fun d e => d.putEntry e.1 e.2) d)
    (l.zip new).foldl (fun d e => d.recommit e.1.1 e.1.2 e.2) d

/-- Espalier and form, as DFORM and UFORM, of a path that the tables adopt, with a new edit generation (R204, R234). -/
def Dev.adoptForm (d : Dev) (i : Nat) (l : List Nat) : Dev :=
  let form := BitVec.ofNat 32 (l.getD 3 0)
  let d := ((d.wr (N.ESP1 i) (l.getD 0 0)).wr (N.ESP2 i) (l.getD 1 0)).wr (N.ESP3 i) (l.getD 2 0)
  (((d.setWord (nodeWord i 3) form).setWord (nodeWord i 4) form).copyEntry i).edited i

/-- The ARM PATH result that an entry took in the present CCLK cycle. -/
def Dev.justAdopted (d : Dev) (i : Nat) : Option (Nat × List Nat) :=
  if d.adopted.1 = d.cclk then (d.adopted.2.find? (fun e => e.1 == i)).map Prod.snd else none

/-- COMMIT (R233), which reads an entry that fails parity as an unused one (R224). It comes before an ARM PATH result of its
cycle, which is applied again after it unless PIN is set (R234). -/
def Dev.commitSlot (d : Dev) (slot i : Nat) (setabs clrhold : Bool) : Dev :=
  let path := d.justAdopted i
  let before := match path with | some e => { d with edits := Tab.set 0 d.edits i e.1 } | none => d
  let r := (before.seen i).commitResult slot i
  let d := (if r = ntBADIDX then d else d.tableParity i).wr (F.NT_SH_CTL_RES slot) r
  if r ≠ ntOK then d
  else
    let d := { d with committed := (d.cclk, (i, d.entryWords i) :: d.justCommitted.filter (fun e => e.1 != i)) }
    let d := if d.tuneDiffers slot i then d.edited i else d
    let d := { d.writeSlot slot i with shadow := Tab.del d.shadow slot }
    let d := match path with | some e => if d.on (N.PIN i) then d else d.adoptForm i e.2 | none => d
    let d := if setabs then d.makeAbsent i else d
    if clrhold then d.wr (N.HOLDJ i) 0 else d

/-- A write of NT_SH_CTL: LOAD first, then COMMIT unless the LOAD failed (R448). -/
def Dev.slotCommand (d : Dev) (slot : Nat) (v : Word32) : Dev :=
  let i := getBits v 0 17
  let d := d.wr (F.NT_SH_CTL_INDEX slot) i
  let load := v.getLsbD 17
  let d := if load then d.loadSlot slot i else d
  if v.getLsbD 18 ∧ (!load ∨ d.rd (F.NT_SH_CTL_RES slot) = ntOK) then d.commitSlot slot i (v.getLsbD 19) (v.getLsbD 20)
  else d

/-- LOAD (R232). -/
def execLoad (t : Nat) (slot : Fin 17) (index : NodeAddr) (s : State) : Host.Outcome State Fault Refusal :=
  s.runClk t (fun d => if d.domOn 76 then d.slotCommand slot.val (BitVec.ofNat 32 (index.toNat + 0x20000)) else d)

/-- COMMIT (R233). -/
def execCommit (t : Nat) (slot : Fin 17) (index : NodeAddr) (setabs clrhold : Bool) (s : State) :
    Host.Outcome State Fault Refusal :=
  s.runClk t (fun d =>
    if d.domOn 76 then
      (d.wr (F.NT_SH_CTL_INDEX slot.val) index.toNat).commitSlot slot.val index.toNat setabs clrhold
    else d)

end Sys2Proof.Machine
end

