-- ==== Sys2Proof/Machine/Cipher.lean ====
section
/-! DEFINITION. Association records, the key cache, receive windows, key roll-over and erase (R271 to R298, R306). -/

namespace Sys2Proof.Machine

open Sys2Proof

/-- Number of a key phase. -/
def phN (b : Bool) : Nat := if b then 1 else 0

/-- A phase of a record holds a key (R280). -/
def Assoc.valid (a : Assoc) (ph : Bool) : Bool := if ph then a.valid1 else a.valid0

/-- Set or clear VALID of a phase. -/
def Assoc.setValid (a : Assoc) (ph v : Bool) : Assoc := if ph then { a with valid1 := v } else { a with valid0 := v }

/-- The wrapped key of a phase. -/
def Assoc.wk (a : Assoc) (ph : Bool) : BitVec 320 := if ph then a.wk1 else a.wk0

/-- Store the wrapped key of a phase. -/
def Assoc.setWk (a : Assoc) (ph : Bool) (w : BitVec 320) : Assoc := if ph then { a with wk1 := w } else { a with wk0 := w }

/-- The phase can be used: the record is not free and the phase is valid (R274, R281). -/
def Dev.keyValid (d : Dev) (sa : Nat) (ph : Bool) : Bool := (d.sa_ sa).kind != 0 && (d.sa_ sa).valid ph

/-- The entry that names a record (R280). -/
def Dev.entryOfSa (d : Dev) (sa : Nat) : Option Nat :=
  d.entriesUsed.find? (fun i => d.rd (N.KIND i) != 0 && d.rd (N.SAIDX i) == sa)

/-- The channel concerned by a record, where an entry names it. -/
def Dev.chanOfSa (d : Dev) (sa : Nat) : Option Nat := (d.entryOfSa sa).map (fun i => d.rd (N.CHAN i))

/-! ### Receive window (R277) -/

/-- A counter passes the window. -/
def Assoc.passes (a : Assoc) (c : Nat) : Bool :=
  a.empty || decide (a.rxhi < c) || (decide (c ≤ a.rxhi) && decide (a.rxhi ≤ c + 63) && !a.rxwin.getLsbD (a.rxhi - c))

/-- The window after a frame with counter `c` passed both tests and its tag. -/
def Assoc.accept (a : Assoc) (c : Nat) : Assoc :=
  if a.empty then { a with empty := false, rxhi := c, rxwin := 1 }
  else if a.rxhi < c then { a with rxhi := c, rxwin := (a.rxwin <<< (c - a.rxhi)) ||| 1 }
  else { a with rxwin := a.rxwin ||| (1#64 <<< (a.rxhi - c)) }

/-- The window set to a base: RXHI = b − 1 with every bit set. -/
def Assoc.setBase (a : Assoc) (b : Nat) : Assoc :=
  { a with empty := false, rxhi := (b + 2 ^ 64 - 1) % 2 ^ 64, rxwin := BitVec.allOnes 64 }

/-- The window emptied. -/
def Assoc.emptied (a : Assoc) : Assoc := { a with empty := true, rxhi := 0, rxwin := 0 }

/-! ### Session values (R275) -/

/-- The digest d = sha3-256("LFS1" || NONCE_N || NONCE_H || ADDR). -/
def sessionDigest (nonceN nonceH : BitVec 64) (addr : Nat) : BitVec 256 :=
  sha3_256 ([0x4C#8, 0x46#8, 0x53#8, 0x31#8] ++ octetsBE 8 nonceN.toNat ++ octetsBE 8 nonceH.toNat ++ octetsBE 3 addr)

/-- SSALT, downlink base and uplink base of a digest. -/
def digestSalt (h : BitVec 256) : BitVec 31 := h.extractLsb' 225 31
def digestDown (h : BitVec 256) : Nat := (h.extractLsb' 128 64).toNat % 2 ^ 63
def digestUp (h : BitVec 256) : Nat := (h.extractLsb' 64 64).toNat % 2 ^ 63

/-- Adopt a session: the entry's FCTR takes this side's base and the receive window the other side's (R275). -/
def Dev.adoptSession (d : Dev) (i : Nat) (nonceN nonceH : BitVec 64) (addr : Nat) (head : Bool) : Dev :=
  let h := sessionDigest nonceN nonceH addr
  let sa := d.rd (N.SAIDX i)
  let (mine, theirs) := if head then (digestDown h, digestUp h) else (digestUp h, digestDown h)
  let d := d.setFctr i mine
  d.setSa sa { (d.sa_ sa).setBase theirs with sess := true, ssalt := digestSalt h }

/-- The page wrapping key of a page (R279). -/
def Dev.pageKey (d : Dev) (p : Nat) : BitVec 256 := Tab.get 0 d.root.pwk p

/-- The key that a wrapped key of a record holds (R279); every one was wrapped under the key of the record's page, and one that
HBM has damaged never becomes resident (R284). -/
def Dev.clearKey (d : Dev) (sa : Nat) (w : BitVec 320) : List Byte :=
  keyOctets ((aesUnwrap (d.pageKey (d.sa_ sa).tenant) w).getD 0)

/-- The nonce of 12 octets that a salt word and a counter form (R272, R304, R356). -/
def nonceOf (salt : Word32) (ctr : Nat) : List Byte := octetsBE 4 salt.toNat ++ octetsBE 8 ctr

/-- The salt word of a line frame (R272): bit 31 the direction, then SSALT or SALT; `join` marks a JOINREQ or JOINACC, which
use SALT (R275). -/
def Dev.saltWord (d : Dev) (sa src : Nat) (join : Bool) : Word32 :=
  let a := d.sa_ sa
  (if src = 0 then 0#32 else 0x80000000#32) ||| ((if a.sess && !join then a.ssalt else a.salt).setWidth 32)

/-! ### The key cache (R281 to R284, R289) -/

/-- A pair is pinned for some sequencer. -/
def Dev.pinned (d : Dev) (k : Nat × Bool) : Bool := d.seq.any (fun e => e.2.pins.contains k)

/-- A pair is bound by a transmit frame, a received frame or a tenant job (R289). -/
def Dev.bound (d : Dev) (k : Nat × Bool) : Bool :=
  d.chan.any (fun e => e.2.txs.any (fun x => x.saidx == k.1 && x.phase == k.2) ||
    (e.2.lock.map (fun l => l.key == some k)).getD false) ||
  d.pages.any (fun e => e.2.jobs.any (fun j => j.saidx == k.1 && j.phase == k.2 && j.started))

/-- The key is in the cache. -/
def Dev.resident (d : Dev) (k : Nat × Bool) : Bool := d.cache.contains k

/-- Outcome of a request to the key cache (R281). -/
inductive KeyAsk where
  | hit | pending | invalid | noSlot
deriving DecidableEq, Repr

/-- The cache without its least recently used slot that is neither bound nor pinned. -/
def Dev.evict (d : Dev) : Option (List (Nat × Bool)) :=
  match d.cache.reverse.find? (fun k => !d.pinned k && !d.bound k) with
  | some k => some (d.cache.erase k)
  | none => none

/-- A request for a pair (R281, R282); a miss counts for the cluster that asks (R370): 1 for a tenant job, 0 for the line. -/
def Dev.askKey (d : Dev) (sa : Nat) (ph : Bool) (cluster : Nat := 0) : KeyAsk × Dev :=
  let k := (sa, ph)
  if !d.keyValid sa ph then (.invalid, d.inc F.CI_CNT2_KEYMISS)
  else if d.resident k then (.hit, { d with cache := k :: d.cache.erase k })
  else if d.fetches.contains k then (.pending, d)
  else if d.cache.length + d.fetches.length < 8192 then (.pending, { d with fetches := d.fetches ++ [k] }.event 8 3 cluster 1)
  else match d.evict with
    | some c => (.pending, { d with cache := c, fetches := d.fetches ++ [k] }.event 8 3 cluster 1)
    | none => (.noSlot, (d.raise F.KC_STAT_KCFULL).inc F.KC_CNT_KCFULLCNT)

/-- A slot fails parity when a job binds it (R417). -/
def Dev.slotFails (d : Dev) (k : Nat × Bool) : Bool := d.resident k && d.slotBad.contains k

/-- A request of a job that would bind the pair: a slot that fails parity records PARITY, and the request is a miss (R417). -/
def Dev.bindAsk (d : Dev) (sa : Nat) (ph : Bool) (cluster : Nat := 0) : KeyAsk × Dev :=
  let k := (sa, ph)
  if d.slotFails k then
    ({ d with cache := d.cache.erase k, slotBad := d.slotBad.filter (fun x => x ≠ k) }.cause causePARITY
      { chan := d.chanOfSa sa }).askKey sa ph cluster
  else d.askKey sa ph cluster

/-- The pair was erased in this CCLK cycle: a job that starts in it is aborted (R291). -/
def Dev.erasedNow (d : Dev) (k : Nat × Bool) : Bool := d.erased.1 == d.cclk && d.erased.2.contains k

/-- A job can start under the pair: its key is resident, or was until an erase of the same cycle (R291). -/
def Dev.keyReady (d : Dev) (k : Nat × Bool) : Bool := (d.keyValid k.1 k.2 && d.resident k) || d.erasedNow k

/-- The key that the slot of a pair keeps until a KEYWR under way completes (R290). -/
def Dev.oldKey (d : Dev) (k : Nat × Bool) : Option (BitVec 320) :=
  d.sa.findSome? (fun (e : Nat × SaCmd) => if (e.2.saidx, e.2.phase) = k then e.2.old else none)

/-- The wrapped key that a job binds which starts now: the old one until a rewrite of its slot completes, and in the cycle of its
completion (R290, R291). -/
def Dev.startKey (d : Dev) (k : Nat × Bool) : BitVec 320 :=
  ((d.oldKey k).orElse (fun _ => (if d.rewrote.1 = d.cclk then d.rewrote.2.find? (fun e => e.1 == k) else none).map Prod.snd)).getD
    ((d.sa_ k.1).wk k.2)

/-- A rewrite of the slot of a pair completes, which held the key `old` until now (R290, R291). -/
def Dev.noteRewrite (d : Dev) (k : Nat × Bool) (old : BitVec 320) : Dev :=
  { d with rewrote := (d.cclk, (if d.rewrote.1 = d.cclk then d.rewrote.2 else []) ++ [(k, old)]) }

/-- A miss completes: the key becomes resident, or a failed unwrap clears VALID with KEYERR and POISON (R282, R284). The key of a
phase erased meanwhile goes nowhere. -/
def Dev.keyArrives (d : Dev) (sa : Nat) (ph intact : Bool) : Dev :=
  let d := { d with
    fetches := d.fetches.erase (sa, ph)
    sa := d.sa.map (fun (e : Nat × SaCmd) => (e.1, if (e.2.saidx, e.2.phase) = (sa, ph) then { e.2 with old := none } else e.2)) }
  if !d.keyValid sa ph then d
  else if intact then { d with cache := (sa, ph) :: d.cache, slotBad := d.slotBad.filter (fun x => x ≠ (sa, ph)) }
  else
    ((d.setSa sa ((d.sa_ sa).setValid ph false)).raise F.CI_STATUS_KEYERR).cause causePOISON { chan := d.chanOfSa sa }

/-! ### Erase (R290 to R293) -/

/-- Abort the transmit and receive jobs of a channel that the predicate names: the rest of a transmit frame is zeros with
its FCS inverted (R292), a received frame will be discarded (R293); each counts in KEYABORT and records POISON. -/
def Dev.abortChanJobs (d : Dev) (k : Nat) (p : Nat × Bool → Bool) : Dev :=
  let c := d.ch k
  let hitTx := (c.txs.filter (fun x => p (x.saidx, x.phase) && !x.voided)).length
  let named := fun (l : RxLock) => (l.key.map p).getD false
  let hitRx := (c.frames.filter (fun l => named l && !l.aborted)).length
  let c := { c.mapFrames (fun l => if named l then { l with aborted := true } else l) with
    txs := c.txs.map (fun x => if p (x.saidx, x.phase) ∧ !x.voided then
      { x with voided := true, voidFrom := max 12 (Config.sealedOctets d.draws) } else x) }
  let n := hitTx + hitRx
  if n = 0 then d
  else (({ d with draws := d.draws + 1 }.setCh k c).inc F.CI_CNT3_KEYABORT n).causes n causePOISON { chan := some k }

/-- Abort the tenant jobs that the predicate names (R290). -/
def Dev.abortTenantJobs (d : Dev) (p : Nat × Bool → Bool) : Dev :=
  let n := (d.pages.map (fun e => (e.2.jobs.filter (fun j => p (j.saidx, j.phase) && j.started && !j.erased)).length)).sum
  let d := { d with pages := d.pages.map (fun e => (e.1, { e.2 with jobs := e.2.jobs.map (fun j =>
    if p (j.saidx, j.phase) ∧ j.started then { j with erased := true } else j) })) }
  if n = 0 then d else (d.inc F.CI_CNT3_KEYABORT n).causes n causePOISON {}

/-- The jobs of a channel that start in the cycle of an erase of their key are aborted (R291). -/
def Dev.abortStarted (d : Dev) (k : Nat) : Dev :=
  if d.erased.1 = d.cclk ∧ d.erased.2 ≠ [] then d.abortChanJobs k (fun x => d.erased.2.contains x) else d

/-- Every job whose key the predicate names is aborted and every slot it names is zeroed (R290). A fetch under way ends at
KEY_RESIDENT, where the phase is no longer valid (R281). -/
def Dev.eraseKeys (d : Dev) (p : Nat × Bool → Bool) : Dev :=
  let hit := d.cache.filter p
  let d := if hit = [] then d else { d with erased := (d.cclk, (if d.erased.1 = d.cclk then d.erased.2 else []) ++ hit) }
  let d := { d with cache := d.cache.filter (fun k => !p k) }
  let d := d.chan.foldl (fun d e => d.abortChanJobs e.1 p) d
  d.abortTenantJobs p

/-- Erase a phase of a record with its slot (R285, R290). -/
def Dev.erasePhase (d : Dev) (sa : Nat) (ph : Bool) : Dev :=
  (d.setSa sa (((d.sa_ sa).setValid ph false).setWk ph 0)).eraseKeys (fun k => k == (sa, ph))

/-- DELETE of a record: both phases erased, the record free (R285). -/
def Dev.deleteRecord (d : Dev) (sa : Nat) : Dev := ((d.erasePhase sa false).erasePhase sa true).setSa sa {}

/-! ### Roll-over (R287, R288) -/

/-- KEYPH of the entry that names the record mirrors TXPH. -/
def Dev.mirrorPhase (d : Dev) (sa : Nat) : Dev :=
  match d.entryOfSa sa with
  | some i => d.wr (N.KEYPH i) (phN (d.sa_ sa).txph)
  | none => d

/-- The roll of a line or broadcast record completes: CPH takes the new phase, the old one is erased, FAILCNT clears. -/
def Dev.completeRoll (d : Dev) (sa : Nat) : Dev :=
  let old := (d.sa_ sa).cph
  let d := d.setSa sa { d.sa_ sa with cph := !old, txph := !old, failcnt := 0, sentNew := false, rcvdNew := false }
  (d.erasePhase sa old).mirrorPhase sa

/-- Complete a roll whose two bits are both set. -/
def Dev.checkRoll (d : Dev) (sa : Nat) : Dev :=
  if (d.sa_ sa).sentNew ∧ (d.sa_ sa).rcvdNew then d.completeRoll sa else d

/-- A frame is sent under a phase (R287). -/
def Dev.sentUnder (d : Dev) (sa : Nat) (ph : Bool) : Dev :=
  let a := d.sa_ sa
  if a.kind = 1 ∧ ph ≠ a.cph then (d.setSa sa { a with sentNew := true }).checkRoll sa else d

/-- A frame is accepted under a phase (R287, R288). -/
def Dev.acceptedUnder (d : Dev) (sa : Nat) (ph : Bool) : Dev :=
  let a := d.sa_ sa
  if ph = a.cph then d
  else if a.kind = 2 then d.completeRoll sa
  else if a.kind = 1 then
    ((d.setSa sa { a with rcvdNew := true, txph := if a.txph = a.cph then !a.cph else a.txph }).mirrorPhase sa).checkRoll sa
  else d

/-! ### Tag failures (R278) -/

/-- Page of a notice about a record. -/
def Dev.saPage (d : Dev) (sa : Nat) : Nat := (d.sa_ sa).tenant

/-- A tag mismatch on a frame or a decrypt job. -/
def Dev.tagFail (d : Dev) (sa : Nat) (chan : Option Nat) (cluster : Nat := 0) : Dev :=
  let a := d.sa_ sa
  let n := min (a.failcnt + 1) 65535
  let d := (((d.setSa sa { a with failcnt := n }).inc F.CI_CNT_TAGCNT).event 8 2 cluster 1).cause causeTAGFAIL { chan := chan }
  let th := d.rd F.CI_CFG_FAIL_TH
  if th ≠ 0 ∧ a.failcnt < th ∧ th ≤ n then
    (d.raise F.CI_STATUS_ASSOCALM).notice { cls := 5, code := 0, chan := chan.getD 255, page := d.saPage sa, arg := sa }
  else d

/-! ### FCTR at bring-up (R276) -/

/-- Initialise an entry whose FCINIT is 0; one of KIND 0 names no association. -/
def Dev.initFctr (d : Dev) (i : Nat) : Dev :=
  if d.on (N.FCINIT i) then d
  else
    let (c, d) := d.drawCtr
    let d := (d.setFctr i c).wr (N.FCINIT i) 1
    let sa := d.rd (N.SAIDX i)
    if d.rd (N.KIND i) = 0 then d else d.setSa sa (d.sa_ sa).emptied

/-- R276 for every entry of a channel's scope. -/
def Dev.initScope (d : Dev) (k : Nat) : Dev := (d.scopeEntries k).foldl Dev.initFctr d

/-! ### Masking (R299, R300) -/

/-- The clusters change between masked and unmasked operation. -/
def Dev.setMasked (d : Dev) (v : Bool) : Dev :=
  let lost := d.masked && !v
  let d := { d with masked := v }
  let d := (d.wr F.CI_STATUS_MASKED_G (if v && d.domOn 70 then 1 else 0)).wr F.CI_STATUS_MASKED_X
    (if v && d.domOn 71 then 1 else 0)
  if lost ∧ d.domOn 70 then (d.raise F.CI_STATUS_MASKLOST).notice { cls := 9, code := 0 } else d

/-- Pipelines with a job under way (R300). -/
def Dev.busyPipes (d : Dev) : List Nat :=
  (d.chan.filter (fun e => e.2.txs.any TxJob.begun)).map Prod.fst ++
  (d.chan.filter (fun e => e.2.frames.any (fun l => l.key.isSome))).map (fun e => 64 + e.1) ++
  (d.pages.filter (fun e => e.2.jobs.any Job.started)).map (fun e => 128 + e.1)

/-- The clusters are to run masked or unmasked: they change at once where no job runs, else once every pipeline has reached the
end of its job (R300). -/
def Dev.wantMasked (d : Dev) (v : Bool) : Dev :=
  if d.masked = v ∨ d.busyPipes = [] then { d.setMasked v with maskWant := v, maskWait := [] }
  else { d with maskWant := v, maskWait := d.busyPipes }

/-- Blocks pass a masked pipeline: the mask generator asks the DRBG for a new seed every 4,096 of them (R299, R318). No rule
states how many octets a seed has (log entry 189). -/
def Dev.maskUse (d : Dev) (octets : Nat) : Dev :=
  if !d.masked then d
  else
    let n := d.maskBlocks + ceilDiv octets 16
    (List.range (n / 4096)).foldl (fun d _ => (d.random Config.maskSeed).2) { d with maskBlocks := n % 4096 }

/-- A job of a pipeline ends, of so many octets (R299, R300). -/
def Dev.pipeEnd (d : Dev) (pipe octets : Nat) : Dev :=
  let d := d.maskUse octets
  if d.maskWait = [] then d
  else
    let w := d.maskWait.filter (fun n => n ≠ pipe)
    if w = [] then { d.setMasked d.maskWant with maskWait := [] } else { d with maskWait := w }

/-- Hedge violation of a page access (R302). -/
def Dev.hedge (d : Dev) : Dev := (d.raise F.CI_STATUS_HEDGEV).inc F.CI_CNT3_HEDGECNT

end Sys2Proof.Machine
end

