-- ==== Sys2Proof/Machine/Counters.lean ====
section
/-! DEFINITION. Performance counters: window timers, settings, captures and bandwidth figures (R369 to R380). -/

namespace Sys2Proof.Machine

open Sys2Proof

/-- A counter. -/
def Dev.counter (d : Dev) (c : Nat) : Counter := Tab.get {} d.counters c
def Dev.setCounter (d : Dev) (c : Nat) (x : Counter) : Dev := { d with counters := Tab.set {} d.counters c x }

/-- A window timer. -/
def Dev.timer (d : Dev) (j : Nat) : Timer := Tab.get {} d.timers j
def Dev.setTimer (d : Dev) (j : Nat) (x : Timer) : Dev := { d with timers := Tab.set {} d.timers j x }

/-! ### Settings (R373 to R375) -/

/-- Active group of a setting. -/
def selGroup (sel : Word32) : Nat := getBits sel 24 5

/-- A setting becomes active: VALUE is 0, WRAP stays, PEND clears (R373). -/
def Counter.apply (x : Counter) (sel thr : Word32) (wt : Nat) : Counter :=
  { x with value := 0, sel := sel, thr := thr, wt := wt, pend := none, older := none }

/-- The setting that the registers of a counter hold. -/
def Dev.written (d : Dev) (c : Nat) : Word32 × Word32 × Nat := (d.word (A.CNT_SEL c), d.word (A.CNT_THR c), d.rd (F.CNT_CTL_WT c))

/-- The written setting becomes pending, or active at once where the active GRP is 0 (R373). -/
def Dev.settingWritten (d : Dev) (c : Nat) : Dev :=
  let x := d.counter c
  let (sel, thr, wt) := d.written c
  let n := d.cclk + 1
  d.setCounter c (if selGroup x.sel = 0 then x.apply sel thr wt
    else { x with pend := some (sel, thr, wt), pendAt := n, older := if x.pendAt = n then x.older else x.pend })

/-- A write of CNT_SEL, CNT_THR or CNT_CTL (0 to 2); OWNPG and PGV take effect at once (R373). -/
def Dev.writeSetting (d : Dev) (c which : Nat) (v : Word32) : Dev :=
  match which with
  | 0 => (d.setWord (A.CNT_SEL c) (v &&& 0x3F1F1FFF#32)).settingWritten c
  | 1 => (d.setWord (A.CNT_THR c) v).settingWritten c
  | _ =>
    let was := d.rd (F.CNT_CTL_WT c)
    let d := d.setWord (A.CNT_CTL c) (v &&& 0x1F7#32)
    if d.rd (F.CNT_CTL_WT c) = was then d else d.settingWritten c

/-- COUNTER_SETTING_WRITE (R373). -/
def execCounterSettingWrite (t : Nat) (c : Fin 2048) (which : Fin 3) (v : Word32) (s : State) :
    Host.Outcome State Fault Refusal :=
  s.runClk t (fun d => if d.domOn 76 then d.writeSetting c.val which.val v else d)

/-- WRAP of a counter is cleared; a carry of the same CCLK cycle sets it again (R374, R375). -/
def Dev.clearWrap (d : Dev) (c : Nat) : Dev :=
  d.setCounter c { d.counter c with wrap := decide ((d.counter c).carry = d.cclk + 1) }

/-- WRAPCLR (R375). -/
def execWrapclr (t : Nat) (c : Fin 2048) (s : State) : Host.Outcome State Fault Refusal :=
  s.runClk t (fun d => if d.domOn 76 then (d.wr F.CNT_CMD_IDX c.val).clearWrap c.val else d)

/-! ### Captures (R376) -/

/-- The model raises the event of a setting (log entry 23). -/
def eventKept (sel : Word32) : Bool := selGroup sel != 9

/-- VALUE as a capture sees it. -/
def Dev.countOf (d : Dev) (c : Nat) : Nat × Dev :=
  let x := d.counter c
  if eventKept x.sel then (x.value, d)
  else ((Config.looseCount c d.draws).toNat, { d with draws := d.draws + 1 })

/-- WRAP as a reader sees it: free where the model does not raise the event (log entry 23). -/
def Dev.wrapOf (d : Dev) (c : Nat) : Bool :=
  (d.counter c).wrap || (!eventKept (d.counter c).sel && Config.looseWrap c d.draws)

/-- A capture of a counter (R376). -/
def Dev.captureOf (d : Dev) (c : Nat) : Capture × Dev :=
  let x := d.counter c
  let wrap := d.wrapOf c
  let (v, d) := d.countOf c
  let (cyc, g) := d.mainsAt d.now
  ({ value := v, wrap := wrap, pend := x.pend.isSome, ns := d.now, cyc := cyc % 2 ^ 32, grn := g, idx := c, valid := true }, d)

/-- A read of CNT_RD captures into the reader's set and returns VALUE[31:0] (R376). -/
def Dev.readCounter (d : Dev) (c reader : Nat) : Word32 × Dev :=
  let (x, d) := d.captureOf c
  (BitVec.ofNat 32 x.value, { d with captures := Tab.set {} d.captures reader x })

/-- CNT_RD_READ (R376). -/
def execCntRdRead (t : Nat) (c : Fin 2048) (reader : Fin 18) (s : State) : Host.Outcome State Fault Refusal :=
  s.runClk t (fun d => if d.domOn 76 then (d.readCounter c.val reader.val).2 else d)

/-- The words of a capture set from CAP_VHI on (R376). -/
def Capture.word (x : Capture) (i : Nat) : Word32 :=
  BitVec.ofNat 32 (match i with
    | 0 => x.value / 2 ^ 32 + (if x.wrap then 2 ^ 16 else 0) + (if x.pend then 2 ^ 17 else 0) + (if x.valid then 2 ^ 31 else 0)
    | 1 => x.ns
    | 2 => x.ns / 2 ^ 32
    | 3 => x.cyc
    | _ => x.grn + 2 ^ 16 * x.idx)

/-- The response data of CNTRD (R377). -/
def Capture.octets (x : Capture) : List Byte :=
  octetsBE 6 x.value ++ [BitVec.ofNat 8 ((if x.wrap then 1 else 0) + (if x.pend then 2 else 0)), 0#8] ++
    octetsBE 8 x.ns ++ octetsBE 4 x.cyc ++ octetsBE 2 x.grn ++ [0#8, 0#8]

/-! ### Window timers and bandwidth figures (R372, R379, R380) -/

/-- The instant test of a boundary of timer `j` (R372). -/
def Dev.boundaryDue (d : Dev) (j : Nat) : Bool :=
  let x := d.timer j
  let len := max 1 (getBits x.cfg 16 16)
  if x.cfg.getLsbD 0 then d.timeRuns && decide (len ≤ (d.cycle + 2 ^ 32 - x.lastCycle) % 2 ^ 32 ∧
    (d.cycle + 2 ^ 32 - x.lastCycle) % 2 ^ 32 < 2 ^ 31)
  else decide (x.last + 1000 * len ≤ d.now)

/-- A figure in Mbit/s (R380). -/
def rateOf (octets e : Nat) : Nat := min (8000 * octets / e) (2 ^ 24 - 1)

/-- Write the figure of port n, direction r (R379, R380). -/
def Dev.putRate (d : Dev) (e i : Nat) : Dev :=
  let v := if i / 2 = 66 then (Config.hbmRate (i % 2) d.draws).toNat else rateOf (Tab.get 0 d.bwSum i) e
  d.wr (F.BW_RATE_RATE i) v

/-- A bandwidth window closes (R380). -/
def Dev.closeWindow (d : Dev) (last : Nat) : Dev :=
  let e := d.now - last
  let d := (List.range 134).foldl (fun d i => d.putRate e i) d
  let d := { d with draws := d.draws + 1 }
  let d := (d.wr64 F.BW_E_LO_E F.BW_E_HI_E e).wr64 F.BW_NS_LO_NS F.BW_NS_HI_NS d.now
  (d.wr F.BW_STAT_SEQ (d.rd F.BW_STAT_SEQ + 1)).wr F.BW_STAT_VALID 1

/-- The boundary of the figures' timer: the first one after a write of BW_CFG closes no window (R380). -/
def Dev.bandwidth (d : Dev) : Dev :=
  let d := match d.bwLast with
    | some x => if d.bwFresh ∨ d.now ≤ x then d else d.closeWindow x
    | none => d
  { d with bwSum := [], bwLast := some d.now, bwFresh := false }

/-- What the present cycle has added so far under a setting that a boundary makes active (R374). -/
def Dev.thisCycle (d : Dev) (x : Counter) (sel thr : Word32) : Nat :=
  x.first + (((if d.evNow.1 = d.cclk then d.evNow.2 else []).filter (·.named sel thr)).map CountEvent.inc).sum

/-- The pending setting of a counter becomes active at a boundary, and the increment of this cycle belongs to its event. One
written in this cycle waits for the next boundary, and the one that it replaced becomes active (R373, R374). -/
def Dev.takeSetting (d : Dev) (x : Counter) : Counter :=
  let new : Bool := decide (x.pendAt = d.cclk + 1)
  match (if new then x.older else x.pend) with
  | some (sel, thr, wt) =>
    { x.apply sel thr wt with value := d.thisCycle x sel thr, pend := if new then x.pend else none }
  | none => x

/-- A boundary of timer `j` (R372, R373, R380). -/
def Dev.boundary (d : Dev) (j : Nat) : Dev :=
  let d := { d with counters := d.counters.map (fun (e : Nat × Counter) => if e.2.wt = j then (e.1, d.takeSetting e.2) else e) }
  let d := d.setTimer j { cfg := d.word (A.WT_CFG j), last := d.now, lastCycle := d.cycle }
  if d.on F.BW_CFG_EN ∧ d.rd F.BW_CFG_BW_WT = j then d.bandwidth else d

/-- WINDOW_BOUNDARY (R372). -/
def execWindowBoundary (t : Nat) (timer : Fin 8) (s : State) : Host.Outcome State Fault Refusal :=
  s.runClk t (fun d => if d.domOn 76 ∧ d.boundaryDue timer.val then d.boundary timer.val else d)

/-- WT_CFG_WRITE (R372): the setting takes effect at the timer's next boundary. -/
def execWtCfgWrite (t : Nat) (timer : Fin 8) (v : Word32) (s : State) : Host.Outcome State Fault Refusal :=
  s.runClk t (fun d => if d.domOn 76 then d.setWord (A.WT_CFG timer.val) (v &&& 0xFFFF0001#32) else d)

/-- A write of BW_CFG (R380). -/
def Dev.writeBwCfg (d : Dev) (v : Word32) : Dev :=
  { (d.setWord A.BW_CFG (v &&& 0xF#32)).wr F.BW_STAT_VALID 0 with bwSum := [], bwLast := none, bwFresh := true }

/-- BW_CFG_WRITE (R380). -/
def execBwCfgWrite (t : Nat) (v : Word32) (s : State) : Host.Outcome State Fault Refusal :=
  s.runClk t (fun d => if d.domOn 76 then d.writeBwCfg v else d)

/-- PD_CNV0 comes on: the counters are as after reset, and every timer has its first boundary (R372). -/
def Dev.countersOn (d : Dev) : Dev :=
  let one : Timer := { last := d.now }
  { d with counters := [], captures := [], timers := if d.now = 0 then [] else (List.range 8).map (fun j => (j, one))
           bwSum := [], bwLast := none, bwFresh := true }

end Sys2Proof.Machine
end

