-- ==== Sys2Proof/Machine/Operands.lean ====
section
/-! DEFINITION. The operand forms of the step word: its fields, its classes, the decoder and the encoder (R197, R202), and
the checks that a start makes on one step (R217). -/

namespace Sys2Proof.Machine

open Sys2Proof

/-- The operand forms of the step classes (R201, R202). -/
inductive StepOp where
  | halt (notify : Bool)
  | wait (wk : BitVec 3) (setbt lateok : Bool) (pf : BitVec 2)
  | armNode (addr : BitVec 17)
  | armSwap (f : BitVec 4) (fade : Bool)
  | armPath
  | tx (typ : BitVec 4) (fsel : BitVec 5) (via : Bool) (lenmax : BitVec 12) (gap : Bool)
  | rx (wlen : BitVec 16) (kh : BitVec 3) (sync : BitVec 2) (gsrc : Bool) (gain : BitVec 6) (gap : Bool)
  | branch (inv : Bool) (target : BitVec 13)
  | budget (kind : BitVec 2) (energy : BitVec 16) (iter chan : BitVec 6)
  | keyfetch (sel : BitVec 2)
  | noteNotice (code : BitVec 16)
  | noteFlag (clear : Bool) (pf : BitVec 2)
  | noteEvent (code : BitVec 16)
  | loop (c : BitVec 2) (load : Bool) (n : BitVec 14) (target : BitVec 13)
  | call (target : BitVec 13)
  | ret
deriving DecidableEq, Repr

/-- A step: condition, time base, cycles and grains added to the base, and the operands of its class (R197). -/
structure Step where
  cond : BitVec 4
  tb : BitVec 2
  dlc : BitVec 8
  dlo : BitVec 16
  op : StepOp
deriving DecidableEq, Repr

/-- A flag as one bit. -/
def bit1 (b : Bool) : BitVec 1 := if b then 1 else 0

/-- OPC of a class (R201). -/
def StepOp.opc : StepOp → BitVec 4
  | .halt _ => 0
  | .wait _ _ _ _ => 1
  | .armNode _ => 2
  | .armSwap _ _ => 2
  | .armPath => 2
  | .tx _ _ _ _ _ => 3
  | .rx _ _ _ _ _ _ => 4
  | .branch _ _ => 5
  | .budget _ _ _ _ => 6
  | .keyfetch _ => 7
  | .noteNotice _ => 8
  | .noteFlag _ _ => 8
  | .noteEvent _ => 8
  | .loop _ _ _ _ => 9
  | .call _ => 10
  | .ret => 11

/-- OPS of a class with every reserved bit 0 (R202). -/
def StepOp.ops : StepOp → BitVec 30
  | .halt n => 0#29 ++ bit1 n
  | .wait wk s l pf => wk ++ bit1 s ++ bit1 l ++ 0#23 ++ pf
  | .armNode a => 0#3 ++ 0#10 ++ a
  | .armSwap f h => 1#3 ++ 0#22 ++ f ++ bit1 h
  | .armPath => 2#3 ++ 0#27
  | .tx t f v l g => t ++ f ++ bit1 v ++ l ++ bit1 g ++ 0#7
  | .rx w k s gs g gap => w ++ k ++ s ++ bit1 gs ++ g ++ bit1 gap ++ 0#1
  | .branch i t => 0#16 ++ bit1 i ++ t
  | .budget k e i c => k ++ e ++ i ++ c
  | .keyfetch s => s ++ 0#28
  | .noteNotice c => 0#3 ++ 0#11 ++ c
  | .noteFlag cl pf => (if cl then 2#3 else 1#3) ++ 0#25 ++ pf
  | .noteEvent c => 3#3 ++ 0#11 ++ c
  | .loop c l n t => c ++ bit1 l ++ n ++ t
  | .call t => 0#17 ++ t
  | .ret => 0#30

/-- The step word (R197). -/
def Step.encode (s : Step) : Word64 := s.op.opc ++ s.cond ++ s.tb ++ s.dlc ++ s.dlo ++ s.op.ops

/-- The operands that an OPC and OPS name, before the reserved bits are checked. -/
def readOps (opc : BitVec 4) (o : BitVec 30) : Option StepOp :=
  match opc.toNat with
  | 0 => some (.halt (o.getLsbD 0))
  | 1 => some (.wait (o.extractLsb' 27 3) (o.getLsbD 26) (o.getLsbD 25) (o.extractLsb' 0 2))
  | 2 =>
    match (o.extractLsb' 27 3).toNat with
    | 0 => some (.armNode (o.extractLsb' 0 17))
    | 1 => some (.armSwap (o.extractLsb' 1 4) (o.getLsbD 0))
    | 2 => some .armPath
    | _ => none
  | 3 => some (.tx (o.extractLsb' 26 4) (o.extractLsb' 21 5) (o.getLsbD 20) (o.extractLsb' 8 12) (o.getLsbD 7))
  | 4 => some (.rx (o.extractLsb' 14 16) (o.extractLsb' 11 3) (o.extractLsb' 9 2) (o.getLsbD 8) (o.extractLsb' 2 6)
      (o.getLsbD 1))
  | 5 => some (.branch (o.getLsbD 13) (o.extractLsb' 0 13))
  | 6 => some (.budget (o.extractLsb' 28 2) (o.extractLsb' 12 16) (o.extractLsb' 6 6) (o.extractLsb' 0 6))
  | 7 => some (.keyfetch (o.extractLsb' 28 2))
  | 8 =>
    match (o.extractLsb' 27 3).toNat with
    | 0 => some (.noteNotice (o.extractLsb' 0 16))
    | 1 => some (.noteFlag false (o.extractLsb' 0 2))
    | 2 => some (.noteFlag true (o.extractLsb' 0 2))
    | 3 => some (.noteEvent (o.extractLsb' 0 16))
    | _ => none
  | 9 => some (.loop (o.extractLsb' 28 2) (o.getLsbD 27) (o.extractLsb' 13 14) (o.extractLsb' 0 13))
  | 10 => some (.call (o.extractLsb' 0 13))
  | 11 => some .ret
  | _ => none

/-- No operand holds a reserved code (R202, R217). -/
def StepOp.ok : StepOp → Bool
  | .wait wk _ _ pf => wk != 7 && !((wk == 5 || wk == 6) && pf == 3)
  | .tx t f _ _ _ => (decide (t.toNat ≤ 5) || t == 15) && decide (f.toNat ≤ 16)
  | .rx _ k s _ _ _ => k != 7 && s != 3
  | .budget k _ _ _ => k != 3
  | .noteFlag _ pf => pf != 3
  | _ => true

/-- DLC is permitted only with TB 0 (R197). -/
def Step.ok (s : Step) : Bool := s.op.ok && (s.tb == 0 || s.dlc == 0)

/-- The fields of a step word, before any check. -/
def Step.fields (w : Word64) : Option Step :=
  (readOps (w.extractLsb' 60 4) (w.extractLsb' 0 30)).map (fun op =>
    { cond := w.extractLsb' 56 4, tb := w.extractLsb' 54 2, dlc := w.extractLsb' 46 8, dlo := w.extractLsb' 30 16, op := op })

/-- Decode a step word; none where it holds a reserved code, a reserved bit that is not 0, or a DLC with TB 1 to 3 (R217). -/
def Step.decode (w : Word64) : Option Step :=
  match Step.fields w with
  | some s => if s.ok ∧ s.encode = w then some s else none
  | none => none

/-- The step index that a class may go to. -/
def StepOp.target : StepOp → Option Nat
  | .branch _ t => some t.toNat
  | .loop _ _ _ t => some t.toNat
  | .call t => some t.toNat
  | _ => none

/-- A word passes the check of a start over the range `lo` to `hi`, parity apart (R217). -/
def stepChecks (lo hi : Nat) (w : Word64) : Bool :=
  match Step.decode w with
  | none => false
  | some s => match s.op.target with
    | some t => decide (lo ≤ t) && decide (t ≤ hi)
    | none => true

/-- Classes as the commands of a sequencer name them (R201, R202). -/
inductive StepClass where
  | halt | waitTime | waitRxdone | waitTxdone | waitGrant | waitKey | waitFlagSet | waitFlagClear
  | armNode | armSwap | armPath | tx | rx | branch | loop | call | ret
  | budgetTxslot | budgetIter | budgetBringup | keyfetch | noteNotice | noteEvent | noteFlagSet | noteFlagClear
deriving DecidableEq, Repr

/-- The class of a step. -/
def StepOp.cls : StepOp → StepClass
  | .halt _ => .halt
  | .wait wk _ _ _ =>
    match wk.toNat with
    | 0 => .waitTime
    | 1 => .waitRxdone
    | 2 => .waitTxdone
    | 3 => .waitGrant
    | 4 => .waitKey
    | 5 => .waitFlagSet
    | _ => .waitFlagClear
  | .armNode _ => .armNode
  | .armSwap _ _ => .armSwap
  | .armPath => .armPath
  | .tx _ _ _ _ _ => .tx
  | .rx _ _ _ _ _ _ => .rx
  | .branch _ _ => .branch
  | .budget k _ _ _ =>
    match k.toNat with
    | 0 => .budgetTxslot
    | 1 => .budgetIter
    | _ => .budgetBringup
  | .keyfetch _ => .keyfetch
  | .noteNotice _ => .noteNotice
  | .noteFlag c _ => if c then .noteFlagClear else .noteFlagSet
  | .noteEvent _ => .noteEvent
  | .loop _ _ _ _ => .loop
  | .call _ => .call
  | .ret => .ret

end Sys2Proof.Machine
end

