-- ==== Sys2Proof/Machine/Mains.lean ====
section
/-! DEFINITION. Mains time: crossings, lock, tracking, holdover, the alternate input, cycle records and the deadline log
(R44 to R63). -/

namespace Sys2Proof.Machine

open Sys2Proof

/-- Period limits of R49 in units of 2^−20 ns. -/
def periodMin : Int := 15151515 * 2 ^ 20
def periodMax : Int := 66666666 * 2 ^ 20

/-- Comparator delay of R44 (180 ns ± 20 ns), taken as its nominal value (DEDUCED, log entry 8). -/
def comparatorDelay : Int := 180

/-- The states of R50. -/
def mtOFF : Nat := 0
def mtACQUIRE : Nat := 1
def mtLOCKED : Nat := 2
def mtSLEW : Nat := 3
def mtHOLDOVER : Nat := 4
def mtFREERUN : Nat := 5

/-- JUMP_TH × 64 grains, JUMP_TH 0 treated as 1 (R52). -/
def Dev.jumpLimit (d : Dev) : Nat := max 1 (d.rd F.MT_HOLD_JUMP_TH) * 64

/-- LOCK_N, below 4 treated as 4 (R62). -/
def Dev.lockN (d : Dev) : Nat := max 4 (d.rd F.MT_CFG_LOCK_N)

/-- The alternate input, unless ALT_EN is 0 or ALTSEL equals REFSEL (R55, R62). -/
def Dev.altInput (d : Dev) : Option Nat :=
  if d.on F.MT_CFG_ALT_EN ∧ d.rd F.MT_CFG_ALTSEL ≠ d.rd F.MT_CFG_REFSEL then some (d.rd F.MT_CFG_ALTSEL) else none

/-- EDGE of a mains-sense input admits crossings of a polarity; 3 is treated as 0 (R46). -/
def Dev.edgeAdmits (d : Dev) (input : Nat) (falling : Bool) : Bool :=
  match d.rd (F.MSNS_CFG_EDGE input) with
  | 1 => falling
  | 2 => true
  | _ => !falling

/-- EDGE of the reference input excludes the polarity of REF_EDGE (R50). -/
def Dev.refConflict (d : Dev) : Bool := !d.edgeAdmits (d.rd F.MT_CFG_REFSEL) (d.on F.MT_CFG_REF_EDGE)

/-- REFCFG where mains time is enabled and EDGE and REF_EDGE disagree (R50). -/
def Dev.checkRefcfg (d : Dev) : Dev :=
  if d.on F.MT_CFG_EN ∧ d.refConflict then d.raise F.MT_STATUS_REFCFG else d

/-- The periods between crossings, newest first. -/
def periodsOf : List Int → List Int
  | a :: b :: l => (a - b) :: periodsOf (b :: l)
  | _ => []

/-- The conditions of R51 on the last `n` crossings: every period within 15 to 66 Hz, and within 1 % of their mean. -/
def streakOk (n : Nat) (zs : List Int) : Bool :=
  let l := zs.take n
  let ps := periodsOf l
  let total := ps.sum
  decide (l.length = n) &&
  ps.all (fun p => decide (15151515 ≤ p) && decide (p ≤ 66666666) &&
    decide ((p * (n - 1 : Int) - total).natAbs * 100 ≤ total.natAbs))

/-- The cycle whose T0 lies nearest to a corrected instant at or before the middle of record `r`; the cycles before `r` have its
length (R47, R52). -/
def CycleRec.nearest (r : CycleRec) (z : Int) : CycleRec :=
  r.back (if r.len = 0 then 0 else ((r.t0 + (r.len / 2 : Nat) - 1 - z) / r.len).toNat)

/-- The cycle to which a corrected instant belongs: the one within half a period of whose T0 it lies (R52). -/
def Dev.cycleOf (d : Dev) (z : Int) : CycleRec :=
  let cur := d.mains.cur
  if cur.t0 + (cur.len / 2 : Nat) ≤ z then d.mains.after
  else match d.mains.prev with
    | some r => if z < r.t0 + (r.len / 2 : Nat) then r.nearest z else cur
    | none => cur

/-- A length in ns does not exceed `g` grains of record `r`. -/
def withinGrains (r : CycleRec) (ns : Int) (g : Nat) : Bool := decide (ns.natAbs * 2 ^ 20 ≤ g * r.l)

/-- A length in ns as grains of a record, rounded towards zero. -/
def inGrains (r : CycleRec) (ns : Int) : Int := divZero (ns * 2 ^ 20) r.l

/-- Record an accepted crossing, the nearer of two of one cycle (R52). -/
def Mains.accept (m : Mains) (c : Nat) (z e : Int) : Mains :=
  { m with hits := ((c, z, e) :: m.hits.filter (fun h => h.1 ≠ c)).take 2, outs := [], okCyc := c }

/-- PHERR takes the phase error e in grains (R63). -/
def Dev.setPherr (d : Dev) (r : CycleRec) (e : Int) : Dev := d.wrS F.MT_PHERR_PHERR (inGrains r e)

/-- Move mains time to a state. -/
def Dev.mtTo (d : Dev) (st : Nat) : Dev := d.wr F.MT_STATUS_STATE st

/-- Lock at the corrected instant `z` with the crossings seen (R51). -/
def Dev.mainsLock (d : Dev) (z : Int) : Dev :=
  let zs := d.mains.seek.take d.lockN
  let total := (periodsOf zs).sum
  let p := total * 2 ^ 20 / ((zs.length : Int) - 1)
  let m := { d.mains with
    cur := { c := 0, t0 := z.toNat, l := (p / 65536).toNat }, prev := none, next := none, p := p,
    hits := [(0, z, 0)], seek := [], outs := [], zLast := none, okCyc := 0, held := 0, onAlt := false }
  { d.mtTo mtLOCKED with
    mains := m, timers := d.timers.map (fun (e : Nat × Timer) => (e.1, { e.2 with lastCycle := 0 })) }

/-- Leave HOLDOVER, FREERUN or the alternate input at the primary's crossing `z` (R56). -/
def Dev.mainsRecover (d : Dev) (z : Int) : Dev :=
  let r := d.cycleOf z
  let e := z - r.t0
  let back := d.mains.onAlt
  let m := { d.mains.accept r.c z e with seek := [], held := 0, onAlt := false, zLast := some (z, r.c) }
  let d := ({ d with mains := m }.setPherr r e).mtTo (if withinGrains r e d.jumpLimit then mtLOCKED else mtSLEW)
  let d := d.wr F.MT_STATUS_ACTIVE (d.rd F.MT_CFG_REFSEL)
  if back then d.raise F.MT_STATUS_ALTUSED else d

/-- Enter HOLDOVER: MAINSLOST and its cause (R55, R56). -/
def Dev.mainsHold (d : Dev) : Dev :=
  ({ d.mtTo mtHOLDOVER with mains := { d.mains with seek := [], outs := [], held := 0 } }.raise
    F.MT_STATUS_MAINSLOST).cause causeMAINSLOST { ao := true }

/-- Phase errors of outliers lie within the limit of one another (R54). -/
def groupOk (r : CycleRec) (lim : Nat) (es : List Int) : Bool :=
  es.all (fun a => es.all (fun b => withinGrains r (a - b) lim))

/-- An outlier: counted and not used; in LOCKED the fourth of a group begins SLEW (R52, R54). What parts consecutive outliers no
rule says: an accepted crossing does, a cycle without a crossing does not, and two outliers of one cycle are two (DESIGN CHOICE,
log entry 173). -/
def Dev.mainsOutlier (d : Dev) (r : CycleRec) (z e : Int) : Dev :=
  let d := (d.inc F.MT_CNT_OUTLIERS).raise F.MT_STATUS_OUTLIER
  let outs := ((z, e) :: d.mains.outs).take 4
  if d.mst = mtLOCKED ∧ outs.length = 4 ∧ groupOk r d.jumpLimit (outs.map Prod.snd) then
    { d.mtTo mtSLEW with mains := { d.mains with outs := [], zLast := some (z, r.c) } }
  else { d with mains := { d.mains with outs := outs } }

/-- In SLEW a crossing agrees with the group: it lies within the limit of z_last + n × p (R54). -/
def Dev.mainsAgrees (d : Dev) (r : CycleRec) (z : Int) : Bool :=
  match d.mains.zLast with
  | none => false
  | some (z0, c0) =>
    -- all terms in units of 2^−20 ns
    let dev := (z - z0) * 2 ^ 20 - ((r.c : Int) - c0) * d.mains.p
    decide (dev.natAbs ≤ d.jumpLimit * r.l)

/-- Judge a crossing that feeds the tracking loop in LOCKED or SLEW (R52 to R54).  PHERR, the last phase error (R63), takes that of
every crossing but the farther one of a cycle that already has an accepted one (DESIGN CHOICE, log entry 174). -/
def Dev.mainsTrack (d : Dev) (z : Int) : Dev :=
  let r := d.cycleOf z
  let e := z - r.t0
  if d.mains.hits.any (fun h => h.1 = r.c && decide (h.2.2.natAbs ≤ e.natAbs)) then
    (if withinGrains r e d.jumpLimit ∨ (d.mst = mtSLEW ∧ d.mainsAgrees r z) then d else d.mainsOutlier r z e)
  else
    let d := d.setPherr r e
    if withinGrains r e d.jumpLimit then
      { d.mtTo mtLOCKED with mains := { d.mains.accept r.c z e with zLast := some (z, r.c) } }
    else if d.mst = mtSLEW ∧ d.mainsAgrees r z then
      { d with mains := { d.mains.accept r.c z e with zLast := some (z, r.c) } }
    else d.mainsOutlier r z e

/-- Learn the grain of an alternate crossing; ALTPH is valid after 16 of them (R55).  A corrected instant before the current
cycle has the grain that it would have a cycle later. -/
def Dev.learnAlt (d : Dev) (z : Int) : Dev :=
  let x := if z < d.mains.cur.t0 then z + d.mains.cur.len else z
  let gs := ((d.mains.cur.at_ x.toNat).2 :: d.mains.altGrains).take 16
  let d := { d with mains := { d.mains with altGrains := gs } }
  if gs.length = 16 then (d.wr F.MT_PHERR_ALTPH (roundQuotient gs.sum 16).toNat).raise F.MT_STATUS_ALTVALID else d

/-- Feed a corrected crossing of the polarity of REF_EDGE to the loop. Without REFCLK_SYS mains time neither locks nor leaves
HOLDOVER (R14, R56; for the first lock DEDUCED, log entry 152). -/
def Dev.mainsFeed (d : Dev) (input : Nat) (z : Int) : Dev :=
  if input = d.rd F.MT_CFG_REFSEL then
    if d.mst = mtACQUIRE ∨ d.mst = mtHOLDOVER ∨ d.mst = mtFREERUN ∨ d.mains.onAlt then
      let d := { d with mains := { d.mains with seek := (z :: d.mains.seek).take d.lockN } }
      if !streakOk d.lockN d.mains.seek then d
      else if !d.mains.refclk then d
      else if d.mst = mtACQUIRE then d.mainsLock z
      else d.mainsRecover z
    else d.mainsTrack z
  else if d.altInput = some input ∧ (d.mst = mtLOCKED ∨ d.mst = mtSLEW) then
    if d.mains.onAlt then d.mainsTrack (z - d.grains (d.rd F.MT_PHERR_ALTPH))
    else if d.mst = mtLOCKED then d.learnAlt z
    else d
  else d

/-- A crossing that the comparator of input `input` accepts unless it is disabled, excluded by EDGE or within BLANK (R46). -/
def Dev.crossing (d : Dev) (input : Nat) (falling : Bool) : Dev :=
  let last := Tab.get 0 d.mains.lastHit input
  let blank := d.rd (F.MSNS_CFG_BLANK input) * 64000
  if !d.on (F.MSNS_CFG_EN input) ∨ !d.edgeAdmits input falling ∨ (last ≠ 0 ∧ d.now < last + blank) then d
  else
    let d := { d with mains := { d.mains with lastHit := Tab.set 0 d.mains.lastHit input d.now } }
    if d.mst = mtOFF then d
    else if input = d.rd F.MT_CFG_REFSEL ∧ d.refConflict then d.raise F.MT_STATUS_REFCFG
    else if falling ≠ d.on F.MT_CFG_REF_EDGE then d
    else d.mainsFeed input ((d.now : Int) - comparatorDelay - d.rdS (F.MT_OFS_ZC_OFFSET input))

/-- ZERO_CROSSING (R50 to R56): a crossing stamped at `t` on a mains-sense input. -/
def execZeroCrossing (t : Nat) (input : Fin 4) (falling : Bool) (s : State) : Host.Outcome State Fault Refusal :=
  s.run t (fun d => d.crossing input.val falling)

/-- The correction of R53 in units of 2^−20 ns, and the period estimate after the update. -/
def Dev.loopFilter (d : Dev) : Int × Int :=
  let m := d.mains
  let tc := min 5 (d.rd F.MT_CFG_TC)
  match m.hits.find? (fun h => h.1 == m.cur.c) with
  | none => (m.p, 0)
  | some (_, z, e) =>
    let p := match m.hits.find? (fun h => h.1 + 1 == m.cur.c) with
      | none => m.p
      | some (_, z0, _) => m.p + divZero ((z - z0) * 2 ^ 20 - m.p) (2 ^ (tc + 2))
    let corr := if d.mst = mtSLEW then e * 2 ^ 20 else divZero (e * 2 ^ 20) (2 ^ (tc + 1))
    (p, max (-(divZero p 64)) (min corr (divZero p 64)))

/-- Fix the record of the next cycle (R48, R49, R53, R56), counting a cycle of HOLDOVER. -/
def Dev.fixRecord (d : Dev) : Dev :=
  let m := d.mains
  let tracking := d.mst = mtLOCKED ∨ d.mst = mtSLEW
  let (p, corr) := if tracking then d.loopFilter else (m.p, 0)
  let want := p + corr
  let period := max periodMin (min want periodMax)
  let next : CycleRec := { c := m.cur.c + 1, t0 := m.cur.t0 + m.cur.len, l := (period / 65536).toNat }
  let m := { m with p := p, next := some next }
  let m := if tracking then m else { m with held := m.held + 1 }
  let d := { d with mains := m }
  if period ≠ want then d.raise F.MT_STATUS_RANGE else d

/-- CYCLE_RECORD_FIX (R48, R53): from grain 32,768 of a cycle, once per cycle, in every state in which mains time runs. -/
def execCycleRecordFix (t : Nat) (s : State) : Host.Outcome State Fault Refusal :=
  s.run t (fun d => if d.timeRuns ∧ d.mains.next = none ∧ 32768 ≤ d.grn then d.fixRecord else d)

/-- The corrected instant of a crossing of an input that would come now (R50, R55). -/
def Dev.sensed (d : Dev) (input : Nat) (alt : Bool) : Int :=
  (d.now : Int) - comparatorDelay - d.rdS (F.MT_OFS_ZC_OFFSET input) - (if alt then d.grains (d.rd F.MT_PHERR_ALTPH) else 0 : Nat)

/-- The last cycle whose crossing can no longer come: a crossing that came now would belong to a later one. -/
def Dev.overCyc (d : Dev) (input : Nat) (alt : Bool) : Nat := (d.cycleOf (d.sensed input alt)).c - 1

/-- The cycles missed in a row (R55).  No rule says when a cycle without a crossing counts as missed: here it does from the instant
after which no crossing could belong to it (DESIGN CHOICE, log entry 175). -/
def Dev.missedRun (d : Dev) : Nat := d.overCyc (d.rd F.MT_STATUS_ACTIVE) d.mains.onAlt - d.mains.okCyc

/-- Switch to the alternate input, ALTUSED (R55); the count of missed cycles starts again. -/
def Dev.toAlt (d : Dev) (a : Nat) : Dev :=
  ({ d with mains := { d.mains with onAlt := true, okCyc := d.overCyc a true, seek := [] } }.wr F.MT_STATUS_ACTIVE a).raise
    F.MT_STATUS_ALTUSED

/-- MISSED_CYCLES (R55): HOLD_MISS consecutive missed cycles switch to the alternate input or enter HOLDOVER. -/
def execMissedCycles (t : Nat) (s : State) : Host.Outcome State Fault Refusal :=
  s.run t (fun d =>
    if (d.mst = mtLOCKED ∨ d.mst = mtSLEW) ∧ max 1 (d.rd F.MT_HOLD_HOLD_MISS) ≤ d.missedRun then
      match d.altInput with
      | some a => if !d.mains.onAlt ∧ d.on F.MT_STATUS_ALTVALID then d.toAlt a else d.mainsHold
      | none => d.mainsHold
    else d)

/-- FREERUN (R56): after HOLD_MAX cycles in HOLDOVER, with MAINSLOST recorded a second time. -/
def execFreerun (t : Nat) (s : State) : Host.Outcome State Fault Refusal :=
  s.run t (fun d =>
    if d.mst = mtHOLDOVER ∧ d.rd F.MT_HOLD_HOLD_MAX ≤ d.mains.held then
      ((d.mtTo mtFREERUN).raise F.MT_STATUS_MAINSLOST).cause causeMAINSLOST { ao := true }
    else d)

/-- What REFCLK_SYS_RESTORED does in mains time (R56): REFCLK_SYS is present again; a primary that already meets R51 takes mains
time out of HOLDOVER or FREERUN, or locks it. -/
def Dev.refclkBack (d : Dev) : Dev :=
  let d := { d with mains := { d.mains with refclk := true } }
  match d.mains.seek with
  | z :: _ =>
    if !streakOk d.lockN d.mains.seek then d
    else if d.mst = mtACQUIRE then d.mainsLock z
    else if d.mst = mtHOLDOVER ∨ d.mst = mtFREERUN then d.mainsRecover z
    else d
  | [] => d

/-! ### Register writes and reads of mains time (R62, R63) -/

/-- Fields of MT_CFG that EN protects: REFSEL, REF_EDGE, TC, LOCK_N (R62). -/
def mtProtected : Nat := 0xF746

/-- Leave OFF or return to it (R50, R62). -/
def Dev.mtEnable (d : Dev) (en : Bool) : Dev :=
  let d := { d with mains := { refclk := d.mains.refclk, lastHit := d.mains.lastHit } }
  let d := d.wr F.MT_STATUS_ALTVALID 0
  if en then ((d.mtTo mtACQUIRE).wr F.MT_STATUS_ACTIVE (d.rd F.MT_CFG_REFSEL)).checkRefcfg
  else (d.mtTo mtOFF).wr F.MT_STATUS_ACTIVE 0

/-- A write to MT_CFG taken field by field (R62). -/
def Dev.writeMtCfg (d : Dev) (v : Word32) : Dev :=
  let old := d.word A.MT_CFG
  let was := d.on F.MT_CFG_EN
  let keep : Word32 := if was then BitVec.ofNat 32 (mtProtected + (if d.anyChOn then 1 else 0)) else 0
  let v := v &&& 0xF77F#32
  let new := (v &&& ~~~keep) ||| (old &&& keep)
  let d := if new ≠ v then (d.setWord A.MT_CFG new).raise F.MT_STATUS_CFGREJ else d.setWord A.MT_CFG new
  if d.on F.MT_CFG_EN = was then d else d.mtEnable (d.on F.MT_CFG_EN)

/-- A write to MT_OFSn: refused for the reference input while EN is 1 if it would change ZC_OFFSET (R62). -/
def Dev.writeMtOfs (d : Dev) (n : Nat) (v : Word32) : Dev :=
  let v := v &&& 0xFFFFF#32
  if d.on F.MT_CFG_EN ∧ n = d.rd F.MT_CFG_REFSEL ∧ v ≠ d.word (A.MT_OFS n) then d.raise F.MT_STATUS_CFGREJ
  else d.setWord (A.MT_OFS n) v

/-- The latch of R63: MT_NOW_CYC, MT_NOW_GRN and MT_NOW_NS of one instant. -/
def Dev.latchNow (d : Dev) : Dev :=
  let (c, g) := d.mainsAt d.now
  (((d.wr F.MT_NOW_CYC_CYCLE c).wr F.MT_NOW_GRN_GRAIN g).wr64 F.MT_NOW_NS_LO_NS F.MT_NOW_NS_HI_NS d.now)

/-- MT_NOW_CYC_READ (R63). -/
def execMtNowCycRead (t : Nat) (s : State) : Host.Outcome State Fault Refusal :=
  s.runClk t Dev.latchNow

/-! ### The deadline log (R60, R61) -/

/-- DLMISS subcodes (R60). -/
def subSTEP : Nat := 0
def subSLOT : Nat := 1
def subWINDOW : Nat := 2
def subBUDGET : Nat := 3
def subCONV : Nat := 4

/-- The words of an entry of the deadline log. -/
def Dev.missWords (d : Dev) (i : Nat) : List Word32 :=
  [d.word (A.DL_LOG_W0 i), d.word (A.DL_LOG_W1 i), d.word (A.DL_LOG_W2 i), d.word (A.DL_LOG_W3 i)]

def Dev.putMiss (d : Dev) (i : Nat) (l : List Word32) : Dev :=
  (((d.setWord (A.DL_LOG_W0 i) (l.getD 0 0)).setWord (A.DL_LOG_W1 i) (l.getD 1 0)).setWord (A.DL_LOG_W2 i) (l.getD 2 0)).setWord
    (A.DL_LOG_W3 i) (l.getD 3 0)

/-- Move entry `i` of the log before the `n` entries of the same CCLK cycle that name higher sequencers (R61). -/
def Dev.sinkMiss (d : Dev) (i : Nat) : Nat → Dev
  | 0 => d
  | n + 1 =>
    let j := (i + 15) % 16
    if d.rd (F.DL_LOG_W0_SEQ i) < d.rd (F.DL_LOG_W0_SEQ j) then
      Dev.sinkMiss ((d.putMiss i (d.missWords j)).putMiss j (d.missWords i)) j n
    else d

/-- Write entry `i` of the deadline log (R60, R61).  `late` is the detection instant less D, 0 for CONV. -/
def Dev.logMiss (d : Dev) (i sub : Nat) (chan : Option Nat) (seq step late : Nat) : Dev :=
  let (c, g) := d.mainsAt d.now
  let d := ((d.wr (F.DL_LOG_W0_SEQ i) seq).wr (F.DL_LOG_W0_CHAN i) (chan.getD 0)).wr (F.DL_LOG_W0_CHVALID i)
    (if chan.isSome then 1 else 0)
  let d := (d.wr (F.DL_LOG_W0_SUB i) sub).wr (F.DL_LOG_W1_STEP i) step
  let d := (d.wr (F.DL_LOG_W1_GRAIN i) g).wr (F.DL_LOG_W2_CYCLE i) c
  d.wr (F.DL_LOG_W3_LATENESS i) (if sub = subCONV then 0 else min late 0xFFFFFFFF)

/-- Record a deadline miss: the log entry, MT_STATUS and the cause with its counter and notice (R60, R61, R409).  Where 16 misses of
this CCLK cycle already fill the ring, one of a lower sequencer than theirs is the one that ascending order overwrites. -/
def Dev.dlMiss (d : Dev) (sub : Nat) (chan : Option Nat) (seq step late : Nat) : Dev :=
  let i := d.rd F.DL_LOG_IDX_NEXT
  let n := if d.missAt.1 = d.cclk then d.missAt.2 else 0
  let d := { (if 16 ≤ n ∧ seq < d.rd (F.DL_LOG_W0_SEQ i) then d else d.logMiss i sub chan seq step late).sinkMiss i (min 15 n) with
    missAt := (d.cclk, n + 1) }
  let d := ((d.wr F.DL_LOG_IDX_NEXT (i + 1)).inc F.DL_LOG_IDX_DL_TOTAL).raise F.MT_STATUS_DLMISS
  d.cause causeDLMISS { chan := chan, seq := some seq, step := step, sub := sub }

end Sys2Proof.Machine
end

