-- ==== Sys2Proof/Machine/Wave.lean ====
section
/-! DEFINITION. Waveform and framing: the mode and flags fields, palettes and chip rates, frame durations, interleaver
blocks, and the checks made on every frame (R92 to R134, R446). -/

namespace Sys2Proof.Machine

open Sys2Proof

/-! ### Mode and flags fields (R119, R120) -/

def Form.mux (f : Form) : Bool := f.mode / 2 ^ 11 % 2 == 1
def Form.kord (f : Form) : Nat := f.mode / 2 ^ 8 % 8
def Form.pfx (f : Form) : Nat := f.mode / 2 ^ 6 % 4
def Form.rate (f : Form) : Nat := f.mode / 2 ^ 3 % 8
def Form.load (f : Form) : Nat := f.mode % 8

/-- Sweep order k. -/
def Form.k (f : Form) : Nat := 8 + f.kord
/-- Symbol length N. -/
def Form.n (f : Form) : Nat := 2 ^ f.k
/-- Prefix length P (R94). -/
def Form.p (f : Form) : Nat :=
  match f.pfx with
  | 0 => 0
  | 1 => f.n / 16
  | 2 => f.n / 8
  | _ => f.n / 4
/-- Stream count S (R120). -/
def Form.s (f : Form) : Nat := 2 ^ f.strm
/-- Repetition r (R119). -/
def Form.r (f : Form) : Nat :=
  if f.mux then 1 else match f.load with
    | 1 => 4
    | 2 => 6
    | _ => 1

/-- No reserved code in MODE and FLAGS (R119, R120). -/
def Form.codesOk (f : Form) : Bool :=
  f.kord != 7 && decide (f.rate ≤ 4) && (if f.mux then f.load != 0 && f.load != 7 else decide (f.load ≤ 2)) &&
  f.strm != 3 && decide (f.span ≤ 4)

/-- Coded bits per symbol b (R109). -/
def Form.bits (f : Form) : Nat := if f.mux then f.s * (15 * f.n / 16) * (2 * f.load) else f.k

/-- Information octets per codeword K/8 (R126). -/
def infoOctets (rate : Nat) : Nat :=
  match rate with
  | 0 => 384
  | 1 => 512
  | 2 => 576
  | 3 => 640
  | _ => 672

/-- The beacon form with the level of a form register (R168, R205). -/
def beaconForm (lvl : Int) : Form := { mode := 0, strm := 0, span := 0, kh := 8, np := 16, lvl := lvl }

/-- A form laid out as SQ_FORM (R223). -/
def Form.ofWord (w : Word32) : Form :=
  { mode := getBits w 0 12, strm := getBits w 12 2, span := getBits w 14 3, kh := 8 + getBits w 17 3,
    np := 8 * (getBits w 20 3 + 1), lvl := toSigned 8 (getBits w 23 8) }

/-- A level clamped to −24 to +103 (R103). -/
def clampLevel (l : Int) : Int := max (-24) (min l 103)

/-! ### Palettes (R79, R92) -/

/-- Word w of palette A or B of a channel. -/
def Dev.palWord (d : Dev) (k : Nat) (b : Bool) (w : Nat) : Word32 := d.word (if b then A.PAL_B_W k w else A.PAL_A_W k w)

/-- The active palette is B. -/
def Dev.activeB (d : Dev) (k : Nat) : Bool := d.on (F.SC_STATUS_ACTIVE k)

def Dev.nco (d : Dev) (k : Nat) : Nat := (d.palWord k (d.activeB k) 0).toNat
def Dev.cicLog (d : Dev) (k : Nat) : Nat := getBits (d.palWord k (d.activeB k) 1) 0 3
def Dev.rsStep (d : Dev) (k : Nat) : Nat := getBits (d.palWord k (d.activeB k) 2) 0 26
def Dev.gdelayRx (d : Dev) (k : Nat) : Nat := getBits (d.palWord k (d.activeB k) 3) 0 12

/-- NCO_FTW of a centre frequency in units of 100 kHz: round(f_c × 2^32 / 10^9) (R67). -/
def ftw (f : Nat) : Nat := (2 * f * 100000 * 2 ^ 32 + 10 ^ 9) / (2 * 10 ^ 9)

/-- The fixed band plans (R78, R92). -/
inductive Plan where
  | b30 | b86 | b250 | b480 | custom
deriving DecidableEq, Repr

/-- The plan of the active palette: CIC_LOG2R, RS_STEP and NCO_FTW decide it (R107). -/
def Dev.plan (d : Dev) (k : Nat) : Plan :=
  if d.rsStep k ≠ 2 ^ 24 then .custom
  else if d.cicLog k = 4 ∧ d.nco k = ftw 159 then .b30
  else if d.cicLog k = 2 ∧ d.nco k = ftw 439 then .b86
  else if d.cicLog k = 1 ∧ d.nco k = ftw 1259 then .b250
  else if d.cicLog k = 0 ∧ d.nco k = ftw 2409 then .b480
  else .custom

/-- Chips as a length in ns, rounded up: a chip lasts 2·D·RS_STEP / 2^24 ns (R64, R72; log entry 9). -/
def Dev.chipsNs (d : Dev) (k chips : Nat) : Nat := ceilDiv (chips * 2 * 2 ^ d.cicLog k * d.rsStep k) (2 ^ 24)

/-- Chips that fit a length of `num`/`den` ns, rounded down. -/
def Dev.nsChips (d : Dev) (k num den : Nat) : Nat := num * 2 ^ 24 / (den * 2 * 2 ^ d.cicLog k * max 1 (d.rsStep k))

/-- T_nom in ns (R135). -/
def Dev.tnom (d : Dev) (k : Nat) : Nat :=
  match d.rd (F.FR_CFG_FNOM k) with
  | 0 => 20000000
  | 1 => 16666667
  | 2 => 60000000
  | _ => d.rd (F.FR_CFG_TNOM_US k) * 1000

/-! ### Symbols, blocks and durations (R118, R128, R129, R131) -/

/-- Header symbols Nh (R118). -/
def headerSymbols (kh : Nat) : Nat := ceilDiv 288 kh
/-- Chips of preamble, sync field and header (R110). -/
def Form.leadChips (f : Form) : Nat := (f.np + 32) * 2 ^ f.kh + headerSymbols f.kh * (2 ^ f.kh + 2 ^ f.kh / 16)
/-- Nsym (R128). -/
def Form.symbols (f : Form) (len : Nat) : Nat := ceilDiv (6144 * len) f.bits
/-- Symbols of a block n_s (R129). -/
def Dev.blockSymbols (d : Dev) (k : Nat) (f : Form) : Nat :=
  max 1 (d.nsChips k (d.tnom k * 2 ^ f.span) (16 * (f.n + f.p)))
/-- T_slot in chips and n_r (R131). -/
def Dev.slotChips (d : Dev) (k : Nat) (f : Form) : Nat := d.nsChips k (d.tnom k) (2 * f.r)
def Dev.repSymbols (d : Dev) (k : Nat) (f : Form) : Nat := d.slotChips k f / (f.n + f.p)

/-- Chips of the payload (R128, R131). -/
def Dev.payloadChips (d : Dev) (k : Nat) (f : Form) (len : Nat) : Nat :=
  let ns := f.symbols len
  if f.r = 1 then ns * (f.n + f.p)
  else
    let nr := max 1 (d.repSymbols k f)
    let x := ceilDiv ns nr
    ((x - 1) * f.r + (f.r - 1)) * d.slotChips k f + (ns - (x - 1) * nr) * (f.n + f.p)

/-- Instant at which the last chip of a frame with transmit instant `t` ends (R110, R168; log entry 9). -/
def Dev.frameEnd (d : Dev) (k : Nat) (f : Form) (len t : Nat) : Nat :=
  t + 250 + d.chipsNs k (f.leadChips + d.payloadChips k f len)

/-- Instant of the first payload chip of that frame. -/
def Dev.payloadStart (d : Dev) (k : Nat) (f : Form) (t : Nat) : Nat := t + 250 + d.chipsNs k f.leadChips

/-- ANCHOR: floor(8·γ / G), 0 in OFF and ACQUIRE and where r is above 1 (R121, R129). -/
def Dev.anchor (d : Dev) (k : Nat) (f : Form) (t : Nat) : Nat :=
  if !d.timeRuns ∨ f.r ≠ 1 then 0
  else
    let g := 4096 * 2 ^ f.span
    8 * ((d.mainsAt (d.payloadStart k f t)).2 % g) / g

/-- Smallest LEN that holds a message, with codewords of K/8 octets (R122). -/
def lenFor (octets blen : Nat) : Nat := ceilDiv (32 + blen) octets

/-- Largest message that a LEN holds. -/
def roomOf (octets len : Nat) : Nat := len * octets - 32

/-- The upper edge of the band in Hz: f_c and half the chip rate (R78, R92). -/
def Dev.bandEdge (d : Dev) (k : Nat) : Nat :=
  d.nco k * 10 ^ 9 / 2 ^ 32 + 10 ^ 9 * 2 ^ 24 / (4 * 2 ^ d.cicLog k * max 1 (d.rsStep k))

/-- The drive class of the active palette is the high band's (R29). -/
def Dev.driveHigh (d : Dev) (k : Nat) : Bool :=
  match d.plan k with
  | .b30 => false
  | .b86 => false
  | .b250 => true
  | .b480 => true
  | .custom => decide (86000000 < d.bandEdge k)

/-- The largest differential output of a drive class in mVpp (R29). -/
def driveLimit (high : Bool) : Nat := if high then 12000 else 24000

/-! ### Checks on every frame (R94, R100, R101, R106, R107, R121, R132, R133) -/

def Dev.bundleSize (d : Dev) (k : Nat) : Nat := (d.members k).length

/-- MAXQ, MINK, MAXK of WF_LIMIT with their clamps (R108). -/
def Dev.maxq (d : Dev) (k : Nat) : Nat := min 6 (d.rd (F.WF_LIMIT_MAXQ k))
def Dev.mink (d : Dev) (k : Nat) : Nat := max 8 (d.rd (F.WF_LIMIT_MINK k))
def Dev.maxk (d : Dev) (k : Nat) : Nat := min 14 (d.rd (F.WF_LIMIT_MAXK k))

/-- A version admits a form on the active palette of one member (R106, R446). -/
def Dev.versionOk (d : Dev) (m : Nat) (f : Form) (ver : Nat) : Bool :=
  match ver with
  | 1 => !f.mux && f.s == 1 && d.plan m == .b30
  | 2 => (f.mux → f.load ≤ 5) && f.s == 1 && d.plan m != .b480
  | 3 => true
  | _ => false

/-- R94 and R100 to R102, whatever the version. -/
def Dev.shapeOk (d : Dev) (k : Nat) (f : Form) : Bool :=
  (f.mux → f.pfx ≠ 0) && (!f.mux → f.strm = 0) && (f.s = 1 ∨ f.s = d.bundleSize k) && (f.s ≠ 1 → 10 ≤ f.k)

/-- R94, R100 to R102 and R106 for a version on a channel, with the active palette of every member (R446). -/
def Dev.formOk (d : Dev) (k : Nat) (f : Form) (ver : Nat) : Bool :=
  d.shapeOk k f && (d.members k).all (fun m => d.versionOk m f ver)

/-- WF_LIMIT of one member admits the form (R107, R108). -/
def Dev.limitOk (d : Dev) (m : Nat) (f : Form) : Bool :=
  decide (d.mink m ≤ f.k) && decide (f.k ≤ d.maxk m) && decide (d.rd (F.WF_LIMIT_PMIN m) ≤ f.pfx) &&
  (f.mux → (d.on (F.WF_LIMIT_MUXEN m) ∧ f.load ≤ d.maxq m))

/-- kh lies within MINK to MAXK of a member (R133). -/
def Dev.khOk (d : Dev) (m kh : Nat) : Bool := decide (d.mink m ≤ kh) && decide (kh ≤ d.maxk m)

/-- Interleaver octets of the channel or its bundle (R132, R135). -/
def Dev.ilOctets (d : Dev) (k : Nat) : Nat := ((d.members k).map (fun m => min 512 (d.rd (F.FR_ILMEM_ILMEM m)))).sum * 2 ^ 20

/-- M of R132. -/
def Dev.blockOctets (d : Dev) (k : Nat) (f : Form) (len : Nat) : Nat :=
  let n := if f.r = 1 then d.blockSymbols k f else f.symbols len
  ceilDiv (9 * n * f.bits) 4

/-- SPAN and ANCHOR are 0 with repetition (R121). -/
def Form.spanOk (f : Form) (anchor : Nat) : Bool := f.r == 1 || (f.span == 0 && anchor == 0)

/-- The memory and frame checks of R133 that concern the header fields, the block and the repetition. -/
def Dev.frameOk (d : Dev) (k : Nat) (f : Form) (len anchor : Nat) : Bool :=
  decide (1 ≤ len) && decide (len ≤ 4095) && f.spanOk anchor && (f.r = 1 ∨ d.repSymbols k f ≠ 0) &&
  decide (d.blockOctets k f len ≤ d.ilOctets k)

/-- A refusal under R107 on the members `l`; `fr` marks a refusal of R133. -/
def Dev.wfReject (d : Dev) (l : List Nat) (fr : Bool) : Dev :=
  l.foldl (fun d m =>
    let d := (d.raise (F.WF_STATUS_WFREJ m)).inc (F.WF_CNT_WFREJCNT m)
    if fr then (d.raise (F.FR_STATUS_FRREJ m)).inc (F.FR_CNT2_FRREJCNT m) else d) d

/-- The members whose palette, WF_LIMIT or kh refuse a form under R107 and R133. -/
def Dev.refusing (d : Dev) (k : Nat) (f : Form) (ver : Nat) : List Nat :=
  (d.members k).filter (fun m => !(d.versionOk m f ver && d.limitOk m f && d.khOk m f.kh))

/-- The checks of R107 and R133 at a TX step; answers the members that refuse, the lead for what concerns the frame as a whole, and
whether R133 does: every condition of R121 is one of R133's, so only a step that names B30 over another palette is not (log entry
19).  `names30` says that the step names B30. -/
def Dev.txRefusal (d : Dev) (k : Nat) (f : Form) (ver len anchor : Nat) (names30 : Bool) : Option (List Nat × Bool) :=
  let whole := f.codesOk && d.shapeOk k f && d.frameOk k f len anchor
  let l := d.refusing k f ver
  let other := (d.members k).filter (fun m => names30 && d.plan m != .b30)
  if !whole then some ((k :: l.filter (fun m => m ≠ k)), true)
  else if l ≠ [] then some (l, true)
  else if other ≠ [] then some (other, false)
  else none

/-- A quotient rounded as R66 rounds: half upward. -/
def roundDiv (a : Int) (b : Nat) : Int := (2 * a + b) / (2 * (b : Int))

/-- The checks of R107 at an RX step: its order kh, and B30 where it selects FR_SYNCB alone. -/
def Dev.rxRefusal (d : Dev) (k kh sync : Nat) : Option (List Nat) :=
  let l := (d.members k).filter (fun m => !d.khOk m kh || (sync == 1 && d.plan m != .b30))
  if l = [] then none else some l

/-! ### Header word (R115) -/

def hdrVersion (h : BitVec 96) : Nat := (h.extractLsb' 92 4).toNat
def hdrType (h : BitVec 96) : Nat := (h.extractLsb' 88 4).toNat
def hdrSrc (h : BitVec 96) : Nat := (h.extractLsb' 71 17).toNat
def hdrDst (h : BitVec 96) : Nat := (h.extractLsb' 54 17).toNat
def hdrLen (h : BitVec 96) : Nat := (h.extractLsb' 30 12).toNat
def hdrAnchor (h : BitVec 96) : Nat := (h.extractLsb' 22 3).toNat
def hdrMode (h : BitVec 96) : Nat := (h.extractLsb' 42 12).toNat
def hdrHcrc (h : BitVec 96) : BitVec 16 := h.extractLsb' 0 16

/-- The form that a header names; NP and the level are not in it. -/
def hdrForm (h : BitVec 96) (kh : Nat) : Form :=
  { mode := hdrMode h, strm := (h.extractLsb' 28 2).toNat, span := (h.extractLsb' 25 3).toNat, kh := kh }

/-- One bit into the CRC-16 register of R116. -/
def crc16Bit (r : BitVec 16) (b : Bool) : BitVec 16 :=
  if (r.getLsbD 15 != b) then (r <<< 1) ^^^ 0x1021#16 else r <<< 1

/-- HCRC over the 80 bits [95:16] (R116). -/
def hcrc (h : BitVec 96) : BitVec 16 :=
  ~~~((List.range 80).foldl (fun r i => crc16Bit r (h.getLsbD (95 - i))) 0xFFFF#16)

/-- One octet into the CRC-32 register of R123. -/
def crc32Octet (r : BitVec 32) (b : Byte) : BitVec 32 :=
  (List.range 8).foldl (fun r i =>
    if (r.getLsbD 31 != b.getLsbD (7 - i)) then (r <<< 1) ^^^ 0x04C11DB7#32 else r <<< 1) r

/-- FCS over octets 0 to the end of TAG (R123). -/
def fcs32 (l : List Byte) : BitVec 32 := ~~~(l.foldl crc32Octet 0xFFFFFFFF#32)

/-- HCRC passes. -/
def hcrcOk (h : BitVec 96) : Bool := hcrc h == hdrHcrc h

/-- A header with its HCRC (R115). -/
def mkHeader (ver typ src dst len anchor : Nat) (f : Form) : BitVec 96 :=
  let h : BitVec 96 := BitVec.ofNat 4 ver ++ BitVec.ofNat 4 typ ++ BitVec.ofNat 17 src ++ BitVec.ofNat 17 dst ++
    BitVec.ofNat 12 f.mode ++ BitVec.ofNat 12 len ++ BitVec.ofNat 2 f.strm ++ BitVec.ofNat 3 f.span ++
    BitVec.ofNat 3 anchor ++ 0#22
  h ||| (hcrc h).setWidth 96

/-- The 12-octet image of a header. -/
def hdrOctets (h : BitVec 96) : List Byte := octetsBE 12 h.toNat

end Sys2Proof.Machine
end

