-- ==== Sys2Proof/Machine/Flags.lean ====
section
/-! DEFINITION. Every flag computation of the data path: result codes, the conditions of a step, level and quality, the
advisory gain, the noise floor and the jammer count (R156 to R160, R200, R203, R205). -/

namespace Sys2Proof.Machine

open Sys2Proof

/-! ### Result codes -/

/-- Reception result codes (R156). -/
def rxOK : Nat := 0
def rxTIMEOUT : Nat := 1
def rxSYNCLOST : Nat := 2
def rxHDRCRC : Nat := 3
def rxPLCRC : Nat := 4
def rxTAGFAIL : Nat := 5
def rxREPLAY : Nat := 6
def rxCUT : Nat := 7
def rxREFUSED : Nat := 8

/-- TX results (R205). -/
def txSENT : Nat := 0
def txREFUSED : Nat := 1
def txNOGRANT : Nat := 2
def txDLMISS : Nat := 3
def txCUT : Nat := 4
def txOVERLAP : Nat := 5
def txNOENT : Nat := 6

/-- Sequencer states (R196). -/
def sqIDLE : Nat := 0
def sqARMED : Nat := 1
def sqRUN : Nat := 2
def sqHOLD : Nat := 3
def sqHALTED : Nat := 4
def sqFAULT : Nat := 5

/-- Fault codes of a sequencer (R216). -/
def fcPARITY : Nat := 1
def fcSTACK : Nat := 2
def fcRUNAWAY : Nat := 3
def fcWDOG : Nat := 4
def fcOUTLIVE : Nat := 5
def fcMISS : Nat := 6
def fcBADSTEP : Nat := 8

/-- Receiver states (R136). -/
def aqIDLE : Nat := 0
def aqSEARCH : Nat := 1
def aqPREAMBLE : Nat := 2
def aqSYNC : Nat := 3
def aqHEADER : Nat := 4
def aqPAYLOAD : Nat := 5

/-- Phases of channel service (R343, GV_CHSTAT). -/
def phOFF : Nat := 0
def phWAIT : Nat := 1
def phDEPS : Nat := 2
def phRAMP : Nat := 3
def phRESTORE : Nat := 4
def phCAL : Nat := 5
def phSTART : Nat := 6
def phARMED : Nat := 7
def phSERVICE : Nat := 8
def phDRAIN : Nat := 9
def phCAPTURE : Nat := 10
def phHELD : Nat := 11

/-! ### Sequencer flags -/

/-- Target channel of a sequencer's pair (R195). -/
def Dev.tgt (d : Dev) (q : Nat) : Nat := d.rd (F.SQ_PAIR_TGT (q / 2))

/-- The owner pair of a channel that is not a non-lead bundle member may issue every class (R195). -/
def Dev.ownerOk (d : Dev) (q : Nat) : Bool := d.on (F.SQ_PAIR_OWNER (q / 2)) && d.lead (d.tgt q) == d.tgt q

def Dev.sqState (d : Dev) (q : Nat) : Nat := d.rd (F.SQ_STATUS_STATE q)
def Dev.sqPc (d : Dev) (q : Nat) : Nat := d.rd (F.SQ_STATUS_PC q)

/-- A step ended REFUSED, NOENT or OVERLAP (SQ_CNT). -/
def Dev.countRef (d : Dev) (q : Nat) : Dev := d.inc (F.SQ_CNT_REFCNT q)

/-- Flags of a deadline miss on a sequencer (R215, R370). -/
def Dev.missFlags (d : Dev) (q : Nat) : Dev := ((d.raise (F.SQ_STATUS_DLMISS q)).inc (F.SQ_CNT_MISSCNT q)).event 4 1 q 1

/-- A flag of the sequencer's pair. -/
def Dev.pairFlag (d : Dev) (q f : Nat) : Bool := getBits (d.word (A.SQ_PFLAG (q / 2))) f 1 == 1

/-- Pair flags after an action: set or clear the flags of a mask. -/
def flagAct (old : Nat) (op : Nat × Nat × Bool) : Nat :=
  let m := BitVec.ofNat 3 op.2.1
  (if op.2.2 then BitVec.ofNat 3 old ||| m else BitVec.ofNat 3 old &&& ~~~m).toNat

/-- The actions on a pair's flags in this CCLK cycle so far. -/
def Dev.flagsNow (d : Dev) (p : Nat) : FlagOps :=
  ((if d.flagOps.1 = d.cclk then d.flagOps.2 else []).find? (fun x => x.pair == p)).getD
    { pair := p, base := d.rd (F.SQ_PFLAG_PF p), ops := [] }

/-- An action joins those of its cycle after all of its own rank and below. -/
def FlagOps.put (x : FlagOps) (op : Nat × Nat × Bool) : FlagOps :=
  { x with ops := x.ops.filter (fun o => o.1 ≤ op.1) ++ op :: x.ops.filter (fun o => op.1 < o.1) }

/-- Set or clear the pair flags of a mask (R214, R223).  The actions of one CCLK cycle take effect in the order of their ranks: a
management write has rank 0, and sequencer q of the pair rank 1 + q mod 2. -/
def Dev.setPairFlags (d : Dev) (p rank mask : Nat) (v : Bool) : Dev :=
  let x := (d.flagsNow p).put (rank, mask, v)
  let d := d.wr (F.SQ_PFLAG_PF p) (x.ops.foldl flagAct x.base)
  { d with flagOps := (d.cclk, x :: (if d.flagOps.1 = d.cclk then d.flagOps.2.filter (fun y => y.pair != p) else [])) }

/-- The condition of a step (R200); an armed node whose entry fails parity counts as unused (R224). -/
def Dev.cond (d : Dev) (q c : Nat) : Bool :=
  let k := d.tgt q
  let ch := d.ch k
  let s := d.sq q
  let armed := s.armed.filter (fun i => !d.entryBad i)
  match c with
  | 0 => true
  | 1 => ch.lastRx == some rxOK
  | 2 => ch.lastRx == some rxTIMEOUT
  | 3 => (ch.lastRx.map (fun r => r != rxOK && r != rxTIMEOUT)).getD false
  | 4 => ch.lastRx == some rxOK && ch.lastRxPoll
  | 5 => ch.lastTx == some txSENT
  | 6 => match s.decided with
    | some .grant => true
    | some (.degrade _) => true
    | _ => false
  | 7 => match s.decided with
    | some (.degrade _) => true
    | _ => false
  | 8 => (armed.map (fun i => d.rd (N.STATE i) == stACTIVE)).getD false
  | 9 => (armed.map (fun i => d.rd (N.STATE i) == stJOINING)).getD false
  | 10 => (armed.map (fun i => d.nodeDue i (max 1 (d.rd (F.LF_CFG_RETRY_MAX (d.lead k)))))).getD false
  | 11 => (armed.map (fun i =>
      (d.on (N.SQV i) && decide (0 < d.ready (d.rd (N.SQ i)))) ||
      (d.on (N.DQV i) && decide (0 < d.deepReady (d.rd (N.DQ i)))))).getD false
  | 12 => (armed.map (fun i => d.resident (d.rd (N.SAIDX i), d.on (N.KEYPH i)))).getD false
  | _ => d.pairFlag q (c - 13)

/-- A condition that reads the armed node's entry records PARITY where the entry fails it (R224). -/
def Dev.condParity (d : Dev) (q c : Nat) : Dev :=
  match (d.sq q).armed with
  | some i => if 8 ≤ c ∧ c ≤ 12 then d.entryParity (d.tgt q) i else d
  | none => d

/-! ### Flags of the waveform and the frame checks -/

/-- HDRINV and its counter (R121, R106). -/
def Dev.hdrInvalid (d : Dev) (k : Nat) : Dev := (d.raise (F.FR_STATUS_HDRINV k)).inc (F.FR_CNT_HDRINVCNT k)

/-- PLCRC and its counter (R123). -/
def Dev.plCrc (d : Dev) (k : Nat) : Dev := (d.raise (F.FR_STATUS_PLCRC k)).inc (F.FR_CNT2_PLCRCCNT k)

/-- CFGREJ of a channel (R40, R80, R114, R135, R163, R194, R195, R225). -/
def Dev.cfgRej (d : Dev) (k : Nat) : Dev := d.raise (F.LIF_STATUS_CFGREJ k)

/-! ### Level and quality (R157 to R159) -/

/-- A noise-floor measurement was made within the last NF_AGE cycles (R158). -/
def Dev.nfFresh (d : Dev) (k : Nat) : Bool :=
  match (d.ch k).nfCycle with
  | some c => decide ((d.cycle + 2 ^ 32 - c) % 2 ^ 32 ≤ d.rd (F.AQ_CFG2_NF_AGE (d.lead k)))
  | none => false

/-- The first measurement sets NF, a later one moves it by a quarter of the difference (R157). -/
def Dev.noiseFloor (d : Dev) (k : Nat) (level : Int) : Dev :=
  let c := d.ch k
  let nf := if c.nfValid then d.rdS (F.AQ_LEVEL_NF k) + roundQuotient (level - d.rdS (F.AQ_LEVEL_NF k)) 4 else level
  ((d.wrS (F.AQ_LEVEL_NF k) nf).wr (F.AQ_STATUS_NFSTALE k) 0).modCh k
    (fun c => { c with nfCycle := some d.cycle, nfValid := true })

/-- Q and QSRC of a frame of strength `ss` (R158). -/
def Dev.quality (d : Dev) (k : Nat) (ss : Int) : Int × Bool :=
  if d.nfFresh k then (ss - d.rdS (F.AQ_LEVEL_NF k), false) else (ss, true)

/-- GAIN_ADV from the gain in force, whether a payload chip clipped alone, and the largest chip in 1/16 dB (R159). -/
def Dev.gainAdv (d : Dev) (k g : Nat) (clipped : Bool) (peak : Int) : Nat :=
  if clipped then g - d.rd (F.AQ_CFG3_CLIP_STEP k)
  else
    let v : Int := (g : Int) + (-peak - 16 * d.rd (F.AQ_CFG3_ADV_HEAD k)) / 16
    (min 42 (max 0 v)).toNat

/-- The iteration cap of a codeword that starts now (R153): ITCAP with its clamps, and the allowance in force. -/
def Dev.iterCap (d : Dev) (k : Nat) : Nat :=
  min (min 50 (max 1 (d.rd (F.AQ_CFG3_ITCAP k)))) (d.rd (F.GV_CHSTAT_ITER k))

/-- DMARGIN: the cap less the largest count, where the cap changed from codeword to codeword the smallest difference (R155; log
entry 156). -/
def RxLock.dmargin (l : RxLock) : Nat := if l.failed then 0 else l.margin.getD 0

/-- A sync word was not accepted: SYNCFAIL, its counter, and JAM at the JAM_N-th of one mains cycle (R142, R160). -/
def Dev.syncFail (d : Dev) (k : Nat) : Dev :=
  let d := (d.raise (F.AQ_STATUS_SYNCFAIL k)).inc (F.AQ_CNT_SYNCFAILCNT k)
  let c := d.ch k
  let n := (if c.jamCycle = d.cycle then c.jamCount else 0) + 1
  let d := d.setCh k { c with jamCycle := d.cycle, jamCount := n }
  let jam := d.rd (F.AQ_CFG2_JAM_N k)
  if jam ≠ 0 ∧ jam ≤ n then d.raise (F.AQ_STATUS_JAM k) else d

/-- A frame ended CUT (R156). -/
def Dev.cutFlags (d : Dev) (k : Nat) : Dev := (d.raise (F.AQ_STATUS_CUT k)).inc (F.AQ_CNT4_CUTCNT k)

/-! ### Receiver settings (R163) -/

/-- NDET: 0 and 1 are taken as 2. -/
def Dev.ndet (d : Dev) (k : Nat) : Nat := max 2 (d.rd (F.AQ_CFG_NDET k))

/-- ERAS_MAX in 1/256. -/
def Dev.eras (d : Dev) (k : Nat) : Nat := d.rd (F.AQ_CFG_ERAS_MAX k)

/-- Dh for a prefix of `p` chips (R143, R163). -/
def Dev.spread (d : Dev) (k p : Nat) : Nat := min (d.rd (F.AQ_CFG2_SP_TAPS k)) p

end Sys2Proof.Machine
end

