-- ==== Sys2Proof/Machine/Paths.lean ====
section
/-! DEFINITION. The re-selection of an espalier: hop qualities, the rung and the cost of a candidate path, and the path that ARM
PATH adopts (R192, R204, R227, R391). -/

namespace Sys2Proof.Machine

open Sys2Proof

/-- The PATHS record of a channel. -/
def Dev.pathsOf (d : Dev) (k : Nat) : PathsRecord :=
  Tab.get { chan := 0, hyst := 0, nbrAge := 0, margin := 0, rungs := [], repeaters := [] } d.loader.paths k

/-- A report counts: a measurement of the head-end, or a record of a node no older than NBR_AGE (log entry 135). -/
def Dev.reportFresh (d : Dev) (age : Nat) (r : HopReport) : Bool :=
  r.of_ == 0 || decide ((d.cycle + 2 ^ 32 - r.cycle) % 2 ^ 32 ≤ age)

/-- Quality of the hop between two stations: the lower where both ends have reported it. -/
def Dev.hopQ (d : Dev) (k age a b : Nat) : Option Int :=
  let l := (d.ch k).lf.reports.filter (fun r =>
    ((r.of_ == a && r.heard == b) || (r.of_ == b && r.heard == a)) && d.reportFresh age r)
  match l.map HopReport.q with
  | [] => none
  | q :: qs => some (qs.foldl min q)

/-- The stations of a path: the head-end, the repeaters with R1 first, and the node. -/
def Dev.stations (d : Dev) (i : Nat) (hops : List Nat) : List Nat := 0 :: hops ++ [d.rd (N.ADDR i)]

/-- Qualities of the hops of a path; none where one is unknown. -/
def Dev.pathQs (d : Dev) (k age : Nat) : List Nat → Option (List Int)
  | a :: b :: l =>
    match d.hopQ k age a b, d.pathQs k age (b :: l) with
    | some q, some qs => some (q :: qs)
    | _, _ => none
  | _ => some []

/-- The capabilities of a node's JOINREQ admit a form on the channel (R170, R192). -/
def Dev.capsAdmit (d : Dev) (k e : Nat) (f : Form) (nlen : Nat) : Bool :=
  let w := BitVec.ofNat 32 (d.rd (N.CAPS e))
  let size := 2 ^ getBits w 11 2
  (match d.plan k with
   | .b30 => w.getLsbD 24
   | .b86 => w.getLsbD 25
   | .b250 => w.getLsbD 26
   | .b480 => w.getLsbD 27
   | .custom => true) &&
  (!f.mux || decide (f.load ≤ getBits w 21 3)) && decide (getBits w 17 4 ≤ f.k) && decide (f.k ≤ getBits w 13 4) &&
  (f.s == 1 || f.s == size) && decide (d.blockOctets k f nlen ≤ getBits w 0 10 * size * 2 ^ 20)

/-- A repeater of a path supports the version of its node and the form (R192). -/
def Dev.repeaterFits (d : Dev) (k ver : Nat) (f : Form) (nlen e : Nat) : Bool :=
  d.rd (N.STATE e) == stACTIVE && (BitVec.ofNat 32 (d.rd (N.CAPS e))).getLsbD 10 && decide (ver ≤ max 1 (d.rd (N.VER e))) &&
  d.capsAdmit k e f nlen

/-- A rung serves a path whose weakest hop has quality `q`. -/
def Dev.rungFits (d : Dev) (k i : Nat) (reps : List Nat) (p : PathsRecord) (q : Int) (r : Word32 × Int × Nat) : Bool :=
  let f := Form.ofWord r.1
  let ver := max 1 (d.rd (N.VER i))
  decide (r.2.1 ≤ q - p.margin) && f.codesOk && d.formOk k f ver && d.capsAdmit k i f r.2.2 &&
  reps.all (d.repeaterFits k ver f r.2.2)

/-- A path with its rung and its cost C(P) = num/den. -/
structure PathCost where
  hops : List Nat
  form : Word32
  num : Nat
  den : Nat
deriving DecidableEq, Repr

/-- C(P): the airtime of a POLL and a RESP of nominal LEN on every hop and each hop's gap, over the success ratios of the last 16
exchanges with the node at the far end of each hop (log entry 135). -/
def Dev.pathCost (d : Dev) (k i : Nat) (p : PathsRecord) (hops : List Nat) : Option PathCost :=
  let ends := (hops ++ [d.rd (N.ADDR i)]).map (d.lookup k)
  if ends.any Option.isNone then none
  else
    let es := ends.filterMap id
    match d.pathQs k p.nbrAge (d.stations i hops) with
    | some (q :: qs) =>
      (p.rungs.find? (d.rungFits k i es.dropLast p (qs.foldl min q))).bind (fun r =>
        let len := d.frameEnd k (Form.ofWord r.1) r.2.2 0
        let air := (es.map (fun e => 2 * len + d.grains (max (d.rd (N.RGAP e)) (d.rd (N.RGMIN e))))).sum
        let ok := (es.map (fun e => ((List.range 16).filter (fun b => (d.rd (N.HIST e)).testBit b)).length)).prod
        if ok = 0 then none else some { hops := hops, form := r.1, num := air * 16 ^ es.length, den := ok })
    | _ => none

/-- A path costs less than another. -/
def PathCost.less (a b : PathCost) : Bool := decide (a.num * b.den < b.num * a.den)

/-- Sequences of at most `n` different members of a list. -/
def sequences : Nat → List Nat → List (List Nat)
  | 0, _ => [[]]
  | n + 1, l => [] :: l.flatMap (fun a => (sequences n (l.filter (fun b => b ≠ a))).map (fun s => a :: s))

/-- The path of least cost, the first in order where costs are equal (log entry 135). -/
def leastPath : List PathCost → Option PathCost
  | [] => none
  | a :: l => some (l.foldl (fun b x => if x.less b then x else b) a)

/-- The espalier and the form that a re-selection for entry `i` adopts: the path of least cost where it lies below (1 − HYST/16)
times the cost of the current one, else the current path in its form (log entry 135). -/
def Dev.reselect (d : Dev) (k i : Nat) : Option PathCost :=
  let p := d.pathsOf k
  let reps := p.repeaters.filter (fun a => a ≠ d.rd (N.ADDR i))
  let cur := d.pathCost k i p (d.espalier i)
  match leastPath ((sequences 3 reps).filterMap (d.pathCost k i p)), cur with
  | some b, some c => if 16 * b.num * c.den < (16 - p.hyst) * c.num * b.den then some b else some c
  | some b, none => some b
  | none, c => c

/-- The reports of a head-end with one more, which replaces an older one of the same hop and end. -/
def putReport (r : HopReport) (l : List HopReport) : List HopReport :=
  r :: l.filter (fun x => !(x.of_ == r.of_ && x.heard == r.heard))

end Sys2Proof.Machine
end

