-- ==== Sys2Proof/Machine/Easel.lean ====
section
/-! DEFINITION. The Easel sequencers: fetch, conditions, step time, holds, misses, faults and wakes that every step class
shares (R195 to R203, R215 to R220, R412, R451). -/

namespace Sys2Proof.Machine

open Sys2Proof

/-! ### The step table and the live range (R196, R220) -/

/-- Word of a step. -/
def Dev.stepWord (d : Dev) (q i : Nat) : Word64 := d.word (seqWord q i 1) ++ d.word (seqWord q i 0)

/-- A word of the step fails parity. -/
def Dev.stepBad (d : Dev) (q i : Nat) : Bool :=
  d.badParity.contains (seqWord q i 0) || d.badParity.contains (seqWord q i 1)

/-- The range of SQ_LIVE. -/
def Dev.liveReg (d : Dev) (q : Nat) : Nat × Nat := (d.rd (F.SQ_LIVE_LO q), d.rd (F.SQ_LIVE_HI q))

/-- The live range in force. -/
def Dev.live (d : Dev) (q : Nat) : Nat × Nat := (d.sq q).live2.getD (d.liveReg q)

def inRange (r : Nat × Nat) (i : Nat) : Bool := decide (r.1 ≤ i) && decide (i ≤ r.2)

/-- The first step of a range that a start check refuses (R217); a range with HI below LO fails at LO. -/
def Dev.firstBad (d : Dev) (q lo hi : Nat) : Option Nat :=
  if hi < lo then some lo
  else (List.range' lo (hi + 1 - lo)).find? (fun i => d.stepBad q i || !stepChecks lo hi (d.stepWord q i))

/-! ### States and notices -/

/-- Move a sequencer to a state. -/
def Dev.sqTo (d : Dev) (q st : Nat) : Dev := d.wr (F.SQ_STATUS_STATE q) st

/-- The sequencer runs or holds. -/
def Dev.sqLive (d : Dev) (q : Nat) : Bool := d.sqState q == sqRUN || d.sqState q == sqHOLD

/-- Continue at step `i`; PC has 13 bits, and what follows step 8,191 no rule says: here PC wraps to 0 (DESIGN CHOICE, log entry
140). -/
def Dev.goTo (d : Dev) (q i : Nat) : Dev :=
  ((d.wr (F.SQ_STATUS_PC q) i).sqTo q sqRUN).modSq q (fun s => { s with held := none, stall := none })

/-- The call stack changes, and DEPTH with it. -/
def Dev.setStack (d : Dev) (q : Nat) (l : List Nat) : Dev :=
  (d.wr (F.SQ_STATUS_DEPTH q) l.length).modSq q (fun s => { s with stack := l })

/-- A step was executed (R370) and the sequencer continues at step `i`. -/
def Dev.doneTo (d : Dev) (q i : Nat) : Dev := (d.event 4 0 q 1).goTo q i

/-- A step was executed and the sequencer moves to the next one. -/
def Dev.done (d : Dev) (q : Nat) : Dev := d.doneTo q (d.sqPc q + 1)

/-- The last TX step of the sequencer ended: its keys are pinned no longer (R281). -/
def Dev.unpin (d : Dev) (q : Nat) : Dev := d.modSq q (fun s => { s with pins := [] })

/-- SEQSTOP notice (R365). -/
def Dev.seqStop (d : Dev) (q code step arg : Nat) : Dev :=
  d.notice { cls := 2, code := code, chan := d.tgt q, seq := q, step := step, arg := arg }

/-! ### Faults (R216, R412) -/

/-- A transmission that has not ended SENT gives up its deep-queue mark (R264). -/
def Dev.unmark (d : Dev) (x : TxJob) : Dev :=
  match x.marked with
  | some q => (d.rewindMark q).followRd x.entry
  | none => d

/-- Withdraw what a sequencer issued with an instant after now; an open window runs on and returns to no step (R216). -/
def Dev.withdraw (d : Dev) (q : Nat) : Dev :=
  let k := d.tgt q
  let c := d.ch k
  let gone := c.txs.filter (fun x => x.seq == q && !x.begun && decide (d.now < x.t))
  let d := d.setCh k { c with
    txs := c.txs.filter (fun x => !(x.seq == q && !x.begun && decide (d.now < x.t)))
    wins := (c.wins.filter (fun w => w.seq != q || w.opened || decide (w.opn ≤ d.now))).map
      (fun w => if w.seq = q then { w with orphan := true } else w) }
  let mine : PrmqEntry → Bool := fun e => e.seq == q && decide (d.now < e.at_)
  let d := (d.members k).foldl (fun d m => d.modCh m (fun c => { c with
    prmq := c.prmq.filter (fun e => !mine e), prmqWait := c.prmqWait.filter (fun e => !mine e) })) d
  gone.foldl (fun d x => (d.unmark x).freeJob x) d

/-- Restarts of the last 64 cycles have reached ARMAX (R412). -/
def Dev.restartsSpent (d : Dev) (q : Nat) : Bool :=
  decide (max 1 (d.rd F.FT_CFG_ARMAX) ≤
    ((d.sq q).restarts.filter (fun c => decide ((d.cycle + 2 ^ 32 - c) % 2 ^ 32 < 64))).length)

/-- Ask for the automatic restart, or give up with ARG 0xFF (R412). -/
def Dev.autoRestart (d : Dev) (q code step : Nat) : Dev :=
  if !d.on F.FT_CFG_AUTORST ∨ !(1 ≤ code && code ≤ 4) then d
  else if d.restartsSpent q then d.seqStop q 1 step 0xFF
  else d.modSq q (fun s => { s with restart := true })

/-- A sequencer fault with its code and the step concerned (R216). -/
def Dev.seqFault (d : Dev) (q code step : Nat) : Dev :=
  let d := (((d.sqTo q sqFAULT).wr (F.SQ_FAULT_FCODE q) code).wr (F.SQ_FAULT_FSTEP q) step).withdraw q
  let d := d.modSq q (fun s => { s with held := none, stall := none, reqs := [], open_ := false, grant := none,
                                                          live2 := none })
  let d := if code = fcPARITY then d.cause causePARITY { chan := some (d.tgt q), seq := some q, step := step }
    else if code = fcMISS then d else d.cause causeSEQFAULT { seq := some q, step := step }
  (d.seqStop q 1 step code).autoRestart q code step

/-! ### Deadline misses (R60, R215, R451) -/

/-- A miss detected while its step holds or executes; `deadline` is none for CONV. -/
def Dev.stepMiss (d : Dev) (q sub : Nat) (deadline : Option Nat) : Dev :=
  let pc := d.sqPc q
  let d := (d.dlMiss sub (some (d.tgt q)) q pc (d.now - deadline.getD d.now)).missFlags q
  match d.rd (F.SQ_CFG_MISSACT q) with
  | 1 => (d.setStack q []).goTo q (d.rd (F.SQ_CFG_MISSVEC q))
  | 2 => d.seqFault q fcMISS pc
  | _ => d.goTo q (pc + 1)

/-- A miss detected after its step has completed (R451).  A sequencer that executes or holds on a step when it goes to FAULT under
MISSACT 2 has no rule for that step: it ends at once, with no outcome (DESIGN CHOICE, log entry 181). -/
def Dev.lateMiss (d : Dev) (q step sub deadline : Nat) : Dev :=
    let d := (d.dlMiss sub (some (d.tgt q)) q step (d.now - deadline)).missFlags q
    if d.rd (F.SQ_CFG_MISSACT q) = 2 ∧ d.sqLive q then d.seqFault q fcMISS step else d

/-! ### Step time (R198) -/

/-- X of a step issued now, with the gap of R207; none where the step is not executed (CONV). -/
def Dev.stepTime (d : Dev) (q : Nat) (s : Step) (gap : Nat) : Option Nat :=
  let n := s.dlo.toNat + gap
  let c := d.ch (d.tgt q)
  if !d.timeRuns then none
  else match s.tb.toNat with
    | 0 =>
      let g := (d.sq q).btg + s.dlo.toNat
      d.toInstant (((d.sq q).btc + s.dlc.toNat + g / 65536) % 2 ^ 32) (g % 65536) d.now
    | 1 => c.eRx.map (fun e => e + d.grains n)
    | 2 => c.eTx.map (fun e => e + d.grains n)
    | _ => if n = 0 then some (d.now + 6) else some (d.now + d.grains n)

/-- Mains time of the target W of a time wait: BT + DLC + DLO with TB 0, else the cycle:grain of the instant (R202). -/
def Dev.waitBase (d : Dev) (q : Nat) (s : Step) (w : Nat) : Nat × Nat :=
  if s.tb = 0 then
    let g := (d.sq q).btg + s.dlo.toNat
    (((d.sq q).btc + s.dlc.toNat + g / 65536) % 2 ^ 32, g % 65536)
  else let (c, g) := d.mainsAt w; (c % 2 ^ 32, g)

/-! ### Fetch (R200, R216) -/

/-- Why the step at PC faults at its fetch, as an FCODE (log entry 12). -/
def Dev.fetchFault (d : Dev) (q : Nat) : Option Nat :=
  let pc := d.sqPc q
  if !inRange (d.live q) pc then some fcOUTLIVE
  else if d.stepBad q pc then some fcPARITY
  else if 4096 ≤ (d.sq q).run then some fcRUNAWAY
  else none

/-- The step at PC. -/
def Dev.stepAt (d : Dev) (q : Nat) : Option Step := Step.decode (d.stepWord q (d.sqPc q))

/-- Fetch the step at PC of a running sequencer and execute it where it is of class `c` and its condition holds; a step whose
condition is false is skipped. BRANCH reads its condition itself (R202). A step reads the entries as they were before a commit of
its cycle (R234). -/
def Dev.fetch (d : Dev) (q : Nat) (c : StepClass) (f : Step → Dev → Dev) : Dev :=
  if d.sqState q ≠ sqRUN then d
  else match d.fetchFault q with
    | some code => d.seqFault q code (d.sqPc q)
    | none =>
      match d.stepAt q with
      | none => d
      | some s =>
        if s.op.cls ≠ c then d
        else
          let d := d.modSq q (fun x => { x with run := x.run + 1 })
          let d := d.condParity q s.cond.toNat
          if c = .branch ∨ d.cond q s.cond.toNat then d.asBefore (f s) else d.goTo q (d.sqPc q + 1)

/-- Execute a step that needs only its time: a miss with subcode `sub` where X less `lead` has passed. -/
def Dev.timed (d : Dev) (q : Nat) (s : Step) (sub lead : Nat) (f : Nat → Dev → Dev) : Dev :=
  match d.stepTime q s 0 with
  | none => d.stepMiss q subCONV none
  | some x => if x < d.now + lead then d.stepMiss q sub (some (x - lead)) else f x d

/-! ### Holds and wakes (R201, R203) -/

/-- Hold on the step at PC until its time `x`; `deadline` is the step's deadline. -/
def Dev.hold (d : Dev) (q x deadline : Nat) : Dev :=
  (d.sqTo q sqHOLD).modSq q (fun s => { s with held := some deadline, target := x })

/-- The wait on which a sequencer holds. -/
def Dev.heldWait (d : Dev) (q : Nat) : Option StepOp :=
  if d.sqState q = sqHOLD then (d.stepAt q).map Step.op else none

/-- End a held wait: met at or before its deadline, or missed. -/
def Dev.endWait (d : Dev) (q : Nat) : Dev :=
  match (d.sq q).held with
  | some x => if x < d.now then d.stepMiss q subSTEP (some x) else d.done q
  | none => d

/-- Wake every sequencer that satisfies a predicate and holds on a wait of kind `wk`. -/
def Dev.wakeWhere (d : Dev) (p : Dev → Nat → Bool) (wk : Nat) : Dev :=
  d.seq.foldl (fun d e =>
    match d.heldWait e.1 with
    | some (.wait w _ _ _) => if w.toNat = wk ∧ p d e.1 then d.endWait e.1 else d
    | _ => d) d

/-- Outcomes on channel `k` end the RXDONE or TXDONE waits of the sequencers that target it. -/
def Dev.wakeChan (d : Dev) (k wk : Nat) : Dev := d.wakeWhere (fun d q => d.tgt q == k) wk

/-- Pair flags of pair `p` may end the flag waits of its sequencers. -/
def Dev.wakeFlags (d : Dev) (p : Nat) : Dev :=
  d.seq.foldl (fun d e =>
    match d.heldWait e.1 with
    | some (.wait w _ _ pf) =>
      if e.1 / 2 = p ∧ ((w = 5 ∧ d.pairFlag e.1 pf.toNat) ∨ (w = 6 ∧ !d.pairFlag e.1 pf.toNat)) then d.endWait e.1 else d
    | _ => d) d

/-- The outcome of the last BUDGET of a sequencer was committed. -/
def Dev.wakeGrant (d : Dev) (q : Nat) : Dev := d.wakeWhere (fun d j => j == q && !(d.sq j).open_) 3

/-- A KEYFETCH of some sequencer completed. -/
def Dev.wakeKey (d : Dev) : Dev := d.wakeWhere (fun d q => (d.sq q).keys == []) 4

/-- Commit a TX outcome on a channel (R203). -/
def Dev.commitTx (d : Dev) (k code : Nat) : Dev :=
  let d := d.modCh k (fun c => { c with lastTx := some code })
  let d := if code = txSENT then d.event 3 0 k 1 else if code = txNOGRANT then d.event 3 1 k 1
    else if code = txDLMISS then d.event 3 2 k 1 else d
  d.wakeChan k 2

/-- The record of an RX step that ends with a code: level and quality as the registers of the last frame hold them (R158; log entry
156). -/
def Dev.rxRecord (d : Dev) (k code : Nat) : RxRecord :=
  { code := code, ss := d.rdS (F.AQ_LEVEL_SS k), q := d.rdS (F.AQ_QUAL_Q k), qsrc := d.on (F.AQ_QUAL_QSRC k)
    dmargin := d.rd (F.AQ_QUAL_DMARGIN k), gainAdv := d.rd (F.AQ_QUAL_GAIN_ADV k) }

/-- The counter event of an RX outcome (R370). -/
def Dev.countRx (d : Dev) (k code : Nat) : Dev :=
  let sub := match code with
    | 0 => some 1 | 1 => some 8 | 2 => some 2 | 3 => some 3 | 4 => some 4 | 5 => some 5 | 6 => some 6 | 7 => some 7
    | _ => none
  match sub with | some b => d.event 2 b k 1 | none => d

/-- Commit an RX outcome on a channel, with its record (R158, R203). -/
def Dev.commitRx (d : Dev) (k code : Nat) (poll : Bool) : Dev :=
  ((d.modCh k (fun c => { c with lastRx := some code, lastRxPoll := poll, lastRec := some (d.rxRecord k code) })).countRx k
    code).wakeChan k 1

/-! ### Starting and stopping (R217, R218) -/

/-- START (R217): the check begins, anew where one is under way (DESIGN CHOICE, log entry 141), or STARTREJ. -/
def Dev.sqStart (d : Dev) (q startc : Nat) : Dev :=
  if !d.timeRuns ∨ d.sqState q ≠ sqIDLE then d.raise (F.SQ_STATUS_STARTREJ q)
  else d.modSq q (fun s => { s with checking := some startc, live2 := none })

/-- START as a write names STARTC of its register. -/
def Dev.sqStartReg (d : Dev) (q : Nat) : Dev := d.sqStart q (d.rd (F.SQ_STARTC_CYCLE q))

/-- STOP (R218): a held step is abandoned without a miss, and a TX hold returns its grant. -/
def Dev.sqStop (d : Dev) (q : Nat) : Dev :=
  let held := match d.heldWait q with | some (.tx _ _ _ _ _) => true | _ => false
  let live := d.sqLive q || d.sqState q == sqARMED
  let d := d.modSq q (fun s => { s with checking := none, restart := false, held := none, stall := none, live2 := none,
                                        grant := if held then none else s.grant })
  if live then d.sqTo q sqHALTED else d

/-- CLEAR (R218). -/
def Dev.sqClear (d : Dev) (q : Nat) : Dev :=
  let d := d.modSq q (fun s => { s with restart := false })
  if d.sqState q = sqHALTED ∨ d.sqState q = sqFAULT then (d.sqTo q sqIDLE).wr (F.SQ_FAULT_FCODE q) 0 else d

/-- A write of SQ_CTL: STOP wins over START and CLEAR; CLEAR comes before START (R218). -/
def Dev.writeSqCtl (d : Dev) (q : Nat) (start stop clear : Bool) : Dev :=
  if stop then d.sqStop q
  else
    let d := if clear then d.sqClear q else d
    if start then d.sqStartReg q else d

/-- The start check ends (R217): ARMED with its entry cycle, or TBLBAD; answers whether it passed. -/
def Dev.endCheck (d : Dev) (q : Nat) : Bool × Dev :=
  let startc := (d.sq q).checking.getD 0
  let d := d.modSq q (fun s => { s with checking := none })
  match d.firstBad q (d.liveReg q).1 (d.liveReg q).2 with
  | some i =>
    (false, ((d.raise (F.SQ_STATUS_TBLBAD q)).wr (F.SQ_FAULT_FCODE q) fcBADSTEP).wr (F.SQ_FAULT_FSTEP q) i)
  | none =>
    let begun := startc = 0 ∨ (d.cycle + 2 ^ 32 - startc) % 2 ^ 32 < 2 ^ 31
    (true, (d.sqTo q sqARMED).modSq q
      (fun s => { s with startAt := if begun then (d.cycle + 1) % 2 ^ 32 else startc }))

/-- Entry to RUN at ENTRY (R217): BT is the cycle:0, depth and loop counters 0, no node armed. -/
def Dev.enterRun (d : Dev) (q : Nat) : Dev :=
  let d := ((d.setStack q []).wr (F.SQ_STATUS_PC q) (d.rd (F.SQ_CFG_ENTRY q))).sqTo q sqRUN
  d.modSq q (fun s => { s with btc := d.cycle, btg := 0, loops := [0, 0, 0, 0], armed := none, held := none, run := 0,
                               wdog := d.cycle, open_ := false, keys := [], keyBad := false,
                               fetched := s.fetched.map (fun f => { f with newest := false }) })

/-! ### Control steps (R203, R211, R214) -/

/-- HALT (R201, R202). -/
def execHalt (t : Nat) (q : SeqId) (s : State) : Host.Outcome State Fault Refusal :=
  s.runClk t (fun d => d.fetch q.val .halt (fun st d => d.timed q.val st subSTEP 0 (fun _ d =>
    match st.op with
    | .halt n =>
      let pc := d.sqPc q.val
      let d := ((d.event 4 0 q.val 1).sqTo q.val sqHALTED).modSq q.val (fun x => { x with held := none, live2 := none })
      if n then d.seqStop q.val 0 pc 0 else d
    | _ => d)))

/-- BRANCH (R202): COND decides whether it branches; INV reverses that. -/
def execBranch (t : Nat) (q : SeqId) (s : State) : Host.Outcome State Fault Refusal :=
  s.runClk t (fun d => d.fetch q.val .branch (fun st d => d.timed q.val st subSTEP 0 (fun _ d =>
    match st.op with
    | .branch inv tg => if d.cond q.val st.cond.toNat != inv then d.doneTo q.val tg.toNat else d.done q.val
    | _ => d)))

/-- LOOP (R202, R211). -/
def Dev.loopStep (d : Dev) (q c : Nat) (load : Bool) (n tg : Nat) : Dev :=
  let ls := (d.sq q).loops
  let v := ls.getD c 0
  if load then (d.modSq q (fun x => { x with loops := ls.set c n })).done q
  else if v = 0 then d.done q
  else
    let d := d.modSq q (fun x => { x with loops := ls.set c (v - 1) })
    if v - 1 = 0 then d.done q else d.doneTo q tg

/-- LOOP (R202, R211). -/
def execLoop (t : Nat) (q : SeqId) (s : State) : Host.Outcome State Fault Refusal :=
  s.runClk t (fun d => d.fetch q.val .loop (fun st d => d.timed q.val st subSTEP 0 (fun _ d =>
    match st.op with
    | .loop c load n tg => d.loopStep q.val c.toNat load n.toNat tg.toNat
    | _ => d)))

/-- CALL (R211): at depth 8 it faults with STACK. -/
def execCall (t : Nat) (q : SeqId) (s : State) : Host.Outcome State Fault Refusal :=
  s.runClk t (fun d => d.fetch q.val .call (fun st d => d.timed q.val st subSTEP 0 (fun _ d =>
    match st.op with
    | .call tg =>
      let l := (d.sq q.val).stack
      if 8 ≤ l.length then d.seqFault q.val fcSTACK (d.sqPc q.val)
      else (d.setStack q.val ((d.sqPc q.val + 1) :: l)).doneTo q.val tg.toNat
    | _ => d)))

/-- RETURN (R211): at depth 0 it faults with STACK. -/
def execRet (t : Nat) (q : SeqId) (s : State) : Host.Outcome State Fault Refusal :=
  s.runClk t (fun d => d.fetch q.val .ret (fun st d => d.timed q.val st subSTEP 0 (fun _ d =>
    match (d.sq q.val).stack with
    | [] => d.seqFault q.val fcSTACK (d.sqPc q.val)
    | i :: l => (d.setStack q.val l).doneTo q.val i)))

/-- NOTE NOTICE (R214). -/
def execNoteNotice (t : Nat) (q : SeqId) (s : State) : Host.Outcome State Fault Refusal :=
  s.runClk t (fun d => d.fetch q.val .noteNotice (fun st d => d.timed q.val st subSTEP 0 (fun _ d =>
    match st.op with
    | .noteNotice code =>
      (d.notice { cls := 1, code := code.toNat, chan := d.tgt q.val, seq := q.val, step := d.sqPc q.val }).done q.val
    | _ => d)))

/-- NOTE EVENT (R214, R370). -/
def execNoteEvent (t : Nat) (q : SeqId) (s : State) : Host.Outcome State Fault Refusal :=
  s.runClk t (fun d => d.fetch q.val .noteEvent (fun st d => d.timed q.val st subSTEP 0 (fun _ d =>
    match st.op with
    | .noteEvent code => (d.seqnote q.val (code.toNat % 256)).done q.val
    | _ => d)))

/-- NOTE flag set (R214). -/
def execNoteFlagSet (t : Nat) (q : SeqId) (s : State) : Host.Outcome State Fault Refusal :=
  s.runClk t (fun d => d.fetch q.val .noteFlagSet (fun st d => d.timed q.val st subSTEP 0 (fun _ d =>
    match st.op with
    | .noteFlag _ pf => ((d.setPairFlags (q.val / 2) (1 + q.val % 2) (2 ^ pf.toNat) true).done q.val).wakeFlags (q.val / 2)
    | _ => d)))

/-- NOTE flag clear (R214). -/
def execNoteFlagClear (t : Nat) (q : SeqId) (s : State) : Host.Outcome State Fault Refusal :=
  s.runClk t (fun d => d.fetch q.val .noteFlagClear (fun st d => d.timed q.val st subSTEP 0 (fun _ d =>
    match st.op with
    | .noteFlag _ pf => ((d.setPairFlags (q.val / 2) (1 + q.val % 2) (2 ^ pf.toNat) false).done q.val).wakeFlags (q.val / 2)
    | _ => d)))

/-! ### WAIT (R203) -/

/-- A WAIT is executed: the run of R216 begins again. -/
def Dev.waited (d : Dev) (q : Nat) : Dev := d.modSq q (fun s => { s with run := 0 })

/-- SETBT at the completion of a time wait: BT becomes W, the watchdog restarts and a pending live range takes effect. -/
def Dev.setBase (d : Dev) (q : Nat) (st : Step) (setbt : Bool) (w : Nat) : Dev :=
  if setbt then
    let (c, g) := d.waitBase q st w
    d.modSq q (fun s => { s with btc := c, btg := g, wdog := d.cycle, live2 := none })
  else d

/-- WAIT on time. -/
def execWaitTime (t : Nat) (q : SeqId) (s : State) : Host.Outcome State Fault Refusal :=
  s.runClk t (fun d => d.fetch q.val .waitTime (fun st d =>
    match st.op, d.stepTime q.val st 0 with
    | .wait _ setbt lateok _, some w =>
      let d := d.waited q.val
      if w < d.now then
        let d := d.setBase q.val st setbt w
        if lateok then d.done q.val else d.stepMiss q.val subSTEP (some w)
      else d.hold q.val w w
    | _, _ => d.stepMiss q.val subCONV none))

/-- The target W of a held time wait is reached. -/
def execWaitTimeComplete (t : Nat) (q : SeqId) (s : State) : Host.Outcome State Fault Refusal :=
  s.runClk t (fun d =>
    match d.sqState q.val == sqHOLD, d.stepAt q.val with
    | true, some st =>
      match st.op with
      | .wait wk setbt _ _ =>
        if wk = 0 ∧ (d.sq q.val).target ≤ d.now then
          (d.setBase q.val st setbt (d.sq q.val).target).done q.val
        else d
      | _ => d
    | _, _ => d)

/-- A WAIT on an event: it completes at once where `met` holds already, else it holds until its deadline. -/
def Dev.waitEvent (d : Dev) (q : Nat) (st : Step) (met : Dev → Bool) : Dev :=
  (if (d.stepTime q st 0).isSome then d.waited q else d).timed q st subSTEP 0 (fun x d => if met d then d.done q else d.hold q x x)

/-- WAIT on RXDONE: the first RX outcome committed after the fetch ends it. -/
def execWaitRxdone (t : Nat) (q : SeqId) (s : State) : Host.Outcome State Fault Refusal :=
  s.runClk t (fun d => d.fetch q.val .waitRxdone (fun st d => d.waitEvent q.val st (fun _ => false)))

/-- WAIT on TXDONE. -/
def execWaitTxdone (t : Nat) (q : SeqId) (s : State) : Host.Outcome State Fault Refusal :=
  s.runClk t (fun d => d.fetch q.val .waitTxdone (fun st d => d.waitEvent q.val st (fun _ => false)))

/-- WAIT on GRANT: met where the last BUDGET is decided or failed, or none was issued. -/
def execWaitGrant (t : Nat) (q : SeqId) (s : State) : Host.Outcome State Fault Refusal :=
  s.runClk t (fun d => d.fetch q.val .waitGrant (fun st d => d.waitEvent q.val st (fun d => !(d.sq q.val).open_)))

/-- WAIT on KEY: met where the last KEYFETCH has completed. -/
def execWaitKey (t : Nat) (q : SeqId) (s : State) : Host.Outcome State Fault Refusal :=
  s.runClk t (fun d => d.fetch q.val .waitKey (fun st d => d.waitEvent q.val st (fun d => (d.sq q.val).keys == [])))

/-- WAIT on a flag set. -/
def execWaitFlagSet (t : Nat) (q : SeqId) (s : State) : Host.Outcome State Fault Refusal :=
  s.runClk t (fun d => d.fetch q.val .waitFlagSet (fun st d => d.waitEvent q.val st (fun d =>
    match st.op with | .wait _ _ _ pf => d.pairFlag q.val pf.toNat | _ => false)))

/-- WAIT on a flag clear. -/
def execWaitFlagClear (t : Nat) (q : SeqId) (s : State) : Host.Outcome State Fault Refusal :=
  s.runClk t (fun d => d.fetch q.val .waitFlagClear (fun st d => d.waitEvent q.val st (fun d =>
    match st.op with | .wait _ _ _ pf => !d.pairFlag q.val pf.toNat | _ => false)))

/-! ### ARM, KEYFETCH and BUDGET (R204, R212, R213) -/

/-- ARM NODE (R204): the entry of the target channel's scope, or no armed node and NOENT. -/
def execArmNode (t : Nat) (q : SeqId) (s : State) : Host.Outcome State Fault Refusal :=
  s.runClk t (fun d => d.fetch q.val .armNode (fun st d => d.timed q.val st subSTEP 0 (fun _ d =>
    match st.op with
    | .armNode a =>
      let i := d.lookup (d.tgt q.val) a.toNat
      let d := d.modSq q.val (fun x => { x with armed := i })
      if i.isSome then d.done q.val
      else ((if a.toNat < 0x1FFFF then d.entryParity (d.tgt q.val) a.toNat else d).countRef q.val).done q.val
    | _ => d)))

/-- PRMQ[k] has room for `n` more entries of a step (R15); those that wait already come first (DESIGN CHOICE, log entry 142). -/
def Dev.prmqRoom (d : Dev) (k n : Nat) : Bool := decide ((d.ch k).prmq.length + (d.ch k).prmqWait.length + n ≤ 16)

/-- An entry of the receiver or of the always-on domain enters PRMQ[k], or waits for room in it (R15, R17). -/
def Dev.pushPrmq (d : Dev) (k : Nat) (e : PrmqEntry) : Dev :=
  d.modCh k (fun c =>
    if c.prmqWait = [] ∧ c.prmq.length < 16 then { c with prmq := c.prmq ++ [e] } else { c with prmqWait := c.prmqWait ++ [e] })

/-- An ARM SWAP with its swap instant: a miss, an entry in PRMQ[k], or a wait with that instant kept (R17, R57, R199). -/
def Dev.armSwap (d : Dev) (q : Nat) (st : Step) (x : Nat) : Dev :=
  let k := d.tgt q
  match st.op with
  | .armSwap f fade =>
    if x < d.now + 40 then d.stepMiss q subSTEP (some (x - 40))
    else if !d.prmqRoom k 1 then d.modSq q (fun s => { s with stall := some x })
    else
      (d.modCh k (fun c => { c with prmq := c.prmq ++ [{ at_ := x, kind := .swap fade f.toNat, seq := q, step := d.sqPc q }] })).done q
  | _ => d

/-- ARM SWAP (R204, R82): a timed swap entry for instant I; while PRMQ[k] is full the step waits (R17). -/
def execArmSwap (t : Nat) (q : SeqId) (s : State) : Host.Outcome State Fault Refusal :=
  s.runClk t (fun d =>
    match (d.sq q.val).stall, d.stepAt q.val with
    | some x, some st => if d.sqState q.val = sqRUN then d.armSwap q.val st x else d
    | _, _ => d.fetch q.val .armSwap (fun st d =>
      match d.stepTime q.val st 0 with
      | none => d.stepMiss q.val subCONV none
      | some x => if !d.ownerOk q.val then (d.countRef q.val).done q.val else d.armSwap q.val st x))

/-- A re-selection for entry `i` is under way at some sequencer (R204). -/
def Dev.pathBusy (d : Dev) (i : Nat) : Bool :=
  d.seq.any (fun e => e.2.paths.any (fun p => p.1 == i))

/-- ARM PATH (R204): the request of R192 for the armed node; a second one before the first commits is refused,
and one on a channel without a PATHS record ends NOENT (R391). -/
def execArmPath (t : Nat) (q : SeqId) (s : State) : Host.Outcome State Fault Refusal :=
  s.runClk t (fun d => d.fetch q.val .armPath (fun st d => d.timed q.val st subSTEP 0 (fun x d =>
    match (d.sq q.val).armed with
    | none => (d.countRef q.val).done q.val
    | some i =>
      if d.pathBusy i ∨ !d.loader.paths.any (fun e => e.1 == d.tgt q.val) then (d.countRef q.val).done q.val
      else (d.modSq q.val (fun y => { y with paths := y.paths ++ [(i, x, d.sqPc q.val)] })).done q.val)))

/-- Commit an espalier and its form, as DFORM and UFORM, to an entry, with a new edit generation (R204, R234, R391). -/
def Dev.adoptPath (d : Dev) (i : Nat) (c : PathCost) : Dev :=
  let l := [c.hops.getD 0 0, c.hops.getD 1 0, c.hops.getD 2 0, c.form.toNat]
  let was := if d.adopted.1 = d.cclk then d.adopted.2 else []
  { d with adopted := (d.cclk, (i, Tab.get 0 d.edits i, l) :: was.filter (fun e => e.1 != i)) }.adoptForm i l

/-- ARM_PATH_COMMIT: the re-selection of R192 issued first and not past its deadline ends; what it adopts is committed to the
entry where it changes it, unless PIN is set (R204, R234). -/
def execArmPathCommit (t : Nat) (q : SeqId) (s : State) : Host.Outcome State Fault Refusal :=
  s.runClk t (fun d =>
    match (d.sq q.val).paths.find? (fun p => decide (d.now ≤ p.2.1)) with
    | none => d
    | some p =>
        let i := p.1
        let r := d.reselect (d.tgt q.val) i
        let d := d.modSq q.val (fun y => { y with paths := y.paths.erase p })
        match r with
        | none => d
        | some c =>
          if d.on (N.PIN i) ∨ (c.hops = d.espalier i ∧ c.form = d.word (nodeWord i 3) ∧ c.form = d.word (nodeWord i 4)) then d
          else d.adoptPath i c)

/-- Phases that SEL names (R281). -/
def Dev.selPhases (d : Dev) (sa sel : Nat) : List Bool :=
  let a := d.sa_ sa
  match sel with
  | 0 => [a.txph]
  | 1 => [a.cph]
  | 2 => [!a.cph]
  | _ => [false, true]

/-- A key that the last KEYFETCH did not find resident. -/
def Seq.lacks (s : Seq) (key : Nat × Bool) : Seq :=
  { s with fetched := s.fetched.map (fun f => if f.newest then { f with keys := f.keys ++ [key] } else f) }

/-- Ask the key cache for a phase on behalf of a sequencer: a hit or a slot being filled is pinned. -/
def Dev.fetchFor (d : Dev) (q sa : Nat) (ph : Bool) : Dev :=
  let (r, d) := d.askKey sa ph
  match r with
  | .hit => d.modSq q (fun s => { s with pins := (sa, ph) :: s.pins })
  | .pending => d.modSq q (fun s => { s with pins := (sa, ph) :: s.pins, keys := (sa, ph) :: s.keys }.lacks (sa, ph))
  | _ => d.modSq q (fun s => { s with keyBad := true }.lacks (sa, ph))

/-- A KEYFETCH begins: the pins and the wait of the one before end, its own missing keys stay watched (R281, R451). -/
def Seq.keyfetch (s : Seq) (asked : List KeyAsked) : Seq :=
  { s with keys := [], pins := [], keyBad := false, fetched := s.fetched.map (fun f => { f with newest := false }) ++ asked }

/-- KEYFETCH (R213, R281). -/
def execKeyfetch (t : Nat) (q : SeqId) (s : State) : Host.Outcome State Fault Refusal :=
  s.runClk t (fun d => d.fetch q.val .keyfetch (fun st d =>
    match (d.sq q.val).armed, st.op with
    | none, _ =>
      if (d.stepTime q.val st 0).isNone then d.stepMiss q.val subCONV none
      else ((d.modSq q.val (fun x => x.keyfetch [])).countRef q.val).done q.val
    | some i, .keyfetch sel =>
      d.timed q.val st subSTEP 0 (fun x d =>
        let sa := d.rd (N.SAIDX i)
        let d := d.modSq q.val (fun y => y.keyfetch [{ step := d.sqPc q.val, deadline := x, keys := [] }])
        let d := (d.selPhases sa sel.toNat).foldl (fun d ph => d.fetchFor q.val sa ph) d
        (d.modSq q.val (fun y => { y with fetched := y.fetched.filter (fun f => f.keys ≠ []) })).done q.val)
    | _, _ => d))

/-- Requests that wait undeferred in GOVQ_REQ (R15, R335). -/
def Dev.govWaiting (d : Dev) : Nat := ((d.seq.map (fun e => (e.2.reqs.filter (fun r => !r.deferred && r.answer.isNone)).length)).sum)

/-- BUDGETDENY against a channel, sequencer and step. -/
def Dev.budgetDeny (d : Dev) (chan seq : Option Nat) (step : Nat) (ao : Bool) : Dev :=
  d.cause causeBUDGETDENY { chan := chan, seq := seq, step := step, ao := ao }

/-- Pass a request through GOVQ_REQ; a full queue denies it at once (R17, R212).  A new TXSLOT request withdraws a pending
one or returns an unused grant. -/
def Dev.budget (d : Dev) (q : Nat) (r : BudgetReq) : Dev :=
  let d := if r.kind = .txslot then
      d.modSq q (fun s => { s with reqs := s.reqs.filter (fun x => x.kind ≠ .txslot), grant := none, asked := true,
                                   slotFailed := false })
    else d
  if 128 ≤ d.govWaiting then
    (((d.modSq q (fun s => { s with open_ := false, out := some .deny, decided := some .deny })).inc F.GV_CNT2_DENIES).event 10 2 0 1).budgetDeny
      (some r.chan) (some q) r.step false
  else d.modSq q (fun s => { s with reqs := s.reqs ++ [r], open_ := true })

/-- A BUDGET step of a kind (R212). -/
def Dev.budgetStep (d : Dev) (q : Nat) (c : StepClass) (kind : BudgetKind) : Dev :=
  d.fetch q c (fun st d => d.timed q st subBUDGET 0 (fun x d =>
    match st.op with
    | .budget _ e it ch =>
      let k := if kind = .bringup then ch.toNat else d.tgt q
      (d.budget q { kind := kind, chan := k, energy := e.toNat, iter := it.toNat, deadline := x,
                    step := d.sqPc q }).done q
    | _ => d))

/-- BUDGET TXSLOT (R212). -/
def execBudgetTxslot (t : Nat) (q : SeqId) (s : State) : Host.Outcome State Fault Refusal :=
  s.runClk t (fun d => d.budgetStep q.val .budgetTxslot .txslot)

/-- BUDGET ITER (R212). -/
def execBudgetIter (t : Nat) (q : SeqId) (s : State) : Host.Outcome State Fault Refusal :=
  s.runClk t (fun d => d.budgetStep q.val .budgetIter .iter)

/-- BUDGET BRINGUP (R212). -/
def execBudgetBringup (t : Nat) (q : SeqId) (s : State) : Host.Outcome State Fault Refusal :=
  s.runClk t (fun d => d.budgetStep q.val .budgetBringup .bringup)

/-! ### Faults, watchdog, start, stop and flags by command -/

/-- The fetch of a step finds a word that fails parity (R216): which half of it, no rule says (log entry 27). -/
def Dev.upsetStep (d : Dev) (q i : Nat) : Dev :=
  if d.stepBad q i ∨ !inRange (d.live q) i then d
  else
    { d with draws := d.draws + 1
             badParity := seqWord q i (if (Config.upset d.draws).getLsbD 0 then 1 else 0) :: d.badParity }

/-- A CALL at depth 8 or a RETURN at depth 0 executes: its condition holds and its time has not passed (R200, R201, R216). -/
def Dev.stackFails (d : Dev) (q : Nat) (st : Step) : Bool :=
  (match st.op with
    | .call _ => decide (8 ≤ (d.sq q).stack.length)
    | .ret => (d.sq q).stack == []
    | _ => false) && d.cond q st.cond.toNat &&
  match d.stepTime q st 0 with
  | some x => decide (d.now ≤ x)
  | none => false

/-- A fault found at fetch (R216): it takes effect where its cause holds of the step at PC; PARITY says that the step's word
fails parity. -/
def execSequencerFault (t : Nat) (q : SeqId) (cause : SeqCause) (s : State) : Host.Outcome State Fault Refusal :=
  s.runClk t (fun d =>
    let pc := d.sqPc q.val
    let d := if cause = .parity ∧ d.sqState q.val = sqRUN then d.upsetStep q.val pc else d
    if d.sqState q.val ≠ sqRUN then d
    else match d.fetchFault q.val with
      | some code =>
        if cause = .parity ∧ code = fcPARITY ∨ cause = .runaway ∧ code = fcRUNAWAY ∨ cause = .outlive ∧ code = fcOUTLIVE
        then d.seqFault q.val code pc else d
      | none =>
        match d.stepAt q.val with
        | some st => if cause = .stack ∧ d.stackFails q.val st then (d.condParity q.val st.cond.toNat).seqFault q.val fcSTACK pc else d
        | none => d)

/-- The watchdog (R216): 2^(WDOG+1) cycles without completing a WAIT with SETBT. -/
def execSeqWatchdog (t : Nat) (q : SeqId) (s : State) : Host.Outcome State Fault Refusal :=
  s.runClk t (fun d =>
    let w := d.rd (F.SQ_CFG_WDOG q.val)
    if d.sqLive q.val ∧ w ≠ 0 ∧ 2 ^ (w + 1) ≤ (d.cycle + 2 ^ 32 - (d.sq q.val).wdog) % 2 ^ 32
    then d.seqFault q.val fcWDOG (d.sqPc q.val) else d)

/-- START (R217). -/
def execStart (t : Nat) (q : SeqId) (s : State) : Host.Outcome State Fault Refusal :=
  s.runClk t (fun d => if d.domOn (q.val / 2) then d.writeSqCtl q.val true false false else d)

/-- STOP (R218). -/
def execStop (t : Nat) (q : SeqId) (s : State) : Host.Outcome State Fault Refusal :=
  s.runClk t (fun d => if d.domOn (q.val / 2) then d.writeSqCtl q.val false true false else d)

/-- CLEAR (R218). -/
def execClear (t : Nat) (q : SeqId) (s : State) : Host.Outcome State Fault Refusal :=
  s.runClk t (fun d => if d.domOn (q.val / 2) then d.writeSqCtl q.val false false true else d)

/-- A write of SQ_PFLAG: PFCLR is applied after PFSET (R223). -/
def Dev.writePflag (d : Dev) (p set clr : Nat) : Dev :=
  ((d.setPairFlags p 0 set true).setPairFlags p 0 clr false).wakeFlags p

/-- PFSET (R220, R223). -/
def execPfset (t : Nat) (k : ChanId) (mask : BitVec 3) (s : State) : Host.Outcome State Fault Refusal :=
  s.runClk t (fun d => if d.domOn k.val then d.writePflag k.val mask.toNat 0 else d)

/-- PFCLR (R220, R223). -/
def execPfclr (t : Nat) (k : ChanId) (mask : BitVec 3) (s : State) : Host.Outcome State Fault Refusal :=
  s.runClk t (fun d => if d.domOn k.val then d.writePflag k.val 0 mask.toNat else d)

/-- A write of SQ_LIVE (R220): checked while the sequencer is in RUN, HOLD or ARMED, and pending in RUN and HOLD. -/
def Dev.writeLive (d : Dev) (q : Nat) (v : Word32) : Dev :=
  let v := v &&& 0x1FFF1FFF#32
  let old := d.live q
  if !d.sqLive q ∧ d.sqState q ≠ sqARMED then d.setWord (A.SQ_LIVE q) v
  else match d.firstBad q (getBits v 0 13) (getBits v 16 13) with
    | some i => (d.raise (F.SQ_STATUS_TBLBAD q)).wr (F.SQ_FAULT_FSTEP q) i
    | none =>
      let d := d.setWord (A.SQ_LIVE q) v
      if d.sqLive q then d.modSq q (fun s => { s with live2 := some old }) else d

/-- A write of SQ_LIVE (R220). -/
def execSqLiveWrite (t : Nat) (q : SeqId) (v : Word32) (s : State) : Host.Outcome State Fault Refusal :=
  s.runClk t (fun d => if d.domOn (q.val / 2) then d.writeLive q.val v else d)

/-- A step can be written (R196, R220). -/
def Dev.stepWritable (d : Dev) (q i : Nat) : Bool :=
  !d.domOn (q / 2) || (!d.sqLive q && d.sqState q != sqARMED) || (!inRange (d.live q) i && !inRange (d.liveReg q) i)

/-- A write of a word of the step table (R196, R414). -/
def execSeqTableWrite (t : Nat) (q : SeqId) (step : Fin 8192) (high : Bool) (v : Word32) (s : State) :
    Host.Outcome State Fault Refusal :=
  s.runClk t (fun d =>
    if d.domOn 76 ∧ d.stepWritable q.val step.val then d.setTable (seqWord q.val step.val (if high then 1 else 0)) v else d)

/-- The automatic restart of R412: once every word of the live range passes parity, CLEAR and START with STARTC 0. -/
def execSeqAutoRestart (t : Nat) (q : SeqId) (s : State) : Host.Outcome State Fault Refusal :=
  s.runClk t (fun d =>
    let r := d.liveReg q.val
    if d.sqState q.val = sqFAULT ∧ (d.sq q.val).restart ∧
        (List.range' r.1 (r.2 + 1 - r.1)).all (fun i => !d.stepBad q.val i) then
      let d := d.modSq q.val (fun x => { x with restarts := d.cycle :: x.restarts.take 7 })
      (d.sqClear q.val).sqStart q.val 0
    else d)

end Sys2Proof.Machine
end

