-- ==== Sys2Proof/Machine/Coding.lean ====
section
/-! DEFINITION. The coding of a line frame: the header code and its placement, whitening, the LDPC code, the filler, the
interleaver blocks and their permutation, and repetition (R113, R117, R118, R122 to R131, R134, R292). -/

namespace Sys2Proof.Machine

open Sys2Proof

/-! ### Bits in transmission order (R3) -/

/-- The low `w` bits of a number, most significant first. -/
def bitsOf (w n : Nat) : List Bool := (List.range w).map (fun i => n.testBit (w - 1 - i))

/-- The bits of octets in transmission order. -/
def octetBits (l : List Byte) : List Bool := l.flatMap (fun b => bitsOf 8 b.toNat)

/-- The number that bits spell, most significant first. -/
def bitsNat (l : List Bool) : Nat := l.foldl (fun n b => 2 * n + (if b then 1 else 0)) 0

/-- The Gray inverse of a `q`-bit group (R99). -/
def grayInv (q g : Nat) : Nat := (List.range q).foldl (fun l i => l ^^^ (g >>> i)) 0

/-! ### The header code (R117, R118) -/

/-- x_(i−d) of a header, where x_0 is bit 95 and the code is tail-biting. -/
def hdrX (h : BitVec 96) (i d : Nat) : Bool := h.getLsbD (95 - (i + 96 - d) % 96)

/-- The delays that enter output `o` of an input bit: the generators 133, 171 and 165. -/
def hdrTaps (o : Nat) : List Nat :=
  match o with
  | 0 => [0, 2, 3, 5, 6]
  | 1 => [0, 1, 2, 3, 6]
  | _ => [0, 1, 2, 4, 6]

/-- Coded bit c_j of a header. -/
def hdrCoded (h : BitVec 96) (j : Nat) : Bool := (hdrTaps (j % 3)).foldl (fun b d => b != hdrX h (j / 3) d) false

/-- The bit at position `p`: c_j with p = 97·j mod 288, which 193 inverts; the positions from 288 on hold 0. -/
def hdrAt (h : BitVec 96) (p : Nat) : Bool := if p < 288 then hdrCoded h (193 * p % 288) else false

/-- The tine of header symbol `i` (R102, R118). -/
def hdrTine (h : BitVec 96) (kh i : Nat) : Nat :=
  grayInv kh (bitsNat ((List.range kh).map (fun x => hdrAt h (kh * i + x))))

/-! ### Whitening (R124) -/

/-- The seed of a frame's whitener. -/
def whiteSeed (src fctr : Nat) : BitVec 23 :=
  let s := BitVec.ofNat 23 (fctr % 64 * 2 ^ 17) ||| BitVec.ofNat 23 src
  if s = 0 then 0x7FFFFF#23 else s

/-- One output of the whitener and its next register. -/
def whiteBit (s : BitVec 23) : Bool × BitVec 23 :=
  let w := s.getLsbD 22 != s.getLsbD 17
  (w, (s <<< 1) ||| (if w then 1#23 else 0#23))

/-- Eight outputs of the whitener as an octet. -/
def whiteOctet (s : BitVec 23) : Byte × BitVec 23 :=
  (List.range 8).foldl (fun x _ =>
    let (w, s) := whiteBit x.2
    ((x.1 <<< 1) ||| (if w then 1#8 else 0#8), s)) (0#8, s)

/-- Octets XORed with the whitener from register `s`. -/
def whiten : BitVec 23 → List Byte → List Byte
  | _, [] => []
  | s, b :: l => let (w, s) := whiteOctet s; (b ^^^ w) :: whiten s l

/-- A body whitened, or a whitened body restored: octets 0 to 11, with FCTR in octets 4 to 11, are in clear. -/
def whiteBody (src : Nat) (body : List Byte) : List Byte :=
  body.take 12 ++ whiten (whiteSeed src (beNat ((body.drop 4).take 8))) (body.drop 12)

/-- The first `n` filler bits, from the register 0x7F_FFFF (R128). -/
def fillerBits (n : Nat) : List Bool :=
  ((List.range n).foldl (fun (x : List Bool × BitVec 23) _ =>
    let (w, s) := whiteBit x.2
    (w :: x.1, s)) ([], 0x7FFFFF#23)).1.reverse

/-! ### The body (R122, R292) -/

/-- `n` octets of a list, filled with zeros. -/
def fitTo : Nat → List Byte → List Byte
  | 0, _ => []
  | n + 1, l => l.headD 0 :: fitTo n l.tail

/-- BLEN, KEYPH and FCTR of a body. -/
def bodyBlen (b : List Byte) : Nat := beNat (b.take 3)
def bodyKeyph (b : List Byte) : Bool := (b.getD 3 0).getLsbD 7
def bodyFctr (b : List Byte) : Nat := beNat ((b.drop 4).take 8)

/-- Octets 0 to the end of FCS of a body. -/
def bodyFrame (b : List Byte) : List Byte := b.take (bodyBlen b + 32)

/-- BLEN obeys R122 for a header's LEN and RATE. -/
def blenOk (rate len : Nat) (b : List Byte) : Bool := decide (len = lenFor (infoOctets rate) (bodyBlen b))

/-- FCS of a body passes (R123). -/
def fcsOk (b : List Byte) : Bool :=
  let n := bodyBlen b + 28
  decide (n + 4 ≤ b.length) && decide ((fcs32 (b.take n)).toNat = beNat ((b.drop n).take 4))

/-- A body whose encryption was aborted with `n` octets sent: the rest are zeros and the FCS is sent inverted (R292). -/
def voidBody (n : Nat) (b : List Byte) : List Byte :=
  let e := bodyBlen b + 28
  let c := fitTo e (b.take n)
  fitTo b.length (c ++ octetsBE 4 (~~~fcs32 c).toNat)

/-! ### The LDPC code (R125 to R127) -/

/-- Row multipliers a_i of a rate. -/
def ldpcA (rate : Nat) : List Nat :=
  match rate with
  | 0 => [3, 10, 37, 68, 86, 123, 143, 177, 200, 220, 238, 253]
  | 1 => [5, 29, 66, 99, 135, 171, 209, 244]
  | 2 => [11, 47, 90, 131, 178, 230]
  | 3 => [17, 74, 153, 221]
  | _ => [35, 118, 199]

/-- Column multipliers b_j. -/
def ldpcB : List Nat :=
  [1, 7, 19, 44, 82, 116, 130, 157, 201, 227, 13, 62, 100, 174, 240, 23, 143, 213, 57, 186, 81]

/-- Block rows m_b, information columns k_b, and the w of a rate. -/
def ldpcRows (rate : Nat) : Nat := (ldpcA rate).length
def ldpcCols (rate : Nat) : Nat := 24 - ldpcRows rate
def ldpcW (rate : Nat) : Nat := if rate ≤ 2 then 4 else 3

/-- The shift of information entry (i, j); none where the entry is a zero block. -/
def ldpcShift (rate i j : Nat) : Option Nat :=
  let m := ldpcRows rate
  if (i + m - j % m) % m < ldpcW rate then some ((ldpcA rate).getD i 0 * ldpcB.getD j 0 % 256) else none

/-- A block of 256 bits, bit c at place c, and its bits. -/
def blockOfBits (l : List Bool) : BitVec 256 := BitVec.ofNat 256 (l.foldr (fun b n => 2 * n + (if b then 1 else 0)) 0)
def bitsOfBlock (v : BitVec 256) : List Bool := (List.range 256).map v.getLsbD

/-- rot(v, s)[r] = v[(r + s) mod 256]. -/
def ldpcRot (v : BitVec 256) (s : Nat) : BitVec 256 := v.rotateRight s

/-- lam[i] of information blocks u. -/
def ldpcLam (rate : Nat) (u : List (BitVec 256)) (i : Nat) : BitVec 256 :=
  (List.range (ldpcCols rate)).foldl (fun v j =>
    match ldpcShift rate i j with
    | some s => v ^^^ ldpcRot (u.getD j 0) s
    | none => v) 0

/-- Parity blocks p_1 on, from p_t, p_0 and the rows t that are left. -/
def ldpcRest (lam : Nat → BitVec 256) (m : Nat) (p0 : BitVec 256) : List Nat → BitVec 256 → List (BitVec 256)
  | [], p => [p]
  | t :: l, p => p :: ldpcRest lam m p0 l (lam t ^^^ p ^^^ (if t = m / 2 then p0 else 0))

/-- Parity blocks p_0 to p_(m_b−1). -/
def ldpcParity (rate : Nat) (u : List (BitVec 256)) : List (BitVec 256) :=
  let m := ldpcRows rate
  let lam := ldpcLam rate u
  let p0 := (List.range m).foldl (fun v i => v ^^^ lam i) 0
  p0 :: ldpcRest lam m p0 ((List.range (m - 2)).map (fun t => t + 1)) (lam 0 ^^^ ldpcRot p0 1)

/-- The information blocks of a codeword's K/8 octets. -/
def infoBlocks (rate : Nat) (info : List Byte) : List (BitVec 256) :=
  (List.range (ldpcCols rate)).map (fun j => blockOfBits (octetBits ((fitTo (infoOctets rate) info |>.drop (32 * j)).take 32)))

/-- The 6,144 bits of a codeword. -/
def codeword (rate : Nat) (info : List Byte) : List Bool :=
  let u := infoBlocks rate info
  (u ++ ldpcParity rate u).flatMap bitsOfBlock

/-- Check `r` of block row `i` over the blocks of a codeword (R125). -/
def ldpcCheck (rate : Nat) (c : List (BitVec 256)) (i : Nat) : BitVec 256 :=
  let m := ldpcRows rate
  let kb := ldpcCols rate
  let info := ldpcLam rate c i
  let first := if i = 0 ∨ i = m - 1 then ldpcRot (c.getD kb 0) 1 else if i = m / 2 then c.getD kb 0 else 0
  let left := if 1 ≤ i then c.getD (kb + i) 0 else 0
  let right := if i + 1 < m then c.getD (kb + i + 1) 0 else 0
  info ^^^ first ^^^ left ^^^ right

/-! ### The coded stream and its symbols (R128 to R131) -/

/-- Bit `i` of the extended stream of a whitened body: the codewords in order, then the filler. -/
def streamBit (rate len : Nat) (body : List Byte) (i : Nat) : Bool :=
  if i < 6144 * len then
    (codeword rate ((body.drop (infoOctets rate * (i / 6144))).take (infoOctets rate))).getD (i % 6144) false
  else ((fillerBits (i - 6144 * len + 1)).getLast?).getD false

/-- The interleaver block of payload symbol `t`: its first symbol and its symbols (R129). -/
def Dev.ilBlock (d : Dev) (k : Nat) (f : Form) (len anchor t : Nat) : Nat × Nat :=
  let all := f.symbols len
  if f.r ≠ 1 then (0, all)
  else
    let ns := d.blockSymbols k f
    let n0 := ns - anchor * ns / 8
    if t < n0 then (0, min n0 all)
    else
      let first := n0 + (t - n0) / ns * ns
      (first, min ns (all - first))

/-- Symbols in the first `n` interleaver blocks of a frame. -/
def Dev.blockEnd (d : Dev) (k : Nat) (f : Form) (len anchor n : Nat) : Nat :=
  if n = 0 then 0
  else if f.r ≠ 1 then f.symbols len
  else
    let ns := d.blockSymbols k f
    min (f.symbols len) (ns - anchor * ns / 8 + (n - 1) * ns)

/-- Codewords whose bits lie whole in the first `n` interleaver blocks. -/
def Dev.codewordsIn (d : Dev) (k : Nat) (f : Form) (len anchor n : Nat) : Nat :=
  min len (d.blockEnd k f len anchor n * f.bits / 6144)

/-- The place in the extended stream of bit b_v of data tine `j` (counted over all streams) of symbol `t` of a block of
`n` symbols that starts with symbol `first`, in multiplex mode (R130). -/
def muxPlace (f : Form) (first n t j v : Nat) : Nat :=
  let tines := f.s * (15 * f.n / 16)
  let q2 := 2 * f.load
  let u := (v + q2 * tines - j) % q2 * tines + j
  first * f.bits + u * n + (t - first)

/-- The place of bit `u` of symbol `t` in single-tine mode (R130). -/
def singlePlace (f : Form) (first n t u : Nat) : Nat := first * f.bits + u * n + (t - first)

/-- First chip, counted from the first payload chip, of copy `c` of payload symbol `t` (R131). -/
def Dev.symbolChip (d : Dev) (k : Nat) (f : Form) (t c : Nat) : Nat :=
  if f.r = 1 then t * (f.n + f.p)
  else
    let nr := max 1 (d.repSymbols k f)
    (t / nr * f.r + c) * d.slotChips k f + t % nr * (f.n + f.p)

/-- The payload symbol and the chip of it at payload chip `x`; none in the gaps that repetition leaves (R131). -/
def Dev.symbolAt (d : Dev) (k : Nat) (f : Form) (len x : Nat) : Option (Nat × Nat) :=
  let w := f.n + f.p
  if f.r = 1 then (if x / w < f.symbols len then some (x / w, x % w) else none)
  else
    let nr := max 1 (d.repSymbols k f)
    let slot := x / max 1 (d.slotChips k f)
    let y := x % max 1 (d.slotChips k f)
    let t := slot / f.r * nr + y / w
    if y / w < nr ∧ t < f.symbols len then some (t, y % w) else none

end Sys2Proof.Machine
end

