-- ==== Sys2Proof/Machine/Decoder.lean ====
section
/-! DEFINITION. The decoder of a codeword: layered min-sum with an offset, its syndrome and its information octets (R125, R127, R153). -/

namespace Sys2Proof.Machine

open Sys2Proof

/-- The entries of a block row: block column and shift (R125). -/
def rowEntries (rate i : Nat) : List (Nat × Nat) :=
  let m := ldpcRows rate
  let kb := ldpcCols rate
  (List.range kb).filterMap (fun j => (ldpcShift rate i j).map (fun s => (j, s))) ++
  (if i = 0 ∨ i = m - 1 then [(kb, 1)] else if i = m / 2 then [(kb, 0)] else []) ++
  (if 1 ≤ i then [(kb + i, 0)] else []) ++ (if i + 1 < m then [(kb + i + 1, 0)] else [])

/-- A block seen from a block row with shift s: check r meets bit (r + s) mod 256; and back. -/
def fromShift (s : Nat) (l : List Int) : List Int := l.drop s ++ l.take s
def toShift (s : Nat) (l : List Int) : List Int := l.drop (256 - s) ++ l.take (256 - s)

/-- The smallest and second smallest magnitude of the messages of a check, the place of the smallest, and the parity of their
signs. -/
structure CheckMin where
  a : Nat := 128
  b : Nat := 128
  at_ : Nat := 0
  neg : Bool := false
deriving DecidableEq, Repr

/-- A message saturated to ±127 (R153). -/
def satMsg (x : Int) : Int := max (-127) (min x 127)

/-- Message `x` of entry `e` enters a check. -/
def CheckMin.add (c : CheckMin) (e : Nat) (x : Int) : CheckMin :=
  let n := x.natAbs
  let neg := c.neg != decide (x < 0)
  if n < c.a then { a := n, b := c.a, at_ := e, neg := neg }
  else if n < c.b then { c with b := n, neg := neg } else { c with neg := neg }

/-- The message of a check to entry `e`, whose own message to it was `x`: the smallest other magnitude less the offset, not below
0, with the sign of the other messages. -/
def CheckMin.reply (c : CheckMin) (off e : Nat) (x : Int) : Int :=
  let n : Int := ((if c.at_ = e then c.b else c.a) - off : Nat)
  if (c.neg != decide (x < 0)) then -n else n

/-- One layer: the blocks after it, and its messages, entry by entry. Messages saturate, the blocks' own values do not (R153; log
entry 161). -/
def minSumLayer (off : Nat) (row : List (Nat × Nat)) (v : List (List Int)) (old : List (List Int)) :
    List (List Int) × List (List Int) :=
  let raw := (row.zip old).map (fun x => (fromShift x.1.2 (v.getD x.1.1 [])).zipWith (· - ·) x.2)
  let msg := raw.map (fun l => l.map satMsg)
  let chk := msg.zipIdx.foldl (fun c l => c.zipWith (fun k x => k.add l.2 x) l.1) (List.replicate 256 ({} : CheckMin))
  let new := msg.zipIdx.map (fun l => chk.zipWith (fun k x => k.reply off l.2 x) l.1)
  let put := fun (v : List (List Int)) (x : (Nat × Nat) × List Int × List Int) =>
    v.zipIdx.map (fun b => if b.2 = x.1.1 then toShift x.1.2 (x.2.1.zipWith (· + ·) x.2.2) else b.1)
  ((row.zip (raw.zip new)).foldl put v, new)

/-- One iteration: every layer in order. -/
def minSumPass (off : Nat) (rows : List (List (Nat × Nat))) (v : List (List Int)) (msgs : List (List (List Int))) :
    List (List Int) × List (List (List Int)) :=
  (rows.zip msgs).foldl (fun (x : List (List Int) × List (List (List Int))) r =>
    let y := minSumLayer off r.1 x.1 r.2
    (y.1, x.2 ++ [y.2])) (v, [])

/-- Hard decisions of the blocks: 1 where a value is negative. -/
def hardBlocks (v : List (List Int)) : List (BitVec 256) := v.map (fun b => blockOfBits (b.map (fun x => decide (x < 0))))

/-- The syndrome is zero (R125). -/
def syndromeZero (rate : Nat) (c : List (BitVec 256)) : Bool := (List.range (ldpcRows rate)).all (fun i => ldpcCheck rate c i = 0)

/-- Iterations up to a zero syndrome or `n` of them: those made, whether the syndrome is zero, and the blocks. -/
def minSumRun (rate off : Nat) (rows : List (List (Nat × Nat))) :
    Nat → Nat → List (List Int) → List (List (List Int)) → Nat × Bool × List (BitVec 256)
  | 0, done, v, _ => (done, false, hardBlocks v)
  | n + 1, done, v, msgs =>
    let y := minSumPass off rows v msgs
    let c := hardBlocks y.1
    if syndromeZero rate c then (done + 1, true, c) else minSumRun rate off rows n (done + 1) y.1 y.2

/-- The 24 blocks of a codeword's soft values. -/
def softBlocks (l : List Int) : List (List Int) :=
  (List.range 24).map (fun j => (((l.drop (256 * j)).take 256) ++ List.replicate 256 0).take 256)

/-- The octets of bits in transmission order. -/
def bitOctets (n : Nat) (l : List Bool) : List Byte := (List.range n).map (fun i => BitVec.ofNat 8 (bitsNat ((l.drop (8 * i)).take 8)))

/-- Decode a codeword: iterations made, whether the syndrome reached zero within `cap`, and its information octets (R127, R153). -/
def decodeWord (rate cap off : Nat) (soft : List Int) : Nat × Bool × List Byte :=
  let rows := (List.range (ldpcRows rate)).map (rowEntries rate)
  let r := minSumRun rate off rows cap 0 (softBlocks soft) (rows.map (fun row => row.map (fun _ => List.replicate 256 0)))
  (r.1, r.2.1, bitOctets (infoOctets rate) ((r.2.2.take (ldpcCols rate)).flatMap bitsOfBlock))

end Sys2Proof.Machine
end

