-- ==== Sys2Proof/Machine/Tines.lean ====
section
/-! DEFINITION. The tines and chips of a line frame: constellations, pilots and streams, single-tine symbols, and the chip that
each member of a bundle feeds its transmit chain (R89 to R103, R110, R112, R113, R118, R131). -/

namespace Sys2Proof.Machine

open Sys2Proof

/-! ### Values of tines (R96 to R100, R102) -/

/-- The chirp-domain value (re + j·im)·√(num/den) of a tine. -/
structure TineVal where
  re : Int := 0
  im : Int := 0
  num : Nat := 0
  den : Nat := 1
deriving DecidableEq, Repr

/-- E of a constellation of 2·q bits (R99). -/
def qamE (q : Nat) : Nat :=
  match q with
  | 1 => 2
  | 2 => 10
  | 3 => 42
  | 4 => 170
  | 5 => 682
  | _ => 2730

/-- The level of an axis from its bits, the first the most significant (R99). -/
def axisLevel (bits : List Bool) : Int :=
  2 * (grayInv bits.length (bitsNat bits) : Int) - (2 ^ bits.length - 1)

/-- The point of 2·q bits in transmission order: the even bits are in phase, the odd ones in quadrature (R99). -/
def qamPoint (q : Nat) (bits : List Bool) : TineVal :=
  let axis := fun o => axisLevel ((List.range q).map (fun i => bits.getD (2 * i + o) false))
  { re := axis 0, im := axis 1, num := 1, den := qamE q }

/-- B of R96. -/
def Form.reserved (f : Form) : Nat := f.n / 16

/-- The pilot tine of stream `s` (R96). -/
def Form.pilot (f : Form) (s : Nat) : Nat :=
  let b := f.reserved
  let w := b / f.s
  (s * w + w / 2 + f.n - b / 2) % f.n

/-- The pilot value √(N/(16·S))·(1 + j)/√2 (R97). -/
def Form.pilotVal (f : Form) : TineVal := { re := 1, im := 1, num := f.n, den := 32 * f.s }

/-- Data tine `j` of a stream is the tine B/2 + j (R98). -/
def Form.dataTine (f : Form) (j : Nat) : Nat := f.reserved / 2 + j

/-- The value of tine `m` of payload symbol `t` in stream `s`: data, pilot, guard, or the one tine of a single-tine symbol
(R96 to R98, R102, R130); `bit` reads the extended stream and (`first`, `n`) is the symbol's interleaver block. -/
def Form.tine (f : Form) (bit : Nat → Bool) (first n t s m : Nat) : TineVal :=
  if f.mux then
    let b := f.reserved
    if b / 2 ≤ m ∧ m < f.n - b / 2 then
      let j := (m - b / 2) * f.s + s
      qamPoint f.load ((List.range (2 * f.load)).map (fun v => bit (muxPlace f first n t j v)))
    else if m = f.pilot s then f.pilotVal
    else {}
  else
    let v := bitsNat ((List.range f.k).map (fun u => bit (singlePlace f first n t u)))
    if m = grayInv f.k v then { re := 1, num := f.n } else {}

/-! ### Chips (R89 to R91, R103)

The real numbers of R91 and R103 are computed with 96 bits of fraction (log entry 131). -/

/-- 2^96, and π times it. -/
def fixOne : Int := 2 ^ 96
def fixPi : Int := 248902613312231085230521944622

/-- The rest of the series whose terms are `t`, −t·x²/((i+1)(i+2)), … -/
def trigSum (x2 : Int) : Nat → Nat → Int → Int
  | 0, _, _ => 0
  | n + 1, i, t => t + trigSum x2 n (i + 2) (-(t * x2 / (fixOne * ((i + 1) * (i + 2)))))

/-- Cosine and sine of π·a/n for |a| up to n. -/
def cosPi (a : Int) (n : Nat) : Int :=
  let x := fixPi * a / n
  trigSum (x * x / fixOne) 40 0 fixOne
def sinPi (a : Int) (n : Nat) : Int :=
  let x := fixPi * a / n
  trigSum (x * x / fixOne) 40 1 x

/-- The base chirp c(i) = exp(jπ·(i²/N − i)) (R89). -/
def chirp (n i : Nat) : Int × Int :=
  let a := ((i % n) * (i % n) + n * n - (i % n) * n) % (2 * n)
  let b : Int := if n < a then (a : Int) - 2 * n else a
  (cosPi b n, sinPi b n)

/-- The largest `c` with c^e ≤ x, from its `b` low bits. -/
def rootBits (e x : Nat) : Nat → Nat → Nat
  | 0, r => r
  | b + 1, r => rootBits e x b (if (r + 2 ^ b) ^ e ≤ x then r + 2 ^ b else r)

/-- √(num/den). -/
def fixSqrt (num den : Nat) : Int := rootBits 2 (2 ^ 192 * num / den) 108 0

/-- 10^(−β/40) (R103). -/
def fixLevel (lvl : Int) : Int :=
  let b := clampLevel lvl
  rootBits 40 (if b < 0 then 2 ^ 3840 * 10 ^ b.natAbs else 2 ^ 3840 / 10 ^ b.natAbs) 99 0

/-- A component saturated to ±524,287 (R66). -/
def sat20 (x : Int) : Int := max (-524287) (min x 524287)

/-- round(2^15 × 10^(−β/40) × v) of a value v that has 192 bits of fraction (R66, R103). -/
def chipPart (lvl v : Int) : Int := (v * fixLevel lvl * 2 ^ 15 + 2 ^ 287) / 2 ^ 288

/-- The sum of R91 at chip `i` of a symbol body of `n` tines, before 1/√N, which `√(num/(den·N))` takes in. -/
def bodySum (n i : Nat) (tine : Nat → TineVal) : Int × Int :=
  (List.range n).foldl (fun x m =>
    let a := tine m
    if a.num = 0 ∨ (a.re = 0 ∧ a.im = 0) then x
    else
      let r := fixSqrt a.num (a.den * n)
      let c := chirp n (i + m)
      (x.1 + r * (a.re * c.1 - a.im * c.2), x.2 + r * (a.re * c.2 + a.im * c.1))) (0, 0)

/-- The chip (I, Q) at chip `i` of a body whose tines are given, at level β, before it saturates (R91, R103). -/
def bodyChip (lvl : Int) (n i : Nat) (tine : Nat → TineVal) : Int × Int :=
  let s := bodySum n i tine
  (chipPart lvl s.1, chipPart lvl s.2)

/-- One tine at amplitude √N (R102). -/
def oneTine (n m : Nat) : Nat → TineVal := fun x => if x = m then { re := 1, num := n } else {}

/-- The base chirp, of sign −1 where `neg` holds (R112, R113). -/
def signedTine (n : Nat) (neg : Bool) : Nat → TineVal :=
  fun x => if x = 0 then { re := if neg then -1 else 1, num := n } else {}

/-! ### The chip stream of a transmission (R94, R95, R100, R110) -/

/-- The extended stream of a transmission (R128): its body is voided where its encryption was aborted (R292). -/
def TxJob.line (x : TxJob) : List Byte := whiteBody (hdrSrc x.hdr) (if x.voided then voidBody x.voidFrom x.body else x.body)

/-- The level of member `i` (R30). -/
def TxJob.levelOf (x : TxJob) (i : Nat) : Int := x.lvls.getD i x.form.lvl

/-- The sync word that a transmission sends (R113, R167). -/
def Dev.txSync (d : Dev) (k : Nat) (x : TxJob) : Word32 := d.word (if x.syncB then A.FR_SYNCB k else A.FR_SYNCW k)

/-- The chips of preamble and sync field: one period of the base chirp each, of the sign of the sync bit (R112, R113). -/
def Dev.leadChip (d : Dev) (k : Nat) (x : TxJob) (n : Nat) : Int × Int :=
  let w := 2 ^ x.form.kh
  let i := n / w - x.form.np
  bodyChip (x.levelOf 0) w (n % w) (signedTine w (decide (x.form.np * w ≤ n) && (d.txSync k x).getLsbD (31 - i)))

/-- Chip `n` of the header: single-tine symbols with prefix N/16 (R110, R118). -/
def TxJob.headerChip (x : TxJob) (n : Nat) : Int × Int :=
  let w := 2 ^ x.form.kh
  let p := w / 16
  let t := hdrTine x.hdr x.form.kh (n / (w + p))
  bodyChip (x.levelOf 0) w ((n % (w + p) + w - p) % w) (oneTine w t)

/-- Chip `n` of the payload on member `i`, which sends stream `i` where S is the bundle's size (R94, R100). -/
def Dev.payloadChip (d : Dev) (k : Nat) (x : TxJob) (i n : Nat) : Int × Int :=
  match d.symbolAt k x.form x.len n with
  | none => (0, 0)
  | some (t, c) =>
    let f := x.form
    let (first, size) := d.ilBlock k f x.len x.anchor t
    bodyChip (x.levelOf i) f.n ((c + f.n - f.p) % f.n)
      (f.tine (streamBit f.rate x.len x.line) first size t i)

/-- Chip `n`, from the first chip of the preamble, of bundle member `i` (0 the lead) before it saturates (R100, R103, R110); (0,
0) where the member is fed zero chips. -/
def Dev.txChipRaw (d : Dev) (k : Nat) (x : TxJob) (i n : Nat) : Int × Int :=
  let sync := (x.form.np + 32) * 2 ^ x.form.kh
  let lead := x.form.leadChips
  if x.chips ≤ n ∨ (x.starved ∧ x.starveFrom ≤ n) ∨ (i ≠ 0 ∧ (n < lead ∨ x.form.s = 1)) then (0, 0)
  else if n < sync then d.leadChip k x n
  else if n < lead then x.headerChip (n - sync)
  else d.payloadChip k x i (n - lead)

/-- The chip that enters CHQ_TX (R103). -/
def Dev.txChip (d : Dev) (k : Nat) (x : TxJob) (i n : Nat) : Int × Int :=
  let c := d.txChipRaw k x i n
  (sat20 c.1, sat20 c.2)

end Sys2Proof.Machine
end

