-- ==== Sys2Proof/Machine/Chain.lean ====
section
/-! DEFINITION. The sample chains of a channel, one sample at a time: the stages of R64 and R75 over the registers that State holds
(R64 to R77, R84, R87). -/

namespace Sys2Proof.Machine

open Sys2Proof

/-- R66: `s` bits are dropped, half of the least significant retained bit being added first. -/
def round66 (v : Int) (s : Nat) : Int := (v + 2 ^ s / 2) / 2 ^ s

def Cx.map (f : Int → Int) (x : Cx) : Cx := (f x.1, f x.2)

/-- Components that saturate (R66). -/
def satCount (x : Cx) : Nat := (if sat20 x.1 = x.1 then 0 else 1) + (if sat20 x.2 = x.2 then 0 else 1)

/-! ### Fields of a palette (R79) -/

/-- The 18-bit coefficient at a palette word. -/
def coef (w : Nat → Word32) (i : Nat) : Int := toSigned 18 (getBits (w i) 0 18)

def palRankHw (w : Nat → Word32) : Nat := getBits (w 1) 12 3
def palRankMode (w : Nat → Word32) : Nat := getBits (w 1) 16 2
def palRankSel (w : Nat → Word32) : Nat := getBits (w 4) 0 4
def palImpTh (w : Nat → Word32) : Nat := getBits (w 4) 12 20
def palFlagSpan (w : Nat → Word32) : Nat := getBits (w 5) 0 12
def palPkLim (w : Nat → Word32) : Nat := getBits (w 5) 16 14
def palCicLog (w : Nat → Word32) : Nat := getBits (w 1) 0 3
def palFirLen (w : Nat → Word32) : Nat := getBits (w 1) 4 7
def palRsStep (w : Nat → Word32) : Nat := getBits (w 2) 0 26

/-- The step of the transmit resampler, computed at commit: round(2^48 / RS_STEP) (R75). -/
def txRsStep (rs : Nat) : Nat := (2 ^ 49 + rs) / (2 * rs)

/-- The length of a chip in 2^−24 ns for a resampler step: 2·D·STEP (R64, R72). -/
def palChip (w : Nat → Word32) (trim : Int) : Nat := 2 * 2 ^ palCicLog w * (palRsStep w + trim).toNat

/-! ### The palettes that a chain computes with (R83, R84) -/

/-- The palettes in force for one output: the active one, the outgoing one, and the fade sample j and order f while a fade runs. -/
structure Force where
  new : Nat → Word32
  old : Nat → Word32
  fade : Option (Nat × Nat) := none

/-- Sample j of a fade of order f (R84). -/
def fadeMix (old new : Int) (j f : Nat) : Int := round66 (old * 2 ^ f + (new - old) * (j + 1)) f

/-- A stage computed with both coefficient sets over one state: its output, and the components that saturated (R66, R84). -/
def Force.stage (p : Force) (f : (Nat → Word32) → Cx) : Cx × Nat :=
  let y := f p.new
  match p.fade with
  | none => (y.map sat20, satCount y)
  | some (j, n) =>
    let z := f p.old
    ((fadeMix (sat20 z.1) (sat20 y.1) j n, fadeMix (sat20 z.2) (sat20 y.2) j n), satCount y + satCount z)

/-! ### Receive stages (R65 to R72) -/

/-- The 20-bit sample of an ADC code (R65). -/
def adcSample (code : Int) : Int := 16 * code

/-- A real number with 96 bits of fraction as an 18-bit value scaled by 2^17: exact where it is a multiple, rounded either way
where it is not, and 1, which does not fit, as the largest value (log entry 133). -/
def trig18 (x : Int) (up : Bool) : Int :=
  let n := round66 (x * 2 ^ 17) 96
  let y := if (x * 2 ^ 17 - n * fixOne).natAbs < 2 ^ 40 then n
    else x * 2 ^ 17 / fixOne + (if up then 1 else 0)
  min 131071 y

/-- The cosine and sine of the NCO accumulator (R67): θ is 2π·A/2^32. -/
def nco18 (a : BitVec 32) : Cx :=
  (trig18 (cosPi a.toInt (2 ^ 31)) (Config.ncoUp a false), trig18 (sinPi a.toInt (2 ^ 31)) (Config.ncoUp a true))

/-- R67: the NCO product of a real sample, rounded to 20 bits. -/
def downConvert (a : BitVec 32) (x : Int) : Cx :=
  let c := nco18 a
  (round66 (x * c.1) 17, round66 (-(x * c.2)) 17)

/-- Order `sel` of a window of components: 0 is the minimum (R68). -/
def rankOf (l : List Int) (sel : Nat) : Int := (l.mergeSort (fun a b => decide (a ≤ b))).getD sel 0

/-- The rank filter on a window of W samples, oldest first: the output and the impulse flag (R68, R69). -/
def rankFilter (w : Nat → Word32) (win : List Cx) : Cx × Bool :=
  let x := win.getD (palRankHw w) (0, 0)
  let q : Cx := (rankOf (win.map Prod.fst) (palRankSel w), rankOf (win.map Prod.snd) (palRankSel w))
  let imp := decide ((palImpTh w : Int) < (x.1 - q.1).natAbs) || decide ((palImpTh w : Int) < (x.2 - q.2).natAbs)
  (match palRankMode w with
   | 1 => q
   | 2 => if imp then q else x
   | _ => x, imp)

/-- One input through a chain of integrators: their new registers and the last of them. -/
def integrate : List (BitVec 45) → BitVec 45 → List (BitVec 45) × BitVec 45
  | [], x => ([], x)
  | a :: l, x => let r := integrate l (a + x); ((a + x) :: r.1, r.2)

/-- One value through a chain of combs: their new registers and the last difference. -/
def combs : List (BitVec 45) → BitVec 45 → List (BitVec 45) × BitVec 45
  | [], x => ([], x)
  | p :: l, x => let r := combs l (x - p); (x :: r.1, r.2)

/-- One input of a CIC decimator; `out` says that this input gives an output (R70). -/
def Cic.decimate (c : Cic) (log : Nat) (x : Int) (out : Bool) : Cic × Int :=
  let i := integrate c.int (BitVec.ofInt 45 x)
  if out then
    let r := combs c.comb i.2
    ({ int := i.1, comb := r.1 }, round66 r.2.toInt (5 * log))
  else ({ c with int := i.1 }, 0)

/-- A FIR of FIR_LEN + 1 taps from palette word `base` on a delay line, newest first (R71). -/
def firSum (w : Nat → Word32) (base : Nat) (line : List Int) : Int :=
  (List.range (palFirLen w + 1)).foldl (fun s i => s + coef w (base + i) * line.getD i 0) 0

def firOut (line : List Cx) (w : Nat → Word32) : Cx :=
  Cx.map (fun v => round66 v 17) (firSum w 8 (line.map Prod.fst), firSum w 8 (line.map Prod.snd))

/-- The interpolated output of the 8 held inputs, oldest first, at accumulator fraction `p` (R72). -/
def resampleAt (w : Nat → Word32) (held : List Int) (p : Nat) : Int :=
  let b := p / 2 ^ 18 % 64
  let mu : Int := p % 2 ^ 18
  let h := fun i => (2 ^ 18 - mu) * coef w (264 + 8 * b + i) + mu * coef w (264 + 8 * (b + 1) + i)
  round66 ((List.range 8).foldl (fun s i => s + held.getD i 0 * h i) 0) 35

def resample (held : List Cx) (p : Nat) (w : Nat → Word32) : Cx :=
  (resampleAt w (held.map Prod.fst) p, resampleAt w (held.map Prod.snd) p)

/-- What a run of samples counts: those that the comparator and the rank filter flag, and the components that saturate (R39, R66,
R69). -/
structure Tally where
  comp : Nat := 0
  imp : Nat := 0
  sat : Nat := 0
deriving DecidableEq, Repr

/-- The outputs of the receive resampler until it needs another input: more than one where a carry is 0, which a negative TRIM can
give (R72). -/
def RxChain.resampled (c : RxChain) (p : Force) (trim : Int) : Nat → RxChain × Nat
  | 0 => (c, 0)
  | n + 1 =>
    let a := c.p + (palRsStep p.new + trim).toNat
    let (y, sat) := p.stage (resample c.held c.p)
    let c := { c with p := a % 2 ^ 24, need := a / 2 ^ 24, ref := c.ref + palChip p.new trim, out := c.out ++ [(c.ref, y)] }
    if c.need = 0 then let (c, m) := c.resampled p trim n; (c, sat + m) else (c, sat)

/-- An input of the resampler with STEP = RS_STEP + TRIM (R72). Which input of a cleared resampler gives its first output the rule
does not say: here the first one (DESIGN CHOICE, log entry 134). -/
def RxChain.toResampler (c : RxChain) (p : Force) (trim : Int) (x : Cx) : RxChain × Nat :=
  let c := { c with held := c.held.drop 1 ++ [x] }
  if 1 < c.need then ({ c with need := c.need - 1 }, 0) else c.resampled p trim 2

/-- An input of the FIR, which gives an output for every second one (R71). Which input of a cleared FIR gives its first output the
rule does not say: here the second one (DESIGN CHOICE, log entry 134). -/
def RxChain.toFir (c : RxChain) (p : Force) (trim : Int) (x : Cx) : RxChain × Nat :=
  let c := { c with fir := (x :: c.fir).take 128, odd := !c.odd }
  if c.odd then (c, 0)
  else
    let (y, sat) := p.stage (firOut c.fir)
    let (c, n) := c.toResampler p trim y
    (c, sat + n)

/-- An input of the CIC stage (R70).  Which input of a cleared decimator gives its first output the rule does not say: here the D-th
(DESIGN CHOICE, log entry 134). -/
def RxChain.toCic (c : RxChain) (w : Nat → Word32) (p : Force) (trim : Int) (y : Cx) : RxChain × Nat :=
  if palCicLog w = 0 then c.toFir p trim y
  else
    let out := decide (c.dec + 1 = 2 ^ palCicLog w)
    let (ci, i) := c.ci.decimate (palCicLog w) y.1 out
    let (cq, q) := c.cq.decimate (palCicLog w) y.2 out
    let c := { c with ci := ci, cq := cq, dec := if out then 0 else c.dec + 1 }
    if out then c.toFir p trim (i, q) else (c, 0)

/-- One ADC code through the receive chain (R64 to R73), with palette `w` up to the CIC stage and `p` for the stages after it;
`clip` holds for a sample that is blanked or taken while the gain settles, and `level` is CLIP_LEVEL (R34, R37, R39). -/
def RxChain.sample (c : RxChain) (w : Nat → Word32) (p : Force) (trim : Int) (level : Nat) (clip : Bool) (code : Int) :
    RxChain × Tally :=
  let comp := decide ((level : Int) ≤ code) || decide (code ≤ -(level : Int) - 1)
  let x := downConvert c.nco (adcSample code)
  let win := c.win.drop 1 ++ [x]
  let (y, imp) := rankFilter w (win.drop (15 - (2 * palRankHw w + 1)))
  let marks := (if imp ∧ palRankHw w ≤ c.at_ then [{ at_ := c.at_ - palRankHw w, imp := true }] else []) ++
    (if clip ∨ comp then [{ at_ := c.at_, clip := true, comp := comp }] else [])
  let c := { c with nco := c.nco + w 0, win := win, at_ := c.at_ + 1, marks := marks ++ c.marks }
  let (c, sat) := c.toCic w p trim y
  (c, { comp := if comp then 1 else 0, imp := if imp then 1 else 0, sat := sat })

/-- Counters of the tallies of two runs. -/
def Tally.add (a b : Tally) : Tally := { comp := a.comp + b.comp, imp := a.imp + b.imp, sat := a.sat + b.sat }

/-- Samples since a clear through a receive chain with one palette and no flag from outside: its registers, and what it counted
(R88). -/
def rxRun (w : Nat → Word32) (trim : Int) (level : Nat) (codes : List Int) : RxChain × Tally :=
  codes.foldl (fun x code =>
    let (c, o) := x.1.sample w { new := w, old := w } trim level false code
    (c, x.2.add o)) ({}, {})

/-- `n` samples that no command hands in: the phases go on, the filters forget what they hold, and no chip is formed of them (log
entry 130). -/
def RxChain.pass (c : RxChain) (w : Nat → Word32) (trim : Int) (n : Nat) : RxChain :=
  if n = 0 then c
  else
    let d := 2 ^ palCicLog w
    let outs := (c.dec + n) / d
    let firs := ((if c.odd then 1 else 0) + outs) / 2
    let step := (palRsStep w + trim).toNat
    let c0 : RxChain :=
      { at_ := c.at_ + n, ref := c.ref, nco := c.nco + BitVec.ofNat 32 (n % 2 ^ 32) * w 0, dec := (c.dec + n) % d
        odd := c.odd != decide (outs % 2 = 1), p := c.p, need := c.need, marks := c.marks, out := c.out }
    if firs < c.need then { c0 with need := c.need - firs }
    else
      let r := firs - c.need
      let k := ((r + 1) * 2 ^ 24 - 1 - c.p) / max 1 step + 1
      { c0 with p := (c.p + k * step) % 2 ^ 24, need := (c.p + k * step) / 2 ^ 24 - r, ref := c.ref + k * palChip w trim }

/-! ### Flags and the chip entry (R73, R74) -/

/-- A mark lies within `span` ns of a referred instant and not after the emission instant `e` (R73). -/
def Mark.near (m : Mark) (span ref e : Nat) : Bool :=
  decide (m.at_ ≤ ref + span) && decide (ref ≤ m.at_ + span) && decide (m.at_ ≤ e)

/-- A CHQ_RX entry (R74). -/
def chqEntry (x : Cx) (clip imp setl pal ccmp : Bool) : BitVec 48 :=
  let bit := fun (b : Bool) => if b then 1#1 else 0#1
  0#3 ++ bit ccmp ++ bit pal ++ bit setl ++ bit imp ++ bit clip ++ BitVec.ofInt 20 x.2 ++ BitVec.ofInt 20 x.1

/-- The components and the flags of an entry. -/
def chipOf (e : BitVec 48) : Cx := ((e.extractLsb' 0 20).toInt, (e.extractLsb' 20 20).toInt)
def chipClip (e : BitVec 48) : Bool := e.getLsbD 40
def chipImp (e : BitVec 48) : Bool := e.getLsbD 41
def chipSetl (e : BitVec 48) : Bool := e.getLsbD 42
def chipComp (e : BitVec 48) : Bool := e.getLsbD 44

/-- An entry that is an erasure (R74, R137). -/
def chipErased (e : BitVec 48) : Bool := chipClip e || chipImp e || chipSetl e

/-! ### Transmit stages (R75, R76) -/

/-- A FIR interpolating by 2: the output of phase `o` for a delay line, newest first. -/
def firUp (line : List Cx) (o : Nat) (w : Nat → Word32) : Cx :=
  let phase := fun (l : List Int) =>
    (List.range ((palFirLen w + 2 - o) / 2)).foldl (fun s i => s + coef w (136 + 2 * i + o) * l.getD i 0) (0 : Int)
  Cx.map (fun v => round66 v 17) (phase (line.map Prod.fst), phase (line.map Prod.snd))

/-- One input of a CIC interpolator: its D outputs before saturation (R75). -/
def Cic.interpolate (c : Cic) (log : Nat) (x : Int) : Cic × List Int :=
  let r := combs c.comb (BitVec.ofInt 45 x)
  (List.range (2 ^ log)).foldl (fun (s : Cic × List Int) n =>
    let i := integrate s.1.int (if n = 0 then r.2 else 0)
    ({ s.1 with int := i.1 }, s.2 ++ [round66 i.2.toInt (4 * log)])) ({ c with comb := r.1 }, [])

/-- R75, stage 4: the real part of z·(cos θ + j·sin θ), before saturation. -/
def upConvert (a : BitVec 32) (z : Cx) : Int := let c := nco18 a; round66 (z.1 * c.1 - z.2 * c.2) 17

/-- R75, stage 5: y = x + PD_A3·x³ + PD_A5·x⁵, with 2^19 as 1, before saturation. -/
def predistort (w : Nat → Word32) (x : Int) : Int :=
  round66 (x * 2 ^ 93 + coef w 6 * x ^ 3 * 2 ^ 38 + coef w 7 * x ^ 5) 93

/-- 1 where a value saturates. -/
def satOne (x : Int) : Nat := if sat20 x = x then 0 else 1

/-- Stages 4 and 5 on the complex samples that leave the CIC stage: real samples, and the components that saturated. -/
def TxChain.toReal (c : TxChain) (w : Nat → Word32) (l : List Cx) : TxChain × List Int × Nat :=
  l.foldl (fun x z =>
    let u := upConvert x.1.nco (z.map sat20)
    let y := predistort w (sat20 u)
    ({ x.1 with nco := x.1.nco + w 0 }, x.2.1 ++ [sat20 y], x.2.2 + satCount z + satOne u + satOne y)) (c, [], 0)

/-- An input of the CIC stage (R75, stage 3). -/
def TxChain.toCic (c : TxChain) (w : Nat → Word32) (z : Cx) : TxChain × List Int × Nat :=
  if palCicLog w = 0 then c.toReal w [z]
  else
    let (ci, i) := c.ci.interpolate (palCicLog w) z.1
    let (cq, q) := c.cq.interpolate (palCicLog w) z.2
    TxChain.toReal { c with ci := ci, cq := cq } w (i.zip q)

/-- An input of the FIR: two inputs of the CIC stage (R75, stage 2). -/
def TxChain.toFir (c : TxChain) (p : Force) (x : Cx) : TxChain × List Int × Nat :=
  let c := { c with fir := (x :: c.fir).take 64 }
  let (y0, n0) := p.stage (firUp c.fir 0)
  let (y1, n1) := p.stage (firUp c.fir 1)
  let (c, a, na) := c.toCic p.new y0
  let (c, b, nb) := c.toCic p.new y1
  (c, a ++ b, n0 + n1 + na + nb)

/-- The outputs of the transmit resampler until it needs another chip: one or two, since its step is not below 2^23 (R75, stage
1). -/
def TxChain.resampled (c : TxChain) (p : Force) : Nat → TxChain × List Int × Nat
  | 0 => (c, [], 0)
  | n + 1 =>
    let (y, s) := p.stage (resample c.held c.p)
    let a := c.p + txRsStep (palRsStep p.new)
    let (c, l, m) := TxChain.toFir { c with p := a % 2 ^ 24, need := a / 2 ^ 24 } p y
    if c.need = 0 then
      let (c, l', m') := c.resampled p n
      (c, l ++ l', s + m + m')
    else (c, l, s + m)

/-- A chip through the transmit chain up to the peak limit (R75): the real samples, and the components that saturated. -/
def TxChain.chip (c : TxChain) (p : Force) (x : Cx) : TxChain × List Int × Nat :=
  let c := { c with held := c.held.drop 1 ++ [x], done := c.done + 1 }
  if 1 < c.need then ({ c with need := c.need - 1 }, [], 0) else c.resampled p 3

/-- LIMIT = min(PK_LIM, floor(8,191 × 10^(−TXCAP/40))) (R76). -/
def peakLimit (pkLim txcap : Nat) : Nat := min pkLim (rootBits 40 (8191 ^ 40 / 10 ^ txcap) 13 0)

/-- A real sample clamped to ±16·LIMIT, and whether LIMCNT counts it (R76). -/
def clampPeak (limit : Nat) (s : Int) : Int × Bool :=
  let y := max (-(16 * (limit : Int))) (min s (16 * limit))
  (y, y != s)

/-- The DAC code of a sample (R75, stage 7). -/
def dacCode (s : Int) : Int := round66 s 4

end Sys2Proof.Machine
end

