-- ==== Sys2Proof/Machine/Samples.lean ====
section
/-! DEFINITION. The sample part of a channel: the palettes in force in each direction, the boundaries of swaps, the clears of the
chains, the ADC codes that commands hand in, the entries of CHQ_RX, and the chips of a transmission through its chain (R17, R34, R37,
R39, R64 to R77, R82 to R88, R103). -/

namespace Sys2Proof.Machine

open Sys2Proof

/-! ### Palettes in force (R82 to R85) -/

def Dev.gdelayTx (d : Dev) (k : Nat) : Nat := getBits (d.palWord k (d.activeB k) 3) 16 12

/-- TRIM in force: that of the lead, whose receiver serves every member (R72, R136). -/
def Dev.trim (d : Dev) (m : Nat) : Int := d.rdS (F.AQ_FREQ_TRIM (d.lead m))

/-- TRIM in force at instant `s`: what stood before the first change after it (R18, R72). -/
def Dev.trimAt (d : Dev) (m s : Nat) : Int :=
  (((d.ch (d.lead m)).trims.filter (fun e => decide (s < e.1))).getLast?.map Prod.snd).getD (d.trim m)

/-- TRIM takes a value at instant `at_` (R18). -/
def Dev.setTrim (d : Dev) (k at_ : Nat) (v : Int) : Dev :=
  (d.modCh k (fun c => { c with trims := ((at_, d.rdS (F.AQ_FREQ_TRIM k)) :: c.trims).take 8 })).wrS (F.AQ_FREQ_TRIM k) v

/-- A chip of a channel in 2^−24 ns, without TRIM. -/
def Dev.chipLen (d : Dev) (k : Nat) : Nat := max 1 (palChip (d.palWord k (d.activeB k)) 0)

/-- The boundary of a swap in one direction: an instant of the receive chain in ns, or of the transmit chain in 2^−24 ns. -/
def Swap.boundary (s : Swap) (rx : Bool) : Nat := if rx then s.rxAt else s.txAt

/-- Whether palette B is in force in a direction of a channel at an instant, the incoming one during a fade (R82, R84). -/
def Dev.palAt (d : Dev) (k : Nat) (rx : Bool) (e : Nat) : Bool :=
  match (d.ch k).swaps.find? (fun s => decide (s.boundary rx ≤ e)), (d.ch k).swaps.getLast? with
  | some s, _ => s.toB
  | none, some s => !s.toB
  | none, none => d.activeB k

/-- The palettes with which a direction of a channel computes at instant `e`, and the running fade, whose sample j is `j` of its
boundary (R83, R84). -/
def Dev.forceAt (d : Dev) (k : Nat) (rx : Bool) (e : Nat) (j : Nat → Nat) : Force :=
  let b := d.palAt k rx e
  let fade := ((d.ch k).swaps.find? (fun s => decide (s.boundary rx ≤ e))).bind (fun s => s.fade.bind (fun f =>
    if j (s.boundary rx) < 2 ^ f then some (j (s.boundary rx), f) else none))
  { new := d.palWord k b, old := d.palWord k (!b), fade := fade }

/-- The fade sample of a chip of instant `e` after boundary `b`, both in 2^−24 ns: the chips taken since (R84). -/
def Dev.txFade (d : Dev) (m e b : Nat) : Nat := ceilDiv (e - b) (d.chipLen m)

/-- A step of the receive chain from `c` to `c'` adds the outputs that it formed to the fade that began at `b` ns (R84, R87). -/
def RxChain.faded (c' c : RxChain) (step g b f : Nat) : RxChain :=
  let skip := ceilDiv ((b - g) * 2 ^ 24 - c.ref) step
  let n := ceilDiv (c'.ref - c.ref) step - skip
  if n = 0 ∨ 2 ^ f ≤ c.fade then c'
  else { c' with
    fade := min (2 ^ f) (c.fade + n)
    fadeEnd := if 2 ^ f ≤ c.fade + n then (c.ref + (skip + 2 ^ f - c.fade - 1) * step) / 2 ^ 24 + g else c'.fadeEnd }

/-- The emission instant of the last output of a fade that began at `b` ns with order `f`: the one that it had, or the one that the
resampler comes to at its present step (R84). -/
def RxChain.fadeLast (c : RxChain) (step g b f : Nat) : Nat :=
  if 2 ^ f ≤ c.fade then c.fadeEnd
  else (c.ref + (ceilDiv ((b - g) * 2 ^ 24 - c.ref) step + 2 ^ f - c.fade - 1) * step) / 2 ^ 24 + g

/-- Outputs of that fade emitted by `now`. -/
def RxChain.fadeDone (c : RxChain) (step g b f now : Nat) : Nat :=
  let waiting := c.out.countP (fun o => decide (now < o.1 / 2 ^ 24 + g))
  let due := ceilDiv ((now + 1 - g) * 2 ^ 24 - c.ref) step - ceilDiv ((b - g) * 2 ^ 24 - c.ref) step
  min (2 ^ f) (c.fade - waiting + due)

/-- The outputs of a step of a member's receive chain enter the fade that started last. -/
def Dev.countFade (d : Dev) (m : Nat) (c c' : RxChain) (trim : Int) : RxChain :=
  match (d.ch m).swaps.head? with
  | some s => (match s.fade with
    | some f => c'.faded c (max 1 (palChip (d.palWord m (d.activeB m)) trim)) (d.gdelayRx m) s.rxAt f
    | none => c')
  | none => c'

/-- The emission instant of the first receive output emitted at or after `i` (R77, R82). -/
def Dev.rxBoundary (d : Dev) (k i : Nat) : Nat :=
  let c := (d.ch k).rx
  let r := (c.out.head?.map Prod.fst).getD c.ref
  let step := max 1 (palChip (d.palWord k (d.activeB k)) (d.trim k))
  let g := d.gdelayRx k
  let want := (i - g) * 2 ^ 24
  (r + ceilDiv (want - r) step * step) / 2 ^ 24 + g

/-- The transmission under way on the channel of a member. -/
def Dev.jobOn (d : Dev) (m : Nat) : Option TxJob := (d.ch (d.lead m)).txs.find? (fun x => x.begun)

/-- The instant from which the chips that the transmit chain takes are counted: that of the first chip of the frame under way, which
reaches the lands at T + 250 ns, or that of the last clear (R77, R110). -/
def Dev.txGrid (d : Dev) (m : Nat) : Nat :=
  match d.jobOn m with
  | some x => x.t + 250 - d.gdelayTx m
  | none => (d.ch m).cleared

/-- The instant, in 2^−24 ns, of the first chip taken from CHQ_TX at or after `i` (R82). -/
def Dev.txBoundary (d : Dev) (m i : Nat) : Nat :=
  let b := d.txGrid m
  b * 2 ^ 24 + ceilDiv ((i - b) * 2 ^ 24) (d.chipLen m) * d.chipLen m

/-! ### Transmission (R34, R75, R76, R103) -/

/-- The instant, in 2^−24 ns, at which a member's chain takes chip `i` of a frame: it reaches the lands GDELAY_TX later (R77,
R110). -/
def Dev.chipAt (d : Dev) (m : Nat) (x : TxJob) (i : Nat) : Nat := (x.t + 250 - d.gdelayTx m) * 2 ^ 24 + i * d.chipLen m

/-- Chips that a member's chain has taken before an instant, the zero chips after the last of the frame among them (R75). -/
def Dev.chipsBy (d : Dev) (m : Nat) (x : TxJob) (e : Nat) : Nat :=
  ceilDiv (e * 2 ^ 24 - d.chipAt m x 0) (d.chipLen m)

/-- No RS_H word of a palette of the channel is other than 0: its transmit chain passes nothing on. -/
def Dev.txSilent (d : Dev) (m : Nat) : Bool :=
  !d.regs.any (fun e =>
    (decide (A.PAL_A_W m 264 ≤ e.1) && decide (e.1 < A.PAL_A_W m 784)) ||
    (decide (A.PAL_B_W m 264 ≤ e.1) && decide (e.1 < A.PAL_B_W m 784)))

/-- Samples that the peak limit clamps, and components that saturate. -/
structure TxTally where
  lim : Nat := 0
  sat : Nat := 0
deriving DecidableEq, Repr

/-- LIMIT of a channel for the samples of the chip of instant `e` in 2^−24 ns (R76, R82, R84). -/
def Dev.limitAt (d : Dev) (m e : Nat) : Nat :=
  peakLimit (palPkLim (d.palWord m (d.palAt m false e))) (d.rd (F.LIF_CFG_TXCAP m))

/-- A chip through a member's chain. `n` counts the samples before it; a sample that leaves before T + 250 ns, 58 ns less
GDELAY_TX after the instant at which its chip would reach the lands, is 0 and not limited, and one that would leave after E is
none (R33, R34, R77). -/
def Dev.txOne (d : Dev) (m : Nat) (x : TxJob) (c : TxChain) (n : Nat) (i : Nat) (t : TxTally) : TxChain × Nat × TxTally :=
  let raw := d.txChipRaw (d.lead m) x (m - d.lead m) i
  let e := d.chipAt m x i
  let (c, l, sat) := c.chip (d.forceAt m false e (d.txFade m e)) (Cx.map sat20 raw)
  let limit := d.limitAt m e
  let lim := (l.zipIdx n).countP (fun s =>
    decide (d.gdelayTx m ≤ s.2 + 58) && decide (x.t + 250 + s.2 + 58 < x.fin + d.gdelayTx m) && (clampPeak limit s.1).2)
  (c, n + l.length, { lim := t.lim + lim, sat := t.sat + sat + satCount raw })

/-- The chips of a frame up to `e`, and zero chips after its last, through a member's chain: its registers, and what it counts. A
single-tine chip never saturates (R103), and a chain whose resampler has no coefficient passes zeros, so that nothing is counted.
-/
def Dev.txRun (d : Dev) (m : Nat) (x : TxJob) (e : Nat) : TxChain × TxTally :=
  let a := (d.ch m).tx.done
  let b := d.chipsBy m x e
  if d.txSilent m ∧ !x.form.mux then ({ (d.ch m).tx with done := max a b }, {})
  else
    let r := (List.range' a (b - a)).foldl (fun (y : TxChain × Nat × TxTally) i => d.txOne m x y.1 y.2.1 i y.2.2)
      ((d.ch m).tx, a * d.chipLen m / 2 ^ 24, {})
    (r.1, r.2.2)

/-- A member's transmit chain takes the chips of the frame under way up to `e`, with LIMCNT, SATCNT and FIRSAT. -/
def Dev.runTx (d : Dev) (m : Nat) (e : Nat) : Dev :=
  match d.jobOn m with
  | none => d
  | some x =>
    let (c, t) := d.txRun m x e
    let d := if t.lim = 0 then d else d.inc (F.SC_CNT_LIMCNT m) t.lim
    let d := if t.sat = 0 then d else (d.raise (F.SC_STATUS_FIRSAT m)).inc (F.SC_CNT2_SATCNT m) t.sat
    d.modCh m (fun h => { h with tx := c })

/-- The transmit chain of a member before a frame: zero chips have emptied its filters, and its NCO has advanced with every sample
since the last clear; the resampler starts with the frame's first chip (R75, R110; log entry 134). -/
def Dev.primeTx (d : Dev) (m : Nat) (t : Nat) : Dev :=
  d.modCh m (fun h => { h with tx :=
    { nco := BitVec.ofNat 32 ((t + 250 - d.gdelayTx m - h.cleared) % 2 ^ 32) * d.palWord m (d.activeB m) 0 } })

/-! ### Clears (R83, R87, R88) -/

/-- The receive chain is cleared at `e`; the flags of samples that came before stand, and the progress of a fade (R87). -/
def Dev.clearRx (d : Dev) (k e : Nat) : Dev :=
  let g := d.gdelayRx k
  d.modCh k (fun c => { c with
    settleTo := e + g, cleared := e
    rx := { at_ := e, ref := e * 2 ^ 24, marks := c.rx.marks, fade := c.rx.fade, fadeEnd := c.rx.fadeEnd } })

/-- The transmit chain is cleared at `e`: the chips of a frame under way have run up to it. -/
def Dev.clearTx (d : Dev) (k e : Nat) : Dev :=
  (d.runTx k e).modCh k (fun c => { c with tx := { done := c.tx.done } })

/-- Both chains of a channel are cleared at `ts` (R87, R88). -/
def Dev.clearChains (d : Dev) (k ts : Nat) : Dev := (d.clearTx k ts).clearRx k ts

/-- The chains of a channel whose domain comes on run from now, cleared and without SETL. -/
def Dev.startChains (d : Dev) (k : Nat) : Dev :=
  d.modCh k (fun c => { c with cleared := d.now, rx := { at_ := d.now, ref := d.now * 2 ^ 24 } })

/-! ### Samples in (R34, R37, R39, R64, R73, R74) -/

/-- A sample of instant `s` carries clip without the comparator: it is blanked, or the gain settles (R34, R37). -/
def Dev.clipAt (d : Dev) (m s : Nat) : Bool :=
  let c := d.ch m
  ((c.blankFrom, c.blankUntil) :: c.blanked).any (fun b => decide (b.1 ≤ s) && decide (s < b.2)) ||
    (c.gainAt :: c.gained).any (fun g => decide (g ≤ s) && decide (s < g + 60))

/-- SETL of an output with referred instant `ref` in ns (R88). -/
def Dev.setl (d : Dev) (k ref : Nat) : Bool := decide ((d.ch k).cleared ≤ ref) && decide (ref < (d.ch k).settleTo)

/-- A member's chain takes one ADC code. -/
def Dev.sampleIn (d : Dev) (m : Nat) (x : RxChain × Tally) (code : Int) : RxChain × Tally :=
  let s := x.1.at_
  let trim := d.trimAt m s
  let (c, o) := x.1.sample (d.palWord m (d.palAt m true s))
    (d.forceAt m true (x.1.ref / 2 ^ 24 + d.gdelayRx m) (fun _ => x.1.fade)) trim (d.rd (F.LIF_CLIP_CLIP_LEVEL m)) (d.clipAt m s) code
  (d.countFade m x.1 c trim, x.2.add o)

/-- The CHQ_RX entry of an output (R73, R74, R77). -/
def Dev.entryOf (d : Dev) (m : Nat) (marks : List Mark) (o : Nat × Cx) : Nat × BitVec 48 :=
  let ref := o.1 / 2 ^ 24
  let e := ref + d.gdelayRx m
  let b := d.palAt m true e
  let l := marks.filter (fun k => k.near (palFlagSpan (d.palWord m b)) ref e)
  (o.1, chqEntry o.2 (l.any Mark.clip) (l.any Mark.imp) (d.setl m ref) b (l.any Mark.comp))

/-- The outputs whose emission instant has come enter CHQ_RX; marks that no later output can see are forgotten. -/
def Dev.emit (d : Dev) (m : Nat) : Dev :=
  let c := (d.ch m).rx
  let due := fun (o : Nat × Cx) => decide (o.1 / 2 ^ 24 + d.gdelayRx m < c.at_)
  d.modCh m (fun h => { h with
    chq := h.chq ++ (c.out.filter due).map (d.entryOf m c.marks)
    rx := { c with out := c.out.filter (fun o => !due o), marks := c.marks.filter (fun k => decide (c.at_ ≤ k.at_ + 8192)) } })

/-- The ADC codes of a member from instant `first` on: those that the chain has had and those still to come are left out. CLIPCNT,
CLIP, IMPCNT, SATCNT and FIRSAT count (R39, R66, R69). -/
def Dev.feedMember (d : Dev) (m first : Nat) (codes : List Int) : Dev :=
  let c := (d.ch m).rx
  let codes := (codes.drop (c.at_ - first)).take (d.now - max first c.at_)
  if codes = [] ∨ !d.chOn m then d
  else
    let trim := d.trimAt m c.at_
    let c := d.countFade m c (c.pass (d.palWord m (d.palAt m true c.at_)) trim (first - c.at_)) trim
    let r := codes.foldl (d.sampleIn m) (c, {})
    let d := if r.2.comp = 0 then d else (d.raise (F.LIF_STATUS_CLIP m)).inc (F.LIF_CLIPCNT_CLIPCNT m) r.2.comp
    let d := if r.2.imp = 0 then d else d.inc (F.SC_CNT_IMPCNT m) r.2.imp
    let d := if r.2.sat = 0 then d else (d.raise (F.SC_STATUS_FIRSAT m)).inc (F.SC_CNT2_SATCNT m) r.2.sat
    (d.modCh m (fun h => { h with rx := r.1 })).emit m

/-- The codes of every member of a channel. -/
def Dev.feedChains (d : Dev) (k first : Nat) (codes : List (List Int)) : Dev :=
  ((d.members k).zip codes).foldl (fun d e => d.feedMember e.1 first e.2) d

/-- The chips that every member's CHQ_RX holds, as columns. -/
def columns (l : List (List (Nat × BitVec 48))) : List Col :=
  match l with
  | [] => []
  | a :: r => a.zipIdx.filterMap (fun e =>
      if r.all (fun q => decide (e.2 < q.length)) then
        some { ref := e.1.1, ch := e.1.2 :: r.map (fun q => ((q.getD e.2 (0, 0)).2)) }
      else none)

/-- A member's chips leave CHQ_RX: those that carry CLIP and those that carry IMP count (R370). -/
def Dev.leaveChq (d : Dev) (m n : Nat) : Dev :=
  let l := (d.ch m).chq.take n
  let clip := l.countP (fun e => chipClip e.2)
  let imp := l.countP (fun e => chipImp e.2)
  let d := if clip = 0 then d else d.event 2 11 m clip
  let d := if imp = 0 then d else d.event 2 12 m imp
  d.modCh m (fun h => { h with chq := h.chq.drop n })

/-- A column of erased chips (R137). -/
def erasedCol (n ref : Nat) : Col := { ref := ref, ch := List.replicate n (chqEntry (0, 0) false false true false false) }

/-- Columns in the order of their referred instants, with an erased one for each chip of `len` that a synchronising reset left
out: the referred instants go on across it (R162). No reset leaves out more than 2,429 ns (R78), so that a longer gap, of samples
that no command hands in, stays one. -/
def padded (len : Nat) : Nat → List Col → List Col
  | _, [] => []
  | last, c :: l =>
    let n := (2 * (c.ref - last) + len) / (2 * len) - 1
    (if last = 0 ∨ 2048 < n then [] else (List.range n).map (fun i => erasedCol c.ch.length (last + (i + 1) * len))) ++
      c :: padded len c.ref l

/-- The receiver takes the chips of every member from CHQ_RX (R136). -/
def Dev.takeChips (d : Dev) (k : Nat) : Dev :=
  let cols := columns ((d.members k).map (fun m => (d.ch m).chq))
  if cols = [] then d
  else
    let d := (d.members k).foldl (fun d m => d.leaveChq m cols.length) d
    let len := max 1 (palChip (d.palWord k (d.activeB k)) (d.trim k))
    d.modCh k (fun h => { h with
      inbox := h.inbox ++ padded len h.lastRef cols, lastRef := (cols.getLast?.map Col.ref).getD h.lastRef })

end Sys2Proof.Machine
end

