-- ==== Sys2Proof/Machine/Spectrum.lean ====
section
/-! DEFINITION. The chirp domain on the receiving side: the transform of a body, the windows of a correlator, phase steps and the
estimate of frequency, levels, the energies and soft values of single tines, and the decoder of the header (R89 to R91, R102, R117,
R137 to R144, R150, R151, R157).  Real numbers are computed with 96 bits of fraction (log entry 131). -/

namespace Sys2Proof.Machine

open Sys2Proof

/-! ### Complex numbers with 96 bits of fraction -/

def Cx.add (a b : Cx) : Cx := (a.1 + b.1, a.2 + b.2)
def Cx.sub (a b : Cx) : Cx := (a.1 - b.1, a.2 - b.2)
def Cx.conj (a : Cx) : Cx := (a.1, -a.2)
def Cx.mul (a b : Cx) : Cx := ((a.1 * b.1 - a.2 * b.2) / fixOne, (a.1 * b.2 + a.2 * b.1) / fixOne)
/-- |a|². -/
def Cx.norm (a : Cx) : Nat := ((a.1 * a.1 + a.2 * a.2) / fixOne).toNat
/-- A real factor. -/
def Cx.scale (r : Int) (a : Cx) : Cx := (r * a.1 / fixOne, r * a.2 / fixOne)
/-- A chip as such a number. -/
def Cx.ofChip (a : Cx) : Cx := (a.1 * fixOne, a.2 * fixOne)

def Cx.sum (l : List Cx) : Cx := l.foldl Cx.add (0, 0)

/-- exp(jπ·a/n). -/
def expPi (a : Int) (n : Nat) : Cx :=
  let m := a % (2 * (n : Int))
  let b := if (n : Int) < m then m - 2 * n else m
  (cosPi b n, sinPi b n)

/-- The largest a below 2^64, from its `b` low bits, for which a direction of 2^−64·π·a lies not beyond `z` in the upper half
plane. -/
def argBits (z : Cx) : Nat → Nat → Nat
  | 0, r => r
  | b + 1, r =>
    let c := expPi ((r + 2 ^ b : Nat) : Int) (2 ^ 64)
    argBits z b (if 0 ≤ c.1 * z.2 - c.2 * z.1 then r + 2 ^ b else r)

/-- arg z in units of 2^−64 π; of 0 it is free (log entry 155). -/
def argOf (z : Cx) : Int :=
  if z.1 = 0 ∧ z.2 = 0 then Config.zeroArg
  else if 0 ≤ z.2 then argBits z 64 0
  else -(argBits z.conj 64 0 : Int)

/-- A quotient rounded half upward, free where the divisor is 0 (log entry 155). -/
def quotient (a : Int) (b : Nat) : Int := if b = 0 then Config.zeroDiv a else roundDiv a b

/-! ### The transform (R91) -/

/-- One period of the base chirp (R89). -/
def chirpTable (n : Nat) : List Cx := (List.range n).map (chirp n)

/-- Σ r(n)·conj(t(n)). -/
def corrSum (r t : List Cx) : Cx := Cx.sum ((r.zip t).map (fun x => x.1.mul x.2.conj))

/-- The chirp-domain values â_m of a body (R90, R91). -/
def sweep (n : Nat) (body : List Cx) : List Cx :=
  let c := chirpTable n
  let s := fixSqrt 1 n
  (List.range n).map (fun m => Cx.scale s (corrSum body (c.drop m ++ c.take m)))

/-- The chip of member `i` in a column; 0 where it is an erasure (R137). -/
def Col.chip (c : Col) (i : Nat) : Cx :=
  let e := c.ch.getD i 0
  if chipErased e then (0, 0) else chipOf e

/-- The chip of a column rotated by exp(−j2π·Δf·t), where Δf is a phase step per window of `n` chips (R139). -/
def rotated (step : Int) (n len : Nat) (c : Col) (i : Nat) : Cx :=
  let z := (c.chip i).ofChip
  if step = 0 ∨ z = (0, 0) then z else z.mul (expPi (-(step * c.ref)) (2 ^ 64 * n * len))

/-- Members of a column that are erasures. -/
def Col.erased (c : Col) : Nat := c.ch.countP chipErased

/-- Flagged chips of a window or symbol over the bundle, and all its chips (R137; log entry 157). -/
def flaggedOf (l : List Col) : Nat × Nat := (l.foldl (fun n c => n + c.erased) 0, l.foldl (fun n c => n + c.ch.length) 0)

/-- f exceeds ERAS_MAX/256. -/
def overErased (eras : Nat) (f : Nat × Nat) : Bool := decide (eras * f.2 < f.1 * 256)

/-- Members that the columns of a window carry. -/
def memberCount (l : List Col) : Nat := (l.head?.map (fun c => c.ch.length)).getD 0

/-- The rotation of a correlator's chips: a phase step per window, and the length of a chip in 2^−24 ns (R139). -/
structure Spin where
  step : Int := 0
  len : Nat := 1
deriving DecidableEq, Repr

/-- The chirp-domain values of every member for a window of columns, oldest first, rotated by the frequency in force (R139). -/
def spectra (n : Nat) (r : Spin) (l : List Col) : List (List Cx) :=
  (List.range (memberCount l)).map (fun i => sweep n (l.map (fun c => rotated r.step n r.len c i)))

/-- |â_m|² summed over the members, by tine (R138). -/
def powers (n : Nat) (a : List (List Cx)) : List Nat :=
  a.foldl (fun s x => s.zipWith (· + ·) (x.map Cx.norm)) (List.replicate n 0)

/-- The tine of the largest value that `ok` admits, the lowest of equals, and that value (log entry 157). -/
def peakTine (ok : Nat → Bool) (e : List Nat) : Nat × Nat :=
  e.zipIdx.foldl (fun b x => if ok x.2 ∧ b.2 < x.1 then (x.2, x.1) else b) (0, 0)

/-- A peak value with the rotation that its window had at its first chip, `at_`, taken out, so that phases of windows compare
whatever frequency was in force: the phase steps of R139 are those of the line. -/
def Spin.undo (r : Spin) (n at_ : Nat) (z : Cx) : Cx := if r.step = 0 then z else z.mul (expPi (r.step * at_) (2 ^ 64 * n * r.len))

/-- A window of columns, oldest first, as a correlator keeps it. -/
def peakOf (n : Nat) (r : Spin) (ok : Nat → Bool) (joined : Bool) (l : List Col) : Peak × Nat :=
  let a := spectra n r l
  let e := powers n a
  let p := peakTine ok e
  ({ start := (l.head?.map Col.ref).getD 0, last := (l.getLast?.map Col.ref).getD 0, p := p.1
     val := a.map (fun x => r.undo n ((l.head?.map Col.ref).getD 0) (x.getD p.1 (0, 0))), pow := p.2, joined := joined }, e.foldl (· + ·) 0 - p.2)

/-- The peak is DET_TH × 0.25 dB above the mean of the other values; free where all of them are 0 (R138; log entry 155). -/
def peakHigh (n th peak others : Nat) : Bool :=
  if peak = 0 ∧ others = 0 then decide (0 ≤ Config.zeroDiv 0)
  else decide (others ^ 40 * 10 ^ th ≤ (peak * (n - 1)) ^ 40)

/-- Two tines lie within `w` of each other, modulo n. -/
def tinesNear (n w a b : Nat) : Bool := decide ((a + n - b) % n ≤ w) || decide ((b + n - a) % n ≤ w)

/-- A chip enters a correlator with windows of `n` chips; `ok` tells which tines of a window that starts at a referred instant may
be its peak. A complete window counts, or restarts the count (R138). -/
def Corr.push (c : Corr) (n eras th : Nat) (r : Spin) (ok : Nat → Nat → Bool) (col : Col) : Corr :=
  if c.skip ≠ 0 then { c with skip := c.skip - 1 }
  else if c.buf.length + 1 < n then { c with buf := col :: c.buf }
  else
    let l := (col :: c.buf).reverse
    if overErased eras (flaggedOf l) then {}
    else
      let (p, others) := peakOf n r (ok ((l.head?.map Col.ref).getD 0)) true l
      let near := match c.peaks with
        | [] => true
        | q :: _ => tinesNear n 1 p.p q.p
      if peakHigh n th p.pow others && near then { peaks := p :: c.peaks } else {}

/-- A chip enters a correlator after detection, whose windows are kept whatever they hold: the complete window, if this chip
completes one. -/
def Corr.collect (c : Corr) (n : Nat) (r : Spin) (col : Col) : Corr × Option Peak :=
  if c.skip ≠ 0 then ({ c with skip := c.skip - 1 }, none)
  else if c.buf.length + 1 < n then ({ c with buf := col :: c.buf }, none)
  else
    let l := (col :: c.buf).reverse
    let joined := match c.peaks with
      | [] => true
      | q :: _ => decide ((l.head?.map Col.ref).getD 0 ≤ q.last + 3 * (q.last - q.start) / (2 * (n - 1)))
    ({ c with buf := [] }, some (peakOf n r (fun _ => true) joined l).1)

/-! ### Phase and frequency (R139, R141, R142) -/

/-- Σ over members of a_i·conj(b_i). -/
def crossOf (a b : List Cx) : Cx := Cx.sum ((a.zip b).map (fun x => x.1.mul x.2.conj))

/-- The phase steps δ_w between windows that follow each other directly, in 2^−64 π, from the windows newest first. -/
def phaseSteps : List Peak → List Int
  | a :: b :: l => (if a.joined then [argOf (crossOf a.val b.val)] else []) ++ phaseSteps (b :: l)
  | _ => []

/-- The mean phase step. -/
def meanStep (l : List Peak) : Int := let d := phaseSteps l; quotient d.sum d.length

/-- A value of a window advanced at `step` per window of `n` chips of `len` 2^−24 ns from one referred instant to another. -/
def advance (step : Int) (n len : Nat) (from_ to_ : Nat) (z : Cx) : Cx :=
  z.mul (expPi (step * ((to_ : Int) - from_)) (2 ^ 64 * n * len))

/-- The sign of a window is reversed against the reference window `r` (R141, R142). -/
def signReversed (step : Int) (n len : Nat) (r w : Peak) : Bool :=
  decide ((crossOf w.val (r.val.map (advance step n len r.start w.start))).1 < 0)

/-! ### Levels (R157, R159) -/

/-- 10^l·b^160 does not exceed a^160. -/
def dbLe (a b : Nat) (l : Int) : Bool :=
  if 0 ≤ l then decide (10 ^ l.toNat * b ^ 160 ≤ a ^ 160) else decide (b ^ 160 ≤ a ^ 160 * 10 ^ l.natAbs)

/-- The largest l for which `dbLe` holds, from its `n` low bits. -/
def dbBits (a b : Nat) : Nat → Int → Int
  | 0, l => l
  | n + 1, l => dbBits a b n (if dbLe a b (l + 2 ^ n) then l + 2 ^ n else l)

/-- 160·log10(a/b): a ratio of powers in 1/16 dB. How a value between two is rounded the rules do not say (log entry 10), nor what
it is where a power is 0 (log entry 155). -/
def db16 (a b : Nat) : Int :=
  if a = 0 ∨ b = 0 then Config.zeroLevel a b
  else
    let l := dbBits a b 14 (-8192)
    let exact := if 0 ≤ l then decide (10 ^ l.toNat * b ^ 160 = a ^ 160) else decide (b ^ 160 = a ^ 160 * 10 ^ l.natAbs)
    if exact then l else l + (if Config.roundsUp l then 1 else 0)

/-- Gains of the receive FIR and of the resampler at f_c, scaled by 2^17 each. -/
def Dev.gainAtCentre (d : Dev) (k : Nat) : Int × Int :=
  let w := d.palWord k (d.activeB k)
  ((List.range (palFirLen w + 1)).foldl (fun s i => s + coef w (8 + i)) 0,
   (List.range 8).foldl (fun s i => s + coef w (264 + i)) 0)

/-- P / P_FS as a fraction, for a chip power with `bits` bits of fraction: a full-scale sinusoid at f_c has amplitude 2^17, of
which down conversion leaves half (R36, R65, R67; log entry 158). -/
def Dev.overFull (d : Dev) (k power count bits : Nat) : Nat × Nat :=
  let g := d.gainAtCentre k
  (power * 2 ^ 36, count * 2 ^ bits * (g.1 * g.2).natAbs ^ 2)

/-- The level of R157 in 1/16 dBmV with the gain code in force. -/
def Dev.levelOf (d : Dev) (k power count bits : Nat) : Int :=
  let r := d.overFull k power count bits
  db16 r.1 r.2 + 912 - 16 * ((d.ch k).gain : Int)

/-- The signal strength of preamble windows of `n` chips (R157). -/
def Dev.strength (d : Dev) (k n : Nat) (l : List Peak) : Int :=
  d.levelOf k (l.foldl (fun s p => s + p.pow) 0) (l.length * n) 96

/-! ### Single tines (R102, R143, R150 to R152) -/

/-- The energies of a body over the members: |â_m|² by tine. -/
def energies (n : Nat) (bodies : List (List Cx)) : List Nat := powers n (bodies.map (sweep n))

/-- E_m: the sum over the tines m to m + dh (R143). -/
def spreadE (dh : Nat) (e : List Nat) : List Nat :=
  (List.range (dh + 1)).foldl (fun s d => s.zipWith (· + ·) (e.drop d ++ e.take d)) (List.replicate e.length 0)

/-- The value that a tine carries (R102). -/
def tineWord (m : Nat) : Nat := m ^^^ (m >>> 1)

/-- A soft value saturated to ±127 (R150). -/
def sat127 (x : Int) : Int := max (-127) (min x 127)

/-- The largest E_m of the tines whose value has bit `b` equal to `v`. -/
def bestE (e : List Nat) (b : Nat) (v : Bool) : Nat :=
  e.zipIdx.foldl (fun s x => if (tineWord x.2).testBit b = v then max s x.1 else s) 0

/-- The soft values of the `k` bits of a symbol in transmission order, from E_m and the flagged fraction: 4·λ·(1 − f) (R150,
R151). -/
def tineSoft (k : Nat) (e : List Nat) (f : Nat × Nat) : List Int :=
  let total := e.foldl (· + ·) 0
  (List.range k).map (fun i =>
    let a : Int := bestE e (k - 1 - i) false
    let b : Int := bestE e (k - 1 - i) true
    sat127 (quotient (4 * (a - b) * e.length * ((f.2 : Int) - f.1)) (total * f.2)))

/-! ### The header (R117, R118, R143) -/

/-- The three coded bits of input `x` after the memory `st`, whose bit d − 1 is x_(i−d), the first the most significant. -/
def hdrBranch (st : Nat) (x : Bool) : Nat :=
  bitsNat ((List.range 3).map (fun o => (hdrTaps o).foldl (fun b d => b != (if d = 0 then x else st.testBit (d - 1))) false))

/-- Metrics of the eight triples of coded bits for three soft values: a soft value counts for a 0 and against a 1. -/
def branchMetrics (s : List Int) : List Int :=
  (List.range 8).map (fun c => (List.range 3).foldl (fun t o => if c.testBit (2 - o) then t - s.getD o 0 else t + s.getD o 0) 0)

/-- A survivor: its metric and its input bits, newest last. -/
abbrev Survivor := Option (Int × Nat)

/-- The better of two survivors, the first of equals. -/
def Survivor.best (a b : Survivor) : Survivor :=
  match a, b with
  | some x, some y => if x.1 < y.1 then some y else some x
  | some x, none => some x
  | none, b => b

/-- A survivor extended by input `x` with a branch metric. -/
def Survivor.step (a : Survivor) (m : Int) (x : Nat) : Survivor := a.map (fun s => (s.1 + m, 2 * s.2 + x))

/-- Branches into states 2j and 2j + 1: the coded triples from states j and j + 32, for inputs 0 and 1. -/
def trellis : List (Nat × Nat × Nat × Nat) :=
  (List.range 32).map (fun j => (hdrBranch j false, hdrBranch (j + 32) false, hdrBranch j true, hdrBranch (j + 32) true))

/-- One input bit through the trellis: the survivors of the 64 states. -/
def trellisStep (m : List Int) (l : List Survivor) : List Survivor :=
  ((l.take 32).zip ((l.drop 32).zip trellis)).flatMap (fun (a, b, c0, c1, c2, c3) =>
    [Survivor.best (Survivor.step a (m.getD c0 0) 0) (Survivor.step b (m.getD c1 0) 0),
     Survivor.best (Survivor.step a (m.getD c2 0) 1) (Survivor.step b (m.getD c3 0) 1)])

/-- The best path from a state back to it, and the best of all such paths: tail-biting maximum likelihood (R117, R143). -/
def hdrPath (m : List (List Int)) (s : Nat) : Survivor :=
  ((m.foldl (fun l x => trellisStep x l) ((List.range 64).map (fun i => if i = s then some (0, 0) else none))).getD s none)

/-- The soft value of coded bit c_j among those of the header symbols: position 97·j mod 288 (R118). -/
def hdrSoft (l : List Int) (j : Nat) : Int := l.getD (97 * j % 288) 0

/-- The header of which hard decisions are the coded bits, if they are: c_(3i+1) and s_i = c_(3i+1) + c_(3i+2) give
x_i = c_(3i+1) + s_(i+2) + s_i + s_(i−1) + s_(i−2), since 1 = g1 + (g1 + g2)·(D^−2 + 1 + D + D²) for the generators 171 and 165. -/
def hardHeader (c : List Bool) : Option (BitVec 96) :=
  let s := (List.range 96).map (fun i => c.getD (3 * i + 1) false != c.getD (3 * i + 2) false)
  let r := fun (n : Nat) => s.drop n ++ s.take n
  let x := ((List.range 96).map (fun i => c.getD (3 * i + 1) false)).zipWith (· != ·)
    (((r 2).zipWith (· != ·) s).zipWith (· != ·) ((r 95).zipWith (· != ·) (r 94)))
  let y := fun (o : Nat) => (hdrTaps o).foldl (fun a d => a.zipWith (· != ·) (x.drop (96 - d) ++ x.take (96 - d))) (List.replicate 96 false)
  if ((y 0).zip ((y 1).zip (y 2))).flatMap (fun a => [a.1, a.2.1, a.2.2]) = c then some (BitVec.ofNat 96 (bitsNat x)) else none

/-- The header that the soft values of its symbols decode to: the one that hard decisions spell where they spell one, which no other
header can better, and else the best path (R143; log entry 159). -/
def decodeHeader (l : List Int) : BitVec 96 :=
  let s := (List.range 288).map (hdrSoft l)
  match hardHeader (s.map (fun v => decide (v < 0))) with
  | some h => h
  | none =>
    let m := (List.range 96).map (fun i => branchMetrics ((s.drop (3 * i)).take 3))
    BitVec.ofNat 96 ((((List.range 64).foldl (fun b s => Survivor.best b (hdrPath m s)) none).map Prod.snd).getD 0)

end Sys2Proof.Machine
end

