-- ==== Sys2Proof/Machine/Equaliser.lean ====
section
/-! DEFINITION. The equaliser of multiplex mode: tap estimates and their running mean, the noise of the reserved tines, the MMSE
solution per bin, and the soft values of constellation points (R96 to R99, R148 to R151). -/

namespace Sys2Proof.Machine

open Sys2Proof

/-! ### Taps and noise (R148, R149) -/

/-- D_max + 1: the taps that the guard tines of a stream admit (R97). -/
def Form.taps (f : Form) : Nat := f.n / (32 * f.s)

/-- h_is(d) of one member and stream: â at the pilot less d, over the pilot √(N/(16·S))·(1 + j)/√2 (R97, R148). -/
def tapEstimate (f : Form) (a : List Cx) (s : Nat) : List Cx :=
  let r := fixSqrt (8 * f.s) f.n
  (List.range f.taps).map (fun d => Cx.scale r ((a.getD ((f.pilot s + f.n - d) % f.n) (0, 0)).mul (fixOne, -fixOne)))

/-- The single-symbol estimate: members, then streams, then taps. -/
def tapsOf (f : Form) (a : List (List Cx)) : List (List (List Cx)) := a.map (fun x => (List.range f.s).map (tapEstimate f x))

/-- The power of the reserved tines at the lower edges of the sub-blocks, over every member and stream: its sum (R148). -/
def guardPower (f : Form) (a : List (List Cx)) : Nat :=
  (a.flatMap (fun x => (List.range f.s).map (fun s =>
    (x.getD ((s * (f.reserved / f.s) + f.n - f.reserved / 2) % f.n) (0, 0)).norm))).foldl (· + ·) 0

/-- Two estimates combined tap by tap. -/
def tapsWith (g : Cx → Cx → Cx) (a b : List (List (List Cx))) : List (List (List Cx)) :=
  a.zipWith (fun x y => x.zipWith (fun u v => u.zipWith g v) y) b

def tapsMap (g : Cx → Cx) (a : List (List (List Cx))) : List (List (List Cx)) := a.map (fun x => x.map (fun u => u.map g))

/-- The mean of estimates (R149). -/
def tapsMean (l : List (List (List (List Cx)))) : List (List (List Cx)) :=
  match l with
  | [] => []
  | a :: r => tapsMap (Cx.map (fun v => v / (l.length : Int))) (r.foldl (tapsWith Cx.add) a)

/-- The energy of an estimate. -/
def tapsEnergy (a : List (List (List Cx))) : Nat := (a.flatMap (fun x => x.flatMap (fun u => u.map Cx.norm))).foldl (· + ·) 0

/-- An estimate departs from the running mean by a relative error energy above −PT_JUMP dB (R149). -/
def tapsJump (jump : Nat) (mean est : List (List (List Cx))) : Bool :=
  decide (tapsEnergy mean ^ 10 < tapsEnergy (tapsWith Cx.sub est mean) ^ 10 * 10 ^ jump)

/-! ### The solution per bin (R148) -/

/-- The quotient of two complex numbers; free where the divisor is 0 (log entry 155). -/
def Cx.div (a b : Cx) : Cx :=
  let n := b.1 * b.1 + b.2 * b.2
  if n = 0 then (Config.zeroDiv a.1, Config.zeroDiv a.2)
  else ((a.1 * b.1 + a.2 * b.2) * fixOne / n, (a.2 * b.1 - a.1 * b.2) * fixOne / n)

/-- The elements of a row from column `i` on are divided by its element `i`. -/
def pivotRow (i : Nat) (row : List Cx) : List Cx := row.map (fun z => z.div (row.getD i (0, 0)))

/-- Gauss and Jordan on the rows of a square system with further columns: what the further columns become. -/
def solveRows (n : Nat) (rows : List (List Cx)) : List (List Cx) :=
  ((List.range n).foldl (fun rows i =>
    let p := pivotRow i (rows.getD i [])
    rows.zipIdx.map (fun r => if r.2 = i then p
      else r.1.zipWith (fun a b => a.sub ((r.1.getD i (0, 0)).mul b)) p)) rows).map (fun r => r.drop n)

/-- H^H·H + σ²·I beside H^H·H and H^H·â for one bin; `h` gives the members' rows of H. -/
def binSystem (s : Nat) (noise : Nat) (h : List (List Cx)) (a : List Cx) : List (List Cx) :=
  let col := fun j => h.map (fun r => r.getD j (0, 0))
  (List.range s).map (fun i =>
    let g := (List.range s).map (fun j => crossOf (col j) (col i))
    g.zipIdx.map (fun z => if z.2 = i then z.1.add ((noise : Int), 0) else z.1) ++ g ++ [crossOf a (col i)])

/-- The `n`-point DFT of a list with sign `sg` in the exponent, at bin `b`. -/
def dftAt (sg : Int) (n b : Nat) (l : List Cx) : Cx :=
  Cx.sum (l.zipIdx.map (fun z => if z.1 = (0, 0) then (0, 0) else z.1.mul (expPi (sg * 2 * (((b * z.2) % n : Nat) : Int)) n)))

/-- The MMSE solution of one bin: for each stream its gain and its value (R148). -/
def solveBin (f : Form) (noise : Nat) (taps : List (List (List Cx))) (a : List (List Cx)) (b : Nat) : List (Int × Cx) :=
  let h := taps.map (fun m => m.map (dftAt 1 f.n b))
  ((solveRows f.s (binSystem f.s noise h (a.map (dftAt (-1) f.n b)))).zipIdx).map (fun r =>
    ((r.1.getD r.2 (0, 0)).1, r.1.getD f.s (0, 0)))

/-- The equalised chirp-domain values of every stream, and the stream's mean gain over the bins (R148). -/
def equalise (f : Form) (noise : Nat) (taps : List (List (List Cx))) (a : List (List Cx)) : List (Int × List Cx) :=
  let bins := (List.range f.n).map (solveBin f noise taps a)
  (List.range f.s).map (fun s =>
    let x := bins.map (fun l => l.getD s (0, (0, 0)))
    ((x.map Prod.fst).sum / (f.n : Int),
     (List.range f.n).map (fun m => Cx.map (fun v => v / (f.n : Int)) (dftAt 1 f.n m (x.map Prod.snd)))))

/-! ### Soft values of points (R99, R150) -/

/-- The smallest squared distance of a coordinate from the levels whose bit `i`, the first the most significant, is `v`. -/
def axisDistance (q : Nat) (y : Int) (i : Nat) (v : Bool) : Int :=
  let u := fixSqrt 1 (qamE q)
  (((List.range (2 ^ q)).filter (fun l => (tineWord l).testBit (q - 1 - i) = v)).map (fun l =>
    let e := y - (2 * (l : Int) - (2 ^ q - 1)) * u
    e * e / fixOne)).foldl (fun s e => if s < 0 ∨ e < s then e else s) (-1)

/-- The soft values of a point's 2·q bits: 4·λ·(1 − f), where λ is the max-log ratio over the constellation from the equalised value
without its bias and the noise variance (1 − g)/g that the gain g leaves (R99, R150, R151; log entry 160). -/
def pointSoft (q : Nat) (g : Int) (z : Cx) (f : Nat × Nat) : List Int :=
  let y := z.div (g, 0)
  let var := (if g = 0 then Config.zeroDiv (fixOne - g) else (fixOne - g) * fixOne / g).toNat
  (List.range (2 * q)).map (fun v =>
    let c := if v % 2 = 0 then y.1 else y.2
    sat127 (quotient (4 * (axisDistance q c (v / 2) true - axisDistance q c (v / 2) false) * ((f.2 : Int) - f.1)) (var * f.2)))

/-- The soft values of a multiplex symbol: of data tine j, counted over the streams, its bits in order (R98, R130). -/
def muxSoft (f : Form) (noise : Nat) (taps : List (List (List Cx))) (a : List (List Cx)) (fl : Nat × Nat) : List Int :=
  let x := equalise f noise taps a
  (List.range (f.s * (15 * f.n / 16))).flatMap (fun j =>
    let r := x.getD (j % f.s) (0, [])
    pointSoft f.load r.1 (r.2.getD (f.dataTine (j / f.s)) (0, 0)) fl)

end Sys2Proof.Machine
end

