-- ==== Sys2Proof/Machine/Jobs.lean ====
section
/-! DEFINITION. Tenant jobs of the hedged pages: start, completion record and notice (R303 to R305). -/

namespace Sys2Proof.Machine

open Sys2Proof

/-! ### Sessions that end (R301, R359) -/

/-- The staging registers of a source are zeroed (R285). -/
def Dev.zeroStaging (d : Dev) (src : Nat) : Dev := d.resetRange (saBase src + 0x120) (saBase src + 0x13C)

/-- The session that holds ADMIN_LOCK, or 0. -/
def Dev.holder (d : Dev) : Nat := d.rd F.ADMIN_LOCK_HOLDER

/-- ADMIN_LOCK becomes free, by REL (R301). -/
def Dev.freeLock (d : Dev) : Dev := { d.wr F.ADMIN_LOCK_HOLDER 0 with leaseEnd := none }

/-- ADMIN_LOCK expires, or its holder's session ends: the administration staging is zeroed too (R301, R359). -/
def Dev.expireLock (d : Dev) : Dev := d.freeLock.zeroStaging 16

/-- A lease that has run out ends before a command issued in the same cycle finds the lock (R363). -/
def Dev.lapseLock (d : Dev) : Dev :=
  match d.leaseEnd with
  | some x => if x ≤ d.now then d.expireLock else d
  | none => d

/-- A session ends (R359, R285). -/
def Dev.endSession (d : Dev) (n : Nat) : Dev :=
  match d.sessions.find? (fun s => s.num == n) with
  | none => d
  | some x =>
    let d := { d with sessions := d.sessions.filter (fun s => s.num != n) }
    let d := if d.holder = n then d.expireLock else d
    if x.prin < 16 then d.zeroStaging x.prin else d

/-- Every session ends: reset and the recovery state (R359). -/
def Dev.endSessions (d : Dev) : Dev := d.sessions.foldl (fun d s => d.endSession s.num) d

/-- The record that MG_AKEY or MG_PKEY names, while its KEYV is 1 (R355). -/
def Dev.keyNamed (d : Dev) (prin : Nat) : Option Nat :=
  if prin = 16 then (if d.on F.MG_AKEY_KEYV then some (d.rd F.MG_AKEY_SAIDX) else none)
  else if prin < 16 then (if d.on (F.MG_PKEY_KEYV prin) then some (d.rd (F.MG_PKEY_SAIDX prin)) else none)
  else none

/-- A record serves management only (R355). -/
def Dev.reserved (d : Dev) (sa : Nat) : Bool := (List.range 17).any (fun p => d.keyNamed p == some sa)

/-- Sessions end whose principal's key phase is erased (R359). -/
def Dev.endKeySessions (d : Dev) (sa : Nat) (ph : Bool) : Dev :=
  d.sessions.foldl (fun d s => if d.keyNamed s.prin = some sa ∧ s.kph = ph then d.endSession s.num else d) d

/-! ### Jobs (R303 to R305) -/

/-- Job status codes (R305). -/
def jsOK : Nat := 0
def jsTAGFAIL : Nat := 1
def jsERASED : Nat := 2
def jsNOKEY : Nat := 3
def jsPERM : Nat := 4
def jsBADLEN : Nat := 5
def jsNOMASK : Nat := 6
def jsOVERRUN : Nat := 7
def jsXOFF : Nat := 8

/-- Change the jobs of a page. -/
def Dev.modJobs (d : Dev) (p : Nat) (f : List Job → List Job) : Dev :=
  d.setPage p { d.page p with jobs := f (d.page p).jobs }

/-- JOB notice (R365): ARG holds JOBID above the low 48 bits of the counter used. -/
def Dev.jobNotice (d : Dev) (p : Nat) (r : JobDone) : Dev :=
  d.notice { cls := 6, code := r.status, page := p, arg := r.id * 2 ^ 48 + r.ctr % 2 ^ 48 }

/-- A completion record joins the ring of 16; the oldest is overwritten where the ring is full (R305). -/
def Dev.ringPut (d : Dev) (p : Nat) (r : JobDone) : Dev :=
  let x := d.page p
  let full := decide (16 ≤ x.ring.length)
  let d := d.setPage p { x with ring := (if full then x.ring.drop 1 else x.ring) ++ [r] }
  if full then d.raise (F.PG_JSTAT_JLOST p) else d

/-- Octets of the output item. -/
def Job.outLen (j : Job) : Nat := j.dlen + (if j.op = 1 then 16 else 0)

/-- A job ends with its record and its notice (R305). -/
def Dev.finishJob (d : Dev) (p : Nat) (j : Job) (status outlen : Nat) : Dev :=
  let d := (d.modJobs p (fun l => l.erase j)).pipeEnd (128 + p) (if j.started then j.outLen else 0)
  let r : JobDone := { id := j.id, status := status, outlen := outlen, ctr := j.ctr }
  (d.ringPut p r).jobNotice p r

/-- Octets that the input item of a job must hold (R304). -/
def Job.inLen (j : Job) : Nat := j.aad + j.dlen + (if j.op = 2 then 16 else 0)

/-- What a job ends with before it runs, by the state at its start (R300, R304, R305; their order is log entry 22). -/
def Dev.jobRefusal (d : Dev) (p : Nat) (j : Job) : Option Nat :=
  let a := d.sa_ j.saidx
  if a.kind ≠ 0 ∧ a.tenant ≠ p then some jsPERM
  else if a.kind ≠ 3 ∨ !a.valid j.phase ∨ d.reserved j.saidx then some jsNOKEY
  else if (j.op ≠ 1 ∧ j.op ≠ 2) ∨ j.item.length ≠ j.inLen then some jsBADLEN
  else if j.masked ∧ !d.on F.CI_STATUS_MASKED_X then some jsNOMASK
  else if !d.domOn 71 then some jsXOFF
  else none

/-- Replace the first job of a page that equals `j`. -/
def replaceJob (j j' : Job) : List Job → List Job
  | [] => []
  | x :: l => if x = j then j' :: l else x :: replaceJob j j' l

/-- The job asks for a phase that is not valid, or for a free record (R281). -/
def Dev.asksInVain (d : Dev) (j : Job) : Bool :=
  let a := d.sa_ j.saidx
  a.kind == 0 || (a.kind == 3 && !a.valid j.phase && !d.reserved j.saidx)

/-- A job that has its item binds its key, takes its counter and runs; it waits while the key is fetched or a sector operation
stands before it, and is aborted where its key is erased in the cycle of its start (R281, R291, R298, R304). -/
def Dev.runJob (d : Dev) (p : Nat) (j : Job) : Dev :=
  match d.jobRefusal p j with
  | some st =>
    let d := if st = jsNOKEY ∧ d.asksInVain j ∧ !d.erasedNow (j.saidx, j.phase) then d.inc F.CI_CNT2_KEYMISS else d
    if st = jsNOKEY ∧ d.erasedNow (j.saidx, j.phase) then
      ((d.modJobs p (replaceJob j { j with started := true, erased := true })).inc F.CI_CNT3_KEYABORT).cause causePOISON
    else d.finishJob p j st 0
  | none =>
    match d.bindAsk j.saidx j.phase 1 with
    | (.hit, d) =>
      if 0 < d.sectorOps then d
      else
      let a := d.sa_ j.saidx
      let ctr := if j.op = 1 then a.jctr else j.ctr
      let d := if j.op = 1 then d.setSa j.saidx { a with jctr := (a.jctr + 1) % 2 ^ 64 } else d
      (d.modJobs p (replaceJob j { j with started := true, ctr := ctr })).event 8 1 1 1
    | (.invalid, d) => d.finishJob p j jsNOKEY 0
    | (_, d) => d

/-- A job takes the next complete item of JINQ (R304). -/
def Dev.takeItem (d : Dev) (p : Nat) (j : Job) : Dev :=
  let q := d.rd (F.PG_JCFG_JINQ p)
  match (d.sh q).items.head? with
  | some i =>
    if i.complete ∧ !i.aborted ∧ !(d.sh q).taking then
      let d := (d.popItem q).pfcCheck
      let j' := { j with taken := true, item := i.content }
      (d.modJobs p (replaceJob j j')).runJob p j'
    else d
  | none => d

/-- Start what can start: the jobs of a page in the order of their GO. -/
def Dev.startJobs (d : Dev) (p : Nat) : Dev :=
  (d.page p).jobs.foldl (fun d j =>
    if j.started then d
    else if j.taken then d.runJob p j
    else if (d.page p).jobs.find? (fun x => !x.taken) = some j then d.takeItem p j
    else d) d

/-- The jobs of every page that wait for a key go on. -/
def Dev.startAllJobs (d : Dev) : Dev := d.pages.foldl (fun d e => d.startJobs e.1) d

/-- The pushes of every deep queue that wait go on. -/
def Dev.pushAllWaiting (d : Dev) : Dev :=
  d.deep.foldl (fun d e => (d.setDq e.1 { d.dq e.1 with waiting := [] }).pushWaiting e.1 (d.dq e.1).waiting) d

/-- SECTOR_ENCRYPT_DONE (R263, R297, R298): a full write staging sector is in HBM and its staging is free; waiting pushes go on,
and then the tenant jobs that stood behind the sector operations. -/
def execSectorEncryptDone (t : Nat) (q : Fin 1024) (s : State) : Host.Outcome State Fault Refusal :=
  s.runClk t (fun d =>
    let s := d.dq q.val
    if s.full = 0 then d
    else
      let d := (((d.encryptSector q.val).event 8 0 1 256).setDq q.val { s with full := s.full - 1, waiting := [] }).pushWaiting
        q.val s.waiting
      d.pushAllWaiting.startAllJobs)

/-- SECTOR_DECRYPT_DONE (R263, R297, R298): the sector at RD is in read staging. -/
def execSectorDecryptDone (t : Nat) (q : Fin 1024) (s : State) : Host.Outcome State Fault Refusal :=
  s.runClk t (fun d =>
    let s := d.dq q.val
    let p := d.dRd q.val - d.dRd q.val % 512
    if s.reading then
      ((d.event 8 0 1 256).setDq q.val { s with reading := false
                                                rstage := d.hbmRead (d.ringBlock q.val p) 256 }).pushAllWaiting.startAllJobs
    else d)

/-- PD_CIPX goes off: the jobs that run end XOFF, or ERASED where an erase has aborted them (R23, R290, R305). -/
def Dev.dropJobs (d : Dev) : Dev :=
  d.pages.foldl (fun d e => (e.2.jobs.filter Job.started).foldl
    (fun d j => d.finishJob e.1 j (if j.erased then jsERASED else jsXOFF) 0) d) d

end Sys2Proof.Machine
end

