-- ==== Sys2Proof/Machine/Layouts.lean ====
section
/-! DEFINITION. The Luafen message layouts: each control block as fields, its octets, and the reading of a received message
word by word (R167 to R171, R454). -/

namespace Sys2Proof.Machine

open Sys2Proof

/-! ### Packing (R3) -/

/-- Fields (width, value), most significant first, as one number. -/
def pack (l : List (Nat × Nat)) : Nat := l.foldl (fun n f => n * 2 ^ f.1 + f.2 % 2 ^ f.1) 0

/-- `n` octets of fields, in network order. -/
def packOctets (n : Nat) (l : List (Nat × Nat)) : List Byte := octetsBE n (pack l)

/-- Octets from `i`, `n` of them, as a number; none where the message ends before them (R170). -/
def takeBE (m : List Byte) (i n : Nat) : Option Nat := if i + n ≤ m.length then some (beNat ((m.drop i).take n)) else none

/-- 32-bit word `i` of a message. -/
def msgWord (m : List Byte) (i : Nat) : Option Word32 := (takeBE m (4 * i) 4).map (BitVec.ofNat 32)

/-! ### Message types (R167) -/

def tyBEACON : Nat := 0
def tyPOLL : Nat := 1
def tyRESP : Nat := 2
def tyRELAY : Nat := 3
def tyJOINREQ : Nat := 4
def tyJOINACC : Nat := 5
/-- TYPE of a TX step that sends an inner frame (R202). -/
def tyINNER : Nat := 15

/-- Octets of the control block of a type (R170). -/
def blockLen (typ : Nat) : Nat :=
  match typ with
  | 0 => 12
  | 1 => 12
  | 2 => 16
  | 3 => 24
  | 4 => 16
  | _ => 24

/-! ### Control blocks -/

/-- BEACON. -/
structure BeaconMsg where
  bcyc : Nat
  begrn : Nat
  dgrn : Nat
  dcyc : Nat
  vmax : Nat
  nslot : Nat
  boffMax : Nat
  jopen : Bool
deriving DecidableEq, Repr

def BeaconMsg.octets (b : BeaconMsg) : List Byte :=
  packOctets 12 [(32, b.bcyc), (16, b.begrn), (16, b.dgrn), (16, b.dcyc), (4, b.vmax), (4, b.nslot), (3, b.boffMax),
    (1, if b.jopen then 1 else 0), (4, 0)]

/-- Words 0 to 2 of a POLL or RELAY. -/
structure PollMsg where
  acku : Nat
  umode : Nat
  ustrm : Nat
  uspan : Nat
  ulen : Nat
  rgap : Nat
  ulvl : Int
  rptreq : Bool
deriving DecidableEq, Repr

def PollMsg.octets (p : PollMsg) : List Byte :=
  packOctets 12 [(16, p.acku), (4, 0), (12, p.umode), (2, p.ustrm), (3, p.uspan), (3, 0), (12, p.ulen), (12, p.rgap),
    (8, ofSigned 8 p.ulvl), (1, if p.rptreq then 1 else 0), (23, 0)]

/-- Words 3 to 5 of a RELAY. -/
structure RelayMsg where
  wopen : Nat
  ikh : Nat
  inp : Nat
  isync : Nat
  igain : Nat
  wlen : Nat
  rtx : Nat
  ilvl : Int
  inner : List Byte
deriving DecidableEq, Repr

def RelayMsg.octets (r : RelayMsg) : List Byte :=
  packOctets 12 [(12, r.wopen), (4, r.ikh), (3, r.inp), (1, r.isync), (6, r.igain), (6, 0), (16, r.wlen), (16, r.rtx),
    (8, ofSigned 8 r.ilvl), (24, r.inner.length)] ++ r.inner

/-- A neighbour record of a RESP. -/
structure NbrRec where
  addr : Nat
  age : Nat
  q : Int
deriving DecidableEq, Repr

def NbrRec.octets (n : NbrRec) : List Byte :=
  packOctets 8 [(17, n.addr), (7, 0), (8, n.age), (16, ofSigned 16 n.q), (16, 0)]

/-- RESP: control block, NONCE_H, neighbour records and the upward frame. -/
structure RespMsg where
  ackd : Nat
  backlog : Nat
  q : Int
  dmargin : Nat
  gainAdv : Nat
  qsrc : Bool
  nf : Int
  ss : Int
  nonceH : Option (BitVec 64)
  upres : Nat
  nbrs : List NbrRec
  up : List Byte
deriving DecidableEq, Repr

def RespMsg.octets (r : RespMsg) : List Byte :=
  packOctets 16 [(16, r.ackd), (16, r.backlog), (16, ofSigned 16 r.q), (8, r.dmargin), (6, r.gainAdv),
    (1, if r.qsrc then 1 else 0), (1, 0), (16, ofSigned 16 r.nf), (16, ofSigned 16 r.ss), (1, if r.nonceH.isSome then 1 else 0),
    (4, r.upres), (3, r.nbrs.length), (24, r.up.length)] ++
  (match r.nonceH with | some n => octetsBE 8 n.toNat | none => []) ++ r.nbrs.flatMap NbrRec.octets ++ r.up

/-- JOINREQ. -/
structure JoinReqMsg where
  nonceN : BitVec 64
  vmax : Nat
  bands : Nat
  maxq : Nat
  mink : Nat
  maxk : Nat
  bundle : Nat
  rpt : Bool
  ilmem : Nat
  bq : Int
  rgmin : Nat
deriving DecidableEq, Repr

def JoinReqMsg.octets (j : JoinReqMsg) : List Byte :=
  packOctets 16 [(64, j.nonceN.toNat), (4, j.vmax), (4, j.bands), (3, j.maxq), (4, j.mink), (4, j.maxk), (2, j.bundle),
    (1, if j.rpt then 1 else 0), (10, j.ilmem), (16, ofSigned 16 j.bq), (12, j.rgmin), (4, 0)]

/-- JOINACC. -/
structure JoinAccMsg where
  nonceN : BitVec 64
  nonceH : BitVec 64
  status : Nat
  ver : Nat
  rgap : Nat
  lostc : Nat
deriving DecidableEq, Repr

def JoinAccMsg.octets (j : JoinAccMsg) : List Byte :=
  packOctets 24 [(64, j.nonceN.toNat), (64, j.nonceH.toNat), (2, j.status), (4, j.ver), (12, j.rgap), (14, 0), (12, j.lostc),
    (20, 0)]

/-! ### Reading control blocks: a field of a block that the message cuts short is not read (R170) -/

def readBeacon (m : List Byte) : Option BeaconMsg :=
  match msgWord m 0, msgWord m 1, msgWord m 2 with
  | some a, some b, some c => some
      { bcyc := a.toNat, begrn := getBits b 16 16, dgrn := getBits b 0 16, dcyc := getBits c 16 16, vmax := getBits c 12 4,
        nslot := getBits c 8 4, boffMax := getBits c 5 3, jopen := c.getLsbD 4 }
  | _, _, _ => none

def readPoll (m : List Byte) : Option PollMsg :=
  match msgWord m 0, msgWord m 1, msgWord m 2 with
  | some a, some b, some c => some
      { acku := getBits a 16 16, umode := getBits a 0 12, ustrm := getBits b 30 2, uspan := getBits b 27 3,
        ulen := getBits b 12 12, rgap := getBits b 0 12, ulvl := toSigned 8 (getBits c 24 8), rptreq := c.getLsbD 23 }
  | _, _, _ => none

/-- ACKU of a POLL or RELAY, or ACKD of a RESP: the first 16 bits. -/
def readAck (m : List Byte) : Option Nat := (msgWord m 0).map (fun w => getBits w 16 16)

/-- Words 3 to 5 of a RELAY; the inner frame is what follows them, as far as it lies within the message. -/
def readRelay (m : List Byte) : Option RelayMsg :=
  match msgWord m 3, msgWord m 4, msgWord m 5 with
  | some a, some b, some c => some
      { wopen := getBits a 20 12, ikh := getBits a 16 4, inp := getBits a 13 3, isync := getBits a 12 1, igain := getBits a 6 6,
        wlen := getBits b 16 16, rtx := getBits b 0 16, ilvl := toSigned 8 (getBits c 24 8),
        inner := (m.drop 24).take (getBits c 0 24) }
  | _, _, _ => none

/-- BCYC and BEGRN of a beacon cut short after them, the rest 0 (R170). -/
def readBeaconTime (m : List Byte) : Option BeaconMsg :=
  match msgWord m 0, takeBE m 4 2 with
  | some a, some g => some { bcyc := a.toNat, begrn := g, dgrn := 0, dcyc := 0, vmax := 0, nslot := 0, boffMax := 0, jopen := false }
  | _, _ => none

/-- The fields of words 3 and 4 that a RELAY cut short before word 5 still carries, the rest 0 and no inner frame (R170). -/
def readRelayPart (m : List Byte) : RelayMsg :=
  let a := (msgWord m 3).getD 0
  let b := (msgWord m 4).getD 0
  { wopen := getBits a 20 12, ikh := getBits a 16 4, inp := getBits a 13 3, isync := getBits a 12 1, igain := getBits a 6 6,
    wlen := getBits b 16 16, rtx := getBits b 0 16, ilvl := 0, inner := [] }

/-- INLEN of a RELAY. -/
def relayInlen (m : List Byte) : Nat := ((msgWord m 5).map (fun w => getBits w 0 24)).getD 0

/-- NF of a RESP. -/
def respNf (m : List Byte) : Option Int := (msgWord m 2).map (fun w => toSigned 16 (getBits w 16 16))

/-- Q of a RESP: the quality of the frame it answers. -/
def respQ (m : List Byte) : Option Int := (msgWord m 1).map (fun w => toSigned 16 (getBits w 16 16))

/-- Word 3 of a RESP as JCONF, UPRES, NREP and UPLEN. -/
def respTail (m : List Byte) : Option (Bool × Nat × Nat × Nat) :=
  (msgWord m 3).map (fun w => (w.getLsbD 31, getBits w 27 4, getBits w 24 3, getBits w 0 24))

/-- NONCE_H of a RESP with JCONF. -/
def respNonce (m : List Byte) : Option (BitVec 64) :=
  match respTail m with
  | some (true, _, _, _) => (takeBE m 16 8).map (BitVec.ofNat 64)
  | _ => none

/-- Octets of a RESP before its neighbour records. -/
def respHead (m : List Byte) : Nat := if ((respTail m).map Prod.fst).getD false then 24 else 16

/-- Octets of a RESP before its data units; NREP above 4 reads as the records it announces. -/
def respLen (m : List Byte) : Nat :=
  match respTail m with
  | some (_, _, nrep, uplen) => respHead m + 8 * nrep + uplen
  | none => 16

/-- The neighbour records of a RESP that lie whole in the message (R170): address, NAGE and NQ. -/
def respNbrs (m : List Byte) : List NbrRec :=
  match respTail m with
  | some (_, _, nrep, _) =>
    (List.range nrep).filterMap (fun j =>
      (takeBE m (respHead m + 8 * j) 8).map (fun n =>
        { addr := n / 2 ^ 47, age := n / 2 ^ 32 % 256, q := toSigned 16 (n / 2 ^ 16) }))
  | none => []

/-- The upward frame of a RESP (R190). -/
def respUp (m : List Byte) : Nat × List Byte :=
  match respTail m with
  | some (_, upres, nrep, uplen) => (upres, (m.drop (respHead m + 8 * nrep)).take uplen)
  | none => (1, [])

/-- A JOINREQ whose words 0 to 2 have come; BQ and RGMIN of one cut short after them are 0 (R170, log entry 151). -/
def readJoinReq (m : List Byte) : Option JoinReqMsg :=
  match takeBE m 0 8, msgWord m 2, (msgWord m 3).getD 0 with
  | some n, some a, b => some
      { nonceN := BitVec.ofNat 64 n, vmax := getBits a 28 4, bands := getBits a 24 4, maxq := getBits a 21 3,
        mink := getBits a 17 4, maxk := getBits a 13 4, bundle := getBits a 11 2, rpt := a.getLsbD 10, ilmem := getBits a 0 10,
        bq := toSigned 16 (getBits b 16 16), rgmin := getBits b 4 12 }
  | _, _, _ => none

/-- A JOINACC whose words 0 to 4 have come; LOSTC of one cut short after them reads 0 (R170, log entry 151). -/
def readJoinAcc (m : List Byte) : Option JoinAccMsg :=
  match takeBE m 0 8, takeBE m 8 8, msgWord m 4, (msgWord m 5).getD 0 with
  | some n, some h, some a, b => some
      { nonceN := BitVec.ofNat 64 n, nonceH := BitVec.ofNat 64 h, status := getBits a 30 2, ver := getBits a 26 4,
        rgap := getBits a 14 12, lostc := getBits b 20 12 }
  | _, _, _, _ => none

/-! ### Data units (R171) -/

/-- The 6-octet header and the content of a data unit. -/
def unitOctets (u : Unit_) : List Byte :=
  packOctets 6 [(16, u.dseq), (1, if u.rel then 1 else 0), (2, u.cls), (15, 0), (14, u.content.length)] ++ u.content

/-- The data units of the octets after the control block, and whether the message is cut short: a unit header or a content
that runs past the end, or a DLEN of 0 (R170; log entry 14).  `fuel` bounds the units. -/
def readUnits : Nat → List Byte → List Unit_ × Bool
  | 0, _ => ([], false)
  | fuel + 1, m =>
    if m = [] then ([], false)
    else match takeBE m 0 6 with
      | none => ([], true)
      | some h =>
        let len := h % 2 ^ 14
        if len = 0 ∨ m.length < 6 + len then ([], true)
        else
          let u : Unit_ := { dseq := h / 2 ^ 32, rel := h / 2 ^ 31 % 2 == 1, cls := h / 2 ^ 29 % 4,
                             content := (m.drop 6).take len }
          let r := readUnits fuel (m.drop (6 + len))
          (u :: r.1, r.2)

/-- Octets before the data units of a POLL, RESP or RELAY. -/
def unitsAt (typ : Nat) (m : List Byte) : Nat :=
  if typ = tyRESP then respLen m else if typ = tyRELAY then 24 + relayInlen m else 12

/-- The data units of a message and whether MSGBAD applies to it. -/
def messageUnits (typ : Nat) (m : List Byte) : List Unit_ × Bool :=
  let n := unitsAt typ m
  if m.length < n then ([], true) else readUnits m.length (m.drop n)

end Sys2Proof.Machine
end

