-- ==== Sys2Proof/Machine/Palette.lean ====
section
/-! DEFINITION. Palettes: commit, hard swap, fade, pending swap, and the synchronising reset (R20, R79 to R88, R426,
R450). -/

namespace Sys2Proof.Machine

open Sys2Proof

/-- Palette `b` of a channel is idle (R80). -/
def Dev.palIdle (d : Dev) (k : Nat) (b : Bool) : Bool :=
  d.role k == roleOFF ||
  (d.activeB k != b && !d.on (F.SC_STATUS_FADING k) && !d.on (F.SC_STATUS_PENDING k))

/-- LOADED of a palette. -/
def loadedField (k : Nat) (b : Bool) : Field := if b then F.SC_STATUS_LOADED_B k else F.SC_STATUS_LOADED_A k

/-- The checks of a commit (R81). -/
def Dev.palOk (d : Dev) (k : Nat) (b : Bool) : Bool :=
  let w := d.palWord k b
  let rankHw := getBits (w 1) 12 3
  let rs := getBits (w 2) 0 26
  decide (getBits (w 1) 0 3 ≤ 5) && decide (7 ≤ getBits (w 1) 4 7) && rankHw != 0 &&
  decide (getBits (w 4) 0 4 ≤ 2 * rankHw) && getBits (w 1) 16 2 != 3 &&
  decide (2 ^ 24 ≤ rs) && decide (rs ≤ 2 ^ 25 - 1) && getBits (w 5) 16 14 != 0

/-- COMMIT_A or COMMIT_B (R80). -/
def Dev.commitPalette (d : Dev) (k : Nat) (b : Bool) : Dev :=
  if !d.palIdle k b then d.raise (F.SC_STATUS_PALBUSY k)
  else if d.palOk k b then d.wr (loadedField k b) 1
  else (d.wr (loadedField k b) 0).raise (F.SC_STATUS_PALBAD k)

/-- COMMIT_A (R80). -/
def execCommitA (t : Nat) (k : ChanId) (s : State) : Host.Outcome State Fault Refusal :=
  s.runClk t (fun d => if d.chOn k.val then d.commitPalette k.val false else d)

/-- COMMIT_B (R80). -/
def execCommitB (t : Nat) (k : ChanId) (s : State) : Host.Outcome State Fault Refusal :=
  s.runClk t (fun d => if d.chOn k.val then d.commitPalette k.val true else d)

/-- Structural bits of a palette word (R79). -/
def structMask (w : Nat) : Word32 :=
  match w with
  | 0 => 0xFFFFFFFF#32
  | 1 => 0x77F7#32
  | 2 => 0x3FFFFFF#32
  | 3 => 0xFFF0FFF#32
  | _ => 0

/-- The palettes of a channel are compatible (R84). -/
def Dev.palCompatible (d : Dev) (k : Nat) : Bool :=
  (List.range 4).all (fun w => (d.palWord k false w &&& structMask w) == (d.palWord k true w &&& structMask w))

/-- Fade order taken within 4 to 12 (R82). -/
def fadeOrder (f : Nat) : Nat := max 4 (min f 12)

/-- Result codes of a swap (R86). -/
def swHARD : Nat := 1
def swFADE : Nat := 2
def swQUEUED : Nat := 3
def swREJ_PEND : Nat := 4
def swREJ_STRUCT : Nat := 5
def swREJ_UNLOAD : Nat := 6

/-- Exchange active and idle. -/
def Dev.exchange (d : Dev) (k : Nat) : Dev := d.wr (F.SC_STATUS_ACTIVE k) (1 - d.rd (F.SC_STATUS_ACTIVE k))

/-- Start a swap that is not refused (R83, R84), with its boundaries in the receive and in the transmit chain (R82): the
chips before it have run under the palette that it leaves.  One between incompatible palettes clears each chain at its own
boundary. -/
def Dev.startSwap (d : Dev) (k rxAt txAt : Nat) (fade : Bool) (f : Nat) : Dev :=
  let compat := d.palCompatible k
  let toB := !d.activeB k
  let s : Swap := { rxAt := rxAt, txAt := txAt, toB := toB, fade := if fade then some (fadeOrder f) else none }
  let e := ceilDiv txAt (2 ^ 24)
  let d := if compat then d.runTx k e else d.clearTx k e
  let d := (d.exchange k).modCh k (fun c => { c with swaps := (s :: c.swaps).take 4 })
  if fade then
    let d := d.modCh k (fun c => { c with rx := { c.rx with fade := 0 } })
    ((d.wr (F.SC_STATUS_FADING k) 1).wr (F.SC_FADE_FADE_F k) (fadeOrder f)).wr (F.SC_STATUS_LASTCODE k) swFADE
  else
    let d := d.wr (F.SC_STATUS_LASTCODE k) swHARD
    if compat then d else d.clearRx k rxAt

/-- The fade that runs, or ran last, on a channel. -/
def Dev.lastFade (d : Dev) (k : Nat) : Option Swap := (d.ch k).swaps.head?

/-- The resampler step of a channel in 2^−24 ns, with TRIM. -/
def Dev.rxStepLen (d : Dev) (k : Nat) : Nat := max 1 (palChip (d.palWord k (d.activeB k)) (d.trim k))

/-- The instants of the last samples of a fade in the two directions: its 2^f-th output and its 2^f-th chip (R84). -/
def Dev.fadeEnds (d : Dev) (k : Nat) (s : Swap) : Nat × Nat :=
  let f := s.fade.getD 0
  ((d.ch k).rx.fadeLast (d.rxStepLen k) (d.gdelayRx k) s.rxAt f, ceilDiv (s.txAt + (2 ^ f - 1) * d.chipLen k) (2 ^ 24))

/-- FADE_POS: the receive fade sample j of the running fade, the last one emitted. -/
def Dev.fadePos (d : Dev) (k : Nat) : Nat :=
  if d.on (F.SC_STATUS_FADING k) then
    match d.lastFade k with
    | some s => (d.ch k).rx.fadeDone (d.rxStepLen k) (d.gdelayRx k) s.rxAt (s.fade.getD 0) d.now - 1
    | none => 0
  else 0

/-- A refused swap (R86). -/
def Dev.rejectSwap (d : Dev) (k code : Nat) : Dev :=
  ((d.wr (F.SC_STATUS_LASTCODE k) code).inc (F.SC_CNT2_REJCNT k)).raise (F.SC_STATUS_SWAPREJ k)

/-- The result code returns to the issuing step's sequencer through STSQ[k] (R86). -/
def Dev.returnCode (d : Dev) (k q : Nat) : Dev :=
  if q < 128 then d.modSq q (fun s => { s with swapCode := some (d.rd (F.SC_STATUS_LASTCODE k)) }) else d

/-- A swap request reaches its instant on one channel (R84 to R86; the order of the last two refusals is log entry 13). -/
def Dev.swapRequest (d : Dev) (k at_ : Nat) (fade : Bool) (f : Nat) : Dev :=
  if d.on (F.SC_STATUS_FADING k) then
    if d.on (F.SC_STATUS_PENDING k) then d.rejectSwap k swREJ_PEND
    else ((d.wr (F.SC_STATUS_PENDING k) 1).wr (F.SC_STATUS_LASTCODE k) swQUEUED).modCh k
      (fun c => { c with swapPend := some (fade, f) })
  else if !d.on (loadedField k (!d.activeB k)) then d.rejectSwap k swREJ_UNLOAD
  else if fade ∧ !d.palCompatible k then d.rejectSwap k swREJ_STRUCT
  else d.startSwap k (d.rxBoundary k at_) (d.txBoundary k at_) fade f

/-- A waiting entry whose instant has passed when it enters PRMQ[k] is applied at once, with DLMISS where a step issued it (R18,
R20). -/
def Dev.lateEntry (d : Dev) (k : Nat) (e : PrmqEntry) : Dev :=
  let d := match e.kind with
    | .trim v => d.setTrim k d.now v
    | .reset => d.clearChains k d.now
    | _ => d
  if e.seq < 128 then d.lateMiss e.seq e.step subSLOT e.at_
  else d.dlMiss subSLOT (some k) 0 0 (d.now - e.at_)

/-- The waiting entries enter PRMQ[k] as it has room (R17). -/
def Dev.pullPrmq (d : Dev) (k : Nat) : Dev :=
  (d.ch k).prmqWait.foldl (fun d e =>
    if 16 ≤ (d.ch k).prmq.length then d
    else
      let d := d.modCh k (fun c => { c with prmqWait := c.prmqWait.erase e })
      if e.at_ < d.now then d.lateEntry k e else d.modCh k (fun c => { c with prmq := c.prmq ++ [e] })) d

/-- Apply the due reset entries of a channel (R87). -/
def Dev.applyReset (d : Dev) (k : Nat) : Dev :=
  let due := (d.ch k).prmq.filter (fun e => e.kind == .reset && decide (e.at_ ≤ d.now))
  if due = [] then d
  else due.foldl (fun d e => ((d.modCh k (fun c => { c with prmq := c.prmq.erase e })).clearChains k e.at_).pullPrmq k) d

/-- The next due swap entry of a channel. -/
def dueSwap (l : List PrmqEntry) (now : Nat) : Option (PrmqEntry × Bool × Nat) :=
  match l with
  | [] => none
  | e :: r =>
    match e.kind with
    | .swap fade f => if e.at_ ≤ now then some (e, fade, f) else dueSwap r now
    | _ => dueSwap r now

/-- PALETTE_SWAP (R82): a swap entry reaches its instant and applies to every member; a reset of the same boundary comes
first (R87). -/
def execPaletteSwap (t : Nat) (k : ChanId) (s : State) : Host.Outcome State Fault Refusal :=
  s.runClk t (fun d =>
    match dueSwap (d.ch k.val).prmq d.now with
    | none => d
    | some (e, fade, f) =>
      let d := d.modCh k.val (fun c => { c with prmq := c.prmq.erase e })
      (d.members k.val).foldl (fun d m =>
        let due := (d.ch m).prmq.any (fun r => r.kind == .reset && decide (r.at_ ≤ e.at_))
        (if due then d.applyReset m else d).swapRequest m e.at_ fade f) d |>.returnCode k.val e.seq |>.pullPrmq k.val)

/-- The running fade is complete: the outgoing palette is idle. What FADE_F and FADE_POS read while no fade runs no rule says:
here 0 (DESIGN CHOICE, log entry 143). -/
def Dev.endFade (d : Dev) (k : Nat) : Dev := (d.wr (F.SC_STATUS_FADING k) 0).wr (F.SC_FADE_FADE_F k) 0

/-- FADE_END (R84, R85): both directions have completed 2^f samples; a pending swap starts, in each direction with the sample
after the last of the fade. -/
def execFadeEnd (t : Nat) (k : ChanId) (s : State) : Host.Outcome State Fault Refusal :=
  s.runClk t (fun d =>
    match d.lastFade k.val with
    | none => d
    | some f =>
      let (r, x) := d.fadeEnds k.val f
      if d.on (F.SC_STATUS_FADING k.val) ∧ max r x ≤ d.now then
        let d := d.endFade k.val
        match (d.ch k.val).swapPend with
        | none => d
        | some (fade, n) =>
          ((d.wr (F.SC_STATUS_PENDING k.val) 0).modCh k.val (fun c => { c with swapPend := none })).startSwap k.val
            (d.rxBoundary k.val (r + 1)) (d.txBoundary k.val (x + 1)) fade n
      else d)

/-- The channel enters role off: a running fade is complete in both directions and a pending swap is discarded (R450). -/
def Dev.palettesOff (d : Dev) (k : Nat) : Dev :=
  ((d.endFade k).wr (F.SC_STATUS_PENDING k) 0).modCh k (fun c => { c with swapPend := none, swaps := [] })

/-! ### The synchronising reset (R20, R87, R426) -/

/-- SYNC_RESET (R87): every powered channel whose reset entry is due is cleared. -/
def Dev.syncReset (d : Dev) : Dev :=
  match d.syncAt with
  | some x => if x ≤ d.now then (List.range 64).foldl Dev.applyReset { d with syncAt := none } else d
  | none => d

/-- An accepted synchronising event stamped now, from SYNC where `cmd` holds (R20, R426). -/
def Dev.syncAccept (d : Dev) (cmd : Bool) : Dev :=
  let d := ((d.wr F.GL_SYNCST_SYNCSRC (if cmd then 1 else 0)).wr F.GL_SYNCST_SYNCV 1).wr64 F.GL_SYNC_NS_LO_T
    F.GL_SYNC_NS_HI_T d.now
  let d := { d with syncAt := some (d.now + 200) }
  ((List.range 64).filter d.chOn).foldl
    (fun d k => d.pushPrmq k { at_ := d.now + 200, kind := .reset }) d

/-- The reset entries that wait are withdrawn. -/
def Dev.dropResets (d : Dev) : Dev :=
  let keep : List PrmqEntry → List PrmqEntry := fun l => l.filter (fun r => r.kind != .reset)
  let f : Nat × Chan → Nat × Chan := fun e => (e.1, { e.2 with prmq := keep e.2.prmq, prmqWait := keep e.2.prmqWait })
  { d with chan := d.chan.map f }

/-- An event before T + 200 ns is ignored and counted; an edge in the AOCLK cycle of a SYNC command takes its place.  While SDCLKn
stands still, the reset of an earlier event waits in PRMQ (R14). -/
def Dev.syncEvent (d : Dev) (cmd : Bool) : Dev :=
  let d := if d.mains.refclk then d.syncReset else d
  match d.syncAt with
  | none => d.syncAccept cmd
  | some x =>
    if x ≤ d.now then d.syncAccept cmd
    else if !cmd ∧ d.on F.GL_SYNCST_SYNCSRC ∧ (x - 200) / 4 = d.now / 4 then
      (d.dropResets.inc F.GL_SYNCST_SYNCIGN).syncAccept cmd
    else d.inc F.GL_SYNCST_SYNCIGN

/-- SAMPLE_SYNC (R20). -/
def execSampleSync (t : Nat) (s : State) : Host.Outcome State Fault Refusal :=
  s.run t (fun d => d.syncEvent false)

/-- SYNC (R20, R426). -/
def execSync (t : Nat) (s : State) : Host.Outcome State Fault Refusal :=
  s.runClk t (fun d => d.syncEvent true)

/-- SYNC_RESET (R20, R87). -/
def execSyncReset (t : Nat) (s : State) : Host.Outcome State Fault Refusal :=
  s.runClk t Dev.syncReset

end Sys2Proof.Machine
end

