-- ==== Sys2Proof/Machine/Link.lean ====
section
/-! DEFINITION. What the Luafen link does with its node entries and queues, shared by the transmit step, the receiver and
the message rows: loss, failed exchanges, acknowledgement, and delivery of data units (R172 to R174, R182 to R186, R229,
R237, R265). -/

namespace Sys2Proof.Machine

open Sys2Proof

/-- RETRY_MAX, 0 treated as 1 (R194). -/
def Dev.retryMax (d : Dev) (k : Nat) : Nat := max 1 (d.rd (F.LF_CFG_RETRY_MAX (d.lead k)))

/-- LF_WIN, 0 treated as 1 and above 32,767 as 32,767 (R194). -/
def Dev.lfWin (d : Dev) (k : Nat) : Nat := max 1 (min 32767 (d.rd (F.LF_CFG_LF_WIN (d.lead k))))

/-- VMAX, 0 treated as 1 (R194). -/
def Dev.vmax (d : Dev) (k : Nat) : Nat := max 1 (d.rd (F.LF_CFG_VMAX (d.lead k)))

/-- NSLOT, 0 treated as 1 (R194). -/
def Dev.nslot (d : Dev) (k : Nat) : Nat := max 1 (d.rd (F.LF_DISC_NSLOT (d.lead k)))

/-- GUARD, below 4 treated as 4 (R194). -/
def Dev.guard_ (d : Dev) (k : Nat) : Nat := max 4 (d.rd (F.LF_TIME_GUARD (d.lead k)))

/-- OSTATE of an outstation. -/
def Dev.ostate (d : Dev) (k : Nat) : Nat := d.rd (F.LF_STATUS_OSTATE k)

def osUNJOINED : Nat := 0
def osJOINING : Nat := 1
def osJOINED : Nat := 2

/-! ### Loss (R174, R186) -/

/-- The head-end declares a node LOST. -/
def Dev.nodeLost (d : Dev) (k i : Nat) : Dev :=
  ((d.wr (N.STATE i) stLOST).raise (F.LF_STATUS_LOST k)).modLf k (fun l => { l with polled := l.polled.erase i })

/-- A joined outstation returns to UNJOINED: LOST, and HOFSV clears. -/
def Dev.unjoin (d : Dev) (k : Nat) : Dev :=
  (((d.raise (F.LF_STATUS_LOST k)).wr (F.LF_STATUS_OSTATE k) osUNJOINED).wr (F.LF_STATUS_HOFSV k) 0).modLf k
    (fun l => { l with nonceH := none, disc := none, drawn := none })

/-! ### Exchanges at the head-end (R174, R185, R229) -/

/-- A JOINING entry returns to ABSENT (R185). -/
def Dev.joinAbandon (d : Dev) (i : Nat) : Dev :=
  ((((d.makeAbsent i).wr (N.JPOLLED i) 0).wr (N.FAILS i) 0).wr (N.W11 i) 0).wr (N.W12 i) 0

/-- An exchange with entry `i` failed: FAILS advances, and at RETRY_MAX an ACTIVE node is LOST and a JOINING one ABSENT. -/
def Dev.exchangeFail (d : Dev) (k i : Nat) : Dev :=
  let st := d.rd (N.STATE i)
  let n := min 15 (d.rd (N.FAILS i) + 1)
  let d := d.wr (N.FAILS i) n
  let d := if st = stACTIVE then d.pushHist i false else d
  if n < d.retryMax k then d
  else if st = stACTIVE then d.nodeLost k i
  else if st = stJOINING then d.joinAbandon i
  else d

/-- An exchange with entry `i` ended OK. -/
def Dev.exchangeOk (d : Dev) (i : Nat) : Dev := (d.wr (N.FAILS i) 0).pushHist i true

/-- The RX outcome of the exchange with entry `i` is committed; `ok` says that a frame of the node passed. -/
def Dev.exchangeDone (d : Dev) (k i : Nat) (ok : Bool) : Dev :=
  if (d.ch k).lf.polled.contains i then
    let d := d.modLf k (fun l => { l with polled := l.polled.erase i })
    if d.rd (N.STATE i) ≠ stACTIVE then d else if ok then d.exchangeOk i else d.exchangeFail k i
  else if d.rd (N.STATE i) = stJOINING ∧ d.on (N.JPOLLED i) then
    let d := d.wr (N.JPOLLED i) 0
    if ok then d else d.exchangeFail k i
  else d

/-! ### Acknowledgement (R174, R264) -/

/-- The association of an entry carries reliable units: an ACTIVE node at the head-end, the own entry of a JOINED
outstation. -/
def Dev.carries (d : Dev) (k i : Nat) : Bool :=
  if d.isOut k then d.ostate k == osJOINED else d.rd (N.STATE i) == stACTIVE

/-- The partner acknowledges up to `a`: RELEASE of a − ACKA units, and ACKA becomes `a`. -/
def Dev.ackTo (d : Dev) (k i a : Nat) : Dev :=
  if !d.carries k i then d
  else
    let n := (a + 65536 - d.rd (N.ACKA i)) % 65536
    let d := if d.on (N.DQV i) then d.release (d.rd (N.DQ i)) n else d
    let d := d.wr (N.ACKA i) a
    if d.on (N.DQV i) then d.followRd i else d.wr (N.TXSEQ i) a

/-! ### Data units (R173, R235 to R238) -/

/-- Mark the item at the tail of an uplink queue with the node it came from. -/
def Dev.tagTail (d : Dev) (q i : Nat) (via : Bool) : Dev :=
  let s := d.sh q
  match s.items.getLast? with
  | some it => d.setSh q { s with items := s.items.dropLast ++ [{ it with node := i, via := via }] }
  | none => d

/-- Push a unit to queue UQBASE + CLS of the channel (R238). -/
def Dev.deliver (d : Dev) (k i : Nat) (via : Bool) (u : Unit_) : Dev :=
  let q := d.uqBase k + u.cls
  let before := (d.sh q).items.length
  let part := (d.sh q).openTail
  let d := (d.pushContent q u.cls u.content).pfcCheck
  if before < (d.sh q).items.length ∨ (part ∧ !(d.sh q).openTail) then d.tagTail q i via else d

/-- Accept or discard one data unit of entry `i` (R173). -/
def Dev.acceptUnit (d : Dev) (k i : Nat) (via : Bool) (u : Unit_) : Dev :=
  if !u.rel then d.deliver k i via u
  else if !d.carries k i then d
  else
    let want := d.rd (N.RXEXP i)
    if u.dseq = want then (d.wr (N.RXEXP i) (want + 1)).deliver k i via u
    else if (want + 65536 - u.dseq) % 65536 ≤ 32768 then d.inc (F.LF_CNT_DUPDU k)
    else d.inc (F.LF_CNT2_OOODU k)

/-- Staging cells of the channel grow to hold `words` words, as far as the free list has cells (R294). -/
def Dev.stageTo (d : Dev) (k words : Nat) : Dev :=
  ((List.range (ceilDiv words 32 - (d.ch k).stage.length)).foldl (fun d _ =>
    let d := d.ripen
    match takeRuns 1 d.free with
    | some (cs, free) => { d with free := free }.modCh k (fun c => { c with stage := c.stage ++ cs })
    | none => d) d).pfcCheck

/-- The units that staging of `room` words holds, and whether some have no place (R294). -/
def stageUnits : Nat → List Unit_ → List Unit_ × Bool
  | _, [] => ([], false)
  | room, u :: l =>
    let n := ceilDiv u.content.length 8
    if room < n then ([], true) else let r := stageUnits (room - n) l; (u :: r.1, r.2)

/-- Accept the data units of a message, with MSGBAD where it is cut short (R170) and OVERRUN where units cannot be staged
(R294). -/
def Dev.acceptUnits (d : Dev) (k i typ : Nat) (via : Bool) (m : List Byte) : Dev :=
  let (us, bad) := messageUnits typ m
  let d := if us.length ≤ 1 then d else d.stageTo k ((us.map (fun u => ceilDiv u.content.length 8)).sum)
  let (us, short) := if us.length ≤ 1 then (us, false) else stageUnits (32 * (d.ch k).stage.length) us
  let d := us.foldl (fun d u => d.acceptUnit k i via u) d
  let d := if short then d.cause causeOVERRUN { chan := some k } else d
  if bad then d.raise (F.LF_STATUS_MSGBAD k) else d

/-! ### Neighbours (R229) -/

/-- Neighbour entries of a channel that have been heard, with the cycles since (log entry 15), most recently heard first. -/
def Dev.heardNeighbours (d : Dev) (k : Nat) : List (Nat × Nat) :=
  let l := (d.scopeEntries k).filter (fun i => d.rd (N.KIND i) == 1 && !d.entryBad i && (d.rd (N.SS i) != 0 || d.rd (N.LASTP i) != 0))
  let aged := l.map (fun i => ((d.cycle + 4096 - d.rd (N.LASTP i)) % 4096, i))
  aged.foldr (fun x acc => (acc.takeWhile (fun y => y.1 < x.1)) ++ x :: (acc.dropWhile (fun y => y.1 < x.1))) []

/-- The neighbour entries are read for a RESP: each that fails parity records PARITY, and counts as unused (R224). -/
def Dev.neighbourParity (d : Dev) (k : Nat) : Dev := (d.scopeEntries k).foldl (fun d i => d.entryParity k i) d

/-- The neighbour records of a RESP: at most 4 (R170, R229). -/
def Dev.nbrRecords (d : Dev) (k : Nat) : List NbrRec :=
  ((d.heardNeighbours k).take 4).map (fun x =>
    { addr := d.rd (N.ADDR x.2), age := min 255 x.1, q := (d.quality k (d.rdS (N.SS x.2))).1 })

end Sys2Proof.Machine
end

