-- ==== Sys2Proof/Machine/Transmit.lean ====
section
/-! DEFINITION. The TX step and the transmissions it issues: checks, form, content, building and sealing of the frame, the
transmit switch, the end of a transmission, and the driver's faults (R30 to R35, R129, R164, R168, R181, R184 to R191, R205
to R208, R272, R273, R454). -/

namespace Sys2Proof.Machine

open Sys2Proof

/-! ### Frames (R122, R171, R272, R273) -/

/-- The AAD of a frame: header bits [95:16] with [24:16] as 0, then BLEN and SECF (R273). -/
def frameAad (h : BitVec 96) (blen : Nat) (ph : Bool) : List Byte :=
  octetsBE 10 (h.toNat / 2 ^ 25 * 2 ^ 9) ++ octetsBE 3 blen ++ [if ph then 0x80#8 else 0#8]

/-- The nonce of a line frame: the salt word of its SRC, without the session for a JOINREQ or JOINACC, then FCTR (R272, R275). -/
def Dev.lineNonce (d : Dev) (h : BitVec 96) (sa fctr : Nat) : List Byte :=
  nonceOf (d.saltWord sa (hdrSrc h) (hdrType h == tyJOINREQ || hdrType h == tyJOINACC)) fctr

/-- The message that a received body opens to under a phase of a record, none where the tag does not match (R271 to R274). -/
def Dev.lineOpen (d : Dev) (h : BitVec 96) (sa : Nat) (ph : Bool) (b : List Byte) : Option (List Byte) :=
  let n := bodyBlen b
  gcmOpen (d.clearKey sa (d.startKey (sa, ph))) (d.lineNonce h sa (bodyFctr b)) (frameAad h n ph) ((b.drop 12).take (n + 16))

/-- The body of a frame from octet 0 to the end of FCS (R122). -/
def Dev.sealBody (d : Dev) (h : BitVec 96) (sa : Nat) (ph : Bool) (fctr : Nat) (msg : List Byte) : List Byte :=
  let n := msg.length
  let ct := gcmSeal (d.clearKey sa (d.startKey (sa, ph))) (d.lineNonce h sa fctr) (frameAad h n ph) msg
  let b := octetsBE 3 n ++ [if ph then 0x80#8 else 0#8] ++ octetsBE 8 fctr ++ fitTo (n + 16) ct
  b ++ octetsBE 4 (fcs32 b).toNat

/-- The octets of an inner frame: header image and body to the end of FCS (R189). -/
def innerOctets (h : BitVec 96) (body : List Byte) : List Byte := hdrOctets h ++ body

/-- A header with ANCHOR set and HCRC computed again (R189). -/
def reanchor (h : BitVec 96) (anchor : Nat) : BitVec 96 :=
  let x := (h &&& ~~~0x1C0FFFF#96) ||| BitVec.ofNat 96 (anchor % 8 * 2 ^ 22)
  x ||| (hcrc x).setWidth 96

/-- The header of an inner frame. -/
def innerHeader (f : List Byte) : BitVec 96 := BitVec.ofNat 96 (beNat (f.take 12))

/-! ### What a TX step sends -/

/-- The plan of a TX step: the innermost TYPE (15 for INNER), the entry of its node, the entries of the repeaters with R1
first, the form on the line, the innermost form, the version on the line, and the largest LEN. -/
structure TxPlan where
  typ : Nat
  entry : Nat
  hops : List Nat
  form : Form
  inForm : Form
  ver : Nat
  limit : Nat
deriving DecidableEq, Repr

/-- The TYPEs that a role sends (R205). -/
def roleSends (role typ : Nat) : Bool :=
  if role = roleHEAD then typ == tyBEACON || typ == tyPOLL || typ == tyRELAY || typ == tyJOINACC
  else if role = roleOUT then typ == tyRESP || typ == tyJOINREQ
  else if role = roleREP then typ == tyRESP || typ == tyJOINREQ || typ == tyINNER
  else false

/-- The step needs an armed node (R205). -/
def needsArmed (typ fsel : Nat) (via : Bool) : Bool :=
  typ == tyPOLL || typ == tyRELAY || typ == tyJOINACC || via || (fsel == 16 && typ != tyRESP)

/-- A TYPE of the beacon form (R168, R205). -/
def beaconType (typ : Nat) : Bool := typ == tyBEACON || typ == tyJOINREQ || typ == tyJOINACC

/-- The version of frames with the node of an entry (R187). -/
def Dev.entryVer (d : Dev) (i : Nat) : Nat := max 1 (d.rd (N.VER i))

/-- The form that a POLL or RELAY granted, with kh and NP of the form that `w` holds (R177, R207; log entry 16). -/
def Dev.grantedForm (d : Dev) (k : Nat) (w : Word32) : Option Form :=
  (d.ch k).grant.map (fun g =>
    let f := Form.ofWord w
    { mode := g.umode, strm := g.ustrm, span := g.uspan, kh := f.kh, np := f.np, lvl := g.ulvl })

/-- The form that FSEL names (R207). A RESP carries UMODE, USTRM, USPAN and ULVL whatever FSEL is (R177): a form register gives it
kh and NP alone, with GAP set as without (DEDUCED, log entry 16). -/
def Dev.selForm (d : Dev) (q k typ fsel entry : Nat) : Option Form :=
  let reg := d.word (A.SQ_FORM q fsel)
  if typ = tyRESP then d.grantedForm k (if fsel < 16 then reg else d.word (nodeWord entry 3))
  else if fsel < 16 then some (Form.ofWord reg)
  else (d.sq q).armed.map (fun i => Form.ofWord (d.word (nodeWord i 3)))

/-- The form of an inner frame: its header's payload form with kh, NP and level of the RELAY (R189). -/
def relayedForm (g : Grant) : Form :=
  let h := innerHeader g.inner
  { hdrForm h (8 + g.ikh) with np := 8 * (g.inp + 1), lvl := g.ilvl }

/-- The largest LEN whose block fits the interleaver memory (R132, R133). -/
def Dev.formLimit (d : Dev) (k : Nat) (f : Form) : Nat :=
  if f.r = 1 then 4095 else min 4095 (4 * d.ilOctets k / (9 * f.bits) * f.bits / 6144)

/-- The entry of the node that a step's frame is for; none where the step cannot name it. -/
def Dev.txEntry (d : Dev) (q k typ : Nat) : Option Nat :=
  if typ = tyBEACON then some (d.broadcast k)
  else if typ = tyPOLL ∨ typ = tyRELAY ∨ typ = tyJOINACC then (d.sq q).armed
  else d.ownEntry k

/-- The repeaters' entries of the armed node's espalier, or, for the JOINACC to a request that came through repeaters, of those
(R184, R188); none where a hop has no entry. -/
def Dev.txHops (d : Dev) (q k typ : Nat) (via : Bool) : Option (List Nat) :=
  match via, (d.sq q).armed with
  | true, some i =>
    let came := (((d.ch k).lf.joinPath.find? (fun p => p.1 == i)).map Prod.snd).getD []
    let hops := if typ = tyJOINACC ∧ came ≠ [] then came else d.espalier i
    let l := hops.map (fun a => d.lookup k a)
    if l.all Option.isSome then some (l.filterMap id) else none
  | _, _ => some []

/-- The inner header of a RELAY has come whole and passes HCRC (R190). -/
def Grant.innerHeard (g : Grant) : Bool := decide (44 ≤ g.inner.length) && hcrcOk (innerHeader g.inner)

/-- The refusal under R107 and R133 of the inner frame of a RELAY: its form, its LEN against its BLEN, and its TYPE. -/
def Dev.innerRefusal (d : Dev) (k : Nat) (g : Grant) : Option (List Nat × Bool) :=
  let h := innerHeader g.inner
  match d.txRefusal k (relayedForm g) (hdrVersion h) (hdrLen h) 0 (hdrVersion h == 1) with
  | some r => some r
  | none => if hdrType h ≤ 5 ∧ blenOk (hdrForm h 8).rate (hdrLen h) (g.inner.drop 12) then none else some ([k], true)

/-- The plan of a TX step, where its operands name one. -/
def Dev.txPlan (d : Dev) (q k typ fsel : Nat) (via : Bool) (lenmax : Nat) : Option TxPlan :=
  match d.txEntry q k typ, d.txHops q k typ via with
  | some i, some hops =>
    let limit := if lenmax = 0 then 4095 else lenmax
    if typ = tyINNER then
      (d.ch k).grant.bind (fun g =>
        if g.relay ∧ g.innerHeard then
          let h := innerHeader g.inner
          some { typ := typ, entry := i, hops := [], form := relayedForm g, inForm := relayedForm g, ver := hdrVersion h,
                 limit := limit }
        else none)
    else
      (d.selForm q k typ fsel i).bind (fun f =>
        let inF := if beaconType typ then beaconForm f.lvl else f
        let form := if hops = [] then inF else f
        let ver := match hops with
          | [] => if beaconType typ then 1 else d.entryVer i
          | h :: _ => d.entryVer h
        let granted := if typ = tyRESP then ((d.ch k).grant.map (fun g => g.ulen)).getD 4095 else 4095
        if hops ≠ [] ∧ d.isOut k then none
        else some { typ := typ, entry := i, hops := hops, form := form, inForm := inF, ver := ver,
                    limit := min (min limit granted) (d.formLimit k form) })
  | _, _ => none

/-- TYPE of the frame on the line. -/
def TxPlan.lineType (p : TxPlan) (inner : List Byte) : Nat :=
  if p.typ = tyINNER then hdrType (innerHeader inner) else if p.hops = [] then p.typ else tyRELAY

/-! ### Conditions of a TYPE -/

/-- Mains time less HOFS, as head-end cycle and grain (R182). -/
def Dev.headTime (d : Dev) (k t : Nat) : Nat × Nat :=
  let (c, g) := d.mainsAt t
  let m := (c * 65536 + g + 2 ^ 48 - (d.rd (F.LF_HOFS_CYC_HCYC k) * 65536 + d.rd (F.LF_HOFS_GRN_HGRN k))) % 2 ^ 48
  (m / 65536, m % 65536)

/-- Slot of the announced discovery window at an instant (R183): the head-end cycle alone decides it, the announced DGRN is the
step's matter (DESIGN CHOICE, log entry 145). -/
def Dev.joinSlot (d : Dev) (k t : Nat) : Option Nat :=
  match (d.ch k).lf.disc with
  | some (first, _, slots, _, true) =>
    let n := ((d.headTime k t).1 + 2 ^ 32 - first) % 2 ^ 32
    if n < slots then some n else none
  | _ => none

/-- DRBG output is available (R319). -/
def Dev.trusted (d : Dev) : Bool := d.estate == 1

/-- The outstation draws its slot of the window, once (R183; log entry 17); while ESTATE is not TRUSTED it draws nothing (R319). -/
def Dev.drawSlot (d : Dev) (k : Nat) : Dev :=
  match (d.ch k).lf.disc, (d.ch k).lf.drawn with
  | some (_, _, slots, _, _), none =>
    if !d.trusted then d
    else
    let (r, d) := d.draw
    d.modLf k (fun l => { l with drawn := some (r.toNat % max 1 slots) })
  | _, _ => d

/-- The conditions that the protocol sets on a TYPE (R164, R183 to R185, R189). -/
def Dev.typeReady (d : Dev) (k i typ t : Nat) : Bool :=
  let l := (d.ch k).lf
  if typ = tyRESP then d.ostate k == osJOINED && (d.ch k).grant.isSome
  else if typ = tyJOINREQ then
    d.ostate k == osUNJOINED && d.on (F.LF_CFG_JOIN_EN (d.lead k)) && d.on (F.LF_STATUS_HOFSV k) && !d.on (N.HOLDJ i) &&
    d.trusted && !l.sentJoin && l.skip == 0 && d.joinSlot k t == l.drawn && l.drawn.isSome
  else if typ = tyJOINACC then l.pend.any (fun p => p.1 == i)
  else if typ = tyINNER then ((d.ch k).grant.map (fun g => !g.refused)).getD false
  else true

/-! ### Control blocks as they are sent -/

/-- RGMIN of a node as the head-end knows it: that of its entry, or of the JOINREQ whose session is not yet confirmed (R177,
R185). -/
def Dev.rgmin (d : Dev) (k i : Nat) : Nat :=
  max (d.rd (N.RGMIN i))
    (((((d.ch k).lf.offers.find? (fun o => o.1 == i)).bind (fun o => readJoinReq o.2)).map (fun r => r.rgmin)).getD 0)

/-- The RGAP of a POLL or RELAY to a node, never below its RGMIN (R177). -/
def Dev.rgapFor (d : Dev) (k i : Nat) : Nat := max (d.rd (N.RGAP i)) (d.rgmin k i)

/-- Words 0 to 2 of a POLL or RELAY to the node of an entry, with the draw for RPTREQ (R170, R177, R227). -/
def Dev.pollMsg (d : Dev) (k i : Nat) : PollMsg :=
  let f := Form.ofWord (d.word (nodeWord i 4))
  { acku := if d.rd (N.STATE i) = stJOINING then 0 else d.rd (N.RXEXP i)
    umode := f.mode, ustrm := f.strm, uspan := f.span, ulen := d.rd (N.ULEN i)
    rgap := d.rgapFor k i, ulvl := f.lvl, rptreq := Config.rptReq k d.draws }

/-- A RELAY for the node of an entry: form `f` on the next hop (R192), the rest free but for ISYNC, which the inner TYPE sets
(R167, R191; log entry 11). -/
def Dev.relayMsg (d : Dev) (i : Nat) (f : Form) (syncB : Bool) (inner : List Byte) : RelayMsg :=
  let p := Config.relayPlan i d.draws
  { wopen := (p.extractLsb' 38 12).toNat, ikh := f.kh - 8, inp := f.np / 8 - 1, isync := if syncB then 1 else 0,
    igain := (p.extractLsb' 32 6).toNat, wlen := (p.extractLsb' 16 16).toNat, rtx := (p.extractLsb' 0 16).toNat,
    ilvl := f.lvl, inner := inner }

/-- Cycles from cycle `c` to the next one that starts a discovery window: the next multiple of DISC_K, and cycle 0 where the 32-bit
number comes round before it (R7, R181); 0 where DISC_K is 0. -/
def discCycles (k c : Nat) : Nat := if k = 0 then 0 else min (k - c % k) (2 ^ 32 - c)

/-- Grains from an instant to the next join slot; none where DISC_K is 0 (R175, R181). -/
def Dev.joinSlotIn (d : Dev) (k e : Nat) : Option Nat :=
  let l := d.lead k
  let n := d.rd (F.LF_DISC_DISC_K l)
  let dgrn := d.rd (F.LF_DISC_DGRN l)
  let (c, g) := d.mainsAt e
  let c := c % 2 ^ 32
  if n = 0 then none
  else if c % n < d.nslot k ∧ g ≤ dgrn then some (dgrn - g)
  else
    let next := if (c + 1) % 2 ^ 32 % n < d.nslot k then 1 else discCycles n c
    some (next * 65536 + dgrn - g)

/-- Grains of a frame in the beacon form at the limit of 66 Hz (R168, R176). -/
def beaconGrains66 : Nat := ceilDiv (6998266 * 65536 * 66) 1000000000

/-- The listen window of a collection RELAY that ends at `e` (R191): it covers the next join slot, one beacon-form frame long, as
far as WOPEN and WLEN reach. No inner frame is sent, and the window is reckoned from the RELAY's end; where there is no join slot
its place is free (DESIGN CHOICE, log entry 183). -/
def Dev.listening (d : Dev) (k e : Nat) (r : RelayMsg) : RelayMsg :=
  match d.joinSlotIn k e with
  | none => { r with wlen := max 1 r.wlen }
  | some n =>
    let o := min 4095 n
    { r with wopen := o, wlen := min 65535 (n - o + beaconGrains66) }

/-- The BEACON whose last chip falls at instant `e` (R181). -/
def Dev.beaconMsg (d : Dev) (k e : Nat) : BeaconMsg :=
  let l := d.lead k
  let (c, g) := d.mainsAt e
  let c := c % 2 ^ 32
  { bcyc := c, begrn := g, dgrn := d.rd (F.LF_DISC_DGRN l), dcyc := discCycles (d.rd (F.LF_DISC_DISC_K l)) c,
    vmax := d.vmax k, nslot := d.nslot k, boffMax := d.rd (F.LF_DISC_BOFF_MAX l), jopen := d.on (F.LF_CFG_JOIN_EN l) }

/-- Reliable uplink octets waiting, in units of 256 (R170; the rounding is log entry 10). -/
def Dev.backlog (d : Dev) (i : Nat) : Nat :=
  if d.on (N.DQV i) then
    let q := d.rd (N.DQ i)
    let l := (Deep.itemsFrom (d.dq q).items (d.dqTaken q)).filter (fun x => x.complete && !x.void)
    min 65535 (roundQuotient ((l.map (fun x => x.len)).sum : Nat) 256).toNat
  else 0

/-- UPRES and the upward frame of a repeater's RESP (R189, R190; without a listen window UPRES is 0, log entry 18). -/
def Dev.upwardOf (d : Dev) (k : Nat) (g : Grant) : Nat × List Byte :=
  if !g.relay then (0, [])
  else if g.refused then (8, [])
  else if g.wlen = 0 then (0, [])
  else match (d.ch k).lf.upward with
    | some (c, f) => (c, if c = rxOK then f else [])
    | none => (rxCUT, [])

/-- The RESP to the frame last accepted (R170, R185, R189). -/
def Dev.respMsg (d : Dev) (k i : Nat) (g : Grant) : RespMsg :=
  let u := d.upwardOf k g
  { ackd := d.rd (N.RXEXP i), backlog := d.backlog i, q := g.q, dmargin := g.dmargin, gainAdv := g.gainAdv, qsrc := g.qsrc,
    nf := d.rdS (F.AQ_LEVEL_NF k), ss := g.ss, nonceH := (d.ch k).lf.nonceH, upres := u.1,
    nbrs := if g.rptreq then d.nbrRecords k else [], up := u.2 }

/-- BANDS of a JOINREQ: the plans of the palettes loaded on the channel (R170). -/
def Dev.bandsOf (d : Dev) (k : Nat) : Nat :=
  let planOf := fun b => (if b = d.activeB k then d else d.exchange k).plan k
  let has := fun p => (List.any [false, true] (fun b => d.on (loadedField k b) && planOf b == p))
  (if has .b30 then 1 else 0) + (if has .b86 then 2 else 0) + (if has .b250 then 4 else 0) + (if has .b480 then 8 else 0)

/-- The JOINREQ of an outstation (R170). -/
def Dev.joinReqMsg (d : Dev) (k : Nat) (nonce : BitVec 64) : JoinReqMsg :=
  { nonceN := nonce, vmax := d.vmax k, bands := d.bandsOf k, maxq := d.maxq k, mink := d.mink k, maxk := d.maxk k,
    bundle := d.rd (F.LIF_CFG_BUNDLE k), rpt := d.role k == roleREP && d.on (F.LF_CFG_RELAY_EN (d.lead k)),
    ilmem := min 512 (d.rd (F.FR_ILMEM_ILMEM k)), bq := (d.ch k).lf.beaconQ, rgmin := d.rd (F.LF_TIME_RGMIN (d.lead k)) }

/-- The JOINACC that answers a JOINREQ (R184, R185, R319): STATUS 2 while the entropy source is not trusted. When a head-end
refuses with STATUS 1 no rule says: it never does (DESIGN CHOICE, log entry 146). -/
def Dev.joinAccMsg (d : Dev) (k i : Nat) (r : JoinReqMsg) (nonceH : BitVec 64) : JoinAccMsg :=
  { nonceN := r.nonceN, nonceH := nonceH, status := if d.trusted then 0 else 2, ver := min (d.vmax k) r.vmax,
    rgap := max (d.rd (N.RGAP i)) r.rgmin, lostc := d.rd (F.LF_TIME_LOSTC (d.lead k)) }

/-! ### Data units taken by a frame (R253, R261, R264, R265, R454) -/

/-- What the items from RD give a frame: units, ring words passed, places (in words from HEAD) made VOID, and whether one of
those had been sent before. -/
structure Taken where
  units : List Unit_ := []
  words : Nat := 0
  voids : List Nat := []
  ended : Bool := false
deriving DecidableEq, Repr

/-- POP of the items from RD (R264, R265): `pos` words from HEAD, HWM at `hwm`, the next DSEQ, the numbers left in the
window and the octets left in the frame. -/
def takeReliable : List Item → Nat → Nat → Nat → Nat → Nat → Taken
  | [], _, _, _, _, _ => {}
  | i :: l, pos, hwm, dseq, win, room =>
    if !i.complete then {}
    else if i.void then
      let r := takeReliable l (pos + i.span) hwm dseq win room
      { r with words := i.span + r.words }
    else if win = 0 ∨ room < 6 + i.len then {}
    else if i.poisoned then
      let r := takeReliable l (pos + i.span) hwm dseq win room
      { r with words := i.span + r.words, voids := pos :: r.voids, ended := r.ended || decide (pos < hwm) }
    else
      let r := takeReliable l (pos + i.span) hwm ((dseq + 1) % 65536) (win - 1) (room - (6 + i.len))
      { r with units := { dseq := dseq, rel := true, cls := i.cls, content := i.content } :: r.units,
               words := i.span + r.words }

/-- Whole complete items of a shallow queue that fit a room: units, items passed and items that were poisoned (R253, R261). -/
def takeUnreliable : List Item → Nat → List Unit_ × Nat × Nat
  | [], _ => ([], 0, 0)
  | i :: l, room =>
    if !i.complete then ([], 0, 0)
    else if room < 6 + i.len then ([], 0, 0)
    else if i.poisoned then let r := takeUnreliable l room; (r.1, r.2.1 + 1, r.2.2 + 1)
    else
      let r := takeUnreliable l (room - (6 + i.len))
      ({ cls := i.cls, content := i.content } :: r.1, r.2.1 + 1, r.2.2)

/-- REWIND HEAD where units from ACKA onwards have been sent before (R174). -/
def Dev.rewindOld (d : Dev) (i q : Nat) : Dev :=
  let sent := (Deep.itemsFrom (d.dq q).items (ringDist (d.dHead q) (d.dHwm q))).length
  let before := (d.dq q).items.take ((d.dq q).items.length - sent)
  if before.any (fun x => !x.void) then (d.rewindHead q).followRd i else d

/-- The reliable run of a frame to or from the node of entry `i`: REWIND HEAD, MARK and POP, with the units taken (R454).
The stream of a poisoned item that was sent before ends (R265). -/
def Dev.takeDeep (d : Dev) (k i room : Nat) : List Unit_ × Option Nat × Dev :=
  if !d.on (N.DQV i) ∨ !d.carries k i then ([], none, d)
  else
    let q := d.rd (N.DQ i)
    let d := (d.rewindOld i q).markDeep q
    let pos := d.dqTaken q
    let out := d.outstandingDq q
    let t := takeReliable (Deep.itemsFrom (d.cycItems (d.dq q).log (d.dq q).items) pos) pos (ringDist (d.dHead q) (d.dHwm q))
      ((d.rd (N.ACKA i) + out) % 65536) (d.lfWin k - out) room
    let d := d.moveRd q ((d.dRd q + t.words) % 2 ^ 32)
    let d := (d.raiseHwm q).deepFetch q
    let d := t.voids.foldl (fun d p =>
      ((((d.setDq q { d.dq q with items := voidAt (d.dq q).items p }).rewriteWord q ((d.dHead q + p) % 2 ^ 32)).inc F.CV_CNT_POISCNT).raise
        (F.QD_STAT_POISON q)).cause causePOISON { chan := some k }) d
    let d := d.followRd i
    let d := if t.ended then (if d.isOut k then d.unjoin k else d.nodeLost k i) else d
    (t.units, some q, d)

/-- The unreliable run: items detached from SQ, with the cells that they hold (R253). -/
def Dev.takeShallow (d : Dev) (i room : Nat) : List Unit_ × List Nat × Dev :=
  if !d.on (N.SQV i) then ([], [], d)
  else
    let q := d.rd (N.SQ i)
    let s := d.sh q
    if s.taking then ([], [], d)
    else
      let r := takeUnreliable (d.cycItems s.log s.items) room
      let words := ((s.items.take r.2.1).map Item.span).sum
      let (cs, d) := d.detachSh q { s with items := s.items.drop r.2.1, gone := s.gone + words,
                                           log := d.cycFree s.log (d.room q false) }
      (r.1, cs, if r.2.2 = 0 then d else d.inc F.CV_CNT_POISCNT r.2.2)

/-- The deep queue that a frame's units marked, and the cells that they were detached with. -/
structure Drawn where
  marked : Option Nat := none
  cells : List Nat := []
deriving DecidableEq, Repr

/-- The data units of a frame that carries them (R454). -/
def Dev.takeUnits (d : Dev) (k i typ room : Nat) : List Byte × Drawn × Dev :=
  if typ = tyPOLL ∨ typ = tyRESP ∨ typ = tyRELAY then
    let (rel, marked, d) := d.takeDeep k i room
    let a := rel.flatMap unitOctets
    let (un, cells, d) := d.takeShallow i (room - a.length)
    (a ++ un.flatMap unitOctets, { marked := marked, cells := cells }, d)
  else ([], {}, d)

/-! ### Building (R188, R205, R272) -/

/-- Octets that each nesting adds to a message: the RELAY block, the inner header and the fixed overhead (R170, R189). -/
def nestOctets : Nat := 68

/-- Octets of a plan's message without data units. -/
def Dev.baseLen (d : Dev) (k : Nat) (p : TxPlan) : Nat :=
  (if p.typ = tyRESP then
     match (d.ch k).grant with
     | some g => (d.respMsg k p.entry g).octets.length
     | none => 16
   else blockLen p.typ) + nestOctets * p.hops.length

/-- LEN of the frame on the line for a message of `n` octets. -/
def TxPlan.lenOf (p : TxPlan) (inner : List Byte) (n : Nat) : Nat :=
  if p.typ = tyINNER then hdrLen (innerHeader inner) else lenFor (infoOctets p.form.rate) n

/-- The end of the innermost frame of a plan whose message has `n` octets, sent at `t` (R191). -/
def Dev.innerEnd (d : Dev) (k : Nat) (p : TxPlan) (t n : Nat) : List Nat → Nat
  | [] => d.frameEnd k p.inForm (lenFor (infoOctets p.inForm.rate) n) t
  | h :: l =>
    let len := lenFor (infoOctets p.form.rate) (n + nestOctets * (l.length + 1))
    Dev.innerEnd d k p (d.frameEnd k p.form len t + d.grains (d.rgapFor k h)) n l

/-- One line frame under the association of an entry: header and body, FCTR advanced (R272). -/
def Dev.lineFrame (d : Dev) (i typ src ver : Nat) (f : Form) (anchor : Nat) (msg : List Byte) : List Byte × Dev :=
  let sa := d.rd (N.SAIDX i)
  let ph := (d.sa_ sa).txph
  let h := mkHeader ver typ src (if src = 0 then d.rd (N.ADDR i) else 0) (lenFor (infoOctets f.rate) msg.length) anchor f
  let c := d.fctr i
  let b := d.sealBody h sa ph c msg
  (innerOctets h b, d.setFctr i (c + 1))

/-- A message under construction: its octets, the entry it goes to, its TYPE, version and form. -/
structure Draft where
  msg : List Byte
  entry : Nat
  typ : Nat
  ver : Nat
  form : Form
deriving DecidableEq, Repr

/-- Nest a draft inside a RELAY to the repeater of entry `h` (R188). -/
def Dev.nest (d : Dev) (k h : Nat) (f : Form) (x : Draft) : Draft × Dev :=
  let (inner, d) := d.lineFrame x.entry x.typ 0 x.ver x.form 0 x.msg
  let m := (d.pollMsg k h).octets ++ (d.relayMsg h x.form (beaconType x.typ) inner).octets
  ({ msg := m, entry := h, typ := tyRELAY, ver := d.entryVer h, form := f }, { d with draws := d.draws + 1 })

def Dev.nestAll (d : Dev) (k : Nat) (f : Form) : List Nat → Draft → Draft × Dev
  | [], x => (x, d)
  | h :: l, x => let (y, d) := d.nest k h f x; Dev.nestAll d k f l y

/-- The innermost message of a plan sent at `t`, and what its units were drawn with. A JOINACC sent while ESTATE is not TRUSTED
has no NONCE_H to draw, and R319 gives none: it carries 0 (DESIGN CHOICE, log entry 184). -/
def Dev.draft (d : Dev) (k : Nat) (p : TxPlan) (t room : Nat) : List Byte × Drawn × Dev :=
  if p.typ = tyBEACON then ((d.beaconMsg k (d.innerEnd k p t 12 p.hops)).octets, {}, d)
  else if p.typ = tyPOLL then
    let head := (d.pollMsg k p.entry).octets
    let (u, m, d) := { d with draws := d.draws + 1 }.takeUnits k p.entry p.typ room
    (head ++ u, m, d)
  else if p.typ = tyRELAY then
    let poll := d.pollMsg k p.entry
    let relay := d.relayMsg p.entry (beaconForm p.form.lvl) true []
    let (u, m, d) := { d with draws := d.draws + 1 }.takeUnits k p.entry p.typ room
    (poll.octets ++ (d.listening k (d.innerEnd k p t (blockLen tyRELAY + u.length) p.hops) relay).octets ++ u, m, d)
  else if p.typ = tyRESP then
    match (d.ch k).grant with
    | some g =>
      let head := (d.respMsg k p.entry g).octets
      let d := if g.rptreq then d.neighbourParity k else d
      let (u, m, d) := d.takeUnits k p.entry p.typ room
      (head ++ u, m, d)
    | none => ([], {}, d)
  else if p.typ = tyJOINREQ then
    let (n, d) := d.draw
    let m := (d.joinReqMsg k n).octets
    (m, {}, d.modLf k (fun l => { l with nonceN := n, sentJoin := true }))
  else if p.typ = tyJOINACC then
    let (n, d) := if d.trusted then d.draw else (0, d)
    match ((d.ch k).lf.pend.find? (fun x => x.1 == p.entry)).bind (fun x => readJoinReq x.2) with
    | some r => ((d.joinAccMsg k p.entry r n).octets, {}, d)
    | none => ([], {}, d)
  else ([], {}, d)

/-- Level of a frame on member `m` under a degraded grant and TXCAP (R30, R103, R206), and whether TXCAP lowered it. -/
def Dev.sentLevel (d : Dev) (m : Nat) (lvl : Int) (deg : Nat) : Int × Bool :=
  let l := clampLevel (max (-24) (lvl - deg))
  let cap : Int := (d.rd (F.LIF_CFG_TXCAP m) : Int) - 24
  (max l cap, decide (l < cap))

/-- The levels of the members of a channel; CAPPED rises on each that TXCAP lowers (R30). -/
def Dev.capLevels (d : Dev) (k : Nat) (lvl : Int) (deg : Nat) : List Int × Dev :=
  ((d.members k).map (fun m => (d.sentLevel m lvl deg).1),
   (d.members k).foldl (fun d m => if (d.sentLevel m lvl deg).2 then d.raise (F.LIF_STATUS_CAPPED m) else d) d)

/-- An OVERLAP under R208: the instant falls before the end of a transmission already issued. -/
def Dev.overlapsTx (d : Dev) (k t : Nat) : Bool := (d.ch k).txs.any (fun x => decide (t < x.fin))

/-- Keys that a plan's frames use: record and phase of every association (R205). -/
def Dev.txKeys (d : Dev) (p : TxPlan) : List (Nat × Bool) :=
  if p.typ = tyINNER then []
  else (p.hops ++ [p.entry]).map (fun i => (d.rd (N.SAIDX i), (d.sa_ (d.rd (N.SAIDX i))).txph))

/-- Place the transmit entry and the job that a TX step issues. -/
def Dev.placeJob (d : Dev) (q k : Nat) (x : TxJob) : Dev :=
  let d := d.modCh k (fun c => { c with
    txs := c.txs ++ [x]
    prmq := c.prmq ++ [{ at_ := x.t, kind := .tx, seq := q, step := x.step }] })
  (d.modSq q (fun s => { s with grant := none, asked := false, slotFailed := false, pins := [] })).done q

/-- The POLL or RELAY to each of these entries asks for its UMODE and ULEN (R178). -/
def Dev.askedOf (d : Dev) (k : Nat) (l : List Nat) : Dev :=
  d.modLf k (fun f => { f with
    asked := l.map (fun i => (i, (Form.ofWord (d.word (nodeWord i 4))).mode, d.rd (N.ULEN i))) ++
      f.asked.filter (fun a => !l.contains a.1) })

/-- Issue the transmit entry at `t` and build the frame (R205). -/
def Dev.issueTx (d : Dev) (q k : Nat) (p : TxPlan) (t : Nat) (g : SlotGrant) : Dev :=
  let (lvls, d) := d.capLevels k p.form.lvl g.d
  let form := { p.form with lvl := (d.sentLevel k p.form.lvl g.d).1 }
  let anchor := d.anchor k form t
  let step := d.sqPc q
  if p.typ = tyINNER then
    match (d.ch k).grant with
    | none => d
    | some gr =>
      let h := innerHeader gr.inner
      let len := hdrLen h
      d.placeJob q k { seq := q, step := step, t := t, fin := d.frameEnd k form len t, typ := tyINNER, entry := p.entry,
                       saidx := 0x20000, ver := hdrVersion h, form := form, lvls := lvls, len := len, anchor := anchor,
                       msg := (gr.inner.drop 24).take (gr.inner.length - 44), grant := some g,
                       hdr := reanchor h anchor, body := fitTo (len * infoOctets form.rate) (gr.inner.drop 12),
                       syncB := gr.isync == 1,
                       chips := form.leadChips + d.payloadChips k form len }
  else
    let room := roomOf (infoOctets p.form.rate) p.limit - d.baseLen k p
    let keys := d.txKeys p
    let (msg, drawn, d) := d.draft k p t room
    let ver := if beaconType p.typ then 1 else d.entryVer p.entry
    let (x, d) := d.nestAll k p.form p.hops.reverse { msg := msg, entry := p.entry, typ := p.typ, ver := ver, form := p.inForm }
    let sa := d.rd (N.SAIDX x.entry)
    let ph := (d.sa_ sa).txph
    let c := d.fctr x.entry
    let len := lenFor (infoOctets form.rate) x.msg.length
    let src := if d.isOut k then d.rd (N.ADDR x.entry) else 0
    let hdr := mkHeader x.ver x.typ src (if src = 0 then d.rd (N.ADDR x.entry) else 0) len anchor form
    let body := fitTo (len * infoOctets form.rate) (d.sealBody hdr sa ph c x.msg)
    let d := if p.typ = tyPOLL ∨ p.typ = tyRELAY then d.askedOf k (p.hops ++ [p.entry]) else d
    let d := ((d.setFctr x.entry (c + 1)).event 8 1 0 1).event 8 0 0 (ceilDiv x.msg.length 16)
    let job : TxJob :=
      { seq := q, step := step, t := t, fin := d.frameEnd k form len t, typ := p.typ, entry := p.entry, saidx := sa,
        phase := ph, fctr := c, ver := x.ver, form := form, lvls := lvls, len := len, anchor := anchor, msg := x.msg, core := msg,
        via := p.hops != [], marked := drawn.marked, cells := drawn.cells, grant := some g, hdr := hdr, body := body, syncB := beaconType x.typ,
        keys := keys, chips := form.leadChips + d.payloadChips k form len }
    d.placeJob q k job

/-! ### The TX step -/

/-- A BEACON that is not sent misses its slot (R181); the miss has no action of its own (DEDUCED, log entry 147). -/
def Dev.beaconLost (d : Dev) (q k step late : Nat) : Dev :=
  if d.role k = roleHEAD then (d.dlMiss subSLOT (some k) q step late).missFlags q else d

/-- A POLL or RELAY that is not sent ends its exchange as a failure (R174, R185). -/
def Dev.pollLost (d : Dev) (k : Nat) (i : Option Nat) : Dev :=
  match i with
  | some i =>
    if !d.entryBad i ∧ (d.rd (N.STATE i) = stACTIVE ∨ d.rd (N.STATE i) = stJOINING) then d.exchangeFail k i else d
  | none => d

/-- What the step at PC loses where it sends nothing: a beacon slot, or an exchange with the armed node. -/
def Dev.unsent (d : Dev) (q k code : Nat) : Dev :=
  match (d.stepAt q).map Step.op with
  | some (.tx typ _ _ _ _) =>
    if typ.toNat = tyBEACON then (if code = txDLMISS then d else d.beaconLost q k (d.sqPc q) 0)
    else if (typ.toNat = tyPOLL ∨ typ.toNat = tyRELAY) ∧ d.role k = roleHEAD then d.pollLost k (d.sq q).armed
    else d
  | _ => d

/-- A TX step ends at once with a result: its counts and its outcome (R205). -/
def Dev.closeTx (d : Dev) (q k code : Nat) : Dev :=
  let d := if code = txREFUSED ∨ code = txNOENT ∨ code = txOVERLAP then d.countRef q else d
  let d := if code = txOVERLAP then d.raise (F.SQ_STATUS_OVERLAP q) else d
  ((d.unpin q).done q).commitTx k code

/-- End a TX step at once with a result (R205). -/
def Dev.endTx (d : Dev) (q k code : Nat) : Dev := (d.unsent q k code).closeTx q k code

/-- End a TX step whose form is refused (R107): no DLMISS is recorded, for a BEACON either. -/
def Dev.endForm (d : Dev) (q k typ : Nat) : Dev := (if typ = tyBEACON then d else d.unsent q k txREFUSED).closeTx q k txREFUSED

/-- A TX step missed its deadline: DLMISS, and a grant it holds returns unused. R213 says so of a key that is not resident; after
any other miss the grant returns as well (DESIGN CHOICE, log entry 182). -/
def Dev.missTx (d : Dev) (q k sub : Nat) (deadline : Option Nat) : Dev :=
  (((((d.unsent q k txDLMISS).modSq q (fun s => { s with grant := none })).unpin q).stepMiss q sub deadline)).commitTx k txDLMISS

/-- A transmit counter of the plan has no value left (R272). -/
def Dev.fctrSpent (d : Dev) (p : TxPlan) : Bool :=
  p.typ != tyINNER && (p.hops ++ [p.entry]).any (fun i => decide (d.fctr i = 2 ^ 64 - 1))

/-- DRVLOCK is set on a member (R31). -/
def Dev.locked (d : Dev) (k : Nat) : Bool := (d.members k).any (fun m => d.on (F.LIF_STATUS_DRVLOCK m))

/-- While DRVLOCK is set every TX step records DRVOC (R31). -/
def Dev.noteLock (d : Dev) (k : Nat) : Dev := if d.locked k then d.cause causeDRVOC { chan := some k } else d

/-- Steps 3 to 5 of R205 for a step whose checks 1 and 2 passed, at its transmit instant `t`: it holds, ends, or issues; while
DRVLOCK is set it completes without transmitting (R31). -/
def Dev.tryTx (d : Dev) (q k : Nat) (p : TxPlan) (t : Nat) : Dev :=
  let s := d.sq q
  if d.locked k then d.endTx q k txCUT
  else if t < d.now + 40 then d.missTx q k subSLOT (some (t - 40))
  else match s.grant with
    | none =>
      if s.reqs.any (fun r => r.kind == .txslot) then d.hold q t (t - 40)
      else if s.slotFailed then d.endTx q k txNOGRANT
      else (d.budgetDeny (some k) (some q) (d.sqPc q) false).endTx q k txNOGRANT
    | some g =>
      if !(d.txKeys p).all d.keyReady then d.hold q t (t - 40)
      else if (d.txKeys p).any d.slotFails then
        ((d.txKeys p).foldl (fun d x => if d.slotFails x then (d.bindAsk x.1 x.2).2 else d) d).hold q t (t - 40)
      else if d.overlapsTx k t then d.endTx q k txOVERLAP
      else if d.fctrSpent p then d.endTx q k txREFUSED
      else if !d.prmqRoom k 1 then d.hold q t (t - 40)
      else (d.issueTx q k p t g).abortStarted k

/-- The gap that GAP adds, with the grant marked used; none where there is no gap to use. R207 names a TB for each step and says
nothing of another: the gap is added whatever TB is (DESIGN CHOICE, log entry 179). -/
def Dev.useGap (d : Dev) (k typ : Nat) : Option (Nat × Dev) :=
  match (d.ch k).grant with
  | none => none
  | some g =>
    let put := fun (g : Grant) => d.modCh k (fun c => { c with grant := some g })
    if typ = tyRESP ∧ !g.relay ∧ g.gapFree then some (g.gap, put { g with gapFree := false })
    else if typ = tyINNER ∧ g.relay ∧ g.gapFree then some (g.gap, put { g with gapFree := false })
    else if typ = tyRESP ∧ g.relay ∧ g.rtxFree then some (g.rtx, put { g with rtxFree := false })
    else none

/-- A switch entry of a non-lead member's own sequencer is ignored and sets TRCONF (R35). -/
def Dev.memberEntry (d : Dev) (q : Nat) : Dev :=
  if d.lead (d.tgt q) = d.tgt q then d else d.raise (F.LIF_STATUS_TRCONF (d.tgt q))

/-- The forms of the frames nested in a plan's frame lie within the versions of their nodes (R107, R187). -/
def Dev.nestedOk (d : Dev) (k : Nat) (p : TxPlan) : Bool :=
  p.hops == [] || ((p.hops.drop 1).all (fun h => d.formOk k p.form (d.entryVer h)) &&
    d.formOk k p.inForm (if beaconType p.typ then 1 else d.entryVer p.entry))

/-- The refusal under R107 and R133 of a plan whose shortest frame has LEN `len`: a step of TYPE 0, 4 or 5 names B30 whatever
carries it. -/
def Dev.planRefusal (d : Dev) (k : Nat) (p : TxPlan) (len : Nat) : Option (List Nat × Bool) :=
  match (d.ch k).grant, p.typ == tyINNER with
  | some g, true => d.innerRefusal k g
  | _, _ =>
    match d.txRefusal k p.form p.ver len 0 (beaconType p.typ || p.ver == 1) with
    | some r => some r
    | none => if d.nestedOk k p then none else some ([k], true)

/-- The entries that a TX step reads and that fail parity (R224): that of its node, and those of the repeaters. -/
def Dev.txBad (d : Dev) (q k typ : Nat) (via : Bool) : List Nat :=
  let hops := match via, (d.sq q).armed with
    | true, some i => if d.entryBad i then [] else (d.espalier i).filterMap (d.lookupAt k)
    | _, _ => []
  ((d.txEntry q k typ).toList ++ hops).filter d.entryBad

/-- Those entries count as unused: PARITY, then NOENT where the armed node is one of them and the step needs it, else REFUSED. -/
def Dev.endTxBad (d : Dev) (q k typ fsel : Nat) (via : Bool) : Dev :=
  let noent := needsArmed typ fsel via && ((d.sq q).armed.map d.entryBad).getD false
  ((d.txBad q k typ via).foldl (fun d i => d.entryParity k i) d).endTx q k (if noent then txNOENT else txREFUSED)

/-- The time of R198, where the gap of R207 is not refused; then checks 1 and 2 of R205, the form and the content, then `tryTx`. -/
def Dev.txStep (d : Dev) (q : Nat) (st : Step) (typ fsel : Nat) (via : Bool) (lenmax : Nat) (gap : Bool) : Dev :=
  let k := d.tgt q
  match (if gap then d.useGap k typ else some (0, d)) with
  | none => (d.memberEntry q).endTx q k txREFUSED
  | some (n, d') =>
    match d.stepTime q st n with
    | none => d.missTx q k subCONV none
    | some t =>
      if !d.ownerOk q ∨ !roleSends (d.role k) typ then (d.memberEntry q).endTx q k txREFUSED
      else
        let d := d'
        if needsArmed typ fsel via ∧ (d.sq q).armed = none then d.endTx q k txNOENT
        else if d.txBad q k typ via ≠ [] then d.endTxBad q k typ fsel via
        else match d.txPlan q k typ fsel via lenmax with
          | none => d.endTx q k txREFUSED
          | some p =>
            let inner := (((d.ch k).grant.map (fun g => g.inner)).getD [])
            let len := p.lenOf inner (d.baseLen k p)
            match d.planRefusal k p len with
            | some (l, fr) => (d.wfReject l fr).endForm q k typ
            | none =>
              if p.limit < len ∧ p.typ ≠ tyINNER then d.endTx q k txREFUSED
              else
                let d := if typ = tyJOINREQ ∧ (d.joinSlot k t).isSome then d.drawSlot k else d
                if d.typeReady k p.entry typ t then d.tryTx q k p t else d.endTx q k txREFUSED

/-- Try a held TX step again (R201); its entries are read anew (R224), and no JOINREQ is sent while ESTATE is not TRUSTED (R319). -/
def Dev.retryTx (d : Dev) (q : Nat) : Dev :=
  match d.heldWait q with
  | some (.tx typ fsel via lenmax _) =>
    let k := d.tgt q
    let d := d.noteLock k
    if d.txBad q k typ.toNat via ≠ [] then d.endTxBad q k typ.toNat fsel.toNat via
    else match d.txPlan q k typ.toNat fsel.toNat via lenmax.toNat with
    | some p =>
      if typ.toNat = tyJOINREQ ∧ !d.trusted then d.endTx q k txREFUSED else d.tryTx q k p (d.sq q).target
    | none => d.endTx q k txREFUSED
  | _ => d

/-- Try every held TX step again: a key became resident, a grant was decided, or an entry left PRMQ. -/
def Dev.retryAll (d : Dev) : Dev := d.seq.foldl (fun d e => d.retryTx e.1) d

/-- TX (R205). -/
def execTx (t : Nat) (q : SeqId) (s : State) : Host.Outcome State Fault Refusal :=
  s.runClk t (fun d =>
    if d.sqState q.val = sqHOLD then d.asBefore (fun d => d.retryTx q.val)
    else d.fetch q.val .tx (fun st d =>
      match st.op with
      | .tx typ fsel via lenmax gap => (d.noteLock (d.tgt q.val)).txStep q.val st typ.toNat fsel.toNat via lenmax.toNat gap
      | _ => d))

/-! ### The transmission (R32 to R35, R110) -/

/-- The drivers of a channel's die may leave high-impedance (R32). -/
def Dev.supplyOk (d : Dev) (k : Nat) : Bool := !d.gov.vhvLow.contains (k / 16) && !d.gov.vddFeLow

/-- The first job of a channel that is due and has not begun. -/
def dueJob (l : List TxJob) (now : Nat) : Option TxJob := l.find? (fun x => !x.begun && decide (x.t ≤ now))

/-- The switch of a member begins to move to transmit at `t`, for a frame that ends at `fin` (R33, R27); the slot's band plan sets
the drive class (R29). -/
def Dev.switchTx (d : Dev) (m t fin : Nat) : Dev :=
  d.modCh m (fun c => { c with
    swTx := true, swTo := fin + 200, driverOn := d.supplyOk m, drvFrom := t + 150, drvTo := fin + 50, tripped := false,
    highBand := d.driveHigh m, blankFrom := if t < c.blankUntil then c.blankFrom else t, blankUntil := fin + 400
    blanked := (if t < c.blankUntil then c.blanked else (c.blankFrom, c.blankUntil) :: c.blanked).filter (fun b =>
      decide (c.rx.at_ < b.2 + 8192)) })

/-- The driver of a member is out of high-impedance (R31, R33). -/
def Dev.driverLive (d : Dev) (m : Nat) : Bool :=
  (d.ch m).driverOn && decide ((d.ch m).drvFrom ≤ d.now) && decide (d.now < (d.ch m).drvTo)

/-- The switch of a member is in transmit or moves to it (R33). -/
def Dev.switchedTx (d : Dev) (m : Nat) : Bool := (d.ch m).swTx && decide (d.now < (d.ch m).swTo)

/-- The largest differential output of a member's driver in its slot in mVpp: the limit of R29 lowered by TXCAP · 0.5 dB (R30), as
DAC code 8,191 stands for it. -/
def Dev.drivePeak (d : Dev) (m limit : Nat) : Nat := driveLimit (d.ch m).highBand * limit / 8191

/-- The switch of a member returns to receive after the last transmit sample at `e`: the driver is high-impedance at E + 50, the
switch in receive at E + 200, and blanking ends at E + 400 (R33). Zero chips empty the transmit chain (R17, R75). -/
def Dev.switchRx (d : Dev) (m e : Nat) : Dev :=
  d.modCh m (fun c => { c with drvTo := e + 50, swTo := e + 200, blankUntil := e + 400, tx := {} })

/-- A POLL to a node was sent (R229). -/
def Dev.pollSent (d : Dev) (k i : Nat) : Dev :=
  let d := d.modLf k (fun l => { l with exch := some i })
  if d.rd (N.STATE i) = stJOINING then d.wr (N.JPOLLED i) 1
  else
    let d := d.wr (N.LASTP i) d.cycle
    if d.rd (N.STATE i) = stACTIVE ∧ !(d.ch k).lf.polled.contains i then d.modLf k (fun l => { l with polled := l.polled ++ [i] })
    else d

/-- A JOINACC was sent (R184, R275): with STATUS 0 the entry is JOINING and the session is adopted. -/
def Dev.joinAccSent (d : Dev) (k i : Nat) (m : JoinAccMsg) : Dev :=
  let l := (d.ch k).lf
  let win := l.window.getD 0
  let d := d.modLf k (fun l => { l with held := (i, win) :: l.held.filter (fun h => h.1 ≠ i) })
  let req := l.pend.filter (fun p => p.1 = i)
  let d := d.modLf k (fun l => { l with pend := l.pend.filter (fun p => p.1 ≠ i) })
  if m.status ≠ 0 then d
  else
    let d := (((d.wr (N.STATE i) stJOINING).wr (N.JPOLLED i) 0).wr (N.FAILS i) 0)
    let d := (d.wr (N.W11 i) (m.nonceH.toNat / 2 ^ 32)).wr (N.W12 i) m.nonceH.toNat
    let d := d.adoptSession i m.nonceN m.nonceH (d.rd (N.ADDR i)) true
    d.modLf k (fun l => { l with polled := l.polled.erase i, offers := req ++ l.offers.filter (fun p => p.1 ≠ i) })

/-- What a frame sent whole does to the protocol state (R183, R185, R189, R229). -/
def Dev.frameSent (d : Dev) (k : Nat) (x : TxJob) : Dev :=
  if x.typ = tyPOLL then d.pollSent k x.entry
  else if x.typ = tyRELAY then (if d.rd (N.STATE x.entry) = stACTIVE then d.pollSent k x.entry else d)
  else if x.typ = tyRESP then d.modLf k (fun l => { l with nonceH := none })
  else if x.typ = tyJOINREQ then d.wr (F.LF_STATUS_OSTATE k) osJOINING
  else if x.typ = tyINNER then d.inc (F.LF_CNT4_RELAYCNT k)
  else if x.typ = tyJOINACC then (match readJoinAcc x.core with | some m => d.joinAccSent k x.entry m | none => d)
  else d

/-- The windows that wait for the end of a transmission open 400 ns after its actual end, not before their own instants (R35). -/
def Dev.windowsAfter (d : Dev) (k e : Nat) : Dev :=
  d.modCh k (fun c => { c with wins := c.wins.map (fun w =>
    match w.want with
    | some o => if w.opened then w else { w with opn := max o (e + 400) }
    | none => w) })

/-- A transmission ends with a TX outcome: its chips have passed the chains of every member, its grant leaves the charge, its
counters and events count, what was not sent is rewound, and what was sent moves its keys' rolls (R75, R174, R203, R264, R287,
R332). E_tx is the end of a transmission that ended CUT too (DESIGN CHOICE, log entry 180). -/
def Dev.finishTx (d : Dev) (k : Nat) (x : TxJob) (code e : Nat) : Dev :=
  let d := (d.members k).foldl (fun d m => d.runTx m e) d
  let d := d.modCh k (fun c => { c with txs := c.txs.filter (fun y => y ≠ x), eTx := some e })
  let d := ((d.members k).foldl (fun d m => d.switchRx m e) d).windowsAfter k e
  let d := ((d.event 3 4 k x.chips).freeJob x).pipeEnd k (if x.begun then x.msg.length else 0)
  let d := if code = txSENT then
      let d := (d.event 3 3 k x.msg.length).frameSent k x
      let d := x.keys.foldl (fun d key => d.sentUnder key.1 key.2) d
      { d with bwSum := Tab.set 0 d.bwSum (2 * k + 1) (Tab.get 0 d.bwSum (2 * k + 1) + x.msg.length) }
    else
      let d := d.unmark x
      if x.typ = tyPOLL ∨ x.typ = tyRELAY then d.pollLost k (some x.entry)
      else if x.typ = tyBEACON ∧ !x.starved then d.beaconLost x.seq k x.step (e - x.t)
      else d
  d.commitTx k code

/-- TRANSMISSION_END (R33, R203): the last transmit sample has left. -/
def execTransmissionEnd (t : Nat) (k : ChanId) (s : State) : Host.Outcome State Fault Refusal :=
  s.runClk t (fun d =>
    match (d.ch k.val).txs.find? (fun x => x.begun && decide (x.fin ≤ d.now)) with
    | none => d
    | some x => d.finishTx k.val x (if x.starved then txDLMISS else txSENT) x.fin)

/-! ### The driver (R31, R32, R433) -/

/-- Cut a transmission under way. -/
def Dev.cutTx (d : Dev) (k : Nat) : Dev :=
  match (d.ch k).txs.find? (fun x => x.begun) with
  | some x => d.finishTx k x txCUT d.now
  | none => d

/-- The trip makes DRVLOCK (R31): the first of the last four trips lies at most 15 cycles back. -/
def tripsLock (trips : List Nat) (c : Nat) : Bool :=
  match trips with
  | _ :: _ :: _ :: a :: _ => decide ((c + 2 ^ 32 - a) % 2 ^ 32 ≤ 15)
  | _ => false

/-- DRIVER_OVERCURRENT (R31): a trip while the driver is out of high-impedance. -/
def execDriverOvercurrent (t : Nat) (k : ChanId) (s : State) : Host.Outcome State Fault Refusal :=
  s.runClk t (fun d =>
    let c := d.ch k.val
    let lead := d.lead k.val
    if !d.driverLive k.val ∨ !(d.ch lead).txs.any (fun x => x.begun) then d
    else
      let trips := (d.cycle :: c.trips).take 4
      let d := (d.setCh k.val { c with trips := trips, driverOn := false, tripped := true }).raise (F.LIF_STATUS_DRVOC k.val)
      let d := if tripsLock trips d.cycle then d.raise (F.LIF_STATUS_DRVLOCK k.val) else d
      (d.cause causeDRVOC { chan := some k.val }).cutTx lead)

/-- Every driver of the channels that satisfy a predicate goes high-impedance and their transmissions end CUT (R32). -/
def Dev.dropDrivers (d : Dev) (p : Nat → Bool) : Dev :=
  ((d.chan.map Prod.fst).filter p).foldl (fun d k =>
    (if (d.ch k).driverOn then d.cutTx (d.lead k) else d).modCh k (fun c => { c with driverOn := false })) d

/-- VHV_FE_LOW (R32, R433). -/
def execVhvFeLow (t : Nat) (die : DieId) (s : State) : Host.Outcome State Fault Refusal :=
  s.run t (fun d =>
    let d := { d with gov := { d.gov with vhvLow := insertNat die.val (d.gov.vhvLow.filter (fun n => n ≠ die.val)) } }
    d.dropDrivers (fun k => k / 16 == die.val))

/-- VHV_FE_RESTORED (R433). -/
def execVhvFeRestored (t : Nat) (die : DieId) (s : State) : Host.Outcome State Fault Refusal :=
  s.run t (fun d => { d with gov := { d.gov with vhvLow := d.gov.vhvLow.filter (fun n => n ≠ die.val) } })

/-- VDD_FE_OUT_OF_RANGE (R32, R433). -/
def execVddFeOutOfRange (t : Nat) (s : State) : Host.Outcome State Fault Refusal :=
  s.run t (fun d => { d with gov := { d.gov with vddFeLow := true } }.dropDrivers (fun _ => true))

end Sys2Proof.Machine
end

