-- ==== Sys2Proof/Machine/Receive.lean ====
section
/-! DEFINITION. The RX step and the receiver: window, detection, sync, header, payload, verdict, results, and the noise floor
(R35 to R39, R58, R59, R136 to R162, R179, R180, R184, R203, R209, R277, R283, R292 to R296, R452). -/

namespace Sys2Proof.Machine

open Sys2Proof

/-! ### Windows -/

/-- H(k): the group delay of the receive chain plus 1,500 ns (R59). -/
def Dev.hns (d : Dev) (k : Nat) : Nat := d.gdelayRx k + 1500

/-- The referred instant of the chip that leaves the chain now. -/
def Dev.refNow (d : Dev) (k : Nat) : Nat := d.now - d.gdelayRx k

/-- The frame whose chips come in (R136). -/
def Chan.live (c : Chan) : Option RxLock := c.lock.filter (fun l => !l.ended)

/-- The frame under way on a channel belongs to window `w`. -/
def RxWin.owns (w : RxWin) (l : Option RxLock) : Bool := (l.map (fun x => x.opn == w.opn)).getD false

/-- The open windows without a frame whose last chip has been taken: an RX step receives at most one frame (R136). -/
def Chan.openWins (c : Chan) : List RxWin :=
  c.wins.filter (fun w => w.opened && !(c.frames.filter RxLock.ended).any (fun l => l.opn == w.opn))

/-- The window that opened last and may still take a frame. -/
def Dev.curWin (d : Dev) (k : Nat) : Option RxWin := (d.ch k).openWins.getLast?

/-- The window to which a chip of a referred instant in 2^−24 ns belongs: the one that opened last before it (R58, R138). -/
def Dev.winOf (d : Dev) (k ref : Nat) : Option RxWin := ((d.ch k).openWins.filter (fun w => decide (w.opn * 2 ^ 24 ≤ ref))).getLast?

/-- The window that the primary correlator serves: an arrival belongs to it whichever windows have opened since (R58, R59). -/
def Dev.searchWin (d : Dev) (k : Nat) : Option RxWin := (d.ch k).openWins.find? (fun w => w.opn == (d.ch k).searchOpn)

/-- The window in which the frame under way was locked. -/
def Dev.lockWin (d : Dev) (k : Nat) : Option RxWin :=
  (d.ch k).lock.bind (fun l => (d.ch k).wins.find? (fun w => w.opened && w.opn == l.opn))

/-- Change the frame under way. -/
def Dev.modLock (d : Dev) (k : Nat) (f : RxLock → RxLock) : Dev := d.modCh k (fun c => { c with lock := c.lock.map f })

/-- Replace a window. -/
def Dev.putWin (d : Dev) (k : Nat) (w w' : RxWin) : Dev :=
  d.modCh k (fun c => { c with wins := c.wins.map (fun x => if x = w then w' else x) })

/-- Receiver state (R136). -/
def Dev.aqTo (d : Dev) (k st : Nat) : Dev := d.wr (F.AQ_STATUS_STATE k) st
def Dev.aqState (d : Dev) (k : Nat) : Nat := d.rd (F.AQ_STATUS_STATE k)

/-- A gain code reaches the amplifier: 43 to 63 act as 42 (R37, R38). -/
def Dev.applyGain (d : Dev) (m g : Nat) : Dev :=
  let d := if 42 < g then d.raise (F.LIF_STATUS_GAINREJ m) else d
  d.modCh m (fun c => if c.gain = min 42 g then c else { c with
    gain := min 42 g, gainAt := d.now
    gained := (c.gainAt :: c.gained).filter (fun a => decide (c.rx.at_ < a + 60)) })

/-- GAIN_IDLE outside slots (R37). -/
def Dev.idleGain (d : Dev) (m : Nat) : Dev := d.applyGain m (d.rd (F.LIF_CFG_GAIN_IDLE m))

/-- Where no window of the channel is open, the amplifier follows GAIN_IDLE (R37). -/
def Dev.restGain (d : Dev) (m : Nat) : Dev :=
  if (d.ch (d.lead m)).wins.any (fun w => w.opened) then d else d.idleGain m

/-- A TRIM entry of the receiver: it belongs to the RX step of the frame under way (R139, R209). -/
def Dev.pushTrim (d : Dev) (k : Nat) (v : Int) : Dev :=
  d.pushPrmq k
    (match d.lockWin k with
     | some w => { at_ := d.now + 40, kind := .trim v, seq := w.seq, step := w.step }
     | none => { at_ := d.now + 40, kind := .trim v })

/-- TRIM returns to 0 through PRMQ (R141). -/
def Dev.trimHome (d : Dev) (k : Nat) : Dev := d.pushTrim k 0

/-- The power of the largest payload chip in 1/16 dB relative to P_FS (R159). -/
def Dev.peakDb (d : Dev) (k power : Nat) : Int := let r := d.overFull k power 1 0; db16 r.1 r.2

/-! ### The decoder pool (R154) -/

/-- Pool quarters that are powered. -/
def Dev.quarters (d : Dev) : Nat := ((List.range 4).filter (fun i => d.domOn (72 + i))).length

/-- The oldest codeword that waits starts in a free quarter, with its cap (R153, R154). -/
def Dev.startCodeword (d : Dev) : Dev :=
  match d.pool with
  | [] => d
  | (k, s, n) :: rest =>
    if d.quarters ≤ d.poolBusy.length then d
    else
      let cap := d.iterCap k
      let d := { d with pool := if n ≤ 1 then rest else (k, s, n - 1) :: rest, poolBusy := d.poolBusy ++ [(k, s)] }
      d.modCh k (fun c => c.mapFrames (fun l =>
        if l.stamp = s then { l with started := l.started ++ [(cap, l.stream.take 6144)], stream := l.stream.drop 6144 } else l))

/-- Waiting codewords start while quarters are free. -/
def Dev.startPool (d : Dev) : Dev := (List.range 4).foldl (fun d _ => d.startCodeword) d

/-- The codewords of a frame that is over leave the pool. -/
def Dev.dropPool (d : Dev) (k stamp : Nat) : Dev :=
  if d.pool.any (fun e => e.1 == k && e.2.1 == stamp) ∨ d.poolBusy.contains (k, stamp) then
    { d with pool := d.pool.filter (fun e => !(e.1 == k && e.2.1 == stamp))
             poolBusy := d.poolBusy.filter (fun x => x != (k, stamp)) }.startPool
  else d

/-- Act on a frame that waits behind: it stands in place of the one received now, whose receiver state and candidate are kept. -/
def Dev.inPlace (d : Dev) (k : Nat) (o : RxLock) (rest : List RxLock) (f : Dev → Dev) : Dev :=
  let c := d.ch k
  let mine := fun (l : RxLock) => (c.lock.map (fun x => x.stamp == l.stamp)).getD false
  let d' := f (d.setCh k { c with lock := some o, behind := rest ++ c.lock.toList, cand := none })
  (d'.modCh k (fun h => { h with
    lock := h.behind.find? mine, behind := h.lock.toList ++ h.behind.filter (fun l => !mine l), cand := c.cand })).aqTo k (d.aqState k)

/-- A command of decoding or judgement acts on the oldest frame of the channel. -/
def Dev.onOldest (d : Dev) (k : Nat) (f : Dev → Dev) : Dev :=
  match (d.ch k).behind with
  | [] => f d
  | o :: rest => d.inPlace k o rest f

/-- Act on the first frame of the channel that satisfies a predicate, where one does. -/
def Dev.onFrame (d : Dev) (k : Nat) (p : RxLock → Bool) (f : Dev → Dev) : Dev :=
  match (d.ch k).behind.find? p, (d.ch k).lock with
  | some o, _ => d.inPlace k o ((d.ch k).behind.filter (fun l => l.stamp != o.stamp)) f
  | none, some l => if p l then f d else d
  | none, none => d

/-! ### The end of a reception -/

/-- Q and QSRC of a frame whose SS is latched (R158). -/
def Dev.signalQuality (d : Dev) (k : Nat) (l : RxLock) : Dev :=
  if l.ssLatched then
    let (q, src) := d.quality k l.ss
    let d := if src then d.wr (F.AQ_STATUS_NFSTALE k) 1 else d
    (d.wrS (F.AQ_QUAL_Q k) q).wr (F.AQ_QUAL_QSRC k) (if src then 1 else 0)
  else d

/-- Q, QSRC, GAIN_ADV and DMARGIN at the end of a frame that reached PAYLOAD (R155, R158, R159). -/
def Dev.frameQuality (d : Dev) (k : Nat) (l : RxLock) : Dev :=
  let d := d.signalQuality k l
  let d := d.wr (F.AQ_QUAL_GAIN_ADV k) (d.gainAdv k (l.gain.getD (d.ch k).gain) l.clipOnly (d.peakDb k l.peak))
  d.wr (F.AQ_QUAL_DMARGIN k) l.dmargin

/-- Items that the channel's receiver has begun to hand on end ABORT; TAGCUT counts one that a port had begun and a tag
mismatch ends (R296). -/
def Dev.abortItems (d : Dev) (k : Nat) (tag : Bool) : Dev :=
  (List.range 4).foldl (fun d c =>
    let q := d.uqBase k + c
    let s := d.sh q
    if s.openTail then
      let begun := s.taking && s.items.length == 1
      let d := if tag ∧ begun then d.inc F.CI_CNT2_TAGCUT else d
      d.abortTail q
    else d) d

/-- The frame received fails: what was handed on of it is taken back; an item ends ABORT, and staging cells are zeroed and freed
(R146, R296). -/
def Dev.abortHandOn (d : Dev) (k : Nat) (tag : Bool) : Dev :=
  let c := d.ch k
  if c.handing.isNone ∨ c.lock.map RxLock.stamp ≠ c.handing then d
  else ((d.abortItems k tag).zeroCells c.stage).modCh k (fun c => { c with handing := none, stage := [] })

/-- The message has acted: the staging cells are free, and no item of it stays open. -/
def Dev.endHandOn (d : Dev) (k : Nat) : Dev :=
  let d := if (d.ch k).handing.isSome then d.abortItems k false else d
  ((d.returnCells (d.ch k).stage).modCh k (fun c => { c with handing := none, stage := [] })).pfcCheck

/-- Messages whose data units the channel's role takes, from an association that carries them (R173). -/
def Dev.takesUnits (d : Dev) (k i typ : Nat) : Bool :=
  d.carries k i && (if d.isOut k then typ == tyPOLL || typ == tyRELAY else d.role k == roleHEAD && typ == tyRESP)

/-- The first data unit of the message in the codewords so far is known: one that ends the message goes to its uplink queue word
by word, the last word being withheld, and a message of more units goes to staging cells (R294). A unit that R173 discards waits
for that. `plain` is what has been decrypted of the `n` octets. -/
def Dev.handUnits (d : Dev) (k stamp i typ n : Nat) (plain : List Byte) : Dev :=
  let m := fitTo n plain
  let start := unitsAt typ m + 6
  match (messageUnits typ m).1 with
  | [] => d
  | u :: _ =>
    if plain.length < start then d
    else
      let d := d.modCh k (fun c => { c with handing := some stamp })
      if start + u.content.length ≠ n then d.stageTo k (ceilDiv (plain.length + 6 - start) 8)
      else if u.rel ∧ u.dseq ≠ d.rd (N.RXEXP i) then d
      else
        let q := d.uqBase k + u.cls
        let s := d.sh q
        let done := if s.openTail then (s.items.getLast?.getD {}).len / 8 else 0
        let upto := min ((plain.length - start) / 8) (ceilDiv u.content.length 8 - 1)
        let new := groups8 ((wordsOf (u.content.take (8 * upto))).drop done)
        let d := (new.foldl (fun d g => d.pushShallow q u.cls g none) d).pfcCheck
        if (d.sh q).openTail then d.tagTail q i false else d

/-- Hand on what the frame's codewords so far decrypt to (R253, R294), once the message before it on the channel has acted. -/
def Dev.handOn (d : Dev) (k : Nat) : Dev :=
  match (d.ch k).lock with
  | none => d
  | some l =>
    match l.hdr, l.key, l.entry with
    | some h, some (sa, ph), some i =>
      let b := whiteBody (hdrSrc h) l.body
      let n := bodyBlen b
      if l.failed ∨ l.aborted ∨ (d.ch k).accepted.isSome ∨ (d.ch k).lf.nested.isSome ∨ !d.takesUnits k i (hdrType h) then d
      else d.handUnits k l.stamp i (hdrType h) n
        (gctr (d.clearKey sa (d.startKey (sa, ph))) (d.lineNonce h sa (bodyFctr b)) ((b.drop 12).take n) 2)
    | _, _, _ => d

/-- The accepted frame is a RESP of the entry's node or of the first repeater of its espalier, whose row settles the
exchange (R174, R190). -/
def Dev.answers (d : Dev) (k i : Nat) : Bool :=
  match (d.ch k).accepted with
  | some a => a.typ == tyRESP && (a.entry == i || (d.espalier i).head? == some (d.rd (N.ADDR a.entry)))
  | none => false

/-- The RX outcome settles the exchange of the POLL sent last, and where none is open that of the armed node (R174, R185). -/
def Dev.settleExchange (d : Dev) (k entry : Nat) (ok : Bool) : Dev :=
  let i := match (d.ch k).lf.exch with | some i => some i | none => if entry = 0 then none else some entry
  let d := d.modLf k (fun l => { l with exch := none })
  match i with
  | some i => if ok && d.answers k i then d else d.exchangeDone k i false
  | none => d

/-- Commit the RX outcome of a window (R147, R203): its frame is over, TRIM and gain return, the exchange is settled; the outcome
of a faulted sequencer's window is counted and returns to no step (R216). E_rx is the end of the last frame with result OK: which
frames it counts no rule says (DESIGN CHOICE, log entry 180). -/
def Dev.commitWin (d : Dev) (k : Nat) (w : RxWin) (code : Nat) (poll : Bool) : Dev :=
  let l := if w.owns (d.ch k).lock then (d.ch k).lock else none
  let ok := code == rxOK
  let d := match l with
    | some x =>
      let d := if x.ended then d else d.trimHome k
      let d := if x.hdr.isSome then d.frameQuality k x else d.signalQuality k x
      let d := (d.modCh k (fun c => { c with lock := none, cand := none, eRx := if ok then some x.fin else c.eRx })).dropPool k x.stamp
      if x.key.isSome then d.pipeEnd (64 + k) x.body.length else d
    | none => d
  let d := d.modCh k (fun c => { c with
    wins := c.wins.filter (fun x => x ≠ w), search := if c.searchOpn = w.opn then {} else c.search })
  let d := if w.relay ∧ !ok then d.modLf k (fun x => { x with upward := some (code, []) }) else d
  let d := if (d.ch k).lock.isSome then d
    else if (d.curWin k).isSome then d.aqTo k aqSEARCH
    else (d.members k).foldl Dev.restGain (d.aqTo k aqIDLE)
  let d := if code = rxCUT then d.cutFlags k else d
  let d := if d.role k = roleHEAD then d.settleExchange k w.entry ok else d
  if w.orphan then d.countRx k code else d.commitRx k code poll

/-! ### The RX step (R107, R207 to R209) -/

/-- End an RX step at once with REFUSED. -/
def Dev.endRx (d : Dev) (q k : Nat) : Dev := ((d.countRef q).done q).commitRx k rxREFUSED false

/-- Gain codes for the members of a channel from the armed node's entry (R209, R227). -/
def Dev.entryGains (d : Dev) (k i : Nat) : List Nat :=
  let w := d.rd (N.GAINS i)
  (List.range (d.bundleSize k)).map (fun j => w / 2 ^ (6 * j) % 64)

/-- The operands of an RX step after R207: WLEN, kh, sync, gain codes, the gap, and whether it listens after a RELAY. -/
structure RxPlan where
  wlen : Nat
  kh : Nat
  sync : Nat
  gains : List Nat
  gap : Nat := 0
  relay : Bool := false
deriving DecidableEq, Repr

/-- The gap of an RX step; none where R207 refuses it. -/
def Dev.rxGap (d : Dev) (k : Nat) (gap : Bool) : Option Nat :=
  if gap then (d.ch k).grant.bind (fun g => if g.relay ∧ g.winFree ∧ !g.refused then some g.wopen else none) else some 0

/-- The plan of an RX step; none where it is refused for want of a gap or of an armed node. -/
def Dev.rxPlan (d : Dev) (q k wlen kh sync : Nat) (gsrc : Bool) (gain : Nat) (gap : Bool) : Option RxPlan :=
  if gap then
    match (d.ch k).grant with
    | some g =>
      if g.relay ∧ g.winFree ∧ !g.refused then
        some { wlen := g.wlen, kh := 8 + g.ikh, sync := g.isync, gains := List.replicate (d.bundleSize k) g.igain,
               gap := g.wopen, relay := true }
      else none
    | none => none
  else if gsrc then
    some { wlen := wlen, kh := 8 + kh, sync := sync, gains := List.replicate (d.bundleSize k) gain }
  else ((d.sq q).armed.filter (fun i => !d.entryBad i)).map (fun i => { wlen := wlen, kh := 8 + kh, sync := sync, gains := d.entryGains k i })

/-- PRMQ of every member has room for the entries of an RX step: opening and gain on the lead, gain on the others. -/
def Dev.rxRoom (d : Dev) (k : Nat) : Bool := (d.members k).all (fun m => d.prmqRoom m (if m = k then 2 else 1))

/-- Issue the entries of an RX step that opens at `o` (R209). -/
def Dev.issueRx (d : Dev) (q k : Nat) (p : RxPlan) (o close : Nat) : Dev :=
  let step := d.sqPc q
  let w : RxWin := { seq := q, step := step, opn := o, close := close, kh := p.kh, sync := p.sync,
                     gains := p.gains, relay := p.relay, entry := (d.sq q).armed.getD 0 }
  let d := d.modCh k (fun c => { c with
    wins := c.wins ++ [w], prmq := c.prmq ++ [{ at_ := o, kind := .rx, seq := q, step := step }]
    lf := if p.relay then { c.lf with upward := none } else c.lf })
  let d := ((d.members k).zip p.gains).foldl (fun d e =>
    d.modCh e.1 (fun c => { c with prmq := c.prmq ++ [{ at_ := o, kind := .gain e.2, seq := q, step := step }] })) d
  d.done q

/-- An RX step with its open and close instants, which are those of its fetch: it holds, is refused under R208, or issues (R57,
R199). -/
def Dev.tryRx (d : Dev) (q k : Nat) (p : RxPlan) (o close : Nat) : Dev :=
  if o < d.now + 40 then d.stepMiss q subWINDOW (some (o - 40))
  else if (d.ch k).wins.any (fun w => decide (o < w.close) && decide (w.opn < close)) then
    (d.raise (F.SQ_STATUS_OVERLAP q)).endRx q k
  else if !d.rxRoom k then (d.modSq q (fun s => { s with close := close })).hold q o (o - 40)
  else d.issueRx q k p o close

/-- An RX step (R205 point 1 for the owner, R107, R207 to R209). -/
def Dev.rxStep (d : Dev) (q : Nat) (st : Step) (wlen kh sync : Nat) (gsrc : Bool) (gain : Nat) (gap : Bool) : Dev :=
  let k := d.tgt q
  match (d.rxGap k gap).map (d.stepTime q st) with
  | none => (d.memberEntry q).endRx q k
  | some none => d.stepMiss q subCONV none
  | some (some o) =>
    if !d.ownerOk q ∨ d.role k = roleOFF then (d.memberEntry q).endRx q k
    else match d.rxPlan q k wlen kh sync gsrc gain gap with
      | none => (match (d.sq q).armed with | some i => d.entryParity k i | none => d).endRx q k
      | some p =>
        let d := if gap then d.modCh k (fun c => { c with grant := c.grant.map (fun g => { g with winFree := false }) }) else d
        match d.rxRefusal k p.kh p.sync with
        | some l => (d.wfReject l false).endRx q k
        | none => d.tryRx q k p o (o + d.grains p.wlen)

/-- Try a held RX step again; one that listens after a RELAY takes its plan from the grant it used. -/
def Dev.retryRx (d : Dev) (q : Nat) : Dev :=
  match d.heldWait q with
  | some (.rx wlen kh sync gsrc gain gap) =>
    let k := d.tgt q
    let d' := if gap then d.modCh k (fun c => { c with grant := c.grant.map (fun g => { g with winFree := true }) }) else d
    match d'.rxPlan q k wlen.toNat kh.toNat sync.toNat gsrc gain.toNat gap with
    | some p => d.tryRx q k p (d.sq q).target (d.sq q).close
    | none => d.endRx q k
  | _ => d

/-- RX (R209). -/
def execRx (t : Nat) (q : SeqId) (s : State) : Host.Outcome State Fault Refusal :=
  s.runClk t (fun d =>
    if d.sqState q.val = sqHOLD then d.retryRx q.val
    else d.fetch q.val .rx (fun st d =>
      match st.op with
      | .rx wlen kh sync gsrc gain gap => d.rxStep q.val st wlen.toNat kh.toNat sync.toNat gsrc gain.toNat gap
      | _ => d))

/-! ### Opening (R35, R37, R138) -/

/-- The instant before which the channel is blanked by a transmission under way, due, or just ended (R33, R35). -/
def Dev.blankEnd (d : Dev) (k o : Nat) : Nat :=
  let l := (d.ch k).txs.filter (fun x => decide (x.t ≤ o) && decide (o < x.fin + 400))
  ((d.members k).map (fun m => (d.ch m).blankUntil) ++ l.map (fun x : TxJob => x.fin + 400)).foldl max 0

/-- The entries of an opening leave PRMQ. -/
def Dev.dropOpening (d : Dev) (k o : Nat) : Dev :=
  (d.members k).foldl (fun d m => (d.modCh m (fun c => { c with prmq := c.prmq.filter (fun e =>
    !(decide (e.at_ ≤ o) && (match e.kind with | .rx => true | .gain _ => true | _ => false))) })).pullPrmq m) d

/-- The gain codes of a window take effect at their instant (R18, R37). -/
def Dev.openGains (d : Dev) (k : Nat) (w : RxWin) : Dev := ((d.members k).zip w.gains).foldl (fun d e => d.applyGain e.1 e.2) d

/-- A window opens: gain codes take effect and the receiver searches, unless its blanking has still to end. -/
def Dev.openWindow (d : Dev) (k : Nat) (w : RxWin) : Dev :=
  let e := d.blankEnd k w.opn
  if w.opn < e then
    let under := (d.ch k).txs.any (fun x => decide (x.t ≤ w.opn) && decide (w.opn < x.fin))
    let d := (d.dropOpening k w.opn).openGains k w
    let d := d.putWin k w { w with opn := e, gains := [], want := some (w.want.getD w.opn) }
    let d := if under then d.raise (F.LIF_STATUS_TRCONF k) else d
    if w.want.isSome then d else d.lateMiss w.seq w.step subWINDOW w.opn
  else
    let d := ((d.dropOpening k w.opn).openGains k w).putWin k w { w with opened := true }
    if (d.ch k).live.isSome then d else d.aqTo k aqSEARCH

/-- WINDOW_OPEN (R35, R37, R138). What the receiver does at the open instant while a frame of an earlier window still comes in no
rule says: the window opens with its gain codes, and the receiver searches in it once that frame's last chip has been taken or the
frame is abandoned (DESIGN CHOICE, log entry 176). -/
def execWindowOpen (t : Nat) (k : ChanId) (s : State) : Host.Outcome State Fault Refusal :=
  s.runClk t (fun d =>
    match (d.ch k.val).wins.find? (fun w => !w.opened && decide (w.opn ≤ d.now) && decide (w.opn ≤ w.close)) with
    | some w => d.openWindow k.val w
    | none => d)

/-! ### Lock, failure and restart (R138 to R147) -/

/-- The length of the windows of the RX step that is open. -/
def RxWin.n (w : RxWin) : Nat := 2 ^ w.kh

/-- The largest phase step: 0.45·Rc/N_h of frequency (R139). -/
def stepLimit : Int := 9 * 2 ^ 64 / 10

/-- Numerator and denominator of the frequency offset in Hz of a phase step per window of `n` chips (R139). -/
def Dev.offsetHz (d : Dev) (k n : Nat) (step : Int) : Int × Nat := (step * 10 ^ 9 * 2 ^ 24, 2 ^ 64 * 2 * n * d.chipLen k)

/-- Chips by which the next window starts later, so that the corrected peak falls on tine 0: the boundary moves earlier by the
integer part of p − Δf·N_h/Rc, modulo the period (R139; log entry 162). -/
def windowSkip (n p : Nat) (step : Int) : Nat :=
  let t := ((p : Int) * 2 ^ 65 - step).tdiv (2 ^ 65)
  ((-t) % (n : Int)).toNat

/-- The estimate of R139 from the preamble windows of the frame under way: the clamped step, FOFS, FREQLIM, the TRIM entry, and the
move of the window boundary. -/
def Dev.estimate (d : Dev) (k n : Nat) : Dev :=
  match (d.ch k).lock with
  | none => d
  | some l =>
    if phaseSteps l.corr.peaks = [] then d
    else
      let m := meanStep l.corr.peaks
      let step := max (-stepLimit) (min m stepLimit)
      let (num, den) := d.offsetHz k n step
      let d := d.wrS (F.AQ_FREQ_FOFS k) (roundDiv num (32 * den))
      let trim := -(roundDiv (num * d.rsStep k * 2 ^ 32) (den * max 1 (d.nco k) * 10 ^ 9))
      let sat := max (-4096) (min trim 4095)
      let d := if step ≠ m ∨ sat ≠ trim then d.raise (F.AQ_STATUS_FREQLIM k) else d
      let p := (l.corr.peaks.head?.map Peak.p).getD 0
      (d.modLock k (fun l => { l with step := step, freq := true, corr := { l.corr with skip := windowSkip n p step } })).pushTrim k
        sat

/-- Lock a frame in PREAMBLE with its arrival stamp and the correlator that detected it (R138, R145). -/
def Dev.lockFrame (d : Dev) (k : Nat) (w : RxWin) (stamp : Nat) (c : Corr) (ss : Int) : Dev :=
  let d := (d.putWin k w { w with arrival := some stamp, last := none }).aqTo k aqPREAMBLE
  d.modCh k (fun x => { x with
    behind := x.behind ++ x.lock.toList.filter RxLock.ended
    lock := some { stamp := stamp, opn := w.opn, ss := ss, corr := c }, cand := none, search := {} })

/-! ### Chips (R136 to R144, R157) -/

/-- A chip of referred instant `ns` may belong to a noise-floor run (R157). -/
def Dev.quietAt (d : Dev) (k ns : Nat) : Bool :=
  !(d.ch k).wins.any (fun w => w.opened && decide (w.opn ≤ ns) && decide (ns ≤ w.close)) &&
  !(d.ch k).txs.any (fun x => x.begun && decide (x.t ≤ ns)) &&
  !(d.members k).any (fun m => (((d.ch m).blankFrom, (d.ch m).blankUntil) :: (d.ch m).blanked).any (fun b =>
    decide (b.1 ≤ ns) && decide (ns < b.2)))

/-- The power of a chip of member `i`. -/
def Col.power (c : Col) (i : Nat) : Nat := let z := chipOf (c.ch.getD i 0); (z.1 * z.1 + z.2 * z.2).toNat

/-- A chip outside every window: it extends the noise-floor run, or ends it (R157). -/
def Dev.noiseChip (d : Dev) (k : Nat) (c : Col) : Dev :=
  if !d.quietAt k (c.ref / 2 ^ 24) then d.modCh k (fun h => { h with nfRun := {} })
  else
    let r := (d.ch k).nfRun
    let power := if c.erased = 0 then ((List.range c.ch.length).map c.power).sum else 0
    let r : NfRun := { n := r.n + 1, flagged := r.flagged + (if c.erased = 0 then 0 else 1), power := r.power + power }
    if r.n < 4096 then d.modCh k (fun h => { h with nfRun := r })
    else d.modCh k (fun h => { h with
      nfRun := {}, nfDue := if overErased (d.eras k) (r.flagged, r.n) then h.nfDue else h.nfDue ++ [r] })

/-- The tine of the locked frame's corrected peak in a window that starts at a referred instant (R144). -/
def RxLock.tineAt (l : RxLock) (n len start : Nat) : Nat :=
  match l.corr.peaks with
  | [] => 0
  | q :: _ => ((q.p + ((start : Int) - q.start + len / 2) / len) % (n : Int)).toNat

/-- The rotation in force on the chips of the frame under way (R139). -/
def Dev.spin (d : Dev) (k : Nat) (l : RxLock) : Spin := { step := l.step, len := d.chipLen k }

/-- A chip enters the sentinel of the frame under way (R144). -/
def Dev.sentinelChip (d : Dev) (k n : Nat) (c : Col) : Dev :=
  match (d.ch k).lock with
  | none => d
  | some l =>
    let near := d.aqState k == aqPREAMBLE || d.aqState k == aqSYNC
    let ok := fun (start m : Nat) => !(near && tinesNear n 2 m (l.tineAt n (d.chipLen k) start))
    let s := l.sent.push n (d.eras k) (d.rd (F.AQ_CFG_DET_TH k)) (d.spin k l) ok c
    d.modCh k (fun h => { h with
      lock := some { l with sent := s, declared := l.declared && s.peaks != [] }
      cand := if s = {} then h.cand.map (fun x => { x with live := false }) else h.cand })

/-- A chip of the preamble: a complete window reverses the sign, or refreshes the estimate (R139, R141). -/
def Dev.preambleChip (d : Dev) (k n : Nat) (c : Col) : Dev :=
  match (d.ch k).lock with
  | none => d
  | some l =>
    let (x, p) := l.corr.collect n (d.spin k l) c
    match p with
    | none => d.modLock k (fun l => { l with corr := x })
    | some p =>
      if (l.corr.peaks.head?.map (fun r => signReversed l.step n (d.chipLen k) r p)).getD false then
        d.modLock k (fun l => { l with corr := x, reversed := true })
      else
        (d.modLock k (fun l => { l with corr := { x with peaks := p :: x.peaks }, windows := l.windows + 1 })).estimate k n

/-- A chip of the sync field: a complete window decides a bit (R142). -/
def Dev.syncChip (d : Dev) (k n : Nat) (c : Col) : Dev :=
  d.modLock k (fun l =>
    let (x, p) := l.corr.collect n (d.spin k l) c
    match p with
    | none => { l with corr := x }
    | some p => { l with corr := x, bits := l.bits ++
        [(l.corr.peaks.head?.map (fun r => signReversed l.step n (d.chipLen k) r p)).getD false] })

/-- The bodies of the members for the columns of a symbol, rotated by the frozen frequency (R139, R141). -/
def RxLock.bodies (l : RxLock) (nh len : Nat) (cols : List Col) : List (List Cx) :=
  (List.range (memberCount cols)).map (fun i => cols.map (fun c => rotated l.step nh len c i))

/-- Flagged chips and all chips of a symbol: those of its body `cols`, and of its prefix of `p` chips over the bundle (R94, R137).
-/
def RxLock.flagged (l : RxLock) (p : Nat) (cols : List Col) : Nat × Nat :=
  ((flaggedOf cols).1 + l.pre, (flaggedOf cols).2 + p * memberCount cols)

/-- The soft values of a header symbol (R143, R150, R151). -/
def Dev.headerSymbol (d : Dev) (k kh : Nat) (l : RxLock) (cols : List Col) : List Int :=
  let n := 2 ^ kh
  tineSoft kh (spreadE (d.spread k (n / 16)) (energies n (l.bodies n (d.chipLen k) cols))) (l.flagged (n / 16) cols)

/-- A chip of the header: its prefix is discarded, and a complete body gives the soft values of its bits, or none at all where it is
erased (R143, R151). -/
def Dev.headerChip (d : Dev) (k kh : Nat) (c : Col) : Dev :=
  match (d.ch k).lock with
  | none => d
  | some l =>
    let n := 2 ^ kh
    if l.corr.skip ≠ 0 then
      d.modLock k (fun l => { l with corr := { l.corr with skip := l.corr.skip - 1 }, pre := l.pre + c.erased })
    else if l.corr.buf.length + 1 < n then d.modLock k (fun l => { l with corr := { l.corr with buf := c :: l.corr.buf } })
    else
      let cols := (c :: l.corr.buf).reverse
      let bad := overErased (d.eras k) (l.flagged (n / 16) cols)
      let d := if bad then d.inc (F.AQ_CNT4_ERASCNT k) else d
      let s := if bad then List.replicate kh 0 else d.headerSymbol k kh l cols
      d.modLock k (fun l => { l with corr := { skip := n / 16 }, pre := 0, soft := l.soft ++ s })

/-- The form of the frame under way. -/
def RxLock.form (l : RxLock) (kh : Nat) : Form := hdrForm (l.hdr.getD 0) kh

/-- A chip of the payload: its power and its clipping enter GAIN_ADV, and a chip of a body enters the symbol (R131, R136, R159). -/
def Dev.payloadTake (d : Dev) (k kh : Nat) (c : Col) : Dev :=
  d.modLock k (fun l =>
    let f := l.form kh
    let body := match d.symbolAt k f (hdrLen (l.hdr.getD 0)) l.pos with
      | some (_, i) => decide (f.p ≤ i)
      | none => false
    { l with
      pos := l.pos + 1
      clipOnly := l.clipOnly || c.ch.any (fun e => chipClip e && chipComp e && !chipImp e)
      peak := max l.peak (((List.range c.ch.length).map c.power).foldl max 0)
      corr := if body then { l.corr with buf := c :: l.corr.buf } else l.corr
      pre := if body then l.pre else l.pre + c.erased })

/-- A chip that the receiver examines goes where its state says; one of a window or a frame ends a noise-floor run (R136, R157). -/
def Dev.takeCol (d : Dev) (k : Nat) (c : Col) : Dev :=
  match (d.ch k).live, d.lockWin k with
  | some _, some w =>
    let d := (d.modCh k (fun h => { h with nfRun := {} })).sentinelChip k w.n c
    if d.aqState k = aqPREAMBLE then d.preambleChip k w.n c
    else if d.aqState k = aqSYNC then d.syncChip k w.n c
    else if d.aqState k = aqHEADER then d.headerChip k w.kh c
    else d.payloadTake k w.kh c
  | _, _ =>
    match d.aqState k == aqSEARCH, d.winOf k c.ref with
    | true, some w =>
      d.modCh k (fun h => { h with
        nfRun := {}, searchOpn := w.opn
        search := (if h.searchOpn = w.opn then h.search else {}).push w.n (d.eras k) (d.rd (F.AQ_CFG_DET_TH k)) {} (fun _ _ => true) c })
    | _, _ => d.noiseChip k c

/-- The sentinel has a candidate to declare (R144). -/
def Dev.sentinelDue (d : Dev) (k : Nat) : Bool :=
  ((d.ch k).live.map (fun l => !l.declared && decide (d.ndet k ≤ l.sent.peaks.length))).getD false

/-- The symbol of the payload whose body is complete. -/
def RxLock.symbolFull (l : RxLock) (kh : Nat) : Bool := decide ((l.form kh).n ≤ l.corr.buf.length)

/-- An event of the receiver waits for its command: no further chip is examined. -/
def Dev.rxDue (d : Dev) (k : Nat) : Bool :=
  match (d.ch k).live, d.lockWin k with
  | some l, some w =>
    let s := d.aqState k
    d.sentinelDue k || (s == aqPREAMBLE && (l.reversed || decide (72 ≤ l.windows))) || (s == aqSYNC && decide (32 ≤ l.bits.length)) ||
    (s == aqHEADER && decide (288 ≤ l.soft.length ∧ headerSymbols w.kh * w.kh ≤ l.soft.length)) ||
    (s == aqPAYLOAD && l.symbolFull w.kh)
  | _, _ => d.aqState k == aqSEARCH && decide (d.ndet k ≤ (d.ch k).search.peaks.length)

/-- The receiver examines the chips that it has taken, up to the first event. -/
def Dev.examine (d : Dev) (k : Nat) : Dev :=
  (d.ch k).inbox.foldl (fun d c =>
    if d.rxDue k then d else (d.modCh k (fun h => { h with inbox := h.inbox.drop 1 })).takeCol k c) d

/-- The frame whose chips come in ends CUT (R156); one that has had its last chip goes on to its verdict. -/
def Dev.cutFrameIn (d : Dev) (k : Nat) : Dev :=
  match (d.ch k).live, d.lockWin k with
  | some _, some w => (d.abortHandOn k false).commitWin k w rxCUT false
  | _, _ => d

/-- CHQ_RX of a member holds 64 entries: each chip that finds it full is discarded with OVERRUN, and the frame under reception
ends CUT (R15, R17, R156). -/
def Dev.overrun (d : Dev) (k m : Nat) : Dev :=
  let n := (d.ch m).chq.length - 64
  if n = 0 then d
  else ((d.modCh m (fun h => { h with chq := h.chq.take 64 })).causes n causeOVERRUN { chan := some m }).cutFrameIn k

/-- The samples that come in with a command of channel `k`: through the chains of every member, into CHQ_RX, and on to the receiver
unless the chip part is held (R17, R64, R136). -/
def Dev.intake (d : Dev) (k : Nat) (f : Feed) : Dev :=
  if d.lead k ≠ k then d
  else
    let d := d.feedChains k f.first f.codes
    if f.stalled then (d.members k).foldl (fun d m => d.overrun k m) d else (d.takeChips k).examine k

/-- PREAMBLE_DETECTION (R58, R59, R138): the NDET-th consecutive counting window; an arrival stamped after D is counted and not
delivered. What the receiver does after such an arrival no rule says: its correlator starts again, so that a preamble which goes
on may be counted anew (DESIGN CHOICE, log entry 177). -/
def execPreambleDetection (t : Nat) (k : ChanId) (f : Feed) (s : State) : Host.Outcome State Fault Refusal :=
  s.runClk t (fun d =>
    let d := d.intake k.val f
    let p := (d.ch k.val).search.peaks
    if d.aqState k.val ≠ aqSEARCH ∨ p.length < d.ndet k.val then d
    else
      let stamp := ((p.head?.map Peak.last).getD 0) / 2 ^ 24
      let gone := d.modCh k.val (fun h => { h with search := {} })
      match d.searchWin k.val with
      | none => gone
      | some w =>
        if w.cut then gone
        else
          let d := (gone.inc (F.AQ_CNT_DETCNT k.val)).event 2 0 k.val 1
          if w.close < stamp then d.inc F.MT_CNT_LATEARR
          else (d.lockFrame k.val w stamp { peaks := p } (d.strength k.val w.n p)).estimate k.val w.n)

/-- TRIM_APPLY (R139): a TRIM entry reaches its instant. -/
def execTrimApply (t : Nat) (k : ChanId) (s : State) : Host.Outcome State Fault Refusal :=
  s.runClk t (fun d =>
    match (d.ch k.val).prmq.find? (fun e => decide (e.at_ ≤ d.now) && (match e.kind with | .trim _ => true | _ => false)) with
    | some e =>
      let d := d.modCh k.val (fun c => { c with prmq := c.prmq.erase e })
      (match e.kind with | .trim v => d.setTrim k.val e.at_ v | _ => d).pullPrmq k.val
    | none => d)

/-- SIGN_REVERSAL (R141): sync symbol 0; Δf and TRIM stand for the rest of the frame. -/
def execSignReversal (t : Nat) (k : ChanId) (f : Feed) (s : State) : Host.Outcome State Fault Refusal :=
  s.runClk t (fun d =>
    let d := d.intake k.val f
    match (d.ch k.val).lock with
    | some l =>
      if d.aqState k.val = aqPREAMBLE ∧ l.reversed then
        (d.modLock k.val (fun l => { l with bits := [true] })).aqTo k.val aqSYNC
      else d
    | none => d)

/-- The pending candidate that a restart may take: stamped at or before D, with its most recent window still counted (R146). -/
def Dev.takable (d : Dev) (k : Nat) (w : RxWin) : Option Candidate :=
  (d.ch k).cand.bind (fun c => if c.stamp ≤ w.close ∧ c.live then some c else none)

/-- Take a candidate as the locked frame in PREAMBLE: the windows that the sentinel counted for it enter the estimate (R139,
R145). -/
def Dev.takeCandidate (d : Dev) (k : Nat) (w : RxWin) (c : Candidate) : Dev :=
  match (d.ch k).lock with
  | none => d
  | some l =>
    (((((d.signalQuality k l).trimHome k).inc (F.AQ_CNT2_CAPCNT k)).dropPool k l.stamp).lockFrame k w c.stamp l.sent c.ss).estimate k w.n

/-- Give up the locked frame and search again while the referred instant is before D; else the step ends with `code`, a
TIMEOUT not before D + H(k) (R146, R179). -/
def Dev.searchOrEnd (d : Dev) (k : Nat) (w : RxWin) (code : Nat) : Dev :=
  let gone := (((match (d.ch k).lock with | some l => d.signalQuality k l | none => d).putWin k w { w with last := some code }).trimHome
    k).modCh k (fun c => { c with lock := none, cand := none })
  if d.refNow k < w.close then gone.aqTo k aqSEARCH
  else if code = rxTIMEOUT ∧ d.now < w.close + d.hns k then
    (if (d.curWin k).any (fun x => x.opn != w.opn) then gone.aqTo k aqSEARCH else gone)
  else d.commitWin k w code false

/-- The locked frame failed with SYNCLOST or HDRCRC: restart on a pending candidate, search, or end (R146). A restart counts in
CAPCNT as R146 says; it does not set CAPSW, which R145 sets at a switch (DESIGN CHOICE, log entry 148). -/
def Dev.failFrame (d : Dev) (k : Nat) (code : Nat) : Dev :=
  match d.lockWin k with
  | none => d
  | some w =>
    match d.takable k w with
    | some c => d.takeCandidate k w c
    | none => d.searchOrEnd k w code

/-- SYNC_REVERSAL_TIMEOUT (R141): no sign reversal within 72 windows of detection. -/
def execSyncReversalTimeout (t : Nat) (k : ChanId) (f : Feed) (s : State) : Host.Outcome State Fault Refusal :=
  s.runClk t (fun d =>
    let d := d.intake k.val f
    match (d.ch k.val).lock with
    | some l =>
      if d.aqState k.val = aqPREAMBLE ∧ 72 ≤ l.windows ∧ !l.reversed then d.failFrame k.val rxSYNCLOST else d
    | none => d)

/-- Bits in which two words differ. -/
def hamming (a b : Word32) : Nat := ((List.range 32).filter (fun i => a.getLsbD i != b.getLsbD i)).length

/-- The decided word is one that the window names, within SYNC_TOL (R142). -/
def Dev.syncAccepts (d : Dev) (k sync : Nat) (word : Word32) : Bool :=
  let l := d.lead k
  let fits := fun w => decide (hamming word w ≤ d.rd (F.AQ_CFG_SYNC_TOL l))
  (sync != 1 && fits (d.word (A.FR_SYNCW l))) || (sync != 0 && fits (d.word (A.FR_SYNCB l)))

/-- The word that the sync symbols spell, bit 31 first (R142). -/
def syncWord (l : List Bool) : Word32 := BitVec.ofNat 32 (bitsNat (l.take 32))

/-- SYNC_WORD_DECISION (R142): at the last sync symbol SS is latched and the word is accepted, or the frame fails with SYNCLOST. -/
def execSyncWordDecision (t : Nat) (k : ChanId) (f : Feed) (s : State) : Host.Outcome State Fault Refusal :=
  s.runClk t (fun d =>
    let d := d.intake k.val f
    match d.lockWin k.val, (d.ch k.val).lock with
    | some w, some l =>
      if d.aqState k.val ≠ aqSYNC ∨ l.bits.length < 32 then d
      else
        let ss := d.strength k.val w.n l.corr.peaks
        let d := (d.wrS (F.AQ_LEVEL_SS k.val) ss).modLock k.val (fun l => { l with
          ss := ss, ssLatched := true, corr := { skip := w.n / 16 } })
        if d.syncAccepts k.val w.sync (syncWord l.bits) then d.aqTo k.val aqHEADER
        else (d.syncFail k.val).failFrame k.val rxSYNCLOST
    | _, _ => d)

/-! ### Header (R121, R167, R178 to R180, R184, R452) -/

/-- What the header of a received frame leads to. -/
inductive HdrVerdict where
  | accept (entry : Nat)
  | keep
  | notMe
  | drop
  | invalid
deriving DecidableEq, Repr

/-- The address of the entry that protects a received frame (R121, R165, R452). -/
def Dev.protector (d : Dev) (k src dst : Nat) : Nat :=
  if d.role k = roleHEAD then src
  else if d.role k = roleLISTEN then (if src ≠ 0 then src else if dst ≠ 0x1FFFF then dst else 0x1FFFF)
  else dst

/-- The channel accepts a DST (R179). -/
def Dev.acceptsDst (d : Dev) (k dst : Nat) (relay : Bool) : Bool :=
  if relay then dst == 0
  else if d.role k = roleLISTEN then true
  else dst == 0x1FFFF || (d.role k == roleHEAD && dst == 0) ||
    (d.isOut k && ((d.ownEntry k).map (fun i => d.rd (N.ADDR i) == dst)).getD false)

/-- The parameters of a received header pass R121. -/
def Dev.hdrFormOk (d : Dev) (k : Nat) (h : BitVec 96) (kh : Nat) : Bool :=
  let f := hdrForm h kh
  let v := hdrVersion h
  decide (1 ≤ v) && decide (v ≤ 3) && f.codesOk && d.formOk k f v && (d.members k).all (fun m => d.limitOk m f) &&
  (d.members k).all (fun m => d.khOk m kh) && d.frameOk k f (hdrLen h) (hdrAnchor h)

/-- A RESP of entry `i` differs from UMODE, or exceeds ULEN, of the POLL or RELAY that it answers (R178). -/
def Dev.offGrant (d : Dev) (k : Nat) (h : BitVec 96) (i : Nat) : Bool :=
  let (mode, len) := (((d.ch k).lf.asked.find? (fun a => a.1 == i)).map Prod.snd).getD
    ((Form.ofWord (d.word (nodeWord i 4))).mode, d.rd (N.ULEN i))
  hdrMode h != mode || decide (len < hdrLen h)

/-- A RESP breaks its grant: MODE differs from UMODE, or LEN exceeds ULEN (R178). -/
def Dev.breaksGrant (d : Dev) (k : Nat) (h : BitVec 96) : Bool :=
  d.role k == roleHEAD && hdrType h == tyRESP &&
  ((d.lookup k (hdrSrc h)).map (d.offGrant k h)).getD false

/-- The head-end's discovery window that holds the current cycle: its number (R181). -/
def Dev.discWindow (d : Dev) (k : Nat) : Option Nat :=
  let n := d.rd (F.LF_DISC_DISC_K (d.lead k))
  if n ≠ 0 ∧ d.cycle % n < d.nslot k then some (d.cycle / n) else none

/-- Discovery windows from number `a` to number `b`, whose cycles come round at 2^32 (R7, R181). -/
def Dev.windowsSince (d : Dev) (k b a : Nat) : Nat :=
  let m := ceilDiv (2 ^ 32) (max 1 (d.rd (F.LF_DISC_DISC_K (d.lead k))))
  (b + m - a % m) % m

/-- The gate of R184 for a JOINREQ from `src`: whether it is handled, with its counts. A request counts among JOIN_MAX at its
header, whether or not its tag passes later; the window of the JOINACC is the first of JHOLD; and a drop under JHOLD does not
count in JOINDROPCNT (DESIGN CHOICES, log entry 149). -/
def Dev.joinGate (d : Dev) (k src : Nat) : Bool × Dev :=
  match d.discWindow k, d.on (F.LF_CFG_JOIN_EN (d.lead k)) with
  | some win, true =>
    let d := if (d.ch k).lf.window = some win then d else d.modLf k (fun l => { l with window := some win, handled := 0 })
    let l := (d.ch k).lf
    match d.lookup k src with
    | none => (false, d.inc (F.LF_CNT3_JOINDROPCNT k))
    | some i =>
      if d.rd (F.LF_JOIN_JOIN_MAX (d.lead k)) ≤ l.handled then
        (false, (d.inc (F.LF_CNT3_JOINDROPCNT k)).raise (F.LF_STATUS_JOINDROP k))
      else if l.held.any (fun h => h.1 == i && decide (d.windowsSince k win h.2 < d.rd (F.LF_JOIN_JHOLD (d.lead k)))) then (false, d)
      else (true, d.modLf k (fun l => { l with handled := l.handled + 1 }))
  | _, _ => (false, d)

/-- The verdict on a header that passed HCRC, with the counts it makes. -/
def Dev.judgeHeader (d : Dev) (k : Nat) (w : RxWin) (h : BitVec 96) : HdrVerdict × Dev :=
  if !d.acceptsDst k (hdrDst h) w.relay then (.notMe, d.inc (F.LF_CNT_NOTME k))
  else if 5 < hdrType h ∨ d.vmax k < hdrVersion h then (.invalid, d)
  else if d.breaksGrant k h then
    (.invalid, (d.raise (F.LF_STATUS_GRANTX k)).inc (F.LF_CNT3_GRANTXCNT k))
  else if !d.hdrFormOk k h w.kh then (.invalid, d)
  else if w.relay then (.keep, d)
  else if d.role k = roleHEAD ∧ hdrType h = tyJOINREQ then
    match d.joinGate k (hdrSrc h) with
    | (true, d) => (match d.lookup k (hdrSrc h) with | some i => .accept i | none => .drop, d)
    | (false, d) => (.drop, d)
  else
    match d.lookup k (d.protector k (hdrSrc h) (hdrDst h)) with
    | some i => (.accept i, d)
    | none => (.invalid, d.entryParity k (d.protector k (hdrSrc h) (hdrDst h)))

/-- The outcome of a header under R121, R179 and R184. The result of an RX step whose JOINREQ the gate drops no rule names: it is
that of an abandoned frame, also where the drop is not counted, outside a discovery window or with JOIN_EN 0 (DESIGN CHOICE, log
entry 178). -/
def Dev.headerOutcome (d : Dev) (k : Nat) (w : RxWin) (l : RxLock) (hdr : BitVec 96) : Dev :=
  if !hcrcOk hdr then (d.inc (F.FR_CNT_HDRCRCCNT k)).failFrame k rxHDRCRC
  else
    let d := d.neighbourHeard k (hdrSrc hdr) l.ss
    let (v, d) := d.judgeHeader k w hdr
    let f := hdrForm hdr w.kh
    let fin := d.refNow k + d.chipsNs k (d.payloadChips k f (hdrLen hdr))
    let go := fun (e : Option Nat) =>
      (d.modLock k (fun l => { l with hdr := some hdr, fin := fin, entry := e, corr := {} })).aqTo k aqPAYLOAD
    match v with
    | .invalid => (d.hdrInvalid k).failFrame k rxHDRCRC
    | .notMe => d.searchOrEnd k w rxTIMEOUT
    | .drop => d.searchOrEnd k w rxTIMEOUT
    | .keep => go none
    | .accept i => go (some i)

/-- HEADER_DECODE (R121, R143, R179, R184): the soft values of all header symbols decode to a header. -/
def execHeaderDecode (t : Nat) (k : ChanId) (f : Feed) (s : State) : Host.Outcome State Fault Refusal :=
  s.runClk t (fun d =>
    let d := d.intake k.val f
    match d.lockWin k.val, (d.ch k.val).lock with
    | some w, some l =>
      if d.aqState k.val ≠ aqHEADER ∨ l.soft.length < max 288 (headerSymbols w.kh * w.kh) then d
      else d.headerOutcome k.val w l (decodeHeader l.soft)
    | _, _ => d)

/-! ### The sentinel (R144, R145) -/

/-- CAP_DB, clamped to 3 to 18 (R163). -/
def Dev.capDb (d : Dev) (k : Nat) : Nat := max 3 (min 18 (d.rd (F.AQ_CFG_CAP_DB (d.lead k))))

/-- SENTINEL_CANDIDATE (R144, R145): counted, and taken at once under switch policy where it is stronger by CAP_DB. -/
def execSentinelCandidate (t : Nat) (k : ChanId) (f : Feed) (s : State) : Host.Outcome State Fault Refusal :=
  s.runClk t (fun d =>
    let d := d.intake k.val f
    match d.lockWin k.val, (d.ch k.val).lock with
    | some w, some l =>
      if !d.sentinelDue k.val then d
      else
        let first := l.sent.peaks.drop (l.sent.peaks.length - d.ndet k.val)
        let ss := d.strength k.val w.n first
        let stamp := ((first.head?.map Peak.last).getD 0) / 2 ^ 24
        let c : Candidate := { stamp := stamp, ss := ss }
        let d := ((d.raise (F.AQ_STATUS_SENTSEEN k.val)).inc (F.AQ_CNT2_SENTCNT k.val)).modCh k.val
          (fun x => { x with cand := some c, lock := x.lock.map (fun l => { l with declared := true }) })
        if d.on (F.AQ_CFG_CAPPOL (d.lead k.val)) ∧ 16 * (d.capDb k.val : Int) ≤ ss - l.ss ∧ stamp ≤ w.close then
          ((d.abortHandOn k.val false).raise (F.AQ_STATUS_CAPSW k.val)).takeCandidate k.val w c
        else d
    | _, _ => d)

/-! ### Payload and decoding (R148 to R155, R159, R274, R277, R283) -/

/-- End the reception of the locked frame with a result (R203). -/
def Dev.endFrame (d : Dev) (k code : Nat) (poll : Bool) : Dev :=
  match d.lockWin k with
  | some w => d.commitWin k w code poll
  | none => d

/-- A multiplex symbol: its estimate enters the running mean or restarts it, and the equalised data tines give its soft values
(R148 to R151; log entry 160). -/
def Dev.muxSymbol (d : Dev) (k kh : Nat) (l : RxLock) (cols : List Col) : Dev × List Int :=
  let f := l.form kh
  if overErased (d.eras k) (l.flagged f.p cols) then (d.inc (F.AQ_CNT4_ERASCNT k), List.replicate f.bits 0)
  else
    let a := (l.bodies (2 ^ kh) (d.chipLen k) cols).map (sweep f.n)
    let est := tapsOf f a
    let jump := l.taps != [] && tapsJump (d.rd (F.AQ_CFG2_PT_JUMP k)) (tapsMean l.taps) est
    let d := if jump then (d.raise (F.AQ_STATUS_TAPJUMP k)).inc (F.AQ_CNT4_TAPJUMPCNT k) else d
    let taps := if jump then [est] else (est :: l.taps).take (2 ^ d.rd (F.AQ_CFG2_PT_AVG k))
    let noise := (guardPower f a :: l.noise).take 16
    (d.modLock k (fun l => { l with taps := taps, noise := noise }),
     muxSoft f (noise.sum / (noise.length * a.length * f.s)) (tapsMean taps) a (l.flagged f.p cols))

/-- A copy of a single-tine symbol: E_m is summed over the copies whose f admits them, and the last copy gives the soft values,
all 0 where every copy is excluded (R131, R150 to R152). -/
def Dev.tineSymbol (d : Dev) (k kh t : Nat) (l : RxLock) (cols : List Col) : Dev × Option (List Int) :=
  let f := l.form kh
  let x := (l.acc.find? (fun x => x.t == t)).getD { t := t }
  let x := if overErased (d.eras k) (l.flagged f.p cols) then { x with copies := x.copies + 1 }
    else
      let e := energies f.n (l.bodies (2 ^ kh) (d.chipLen k) cols)
      { x with copies := x.copies + 1, used := x.used + 1, flagged := x.flagged + (l.flagged f.p cols).1
               e := if x.used = 0 then e else x.e.zipWith (· + ·) e }
  let rest := l.acc.filter (fun y => y.t != t)
  if x.copies < f.r then (d.modLock k (fun l => { l with acc := x :: rest }), none)
  else
    let d := if x.used = 0 then d.inc (F.AQ_CNT4_ERASCNT k) else d
    (d.modLock k (fun l => { l with acc := rest }),
     some (if x.used = 0 then List.replicate f.k 0
       else tineSoft f.k (spreadE (d.spread k f.p) x.e) (x.flagged, x.used * (l.flagged f.p cols).2)))

/-- A payload symbol, or one copy of it, is complete: its soft values wait for their interleaver block; after the last payload
chip the receiver leaves PAYLOAD, for the search where a later window is open, and TRIM returns to 0 (R136, R141; log entry 163).
-/
def Dev.symbolDone (d : Dev) (k kh : Nat) (l : RxLock) : Dev :=
  let f := l.form kh
  let len := hdrLen (l.hdr.getD 0)
  let t := ((d.symbolAt k f len (l.pos - 1)).map Prod.fst).getD 0
  let cols := l.corr.buf.reverse
  let (d, s) := if f.mux then (let (d, s) := d.muxSymbol k kh l cols; (d, some s)) else d.tineSymbol k kh t l cols
  let ended := decide (d.payloadChips k f len ≤ l.pos)
  let fin := ((l.corr.buf.head?.map Col.ref).getD 0) / 2 ^ 24
  let d := d.modLock k (fun l => { l with
    corr := {}, pre := 0, ended := ended, fin := if ended then fin else l.fin, gain := if ended then some (d.ch k).gain else l.gain
    syms := match s with | some s => l.syms ++ [(t, s)] | none => l.syms })
  if ended then (d.trimHome k).aqTo k (if (d.curWin k).isSome then aqSEARCH else aqIDLE) else d

/-- PAYLOAD_SYMBOL (R136, R148 to R152, R159). -/
def execPayloadSymbol (t : Nat) (k : ChanId) (f : Feed) (s : State) : Host.Outcome State Fault Refusal :=
  s.runClk t (fun d =>
    let d := d.intake k.val f
    match d.lockWin k.val, (d.ch k.val).lock with
    | some w, some l => if d.aqState k.val = aqPAYLOAD ∧ l.symbolFull w.kh then d.symbolDone k.val w.kh l else d
    | _, _ => d)

/-! ### Interleaver blocks and the decoder pool (R128 to R130, R153, R154) -/

/-- Where bit `u` of symbol `t` of a block stands among the symbol's soft values: u-th in single-tine mode, bit v of data tine j in
multiplex mode (R130). -/
def symbolPlace (f : Form) (u : Nat) : Nat :=
  if f.mux then
    let tines := f.s * (15 * f.n / 16)
    let j := u % tines
    j * (2 * f.load) + (u / tines + j) % (2 * f.load)
  else u

/-- The soft values of a block in the order of the extended stream (R130). -/
def deinterleave (f : Form) (syms : List (List Int)) : List Int :=
  (List.range (syms.length * f.bits)).map (fun i => (syms.getD (i % syms.length) []).getD (symbolPlace f (i / syms.length)) 0)

/-- Information octets of a codeword of the frame under way (R126). -/
def RxLock.infoLen (l : RxLock) : Nat := infoOctets ((l.hdr.map (fun h => (hdrForm h 8).rate)).getD 0)

/-- The same for INTERLEAVER_BLOCK_COMPLETE, which acts on the oldest frame that has a block to issue. -/
def Dev.onUnissued (d : Dev) (k : Nat) (f : Dev → Dev) : Dev :=
  match (d.ch k).behind with
  | o :: _ => if o.syms ≠ [] then d.onOldest k f else f d
  | [] => f d

/-- Codewords that the next complete interleaver block leaves issued (R129, R154). -/
def Dev.issuedCodewords (d : Dev) (k : Nat) (l : RxLock) : Nat :=
  match l.hdr with
  | some h => d.codewordsIn k (hdrForm h 8) (hdrLen h) (hdrAnchor h) (l.blocks + 1)
  | none => 0

/-- The soft values of the block under way, once every symbol of it has come: of the first symbol to the one before its end. -/
def RxLock.blockSyms (l : RxLock) (a b : Nat) : List (List Int) :=
  (List.range' a (b - a)).filterMap (fun t => (l.syms.find? (fun x => x.1 == t)).map Prod.snd)

/-- `n` codewords of a frame that have not started leave the pool's queue. -/
def dropWaiting (k stamp : Nat) : Nat → List (Nat × Nat × Nat) → List (Nat × Nat × Nat)
  | _, [] => []
  | n, e :: l =>
    if (e.1, e.2.1) ≠ (k, stamp) then e :: dropWaiting k stamp n l
    else if n < e.2.2 then (k, stamp, e.2.2 - n) :: l
    else dropWaiting k stamp (n - e.2.2) l

/-- The codewords of blocks before the one just complete that have not started when its successor needs their buffer fail with 0
iterations (R132, R154). -/
def Dev.overtake (d : Dev) (k : Nat) (bits : Nat) : Dev :=
  match (d.ch k).lock with
  | none => d
  | some l =>
    let n := min l.codewords (ceilDiv bits 6144) - (l.decoded + l.started.length)
    if n = 0 then d
    else
      let d := d.modLock k (fun l => { l with
        decoded := l.decoded + n, failed := true, stream := l.stream.drop (6144 * n)
        body := l.body ++ List.replicate (n * l.infoLen) 0 })
      ({ d with pool := dropWaiting k l.stamp n d.pool }.raise (F.AQ_STATUS_DECSKIP k)).inc (F.AQ_CNT3_DECSKIPCNT k) n

/-- The next block of the locked frame, once its symbols have come, is issued to the pool, and what it overtakes fails (R129,
R154). -/
def Dev.issueBlock (d : Dev) (k : Nat) : Dev :=
  match d.lockWin k, (d.ch k).lock with
  | some w, some l =>
    let f := l.form w.kh
    let h := l.hdr.getD 0
    let a := d.blockEnd k f (hdrLen h) (hdrAnchor h) l.blocks
    let b := d.blockEnd k f (hdrLen h) (hdrAnchor h) (l.blocks + 1)
    let syms := l.blockSyms a b
    if l.hdr = none ∨ b ≤ a ∨ syms.length < b - a then d
    else
      let n := d.issuedCodewords k l
      let d := d.modLock k (fun l => { l with
        blocks := l.blocks + 1, codewords := n, stream := l.stream ++ deinterleave f syms
        syms := l.syms.filter (fun x => decide (b ≤ x.1)) })
      let d := { d with pool := if l.codewords < n then d.pool ++ [(k, l.stamp, n - l.codewords)] else d.pool }.startPool
      if b < f.symbols (hdrLen h) then d.overtake k (a * f.bits) else d
  | _, _ => d

/-- INTERLEAVER_BLOCK_COMPLETE (R129, R154). -/
def execInterleaverBlockComplete (t : Nat) (k : ChanId) (s : State) : Host.Outcome State Fault Refusal :=
  s.runClk t (fun d => d.onUnissued k.val (fun d => d.issueBlock k.val))

/-- The first codeword gives FCTR and KEYPH: the first replay test, the key's validity, and the key or its fetch (R274,
R277, R283); an erase in the cycle of the start aborts the job (R291). -/
def Dev.firstCodeword (d : Dev) (k i fctr : Nat) (ph : Bool) : Dev :=
  let sa := d.rd (N.SAIDX i)
  let a := d.sa_ sa
  if !a.passes fctr then ((d.inc F.CI_CNT_REPLAYCNT).abortHandOn k false).endFrame k rxREPLAY false
  else if d.erasedNow (sa, ph) then (d.modLock k (fun l => { l with key := some (sa, ph) })).abortStarted k
  else if !d.keyValid sa ph then (d.inc F.CI_CNT2_KEYMISS).endFrame k rxTAGFAIL false
  else
    let (r, d) := d.bindAsk sa ph
    match r with
    | .hit => (d.event 8 1 0 1).modLock k (fun l => { l with key := some (sa, ph) })
    | _ => d.modLock k (fun l => { l with keyWait := some (d.now + 1000 * d.rd F.CI_CFG_KEYWAIT), wants := some (sa, ph) })

/-- A decoded codeword joins the body: its count, its failure, and on the first one the key (R153, R155). -/
def Dev.codewordDone (d : Dev) (k : Nat) (cap : Nat) (r : Nat × Bool × List Byte) : Dev :=
  match (d.ch k).lock with
  | none => d
  | some l =>
    let body := l.body ++ fitTo l.infoLen r.2.2
    let d := (d.event 2 9 k 1).event 2 10 k r.1
    let d := d.modLock k (fun l => { l with
      started := l.started.drop 1, decoded := l.decoded + 1, failed := l.failed || !r.2.1, body := body
      margin := some (min (l.margin.getD (cap - r.1)) (cap - r.1)) })
    let d := if r.2.1 then d else d.inc (F.AQ_CNT3_DECFAILCNT k)
    let d := { d with poolBusy := d.poolBusy.erase (k, l.stamp) }.startPool
    match l.entry with
    | some i => (if l.decoded = 0 ∧ r.2.1 then d.firstCodeword k i (bodyFctr body) (bodyKeyph body) else d).handOn k
    | none => d

/-- The oldest codeword of the locked frame that a pool quarter decodes reaches a zero syndrome, or its cap (R153). -/
def Dev.decodeNext (d : Dev) (k : Nat) : Dev :=
  match ((d.ch k).lock.bind (fun l => l.started.head?)), (d.ch k).lock with
  | some (cap, soft), some l => d.codewordDone k cap (decodeWord (l.form 8).rate cap (d.rd (F.AQ_CFG3_MS_OFFSET k)) soft)
  | _, _ => d

/-- CODEWORD_DECODE (R153), on the oldest frame of the channel. -/
def execCodewordDecode (t : Nat) (k : ChanId) (s : State) : Host.Outcome State Fault Refusal :=
  s.runClk t (fun d => d.onOldest k.val (fun d => d.decodeNext k.val))

/-! ### The verdict (R123, R277, R278, R293, R295, R296) -/

/-- What an accepted frame leaves for the row of its message (R166). -/
def Dev.acceptFrame (d : Dev) (k i : Nat) (h : BitVec 96) (l : RxLock) (via : Bool) (msg : List Byte) : Dev :=
  if d.role k = roleLISTEN then d
  else
    let (q, src) := d.quality k l.ss
    let a : Accepted :=
      { typ := hdrType h, src := hdrSrc h, dst := hdrDst h, ver := hdrVersion h, entry := i, via := via, fin := l.fin,
        q := q, qsrc := src, dmargin := l.dmargin,
        gainAdv := d.gainAdv k (l.gain.getD (d.ch k).gain) l.clipOnly (d.peakDb k l.peak), ss := l.ss, msg := msg }
    d.modCh k (fun c => { c with accepted := some a })

/-- The association's window and roll progress after a frame that passed (R277, R287); in role listen-only the window alone moves
(R452). -/
def Dev.passFrame (d : Dev) (k sa fctr : Nat) (ph : Bool) : Dev :=
  let d := d.setSa sa ((d.sa_ sa).accept fctr)
  if d.role k = roleLISTEN then d else d.acceptedUnder sa ph

/-- PAYLOAD octets of a frame with result OK, for the bandwidth figures (R379). -/
def Dev.bwRx (d : Dev) (k n : Nat) : Dev := { d with bwSum := Tab.set 0 d.bwSum (2 * k) (Tab.get 0 d.bwSum (2 * k) + n) }

/-- A payload CRC failure (R123). -/
def Dev.failCrc (d : Dev) (k : Nat) : Dev := ((d.plCrc k).abortHandOn k false).endFrame k rxPLCRC false

/-- The verdict on a frame of the line with body `b`, under the association of entry `i`. -/
def Dev.lineVerdict (d : Dev) (k i : Nat) (h : BitVec 96) (l : RxLock) (b : List Byte) : Dev :=
  match l.key with
  | none => d
  | some (sa, ph) =>
    if l.aborted then (d.abortHandOn k false).endFrame k rxTAGFAIL false
    else if !(d.sa_ sa).passes (bodyFctr b) then
      ((d.inc F.CI_CNT_REPLAYCNT).abortHandOn k false).endFrame k rxREPLAY false
    else match d.lineOpen h sa ph b with
    | none => (((d.event 8 0 0 (ceilDiv (bodyBlen b) 16)).tagFail sa (some k)).abortHandOn k true).endFrame k rxTAGFAIL false
    | some msg =>
      let poll := d.isOut k && (hdrType h == tyPOLL || hdrType h == tyRELAY) && hdrDst h != 0x1FFFF
      let n := bodyBlen b
      let d := ((d.passFrame k sa (bodyFctr b) ph).event 8 0 0 (ceilDiv n 16)).bwRx k n
      (d.acceptFrame k i h l false (fitTo n msg)).endFrame k rxOK poll

/-- Entries polled whose espalier begins with the repeaters of a path (R188). -/
def Dev.polledBeyond (d : Dev) (k : Nat) (path : List Nat) : List Nat :=
  (d.scopeEntries k).filter (fun j => path.isPrefixOf (d.espalier j) &&
    ((d.ch k).lf.polled.contains j || (d.rd (N.STATE j) == stJOINING && d.on (N.JPOLLED j))))

/-- The upward frame under check is done with. -/
def Dev.dropNested (d : Dev) (k : Nat) : Dev := d.modLf k (fun l => { l with nested := none, nestedWait := none })

/-- The upward frame of a RESP brings nothing from the nodes polled beyond the repeaters it came through: their exchanges failed
(R174, R185, R190). -/
def Dev.loseNested (d : Dev) (k : Nat) : Dev :=
  (d.polledBeyond k (d.ch k).lf.nestedPath).foldl (fun d j => d.exchangeDone k j false) (d.dropNested k)

/-- A frame of entry `i` came up through a path: the exchanges with the nodes polled beyond that path fail, but those of `i`
itself and of the nodes for which `i` is the next repeater. -/
def Dev.passNested (d : Dev) (k i : Nat) : Dev :=
  let path := (d.ch k).lf.nestedPath
  let on := d.polledBeyond k (path ++ [d.rd (N.ADDR i)])
  ((d.polledBeyond k path).filter (fun j => j != i && !on.contains j)).foldl (fun d j => d.exchangeDone k j false) (d.dropNested k)

/-- The verdict on the upward frame of a RESP, under its originator's association (R121, R178, R180, R190, R283). The gate of a
JOINREQ is passed once, however long its key takes. -/
def Dev.upVerdict (d : Dev) (k : Nat) (f : List Byte) : Dev :=
  let h := innerHeader f
  let b := f.drop 12
  let wait := (d.ch k).lf.nestedWait
  if !hcrcOk h ∨ (hdrType h ≠ tyRESP ∧ hdrType h ≠ tyJOINREQ) ∨ !blenOk (hdrForm h 8).rate (hdrLen h) b ∨ !fcsOk b then d.loseNested k
  else if hdrVersion h = 0 ∨ d.vmax k < hdrVersion h then (d.hdrInvalid k).loseNested k
  else
    let (go, d) := if hdrType h = tyJOINREQ ∧ wait.isNone then d.joinGate k (hdrSrc h) else (true, d)
    match d.lookup k (hdrSrc h) with
    | none => d.loseNested k
    | some i =>
      let sa := d.rd (N.SAIDX i)
      let ph := bodyKeyph b
      let lost := fun (d : Dev) => d.loseNested k
      if !go then lost d
      else if hdrType h = tyRESP ∧ d.offGrant k h i then
        lost (((d.raise (F.LF_STATUS_GRANTX k)).inc (F.LF_CNT3_GRANTXCNT k)).hdrInvalid k)
      else if !d.keyValid sa ph then lost (d.inc F.CI_CNT2_KEYMISS)
      else if !d.resident (sa, ph) ∨ d.slotFails (sa, ph) then
        (d.bindAsk sa ph).2.modLf k (fun l => { l with nestedWait := some (wait.getD (d.now + 1000 * d.rd F.CI_CFG_KEYWAIT)) })
      else if !(d.sa_ sa).passes (bodyFctr b) then lost (d.inc F.CI_CNT_REPLAYCNT)
      else match d.lineOpen h sa ph b with
      | none => lost (((d.event 8 1 0 1).event 8 0 0 (ceilDiv (bodyBlen b) 16)).tagFail sa (some k))
      | some msg =>
        let d := (d.event 8 1 0 1).event 8 0 0 (ceilDiv (bodyBlen b) 16)
        let l : RxLock := { stamp := d.now, fin := d.now, ss := d.rdS (F.AQ_LEVEL_SS k) }
        let path := (d.ch k).lf.nestedPath
        let d := ((d.passFrame k sa (bodyFctr b) ph).passNested k i).acceptFrame k i h l true (fitTo (bodyBlen b) msg)
        d.modCh k (fun c => { c with accepted := c.accepted.map (fun a => { a with path := path }) })

/-- The locked frame is judged once its last codeword has been decoded: its CRC, then what its header led to (R123, R124, R189,
R190). -/
def Dev.judgeFrame (d : Dev) (k : Nat) : Dev :=
  match (d.ch k).lock with
  | none => d
  | some l =>
    match l.hdr with
    | none => d
    | some h =>
      let b := whiteBody (hdrSrc h) l.body
      if l.decoded < hdrLen h then d
      else if l.failed ∨ !blenOk (hdrForm h 8).rate (hdrLen h) b ∨ !fcsOk b then d.failCrc k
      else match l.entry with
        | some i => d.lineVerdict k i h l b
        | none =>
          (d.endFrame k rxOK false).modLf k (fun x =>
            { x with upward := some (rxOK, hdrOctets h ++ bodyFrame b) })

/-- TAG_VERDICT (R123, R124, R189, R190, R295, R296): on the oldest frame of the channel, or on the upward frame of a RESP. -/
def execTagVerdict (t : Nat) (k : ChanId) (up : Bool) (s : State) : Host.Outcome State Fault Refusal :=
  s.runClk t (fun d =>
    if up then
      match (d.ch k.val).lf.nested with
      | some f => if d.role k.val = roleHEAD then d.upVerdict k.val f else d
      | none => d
    else d.onOldest k.val (fun d => d.judgeFrame k.val))

/-- A frame that waits for its key is discarded: KEYMISS, and no TAGFAIL (R281, R283). -/
def Dev.missFrame (d : Dev) (k : Nat) (p : RxLock → Bool) : Dev :=
  d.onFrame k p (fun d => (d.inc F.CI_CNT2_KEYMISS).endFrame k rxTAGFAIL false)

/-- KEYWAIT_EXPIRY (R283): a frame of the line, or the upward frame of a RESP, has waited KEYWAIT for its key. -/
def execKeywaitExpiry (t : Nat) (k : ChanId) (s : State) : Host.Outcome State Fault Refusal :=
  s.runClk t (fun d =>
    let late := fun (x : Option Nat) => (x.map (fun n => decide (n ≤ d.now))).getD false
    if (d.ch k.val).frames.any (fun l => late l.keyWait) then d.missFrame k.val (fun l => late l.keyWait)
    else if late (d.ch k.val).lf.nestedWait then (d.inc F.CI_CNT2_KEYMISS).loseNested k.val
    else d)

/-- A frame that waits for a pair binds it (R289). -/
def RxLock.bindKey (l : RxLock) (key : Nat × Bool) : RxLock :=
  if l.wants = some key then { l with key := some key, keyWait := none, wants := none } else l

/-- A key becomes resident: the frames that wait for it bind it (R283, R289). -/
def Dev.bindWaiting (d : Dev) (key : Nat × Bool) : Dev :=
  let f : Nat × Chan → Nat × Chan := fun e => (e.1, e.2.mapFrames (fun l => l.bindKey key))
  { d with chan := d.chan.map f }

/-- A resident key is missing from no KEYFETCH (R451). -/
def settleFetched (key : Nat × Bool) (l : List KeyAsked) : List KeyAsked :=
  (l.map (fun f => { f with keys := f.keys.filter (fun x => x ≠ key) })).filter (fun f => f.keys ≠ [])

/-- Sequencers whose KEYFETCH named the pair wait for it no longer; `bad` where it ended without a key (R281). -/
def Dev.keysSettled (d : Dev) (key : Nat × Bool) (bad : Bool) : Dev :=
  let f : Nat × Seq → Nat × Seq := fun e =>
    let s := if bad then e.2 else { e.2 with fetched := settleFetched key e.2.fetched }
    if s.keys.contains key then
      (e.1, { s with keys := s.keys.filter (fun x => x ≠ key), keyBad := s.keyBad || bad,
                     pins := if bad then s.pins.filter (fun x => x ≠ key) else s.pins })
    else (e.1, s)
  { d with seq := d.seq.map f }

/-- A request for a pair ended without a key: each sequencer and each received frame that waits for it counts KEYMISS, and the
frames end as on a phase that is not valid (R274, R281, R284). -/
def Dev.keyFails (d : Dev) (key : Nat × Bool) : Dev :=
  let d := d.inc F.CI_CNT2_KEYMISS (d.seq.filter (fun e => e.2.keys.contains key)).length
  let hit := d.chan.flatMap (fun e => (e.2.frames.filter (fun l => l.wants == some key)).map (fun l => (e.1, l.stamp)))
  (hit.foldl (fun d x => d.missFrame x.1 (fun l => l.stamp == x.2)) d).keysSettled key true

/-- KEY_RESIDENT (R281 to R284): the store engine completes a fetch; `intact` is the integrity check of AES-KW. -/
def execKeyResident (t : Nat) (saidx : NodeAddr) (phase : Bool) (intact : Bool) (s : State) :
    Host.Outcome State Fault Refusal :=
  s.runClk t (fun d =>
    let key := (saidx.toNat, phase)
    if !d.fetches.contains key then d
    else
      let d := d.keyArrives saidx.toNat phase intact
      let got := d.resident key
      let d := if got then (d.bindWaiting key).keysSettled key false else d.keyFails key
      ((d.wakeKey).retryAll).startAllJobs)

/-! ### The window's outcome (R59, R147, R179) -/

/-- RESPONSE_WINDOW_COMMIT at D + H(k): the arrival, or the result of a window with nothing locked. -/
def execResponseWindowCommit (t : Nat) (k : ChanId) (s : State) : Host.Outcome State Fault Refusal :=
  s.runClk t (fun d =>
    match (d.ch k.val).wins.find? (fun w => w.outcome.isNone && decide (w.close + d.hns k.val ≤ d.now)) with
    | none => d
    | some w =>
      let w' := { w with outcome := some w.arrival.isSome }
      let d := d.putWin k.val w w'
      if (d.ch k.val).frames.any (fun l => w.owns (some l)) then d
      else d.commitWin k.val w' (w.last.getD rxTIMEOUT) false)

/-! ### Transmit over receive (R33, R35) -/

/-- A transmission begins over an open window: the rest of the window is blanked and the frame whose chips come in ends CUT; one
that has had its last chip goes on to its verdict (R35, R156). -/
def Dev.blankWindow (d : Dev) (k : Nat) : Dev :=
  let c := d.ch k
  if c.live.isSome ∨ c.wins.any (fun w => w.opened && decide (d.now ≤ w.close)) then
    ((d.setCh k { c with
      wins := c.wins.map (fun w => if c.openWins.contains w then { w with cut := true } else w) }).raise (F.LIF_STATUS_TRCONF k)).cutFrameIn k
  else d

/-- TRANSMIT_ENTRY (R33, R35): the entry at T takes effect. -/
def execTransmitEntry (t : Nat) (k : ChanId) (s : State) : Host.Outcome State Fault Refusal :=
  s.runClk t (fun d =>
    match dueJob (d.ch k.val).txs d.now with
    | none => d
    | some x =>
      let d := d.modCh k.val (fun c => { c with
        txs := c.txs.map (fun y => if y = x then { y with begun := true } else y)
        prmq := c.prmq.filter (fun e => !(e.kind == .tx && e.at_ == x.t)) })
      ((d.members k.val).foldl (fun d m => (d.switchTx m x.t x.fin).primeTx m x.t) d).blankWindow k.val |>.pullPrmq k.val |>.retryAll)

/-! ### Noise floor (R157, R158) -/

/-- NOISE_FLOOR_MEASUREMENT (R157): a complete run of 4,096 chips gives a measurement from its unflagged chips. -/
def execNoiseFloorMeasurement (t : Nat) (k : ChanId) (f : Feed) (s : State) : Host.Outcome State Fault Refusal :=
  s.runClk t (fun d =>
    let d := d.intake k.val f
    match (d.ch k.val).nfDue with
    | [] => d
    | r :: l => (d.modCh k.val (fun c => { c with nfDue := l })).noiseFloor k.val (d.levelOf k.val r.power (r.n - r.flagged) 0))

/-- NF_AGE_EXPIRY (R158). -/
def execNfAgeExpiry (t : Nat) (k : ChanId) (s : State) : Host.Outcome State Fault Refusal :=
  s.runClk t (fun d => if d.chOn k.val ∧ !d.nfFresh k.val then d.wr (F.AQ_STATUS_NFSTALE k.val) 1 else d)

end Sys2Proof.Machine
end

