-- ==== Sys2Proof/Machine/Messages.lean ====
section
/-! DEFINITION. What an accepted Luafen message does: beacons, polls, responses, relays and joins, the loss rules, and the
items that miss their deadlines (R60, R166, R170, R173, R174, R177, R181 to R186, R189, R190, R229, R451). -/

namespace Sys2Proof.Machine

open Sys2Proof

/-- The message that waits on a channel, where it is of a TYPE; it is taken. -/
def Dev.takeAccepted (d : Dev) (k typ : Nat) : Option (Accepted × Dev) :=
  match (d.ch k).accepted with
  | some a => if a.typ = typ then some (a, d.modCh k (fun c => { c with accepted := none })) else none
  | none => none

/-- MSGBAD where the control block runs past the message (R170). -/
def Dev.checkBlock (d : Dev) (k : Nat) (a : Accepted) : Dev :=
  if a.msg.length < blockLen a.typ then d.raise (F.LF_STATUS_MSGBAD k) else d

/-! ### Beacons (R181 to R183) -/

/-- A mains instant as a 48-bit number of grains (R7). -/
def mains48 (c g : Nat) : Nat := (c % 2 ^ 32) * 65536 + g

/-- The announced window holds the current cycle of head-end time. -/
def Dev.windowRuns (d : Dev) (k : Nat) : Bool :=
  match (d.ch k).lf.disc with
  | some (first, _, slots, _, _) => decide (((d.headTime k d.now).1 + 2 ^ 32 - first) % 2 ^ 32 < slots)
  | none => false

/-- The window that a beacon announces; one in progress stays until it ends. -/
def Dev.announce (d : Dev) (k : Nat) (b : BeaconMsg) : Dev :=
  if d.windowRuns k then d
  else
    let first := (b.bcyc + b.dcyc) % 2 ^ 32
    let new : Option (Nat × Nat × Nat × Nat × Bool) :=
      if b.dcyc = 0 then none else some (first, b.dgrn, max 1 b.nslot, b.boffMax, b.jopen)
    let same := decide (((d.ch k).lf.disc.map Prod.fst) = new.map Prod.fst)
    d.modLf k (fun l => { l with
      disc := new, drawn := if same then l.drawn else none, sentJoin := same && l.sentJoin })

/-- HOFS from the end instant of a beacon, and how far it lies from HOFS in force, in grains (R182). -/
def Dev.impliedOffset (d : Dev) (fin : Nat) (b : BeaconMsg) : Nat :=
  let (c, g) := d.mainsAt fin
  (mains48 c g + 2 ^ 48 - mains48 b.bcyc b.begrn) % 2 ^ 48
def Dev.hofs (d : Dev) (k : Nat) : Nat := d.rd (F.LF_HOFS_CYC_HCYC k) * 65536 + d.rd (F.LF_HOFS_GRN_HGRN k)
def offsetJump (a b : Nat) : Nat := min ((a + 2 ^ 48 - b) % 2 ^ 48) ((b + 2 ^ 48 - a) % 2 ^ 48)

/-- HOFS follows a beacon's end instant; one beyond BCN_TOL is ignored while joined alone, so that while HOFSV is set and the
outstation is not joined every beacon moves HOFS (R182; DESIGN CHOICE, log entry 150). -/
def Dev.moveHofs (d : Dev) (k o : Nat) : Dev :=
  ((d.wr (F.LF_HOFS_CYC_HCYC k) (o / 65536)).wr (F.LF_HOFS_GRN_HGRN k) (o % 65536)).raise (F.LF_STATUS_HOFSV k)

/-- The beacon lies beyond BCN_TOL of HOFS at a joined outstation (R182). -/
def Dev.beaconOdd (d : Dev) (k o : Nat) : Bool :=
  d.ostate k == osJOINED && d.on (F.LF_STATUS_HOFSV k) && decide (d.rd (F.LF_BCN_BCN_TOL (d.lead k)) < offsetJump o (d.hofs k))

def Dev.oddBeacon (d : Dev) (k : Nat) : Dev := (d.raise (F.LF_STATUS_BCNODD k)).inc (F.LF_CNT4_BCNODDCNT k)

/-- A BEACON cut short after BEGRN: HOFS moves, nothing is announced (R170). -/
def Dev.takeBeaconTime (d : Dev) (k : Nat) (a : Accepted) (b : BeaconMsg) : Dev :=
  let o := d.impliedOffset a.fin b
  if d.beaconOdd k o then d.oddBeacon k else (d.moveHofs k o).modLf k (fun l => { l with beaconQ := a.q })

/-- An accepted BEACON at an outstation (R182, R183). -/
def Dev.takeBeacon (d : Dev) (k : Nat) (a : Accepted) (b : BeaconMsg) : Dev :=
  let o := d.impliedOffset a.fin b
  if d.beaconOdd k o then d.oddBeacon k
  else ((d.moveHofs k o).modLf k (fun l => { l with beaconQ := a.q })).announce k b

/-- BEACON (R182). -/
def execBeacon (t : Nat) (k : ChanId) (s : State) : Host.Outcome State Fault Refusal :=
  s.runClk t (fun d =>
    match d.takeAccepted k.val tyBEACON with
    | none => d
    | some (a, d) =>
      let d := d.checkBlock k.val a
      if !d.isOut k.val then d
      else match readBeacon a.msg with
        | some b => d.takeBeacon k.val a b
        | none => (match readBeaconTime a.msg with | some b => d.takeBeaconTime k.val a b | none => d))

/-! ### Polls and relays (R173, R177, R189, R190) -/

/-- What a POLL grants. -/
def pollGrant (a : Accepted) (p : PollMsg) : Grant :=
  { relay := false, umode := p.umode, ustrm := p.ustrm, uspan := p.uspan, ulen := p.ulen, ulvl := p.ulvl, gap := p.rgap,
    rptreq := p.rptreq, q := a.q, qsrc := a.qsrc, dmargin := a.dmargin, gainAdv := a.gainAdv, ss := a.ss }

/-- What a RELAY grants. -/
def relayGrant (a : Accepted) (p : PollMsg) (r : RelayMsg) : Grant :=
  { pollGrant a p with
    relay := true, wopen := r.wopen, ikh := r.ikh, inp := r.inp, isync := r.isync, igain := r.igain,
    wlen := r.wlen, rtx := r.rtx, ilvl := r.ilvl, inner := r.inner, winFree := r.wlen != 0 }

/-- The acknowledgement and the data units of an accepted POLL, RELAY or RESP, and the loss timer's restart. -/
def Dev.readReply (d : Dev) (k : Nat) (a : Accepted) : Dev :=
  let d := match readAck a.msg with | some n => d.ackTo k a.entry n | none => d
  (d.acceptUnits k a.entry a.typ a.via a.msg).endHandOn k

/-- The frame is addressed to this station alone, not to every one (R177, R186, R189). -/
def Accepted.addressed (a : Accepted) : Bool := a.dst != 0x1FFFF

/-- A frame of the head-end to this outstation restarts the loss timer (R186). -/
def Dev.heardHead (d : Dev) (k : Nat) : Dev := d.modLf k (fun l => { l with lastPoll := d.cycle })

/-- POLL (R177): the grant, ACKU and the data units, at a joined outstation. -/
def execPoll (t : Nat) (k : ChanId) (s : State) : Host.Outcome State Fault Refusal :=
  s.runClk t (fun d =>
    match d.takeAccepted k.val tyPOLL with
    | none => d
    | some (a, d) =>
      if !d.isOut k.val ∨ d.ostate k.val ≠ osJOINED then d.endHandOn k.val
      else
        let d := (if a.addressed then d.heardHead k.val else d).readReply k.val a
        match readPoll a.msg with
        | some p => if a.addressed then d.modCh k.val (fun c => { c with grant := some (pollGrant a p) }) else d
        | none => d)

/-- The causes for which a repeater refuses a RELAY (R190). -/
def Dev.refusesRelay (d : Dev) (k : Nat) (g : Grant) : Bool :=
  let l := d.lead k
  d.role k != roleREP || !d.on (F.LF_CFG_RELAY_EN l) ||
  decide (g.gap < d.rd (F.LF_TIME_RGMIN l)) || decide (g.rtx < d.rd (F.LF_TIME_RGMIN l)) ||
  (g.inner != [] && (!g.innerHeard || (d.innerRefusal k g).isSome))

/-- A RELAY cut short before its end: the fields read keep their effect; it carries no inner frame, and what it does not carry
gives no gap (R170; which fields a step still needs is log entry 151). -/
def Dev.cutRelay (d : Dev) (k : Nat) (a : Accepted) (p : PollMsg) : Dev :=
  let g := relayGrant a p (readRelayPart a.msg)
  let g := { g with gapFree := false, rtxFree := (msgWord a.msg 4).isSome, winFree := g.winFree && (msgWord a.msg 4).isSome }
  let bad := d.refusesRelay k g
  let d := if bad then d.raise (F.LF_STATUS_RELAYX k) else d
  (d.modCh k (fun c => { c with grant := some { g with refused := bad } })).modLf k (fun l => { l with upward := none })

/-- RELAY (R189, R190). -/
def execRelay (t : Nat) (k : ChanId) (s : State) : Host.Outcome State Fault Refusal :=
  s.runClk t (fun d =>
    match d.takeAccepted k.val tyRELAY with
    | none => d
    | some (a, d) =>
      if !d.isOut k.val ∨ d.ostate k.val ≠ osJOINED then d.endHandOn k.val
      else
        let d := (if a.addressed then d.heardHead k.val else d).readReply k.val a
        match readPoll a.msg, readRelay a.msg with
        | some p, none => if a.addressed then d.cutRelay k.val a p else d
        | some p, some r =>
         if !a.addressed then d
         else
          let r := if a.msg.length < 24 + relayInlen a.msg then { r with inner := [] } else r
          let g := relayGrant a p r
          let bad := d.refusesRelay k.val g
          let d := if bad then d.raise (F.LF_STATUS_RELAYX k.val) else d
          (d.modCh k.val (fun c => { c with grant := some { g with refused := bad } })).modLf k.val
            (fun l => { l with upward := none })
        | _, _ => d)

/-! ### Responses at the head-end (R174, R185, R190, R229) -/

/-- The join of entry `i` is confirmed: ACTIVE, with version, capabilities and RGAP of its JOINREQ (R185, R228, R229). -/
def Dev.confirmJoin (d : Dev) (k i : Nat) : Dev :=
  let d := (((d.makeActive i).wr (N.FAILS i) 0).wr (N.JPOLLED i) 0)
  match ((d.ch k).lf.offers.find? (fun o => o.1 == i)).map Prod.snd with
  | some m =>
    match readJoinReq m, msgWord m 2 with
    | some r, some caps =>
      let gap := max (d.rd (N.RGAP i)) r.rgmin
      let d := if gap = d.rd (N.RGAP i) then d else d.edited i
      let d := (((d.wr (N.VER i) (min (d.vmax k) r.vmax)).wr (N.CAPS i) caps.toNat).wr (N.RGMIN i) r.rgmin).wr (N.RGAP i) gap
      (d.copyEntry i).modLf k (fun l => { l with offers := l.offers.filter (fun o => o.1 ≠ i) })
    | _, _ => d
  | none => d

/-- The upward frame of a RESP that came through `path` waits for its check; where there is none, the exchanges beyond the repeater
failed (R190). -/
def Dev.upwardFrame (d : Dev) (k : Nat) (path : List Nat) (up : List Byte) : Dev :=
  if up ≠ [] then d.modLf k (fun l => { l with nested := some up, nestedPath := path, nestedWait := none })
  else (d.polledBeyond k path).foldl (fun d j => d.exchangeDone k j false) d

/-- The hop qualities that a RESP brings: the head-end's own where it heard the frame, the node's of the frame it answered, and its
neighbour records (R170, R192). -/
def Dev.respReports (d : Dev) (a : Accepted) : List HopReport :=
  let addr := d.rd (N.ADDR a.entry)
  let own := if a.via then [] else [{ of_ := 0, heard := addr, q := a.q, cycle := d.cycle : HopReport }]
  let back := match respQ a.msg with
    | some q => [{ of_ := addr, heard := a.path.getLast?.getD 0, q := q, cycle := d.cycle : HopReport }]
    | none => []
  own ++ back ++ (respNbrs a.msg).map (fun n =>
    { of_ := addr, heard := n.addr, q := n.q, cycle := (d.cycle + 2 ^ 32 - n.age) % 2 ^ 32 })

/-- A RESP of an ACTIVE node (R173, R174, R229). -/
def Dev.respActive (d : Dev) (k : Nat) (a : Accepted) : Dev :=
  let i := a.entry
  let d := d.readReply k a
  let d := if a.via then d else ((d.wrS (N.SS i) a.ss).wr (N.DMARGIN i) a.dmargin).wr (N.GAIN_ADV i) a.gainAdv
  let d := match respNf a.msg with | some n => d.wrS (N.NF i) n | none => d
  let d := d.modLf k (fun l => { l with reports := (d.respReports a).foldl (fun x r => putReport r x) l.reports })
  (d.exchangeDone k i true).upwardFrame k (a.path ++ [d.rd (N.ADDR i)]) (respUp a.msg).2

/-- RESP (R185). -/
def execResp (t : Nat) (k : ChanId) (s : State) : Host.Outcome State Fault Refusal :=
  s.runClk t (fun d =>
    match d.takeAccepted k.val tyRESP with
    | none => d
    | some (a, d) =>
      let i := a.entry
      if d.role k.val ≠ roleHEAD then d.endHandOn k.val
      else if d.rd (N.STATE i) = stJOINING then
        (if respNonce a.msg = some (d.nonceH i) then (d.confirmJoin k.val i).respActive k.val a
         else (if (messageUnits tyRESP a.msg).2 then d.raise (F.LF_STATUS_MSGBAD k.val) else d).joinAbandon i)
      else if d.rd (N.STATE i) = stACTIVE then d.respActive k.val a
      else d.endHandOn k.val)

/-! ### Joins (R183 to R185) -/

/-- JOINREQ (R184): a request handled in this window waits for its JOINACC. -/
def execJoinreq (t : Nat) (k : ChanId) (s : State) : Host.Outcome State Fault Refusal :=
  s.runClk t (fun d =>
    match d.takeAccepted k.val tyJOINREQ with
    | none => d
    | some (a, d) =>
      let d := d.checkBlock k.val a
      if d.role k.val ≠ roleHEAD ∨ (readJoinReq a.msg).isNone then d
      else d.modLf k.val (fun l => { l with
        pend := l.pend.filter (fun p => p.1 ≠ a.entry) ++ [(a.entry, a.msg)]
        joinPath := l.joinPath.filter (fun p => p.1 ≠ a.entry) ++ [(a.entry, a.path)] }))

/-- A join attempt failed: UNJOINED, and a number of windows to skip, none where the DRBG refuses the draw (R183, R319). -/
def Dev.joinFailed (d : Dev) (k : Nat) : Dev :=
  let n := (d.ch k).lf.joinFails + 1
  let b := match (d.ch k).lf.disc with | some (_, _, _, b, _) => b | none => 0
  let (r, d) := if d.trusted then d.draw else (0, d)
  (d.wr (F.LF_STATUS_OSTATE k) osUNJOINED).modLf k (fun l => { l with joinFails := n, skip := r.toNat % 2 ^ min n b })

/-- A JOINACC with STATUS 0 (R183, R186, R275): JOINED, with the session of both nonces. -/
def Dev.joined (d : Dev) (k i : Nat) (m : JoinAccMsg) : Dev :=
  let d := d.adoptSession i m.nonceN m.nonceH (d.rd (N.ADDR i)) false
  let d := (((d.wr (N.W11 i) 0).wr (N.W12 i) 0).wr (N.VER i) m.ver).wr (F.LF_STATUS_OSTATE k) osJOINED
  d.modLf k (fun l => { l with nonceH := some m.nonceH, lostc := max 1 m.lostc, lastPoll := d.cycle, joinFails := 0, skip := 0 })

/-- JOINACC (R183): joining, backing off or holding off as STATUS sets. -/
def execJoinacc (t : Nat) (k : ChanId) (s : State) : Host.Outcome State Fault Refusal :=
  s.runClk t (fun d =>
    match d.takeAccepted k.val tyJOINACC with
    | none => d
    | some (a, d) =>
      let d := d.checkBlock k.val a
      match readJoinAcc a.msg with
      | none => d
      | some m =>
        let m := if a.msg.length < blockLen tyJOINACC then { m with lostc := (d.ch k.val).lf.lostc } else m
        if !d.isOut k.val ∨ d.ostate k.val ≠ osJOINING ∨ m.nonceN ≠ (d.ch k.val).lf.nonceN then d
        else match m.status with
          | 0 => d.joined k.val a.entry m
          | 1 => (d.wr (F.LF_STATUS_OSTATE k.val) osUNJOINED).wr (N.HOLDJ a.entry) 1
          | 2 => d.joinFailed k.val
          | _ => d)

/-- DISCOVERY_WINDOW_END (R183, R184): the head-end closes the window's requests and counts; an outstation still JOINING backs
off, and one that skipped the window has one fewer to skip. -/
def execDiscoveryWindowEnd (t : Nat) (k : ChanId) (s : State) : Host.Outcome State Fault Refusal :=
  s.runClk t (fun d =>
    let kk := k.val
    let l := (d.ch kk).lf
    if d.role kk = roleHEAD then
      (match l.window with
       | some w => if d.discWindow kk = some w then d
                   else d.modLf kk (fun l => { l with window := none, handled := 0, pend := [] })
       | none => d)
    else if d.isOut kk then
      (match l.disc with
       | some (first, _, slots, _, _) =>
         let n := ((d.headTime kk d.now).1 + 2 ^ 32 - first) % 2 ^ 32
         if n < slots ∨ 2 ^ 31 ≤ n then d
         else
           let d := if d.ostate kk = osJOINING then d.joinFailed kk
             else if l.sentJoin then d
             else d.modLf kk (fun l => { l with skip := l.skip - 1 })
           d.modLf kk (fun l => { l with disc := none, drawn := none, sentJoin := false })
       | none => d)
    else d)

/-! ### Loss (R174, R185, R186) -/

/-- NODE_LOST (R174). -/
def execNodeLost (t : Nat) (index : NodeAddr) (s : State) : Host.Outcome State Fault Refusal :=
  s.runClk t (fun d =>
    let i := index.toNat
    let k := d.rd (N.CHAN i)
    if d.role k = roleHEAD ∧ d.rd (N.STATE i) = stACTIVE ∧ d.retryMax k ≤ d.rd (N.FAILS i) then d.nodeLost k i else d)

/-- JOIN_ABANDON (R185). -/
def execJoinAbandon (t : Nat) (index : NodeAddr) (s : State) : Host.Outcome State Fault Refusal :=
  s.runClk t (fun d =>
    let i := index.toNat
    let k := d.rd (N.CHAN i)
    if d.role k = roleHEAD ∧ d.rd (N.STATE i) = stJOINING ∧ d.retryMax k ≤ d.rd (N.FAILS i) then d.joinAbandon i else d)

/-- OUTSTATION_LOSS (R186). -/
def execOutstationLoss (t : Nat) (k : ChanId) (s : State) : Host.Outcome State Fault Refusal :=
  s.runClk t (fun d =>
    let l := (d.ch k.val).lf
    if d.isOut k.val ∧ d.ostate k.val = osJOINED ∧ max 1 l.lostc ≤ (d.cycle + 2 ^ 32 - l.lastPoll) % 2 ^ 32
    then d.unjoin k.val else d)

/-! ### Deadline misses (R60, R201, R215, R451) -/

/-- A held step whose deadline has passed. -/
def Dev.missHeld (d : Dev) (q : Nat) : Dev :=
  match (d.sq q).held, d.heldWait q with
  | some x, some op =>
    if d.now ≤ x then d
    else match op with
      | .tx _ _ _ _ _ => d.missTx q (d.tgt q) subSLOT (some x)
      | .rx _ _ _ _ _ _ => d.stepMiss q subWINDOW (some x)
      | .wait wk _ _ _ => if wk = 0 then d else d.stepMiss q subSTEP (some x)
      | _ => d.stepMiss q subSTEP (some x)
  | _, _ => d

/-- The oldest request of a sequencer not decided by its deadline fails (R451). -/
def Dev.missBudget (d : Dev) (q : Nat) : Dev :=
  match (d.sq q).reqs.find? (fun r => decide (r.deadline < d.now)) with
  | none => d
  | some r =>
    let last := (d.sq q).reqs.getLast? == some r
    let d := d.modSq q (fun s => { s with
      reqs := s.reqs.erase r, open_ := s.open_ && !last, out := if last then some .failed else s.out
      slotFailed := s.slotFailed || r.kind == .txslot })
    let d := if r.deferred then d.inc F.GV_CNT2_DEFERS else d
    let d := ((d.event 10 3 0 1).lateMiss q r.step subBUDGET r.deadline)
    (d.wakeGrant q).retryTx q

/-- A KEYFETCH with a key not resident by its deadline misses, and the last one ends without it (R451). -/
def Dev.missKey (d : Dev) (q : Nat) : Dev :=
  match (d.sq q).fetched.find? (fun f => decide (f.deadline < d.now)) with
  | none => d
  | some f =>
    let d := d.modSq q (fun x =>
      let x := { x with fetched := x.fetched.erase f }
      if f.newest then { x with keys := [], keyBad := true, pins := x.pins.filter (fun p => !f.keys.contains p) } else x)
    (d.lateMiss q f.step subSTEP f.deadline).wakeKey

/-- An ARM PATH not committed by its deadline (R204, R451). -/
def Dev.missPath (d : Dev) (q : Nat) : Dev :=
  match (d.sq q).paths.find? (fun p => decide (p.2.1 < d.now)) with
  | some p => (d.modSq q (fun s => { s with paths := s.paths.erase p })).lateMiss q p.2.2 subSTEP p.2.1
  | none => d

/-- CHQ_TX ran empty under a transmission: its chain is fed zero chips from here on (R17). -/
def Dev.missSlot (d : Dev) (k : Nat) : Dev :=
  match (d.ch k).txs.find? (fun x => x.begun && !x.starved) with
  | some x =>
    let from_ := d.nsChips k (d.now - (x.t + 250)) 1
    (d.modCh k (fun c => { c with txs := c.txs.map (fun y => if y = x then { y with starved := true, starveFrom := from_ } else y) })).lateMiss
      x.seq x.step subSLOT x.t
  | none => d

/-- DEADLINE_MISS (R60): an item not met by its deadline. -/
def execDeadlineMiss (t : Nat) (item : MissItem) (s : State) : Host.Outcome State Fault Refusal :=
  s.runClk t (fun d =>
    match item with
    | .step q => d.missHeld q.val
    | .budget q => d.missBudget q.val
    | .key q => d.missKey q.val
    | .path q => d.missPath q.val
    | .slot k => d.missSlot k.val)

end Sys2Proof.Machine
end

