-- ==== Sys2Proof/Machine/Forward.lean ====
section
/-! DEFINITION. Forwarding between the Ethernet ports and the line: ingress checks, egress frames, link state, the uplink pair
and priority flow control (R235 to R245, R349 to R353, R447, R449). -/

namespace Sys2Proof.Machine

open Sys2Proof

/-! ### Ports (R239, R349 to R351) -/

/-- UPMODE (R239). -/
def Dev.upmode (d : Dev) : Nat := d.rd F.FW_UPL_UPMODE

/-- The port's domain is on. -/
def Dev.ethDomOn (d : Dev) (p : Nat) : Bool := d.domOn (68 + p)

/-- The port is on and not squelched. -/
def Dev.ethLive (d : Dev) (p : Nat) : Bool := d.ethDomOn p && !d.on (F.ETH_CFG_SQUELCH p)

/-- The up bit of a port as the fabric sees it. -/
def upField (p : Nat) : Field := if p = 0 then F.FW_UPSTAT_A_UP else F.FW_UPSTAT_B_UP

/-- A port accepts frames (R239, R407): in the recovery state both do. -/
def Dev.accepting (d : Dev) (p : Nat) : Bool := d.upmode != 1 - p || d.rstate == 2

/-- The port that a channel prefers: ETHA or ETHB in modes 0 and 1, ETHA in mode 2, PRIM in mode 3 (R239, R241). -/
def Dev.preferred (d : Dev) (k : Nat) : Nat :=
  match d.upmode with
  | 0 => 0
  | 1 => 1
  | 2 => 0
  | _ => d.rd (F.FW_CHUP_PRIM k)

/-- The port that serves a channel under R239 from the ports' present state. -/
def Dev.servingNow (d : Dev) (k : Nat) : Nat :=
  let p := d.preferred k
  if d.upmode ≤ 1 ∨ d.portUp p ∨ !d.portUp (1 - p) then p else 1 - p

/-- CUR follows R239 for every channel: UPMODE was written, with every channel in role off. -/
def Dev.setServing (d : Dev) : Dev := (List.range 64).foldl (fun d k => d.wr (F.FW_CHUP_CUR k) (d.servingNow k)) d

/-- UPLINK notice (R240 to R242). -/
def Dev.uplinkNotice (d : Dev) (code p : Nat) : Dev := d.notice { cls := 4, code := code, arg := p }

/-- UPFAIL and its cause. -/
def Dev.upFail (d : Dev) : Dev := d.cause causeUPFAIL

/-- A port that was up is down: its partial frame ends truncated and the loss is reported (R240, R242). -/
def Dev.portLost (d : Dev) (p : Nat) : Dev :=
  if !d.portUp p then d
  else
    let d := d.wr (upField p) 0
    let d := { d with downSince := Tab.put d.downSince p (some d.now), upSince := Tab.del d.upSince p, lastDown := p
                      returning := d.returning.filter (fun e => e.2 != p) }
    let qs := (d.ethOut.filter (fun e => e.port == p && !e.done)).map EthOut.queue
    let d : Dev := qs.foldl Dev.cutFrame d
    let single : Bool := decide (d.upmode ≤ 1)
    let d := if single ∧ d.upmode = p then (d.upFail).uplinkNotice 3 p else d
    if d.portUp (1 - p) then d
    else
      let d := (d.raise F.FW_UPSTAT_BOTHDOWN).uplinkNotice 2 p
      if single then d else d.upFail

/-- A loss on a port sets its flag and clears UP (R351). -/
def Dev.linkLoss (d : Dev) (p : Nat) (flag : Field) : Dev := ((d.raise flag).wr (F.ETH_STATUS_UP p) 0).portLost p

/-- LOSS_OF_SIGNAL (R351). -/
def execLossOfSignal (t : Nat) (p : PortId) (lane : Fin 8) (s : State) : Host.Outcome State Fault Refusal :=
  s.run t (fun d =>
    if d.ethLive p.val then
      (d.wr ⟨A.ETH_STATUS p.val, lane.val, 1⟩ 0).linkLoss p.val (F.ETH_STATUS_LOS p.val)
    else d)

/-- LOSS_OF_ALIGNMENT (R351): align_status false, or hi_ser true. -/
def execLossOfAlignment (t : Nat) (p : PortId) (hiser : Bool) (s : State) : Host.Outcome State Fault Refusal :=
  s.run t (fun d =>
    if d.ethLive p.val then
      (if hiser then d.wr (F.ETH_STATUS_HISER p.val) 1 else d.wr (F.ETH_STATUS_ALIGN p.val) 0).linkLoss p.val
        (F.ETH_STATUS_LOA p.val)
    else d)

/-! ### The uplink pair (R239 to R241) -/

/-- Move the channels that satisfy a predicate to port `p`; answers whether any moved. -/
def Dev.moveTo (d : Dev) (p : Nat) (f : Nat → Bool) : Bool × Dev :=
  let ks := (List.range 64).filter (fun k => d.rd (F.FW_CHUP_CUR k) != p && f k)
  (ks != [], ks.foldl (fun d k => d.wr (F.FW_CHUP_CUR k) p) d)

/-- The port is down and has been for FAILHOLD µs, at most 150, or since reset (R239, R240). -/
def Dev.heldDown (d : Dev) (p : Nat) : Bool :=
  !d.portUp p && (match Tab.get none d.downSince p with
    | some x => decide (x + 1000 * min 150 (d.rd F.FW_UPL_FAILHOLD) ≤ d.now)
    | none => true)

/-- In modes 2 and 3 every channel that port `p` serves moves to the other port, which is up, once `p` has stayed down (R239,
R240). -/
def Dev.failover (d : Dev) (p : Nat) : Dev :=
  if 2 ≤ d.upmode ∧ d.heldDown p ∧ d.portUp (1 - p) then
    let (any, d) := d.moveTo (1 - p) (fun _ => true)
    if any then (d.raise F.FW_UPSTAT_MOVED).uplinkNotice 0 (1 - p) else d
  else d

/-- PORT_UP (R350, R351): neither loss condition holds; the channels of a port that has stayed down move to this one (R240). -/
def execPortUp (t : Nat) (p : PortId) (s : State) : Host.Outcome State Fault Refusal :=
  s.run t (fun d =>
    if d.ethLive p.val ∧ !d.on (F.ETH_STATUS_UP p.val) then
      let d := ((d.wr (F.ETH_STATUS_SIGDET p.val) 0xFF).wr (F.ETH_STATUS_ALIGN p.val) 1).wr (F.ETH_STATUS_HISER p.val) 0
      let d := (d.wr (F.ETH_STATUS_UP p.val) 1).wr (upField p.val) 1
      let d := { d with downSince := Tab.del d.downSince p.val, upSince := Tab.put d.upSince p.val (some d.now)
                        linkWait := Tab.del d.linkWait p.val }
      d.failover (1 - p.val)
    else d)

/-- SQUELCH is cleared: bring-up begins (R350). -/
def Dev.unsquelch (d : Dev) (p : Nat) : Dev :=
  if d.on (F.ETH_CFG_SQUELCH p) then
    { d.wr (F.ETH_CFG_SQUELCH p) 0 with linkWait := Tab.put d.linkWait p (some d.now) }
  else d

/-- SQUELCH is set: the lanes are silent and the port goes down with loss of signal (R349). -/
def Dev.squelch (d : Dev) (p : Nat) : Dev :=
  if d.on (F.ETH_CFG_SQUELCH p) then d
  else
    let d := ((d.wr (F.ETH_CFG_SQUELCH p) 1).wr (F.ETH_STATUS_SIGDET p) 0).wr (F.ETH_STATUS_ALIGN p) 0
    { d with linkWait := Tab.del d.linkWait p }.linkLoss p (F.ETH_STATUS_LOS p)

/-- SQUELCH_CLEAR (R349, R350). -/
def execSquelchClear (t : Nat) (p : PortId) (s : State) : Host.Outcome State Fault Refusal :=
  s.run t (fun d => if d.ethDomOn p.val then d.unsquelch p.val else d)

/-- SQUELCH_SET (R349). -/
def execSquelchSet (t : Nat) (p : PortId) (s : State) : Host.Outcome State Fault Refusal :=
  s.run t (fun d => if d.ethDomOn p.val then d.squelch p.val else d)

/-- PORT_UP_TIMEOUT (R350): 50 ms after SQUELCH was cleared the port is not up; it keeps trying and sets LOS or LOA. `sigdet` is
the lanes whose recovery has locked, the input from the line: without one of them the signal is lost, else the alignment. -/
def execPortUpTimeout (t : Nat) (p : PortId) (sigdet : BitVec 8) (s : State) : Host.Outcome State Fault Refusal :=
  s.run t (fun d =>
    match Tab.get none d.linkWait p.val with
    | some x =>
      if d.ethLive p.val ∧ x + 50000000 ≤ d.now then
        (d.wr (F.ETH_STATUS_SIGDET p.val) sigdet.toNat).raise
          (if sigdet = BitVec.allOnes 8 then F.ETH_STATUS_LOA p.val else F.ETH_STATUS_LOS p.val)
      else d
    | none => d)

/-- PD_ETHA or PD_ETHB goes off: the port is down, its crossings are reset and its registers return to reset (R23, R349). -/
def Dev.portDomainOff (d : Dev) (p : Nat) : Dev :=
  let flight := d.ethOut.filter (fun e => e.port == p && !e.done)
  let d := flight.foldl (fun d e => d.inc (F.FT_CH3_ABANDON (d.rd (F.QS_OWN_CHAN e.queue)))) d
  let d := d.portLost p
  let d := d.resetRange (ethBase p) (ethBase p + 0xFF)
  { d with linkWait := Tab.del d.linkWait p, paused := Tab.clear d.paused (8 * p) (8 * p + 7), ethOut := d.ethOut.filter (fun e => e.port ≠ p) }

/-- FAILHOLD_EXPIRY (R240). -/
def execFailholdExpiry (t : Nat) (p : PortId) (s : State) : Host.Outcome State Fault Refusal :=
  s.runClk t (fun d => d.failover p.val)

/-- A channel's frame is in progress on the other port than `p`. -/
def Dev.sendsElsewhere (d : Dev) (k p : Nat) : Bool :=
  d.ethOut.any (fun e => !e.done && e.port != p && decide (d.rd (F.FW_CHUP_UQBASE k) ≤ e.queue) &&
    decide (e.queue ≤ d.rd (F.FW_CHUP_UQBASE k) + 3))

/-- REVERT (R241): a channel with a frame in progress on the other port moves when that frame ends. -/
def execRevert (t : Nat) (p : PortId) (s : State) : Host.Outcome State Fault Refusal :=
  s.runClk t (fun d =>
    match Tab.get none d.upSince p.val with
    | some x =>
      if 2 ≤ d.upmode ∧ d.on F.FW_UPL_REVERT ∧ d.portUp p.val ∧ x + 1000000 * max 1 (d.rd F.FW_UPL_RESTORE) ≤ d.now then
        let late := (List.range 64).filter (fun k => d.rd (F.FW_CHUP_CUR k) != p.val && d.preferred k == p.val && d.sendsElsewhere k p.val)
        let (any, d) := d.moveTo p.val (fun k => d.preferred k == p.val && !late.contains k)
        let d := { d with returning := d.returning ++ late.map (fun k => (k, p.val)) }
        if any ∨ late ≠ [] then (d.raise F.FW_UPSTAT_MOVED).uplinkNotice 1 p.val else d
      else d
    | none => d)

/-! ### Priority flow control (R243) -/

/-- PFC_FRAME (R243): a received pause of `quanta` quanta of 1.28 ns. -/
def execPfcFrame (t : Nat) (p : PortId) (prio : Fin 8) (quanta : BitVec 16) (s : State) : Host.Outcome State Fault Refusal :=
  s.run t (fun d =>
    if !d.on (F.ETH_STATUS_UP p.val) then d
    else
      let d := d.event 7 5 p.val 1
      if d.on F.FW_PFC_PFCRX then
        let x := if quanta = 0 then 0 else d.now + ceilDiv (quanta.toNat * 128) 100
        { d with paused := Tab.set 0 d.paused (8 * p.val + prio.val) x }
      else d)

/-- PAUSE_EXPIRY (R243). -/
def execPauseExpiry (t : Nat) (p : PortId) (prio : Fin 8) (s : State) : Host.Outcome State Fault Refusal :=
  s.run t (fun d =>
    if Tab.get 0 d.paused (8 * p.val + prio.val) ≤ d.now then { d with paused := Tab.del d.paused (8 * p.val + prio.val) }
    else d)

/-- A priority is paused on a port. -/
def Dev.isPaused (d : Dev) (p prio : Nat) : Bool := decide (d.now < Tab.get 0 d.paused (8 * p + prio))

/-! ### Ingress (R235 to R237, R352, R449) -/

/-- The node shim (R235). -/
structure Shim where
  ver : Nat
  tenant : Nat
  node : Nat
  cls : Nat
  up : Bool
  via : Bool := false
  seq : Nat := 0
deriving DecidableEq, Repr

def Shim.octets (h : Shim) : List Byte :=
  packOctets 8 [(4, h.ver), (4, h.tenant), (17, h.node), (2, h.cls), (1, if h.up then 1 else 0), (1, if h.via then 1 else 0),
    (3, 0), (16, h.seq), (16, 0)]

def readShim (l : List Byte) : Shim :=
  let n := beNat (l.take 8)
  { ver := n / 2 ^ 60 % 16, tenant := n / 2 ^ 56 % 16, node := n / 2 ^ 39 % 2 ^ 17, cls := n / 2 ^ 37 % 4,
    up := n / 2 ^ 36 % 2 == 1, via := n / 2 ^ 35 % 2 == 1, seq := n / 2 ^ 16 % 65536 }

/-- EtherType of a frame after any tag, and the octets that follow it up to the FCS; a frame with SHIM_ET or MGT_ET, the `known`
ones, in place of the TPID is untagged (R235). -/
def frameBody (known : List Nat) (octets : List Byte) : Nat × List Byte :=
  let l := octets.take (octets.length - 4)
  let et := beNat ((l.drop 12).take 2)
  if et = 0x8100 ∧ !known.contains et then (beNat ((l.drop 16).take 2), l.drop 18) else (et, l.drop 14)

/-- Role that R449 takes for FWADDR: the role in force, or the service role while the channel is in role off. -/
def Dev.kindRole (d : Dev) (k : Nat) : Nat :=
  if d.role k ≠ roleOFF then d.role k else (Tab.get ({} : Restore) d.restore k).role

/-- KIND suits the role of a channel (R449). -/
def kindSuits (kind role : Nat) : Bool :=
  if role = roleHEAD then kind == 1
  else if role = roleOUT ∨ role = roleREP then kind == 2
  else kind == 1 || kind == 2

/-- FWSTATE (R236). -/
def Dev.fwState (d : Dev) (k i cls : Nat) : Bool :=
  let st := d.rd (N.STATE i)
  let rel := getBits (BitVec.ofNat 32 (d.rd (N.RELMAP i))) cls 1 == 1 && d.on (N.DQV i)
  d.role k == roleOFF || d.role k == roleLISTEN ||
  (d.role k == roleHEAD && (st == stABSENT || st == stJOINING || (st == stLOST && !rel))) ||
  (d.isOut k && d.ostate k != osJOINED)

/-- An ingress drop (R236). -/
def Dev.fwDrop (d : Dev) (code : Nat) : Dev := (d.inc F.FW_CNT_DROPCNT).wr F.FW_UPSTAT_LASTDROP code

/-- Push an accepted content to the queue that R237 selects; FWNOQ where that queue is not valid (R236, R268). -/
def Dev.fwPush (d : Dev) (i cls : Nat) (content : List Byte) : Dev :=
  let rel := getBits (BitVec.ofNat 32 (d.rd (N.RELMAP i))) cls 1 == 1
  if rel ∧ d.on (N.DQV i) then
    (if d.on (F.QD_CFG_EN (d.rd (N.DQ i))) then d.pushDeepContent (d.rd (N.DQ i)) cls content else d.fwDrop 8)
  else if d.on (N.SQV i) ∧ d.on (F.QS_CFG_EN (d.rd (N.SQ i))) then
    ((if rel then d.inc F.FW_CNT_RELDOWN else d).pushContent (d.rd (N.SQ i)) cls content).pfcCheck
  else d.fwDrop 8

/-- The checks of R236 on a shim frame, in order. -/
def Dev.fwShim (d : Dev) (l : List Byte) : Dev :=
  let h := readShim l
  let content := l.drop 8
  let i := h.node
  let k := d.lead (d.rd (N.CHAN i))
  if h.ver ≠ 1 ∨ h.up then d.fwDrop 3
  else if d.lookup (d.rd (N.CHAN i)) i ≠ some i ∨ !kindSuits (d.rd (N.KIND i)) (d.kindRole k) then
    (d.entryParity k i).fwDrop 4
  else if h.tenant ≠ d.rd (N.TENANT i) then d.fwDrop 5
  else if d.fwState k i h.cls then d.fwDrop 6
  else if content.length = 0 ∨ 16383 < content.length then d.fwDrop 7
  else d.fwPush i h.cls content

/-- A frame past the receive MAC (R236); one of MGT_ET goes to the management engine, `mgt` (R235). -/
def Dev.ingress (d : Dev) (p : Nat) (octets : List Byte) (mgt : Dev → List Byte → Dev) : Dev :=
  let (et, body) := frameBody [d.rd F.FW_CFG_SHIM_ET, d.rd F.FW_CFG_MGT_ET] octets
  if !d.accepting p then d.fwDrop 1
  else if et = d.rd F.FW_CFG_MGT_ET then mgt d body
  else if et ≠ d.rd F.FW_CFG_SHIM_ET then d.fwDrop 2
  else d.fwShim body

/-! ### Egress (R238, R447) -/

/-- Channels that own uplink queues: those in a role first, then those in role off that have a scope; a non-lead member owns none
(R225, R238; log entry 20). -/
def Dev.queueOwners (d : Dev) : List Nat :=
  let l := (List.range 64).filter (fun k => d.lead k == k)
  l.filter (fun k => d.role k != roleOFF) ++ l.filter (fun k => d.role k == roleOFF && d.rd (F.FW_SCOPE_SIZE k) != 0)

/-- Uplink queue, channel and class; a queue that two channels name is the first one's. -/
def Dev.ownedQueues (d : Dev) : List (Nat × Nat × Nat) :=
  (d.queueOwners.flatMap (fun k => (List.range 4).map (fun c => (d.rd (F.FW_CHUP_UQBASE k) + c, k, c)))).foldl
    (fun l x => if l.any (fun y => y.1 == x.1) then l else l ++ [x]) []

/-- The uplink queues of the channels that a port serves, with channel and class (log entry 20). -/
def Dev.servedQueues (d : Dev) (p : Nat) : List (Nat × Nat × Nat) :=
  d.ownedQueues.filter (fun x => d.rd (F.FW_CHUP_CUR x.2.1) == p)

/-- The queue that a free port takes next (R447): highest priority, then round robin after the queue last served. -/
def Dev.nextQueue (d : Dev) (p : Nat) : Option (Nat × Nat × Nat) :=
  let l := (d.servedQueues p).filter (fun x => d.mayBegin x.1 && !d.isPaused p (d.pri x.2.2))
  let top := (l.map (fun x => d.pri x.2.2)).foldl max 0
  let l := l.filter (fun x => d.pri x.2.2 == top)
  let least := fun (m : List (Nat × Nat × Nat)) =>
    m.foldl (fun (a : Option (Nat × Nat × Nat)) x => match a with
      | some y => if x.1 < y.1 then some x else a
      | none => some x) none
  match Tab.get none (d.rr.map (fun e => (e.1, some e.2))) (8 * p + top) with
  | some last => (least (l.filter (fun x => decide (last < x.1)))).orElse (fun _ => least l)
  | none => least l

/-- The entry from which an item of channel `k` came, and whether it came through an espalier: of an item still being handed on, the
entry of the frame under reception (R238, R294). -/
def Dev.itemNode (d : Dev) (k : Nat) (it : Item) : Nat × Bool :=
  if it.complete then (it.node, it.via)
  else (((d.ch k).frames.head?.bind (fun l => l.entry)).getD it.node, it.via)

/-- The octets of an uplink frame before its content (R235, R238); an entry that fails parity is read as an unused one (R224). -/
def Dev.egressHead (d : Dev) (p k c : Nat) (it : Item) : List Byte :=
  let node := (d.itemNode k it).1
  let d := d.seen node
  let tenant := d.rd (N.TENANT node)
  let sa := octetsBE 6 (d.station p).toNat
  let tag := if d.on (F.FW_TDA_HI_TAGEN tenant) then
      octetsBE 2 0x8100 ++ octetsBE 2 (d.pri c * 8192 + d.rd (F.FW_TDA_HI_VID tenant)) else []
  let shim : Shim := { ver := 1, tenant := tenant, node := d.rd (N.ADDR node), cls := c, up := true, via := (d.itemNode k it).2,
                       seq := Tab.get 0 d.shimSeq (4 * k + c) }
  octetsBE 2 (d.rd (F.FW_TDA_HI_DA tenant)) ++ octetsBE 4 (d.rd (F.FW_TDA_LO_DA tenant)) ++ sa ++ tag ++
    octetsBE 2 (d.rd F.FW_CFG_SHIM_ET) ++ shim.octets

/-- The FCS of an Ethernet frame, the CRC-32 of IEEE 802.3 with each octet's bit 0 first, lowest octet first on the line
(PRESUMED, log entry 139). -/
def ethFcs (l : List Byte) : List Byte :=
  let bit := fun (r : Word32) (b : Bool) => if (r.getLsbD 0 != b) then (r >>> 1) ^^^ 0xEDB88320#32 else r >>> 1
  let r := ~~~(l.foldl (fun r o => (List.range 8).foldl (fun r i => bit r (o.getLsbD i)) r) 0xFFFFFFFF#32)
  [r.setWidth 8, (r >>> 8).setWidth 8, (r >>> 16).setWidth 8, (r >>> 24).setWidth 8]

/-- A received frame ends in its FCS (R352). -/
def fcsGood (l : List Byte) : Bool := l.drop (l.length - 4) == ethFcs (l.take (l.length - 4))

/-- A frame that a port has ended, from its destination address to its FCS: padded with zeros to 64 octets, or truncated with an
inverted FCS (R238, R240). -/
def EthOut.frame (e : EthOut) : List Byte :=
  let l := e.head ++ e.content
  if e.truncated then l ++ (ethFcs l).map (fun b => ~~~b)
  else
    let l := l ++ List.replicate (60 - l.length) 0
    l ++ ethFcs l

/-- A PFC frame from its destination address to its FCS: the layout of IEEE 802.1Qbb (PRESUMED, log entry 187), with the port's
station address as its source (R353). -/
def PfcOut.octets (f : PfcOut) : List Byte :=
  let times := (List.range 8).flatMap (fun i => octetsBE 2 (if i = f.prio then f.quanta else 0))
  let l := octetsBE 6 0x0180C2000001 ++ octetsBE 6 f.src.toNat ++ octetsBE 2 0x8808 ++ octetsBE 2 0x0101 ++ octetsBE 2 (2 ^ f.prio) ++ times
  let l := l ++ List.replicate (60 - l.length) 0
  l ++ ethFcs l

/-- EGRESS_FRAME_START (R238, R447): the port begins the frame; pops of its queue fill it. -/
def execEgressFrameStart (t : Nat) (p : PortId) (s : State) : Host.Outcome State Fault Refusal :=
  s.runClk t (fun d =>
    if !d.portUp p.val ∨ d.ethOut.any (fun e => e.port == p.val && !e.done) then d
    else match d.nextQueue p.val with
      | none => d
      | some (q, k, c) =>
        let it := (d.sh q).items.head?.getD {}
        let e : EthOut := { port := p.val, queue := q, head := d.egressHead p.val k c it }
        let key := 4 * k + c
        let d := { d with
          ethOut := d.ethOut ++ [e], rr := Tab.put d.rr (8 * p.val + d.pri c) q
          shimSeq := Tab.set 0 d.shimSeq key ((Tab.get 0 d.shimSeq key + 1) % 65536) }
        ((d.entryParity k (d.itemNode k it).1).beginItem q).event 7 2 p.val 1)

end Sys2Proof.Machine
end

