-- ==== Sys2Proof/Machine/Governor.lean ====
section
/-! DEFINITION. The power governor and channel service: domains, modes, the energy account, thermal state, decisions, bring-up
and take-out of channels (R21 to R24, R27, R32, R212, R248, R266, R267, R276, R299, R327 to R347, R449). -/

namespace Sys2Proof.Machine

open Sys2Proof

/-! ### Domains (R21 to R23, R328, R329) -/

/-- Some LDPC quarter is on. -/
def Dev.anyLdq (d : Dev) : Bool := [72, 73, 74, 75].any d.domOn

/-- The domains that a domain requires are on (R21), and a channel's driver supply is within its range (R32). -/
def Dev.requiresOk (d : Dev) (n : Nat) : Bool :=
  if n < 64 then
    d.domOn (64 + n / 16) && d.domOn 76 && d.domOn 70 && d.domOn 78 && d.anyLdq && !d.gov.vhvLow.contains (n / 16)
  else if n = 71 then d.domOn 76 && d.domOn 78
  else if n = 76 then d.domOn 79
  else if n = 79 then true
  else d.domOn 76

/-- A domain is on, or is the one that switches on now. -/
def Dev.powered (d : Dev) (n : Nat) : Bool := d.domOn n || d.gov.queue.head? == some n

/-- The channels of a die. -/
def dieChannels (n : Nat) : List Nat := List.range' (16 * n) 16

/-- No powered domain requires domain `n` (R22), and R248 admits its switch-off. -/
def Dev.releaseOk (d : Dev) (n : Nat) : Bool :=
  let chans := (List.range 64).any d.powered
  if n < 64 then true
  else if n < 68 then !(dieChannels (n - 64)).any d.powered
  else if n = 70 then !chans
  else if 72 ≤ n ∧ n ≤ 75 then !chans || [72, 73, 74, 75].any (fun m => m != n && d.domOn m)
  else if n = 76 then !(List.range 79).any (fun m => m != 76 && d.powered m)
  else if n = 77 then !d.half1 && d.upperHeld == 0
  else if n = 78 then !chans && !d.powered 71
  else if n = 79 then false
  else true

/-- Set or clear the bit of a domain in GV_PDSTAT. -/
def Dev.setDom (d : Dev) (n : Nat) (v : Bool) : Dev := d.wr ⟨A.GV_PDSTAT0 + 4 * (n / 32), n % 32, 1⟩ (if v then 1 else 0)

/-- BUDGETDENY of a refused switch or service command, recorded in AOCLK (R370). -/
def Dev.switchDeny (d : Dev) (chan : Option Nat) : Dev := d.budgetDeny chan none 0 true

/-- Masked operation follows the entropy state at the next job boundaries (R299, R300): it needs the root's source trusted and a
cluster on. -/
def Dev.remask (d : Dev) : Dev := d.wantMasked (d.trusted && (d.domOn 70 || d.domOn 71))

/-- PD_CIPG goes off: cluster G, the key cache, the record engines and their registers are lost (R23); what lies in PD_AON
stays (R421). -/
def Dev.cipherOff (d : Dev) : Dev :=
  let d := (d.resetRange blkCi (blkCi + 0x1F)).resetRange (blkCi + 0x28) (blkCi + 0x1FF)
  let d := (List.range 16).foldl (fun d p => (d.resetRange (pgBase p) (pgBase p + 0x22F))) d
  { d with cache := [], fetches := [], sa := [], pages := [] }

/-- A channel domain goes off (R23, R219, R267): registers, sequencers and crossings of the channel are lost, and its iteration
allowance with them; frames in flight count in ABANDON, and one under reception ends CUT (R156). -/
def Dev.channelOff (d : Dev) (k : Nat) : Dev :=
  let c := d.ch k
  let lost := (c.txs.filter TxJob.begun).length + c.frames.length
  let d := if lost = 0 then d else d.inc (F.FT_CH3_ABANDON k) lost
  let cut := fun (d : Dev) (_ : RxLock) => d.onOldest k (fun d =>
    match d.lockWin k with
    | some w => (d.abortHandOn k false).commitWin k w rxCUT false
    | none => d)
  let d := c.frames.foldl cut d
  let d := c.txs.foldl Dev.freeJob ((d.zeroCells (d.ch k).stage).flushChannel k)
  let d := (((d.setDom k false).setCh k {}).setSq (2 * k) {}).setSq (2 * k + 1) {}
  (d.resetRange (chBase k) (chBase k + 0xFFFF)).wr (F.GV_CHSTAT_ITER k) 0

/-- A domain goes off with what that does to its contents (R23, R266, R267). -/
def Dev.domainOff (d : Dev) (n : Nat) : Dev :=
  if n < 64 then d.channelOff n
  else
    let d := d.setDom n false
    if n = 68 ∨ n = 69 then d.portDomainOff (n - 68)
    else if n = 70 then d.cipherOff.remask
    else if n = 71 then d.dropJobs.remask
    else if n = 78 then d.dropAllDeep.resetRange blkHb (blkHb + 0xFFF)
    else d

/-- A domain comes on (R328) with its registers of classes D and Z at their reset values (R425). -/
def Dev.domainOn (d : Dev) (n : Nat) : Dev :=
  let d := d.setDom n true
  if n < 64 then d.startChains n
  else if 72 ≤ n ∧ n ≤ 75 then d.startPool
  else if n = 70 ∨ n = 71 then d.remask
  else if n = 76 then { ((d.resetRange (seqWord 0 0 0) (blkCi - 1)).resetRange blkCt (blkEth - 1)).countersOn with
    badParity := [], scrubFrom := d.now }
  else if n = 77 ∧ d.half1 then d.addUpper
  else if n = 78 then (d.wr F.HBM_STATUS_READY0 1).wr F.HBM_STATUS_READY1 1
  else d

/-! ### Modes (R331, R333) -/

/-- Value clamped to a range. -/
def clampN (lo hi v : Nat) : Nat := max lo (min hi v)

/-- B in W, Tc in °C and the iteration ceiling of a mode and GV_CUSTOM (R331). -/
def modeB (mode : Nat) (c : Word32) : Nat :=
  match mode with | 0 => 320 | 1 => 220 | 2 => 140 | _ => clampN 20 320 (getBits c 0 9)
def modeTc (mode : Nat) (c : Word32) : Nat :=
  match mode with | 0 => 105 | 1 => 95 | 2 => 85 | _ => clampN 70 105 (getBits c 16 7)
def modeIt (mode : Nat) (c : Word32) : Nat :=
  match mode with | 0 => 50 | 1 => 20 | 2 => 10 | _ => clampN 1 50 (getBits c 24 6)

/-- WIN in ms. -/
def Dev.winMs (d : Dev) : Nat := clampN 1 100 (d.rd F.GV_MODE_WIN)

/-- The cap C of a mode in units of 100 µJ. -/
def Dev.capOf (d : Dev) (mode : Nat) (c : Word32) : Nat := modeB mode c * d.winMs * 10
def Dev.cap (d : Dev) : Nat := d.capOf d.gov.mode d.gov.custom
def Dev.tc (d : Dev) : Int := modeTc d.gov.mode d.gov.custom

/-! ### The account (R332, R333) -/

def Dev.phase (d : Dev) (k : Nat) : Nat := d.rd (F.GV_CHSTAT_PHASE k)
def Dev.setPhase (d : Dev) (k p : Nat) : Dev := d.wr (F.GV_CHSTAT_PHASE k) p

/-- The restore record of a channel (R342). -/
def Dev.record (d : Dev) (k : Nat) : Restore := Tab.get {} d.restore k

/-- The 768 blocks of a record, its role and palette flags before its words (R342; their layout in the record is log entry 164). -/
def Restore.blocks (r : Restore) : List (BitVec 128) :=
  let flag := fun (b : Bool) (n : Nat) => if b then n else 0
  let head := r.role + flag r.activeB 8 + flag r.loadedA 16 + flag r.loadedB 32
  (List.range 768).map (Config.restoreBlock ((0x10000, BitVec.ofNat 32 head) :: r.words))

/-- The store engine writes a restore record: record k in sectors 4,096 + 3k to 4,098 + 3k, under the memory key pair (R297,
R342). -/
def Dev.setRecord (d : Dev) (k : Nat) (r : Restore) : Dev :=
  { d.hbmWrite (256 * (4096 + 3 * k)) r.blocks with restore := Tab.set {} d.restore k r }

/-- LIF_CFG of a channel: the register, or the restore record until phase 4 has replayed it. -/
def Dev.lifCfg (d : Dev) (k : Nat) : Word32 :=
  if d.domOn k ∧ d.phase k ≠ phRESTORE then d.word (A.LIF_CFG k) else ((d.record k).words.find? (fun e => e.1 == 0)).elim (resetWord (A.LIF_CFG k)) Prod.snd

/-- The channels that a request for `k` concerns: its bundle (R26, R27, R341). -/
def Dev.group (d : Dev) (k : Nat) : List Nat :=
  match getBits (d.lifCfg k) 0 2 with
  | 1 => [k / 2 * 2, k / 2 * 2 + 1]
  | 2 => [k / 4 * 4, k / 4 * 4 + 1, k / 4 * 4 + 2, k / 4 * 4 + 3]
  | _ => [k]
def Dev.groupLead (d : Dev) (k : Nat) : Nat := (d.group k).headD k

/-- Energy of the floor grants made to a channel within the last WIN. -/
def Dev.floorUsed (d : Dev) (k : Nat) : Nat :=
  ((d.gov.floors.filter (fun f => f.2.1 == k && decide (d.now < f.1 + 1000000 * d.winMs))).map (fun f => f.2.2)).sum

/-- FLOOR of a channel; a bundle's floor is the sum of its members' and is drawn at the lead (R333). -/
def Dev.floorOf (d : Dev) (k : Nat) : Nat :=
  if d.groupLead k = k then ((d.group k).map (fun m => d.rd (F.GV_FLOOR_FLOOR m))).sum else 0

/-- R_k, the unused floor. -/
def Dev.floorLeft (d : Dev) (k : Nat) : Nat := d.floorOf k - d.floorUsed k

/-- Channels on or being brought up. -/
def Dev.served (d : Dev) : List Nat := (List.range 64).filter (fun k => d.phase k != phOFF)

/-- Sum of the floors reserved. -/
def Dev.floorSum (d : Dev) : Nat := (d.served.map (fun k => d.rd (F.GV_FLOOR_FLOOR k))).sum

/-- Energy of a grant held, or 0. -/
def grantEnergy (g : Option SlotGrant) : Nat := (g.map SlotGrant.charged).getD 0

/-- Energy of the grants that are still within their time to leave GOVQ_GNT (R335). -/
def Dev.answered (d : Dev) (s : Seq) : Nat :=
  (s.reqs.map (fun r => if d.now ≤ r.deadline then grantEnergy ((r.answer.map Prod.snd).getD none) else 0)).sum

/-- O of R332. -/
def Dev.owed (d : Dev) : Nat :=
  (d.seq.map (fun e => grantEnergy e.2.grant + d.answered e.2)).sum +
  (d.chan.map (fun e => (e.2.txs.map (fun x : TxJob => grantEnergy x.grant)).sum + e.2.iterCharge)).sum +
  (d.gov.bring.map (fun e => e.2.energy)).sum

/-- The headroom H (R332). -/
def Dev.headroom (d : Dev) : Int :=
  (d.cap : Int) - d.gov.m - d.owed - (d.served.map d.floorLeft).sum

/-! ### Thermal state (R331, R334, R337) -/

def Dev.tstate (d : Dev) : Nat := d.rd F.GV_STATUS_TSTATE

/-- ITER_MIN, 0 treated as 1. -/
def Dev.iterMin (d : Dev) : Nat := max 1 (d.rd F.GV_ITER_ITER_MIN)

/-- The iteration ceiling in force: halved, rounded up, in WARM, and ITER_MIN from HOT on. -/
def Dev.iterCeiling (d : Dev) : Nat :=
  let n := modeIt d.gov.mode d.gov.custom
  match d.tstate with | 0 => n | 1 => (n + 1) / 2 | _ => d.iterMin

/-- Every allowance above the ceiling is lowered to it, never below ITER_MIN, and its charge is scaled with it (R337). -/
def Dev.lowerAllowances (d : Dev) : Dev :=
  let c := max d.iterMin d.iterCeiling
  (List.range 64).foldl (fun d k =>
    let n := d.rd (F.GV_CHSTAT_ITER k)
    if n ≤ c then d
    else (d.modCh k (fun x => { x with iterCharge := ceilDiv (x.iterCharge * c) n })).wr (F.GV_CHSTAT_ITER k) c) d

/-- The thermal state after a change of Tj or of Tc, from state `cur`; TRIP is entered by THERMAL_TRIP alone. -/
def thermalNext (cur : Nat) (tj tc band : Int) : Nat :=
  let cur := if cur = 3 then (if 110 - 2 < tj then 3 else 2) else cur
  if cur = 3 then 3
  else if tc ≤ tj ∨ (cur = 2 ∧ tc - 2 < tj) then 2
  else if tc - band ≤ tj ∨ (1 ≤ cur ∧ tc - band - 2 < tj) then 1
  else 0

/-- Re-evaluate the thermal state; where it rises, the allowances follow the new ceiling (R334, R337). -/
def Dev.thermal (d : Dev) : Dev :=
  let st := thermalNext d.tstate d.gov.tj d.tc (d.rd F.GV_MODE_WARM_BAND)
  let d' := d.wr F.GV_STATUS_TSTATE st
  if d.tstate < st then d'.lowerAllowances else d'

/-! ### Restore records (R342) -/

/-- Offsets in a channel block that the record holds. -/
def recordOffset (o : Nat) : Bool :=
  (o == 0 || o == 4 || o == 0x200 || (decide (0x300 ≤ o) && decide (o ≤ 0x310)) || (decide (0x400 ≤ o) && decide (o ≤ 0x408)) ||
   (decide (0x500 ≤ o) && decide (o ≤ 0x510)) || o == 0x600 || o == 0x684 || o == 0x688 || o == 0x704 || o == 0x708 ||
   (decide (0x6C0 ≤ o) && decide (o ≤ 0x6FC)) || (decide (0x740 ≤ o) && decide (o ≤ 0x77C)) ||
   (decide (0x4000 ≤ o) && decide (o < 0x6000)))

/-- Capture the record of a channel, keeping `role` as its service role (R345). -/
def Dev.capture (d : Dev) (k role : Nat) : Dev :=
  let mine := d.regs.filter (fun e => chBase k ≤ e.1 && e.1 < chBase k + 0x10000 && recordOffset (e.1 - chBase k))
  d.setRecord k
    { role := role, activeB := d.activeB k, loadedA := d.on (F.SC_STATUS_LOADED_A k), loadedB := d.on (F.SC_STATUS_LOADED_B k)
      words := mine.map (fun e => (e.1 - chBase k, e.2)) }

/-- Replay the record of a channel: its registers, the active palette, the commit of the palettes it holds as LOADED, and STARTC
0 (R342, R343; log entry 21). -/
def Dev.replay (d : Dev) (k : Nat) : Dev :=
  let r := d.record k
  let d := (r.words.foldl (fun d e => d.setWord (chBase k + e.1) e.2) d).restGain k
  let d := d.wr (F.SC_STATUS_ACTIVE k) (if r.activeB then 1 else 0)
  let d := if r.loadedA then d.commitPalette k false else d
  let d := if r.loadedB then d.commitPalette k true else d
  (d.wr (F.SQ_STARTC_CYCLE (2 * k)) 0).wr (F.SQ_STARTC_CYCLE (2 * k + 1)) 0

/-! ### Leaving role off (R40, R80, R114, R135, R176, R195, R225, R276, R319) -/

/-- Ones of a sync word, and its check (R114). -/
def onesOf (w : Word32) : Nat := hamming w 0
def syncWordOk (w : Word32) : Bool := w.getLsbD 31 && decide (12 ≤ onesOf w) && decide (onesOf w ≤ 20)

/-- R114. -/
def Dev.syncOk (d : Dev) (k : Nat) : Bool :=
  let a := d.word (A.FR_SYNCW k)
  let b := d.word (A.FR_SYNCB k)
  syncWordOk a && syncWordOk b && decide (15 ≤ hamming a b)

/-- R135 but for R114: TNOM_US and the interleaver range against those of the other channels not in role off. -/
def Dev.framingOk (d : Dev) (k : Nat) (others : List Nat) : Bool :=
  let lo := fun j => d.rd (F.FR_ILBASE_ILBASE j)
  let len := fun j => min 512 (d.rd (F.FR_ILMEM_ILMEM j))
  (d.rd (F.FR_CFG_FNOM k) != 3 ||
    (decide (15152 ≤ d.rd (F.FR_CFG_TNOM_US k)) && decide (d.rd (F.FR_CFG_TNOM_US k) ≤ 66667))) &&
  decide (lo k + len k ≤ 32768) &&
  others.all (fun j => len j == 0 || len k == 0 || decide (lo k + len k ≤ lo j) || decide (lo j + len j ≤ lo k))

/-- Distance from the end of a slot at `a` to a slot at `b`, modulo a cycle, is at least `g`. -/
def slotClear (a b len g : Nat) : Bool := decide (len + g ≤ (b + 65536 - a) % 65536)

/-- R176. -/
def Dev.headOk (d : Dev) (k : Nat) : Bool :=
  let ofs := d.rd (F.LF_BCN_BCN_OFS k)
  let n := d.rd (F.LF_DISC_DISC_K k)
  let j := d.rd (F.LF_DISC_DGRN k)
  let g := d.guard_ k
  d.on (F.LF_CFG_BCN_EN k) && decide (ofs + beaconGrains66 + g ≤ 65536) &&
  (n == 0 || (decide (d.nslot k < n) && slotClear ofs j beaconGrains66 g && slotClear j ofs beaconGrains66 g))

/-- Pairs that target a channel. -/
def Dev.pairsOf (d : Dev) (k : Nat) : List Nat := (List.range 64).filter (fun p => d.rd (F.SQ_PAIR_TGT p) == k)

/-- R195: every pair that targets the channel is its own or a bundle member's, and a lead has exactly one owner pair. -/
def Dev.pairsOk (d : Dev) (k : Nat) : Bool :=
  let ps := d.pairsOf k
  ps.all (fun p => p == k || (d.lead k == k && (d.members k).contains p)) &&
  (d.lead k != k || (ps.filter (fun p => d.on (F.SQ_PAIR_OWNER p))).length == 1)

/-- The members of the channel's bundle name one bundle size and run one band plan: one centre frequency and one chip rate (R27,
R40, R92). -/
def Dev.bundleAgrees (d : Dev) (k : Nat) : Bool :=
  d.rd (F.LIF_CFG_BUNDLE k) != 3 && (d.members k).all (fun m =>
    d.rd (F.LIF_CFG_BUNDLE m) == d.rd (F.LIF_CFG_BUNDLE k) && d.nco m == d.nco k && d.cicLog m == d.cicLog k &&
    d.rsStep m == d.rsStep k)

/-- A channel of a group may leave role off for role `r`. -/
def Dev.mayServe (d : Dev) (k r : Nat) (grp : List Nat) : Bool :=
  let others := (d.otherLive k).filter (fun j => !grp.contains j) ++ grp.filter (fun j => j != k)
  d.on (loadedField k (d.activeB k)) && d.bundleAgrees k && d.syncOk k && d.framingOk k others && d.pairsOk k && d.scopeOk k && d.trusted &&
  (r != roleHEAD || d.headOk (d.lead k))

/-- The channels of a group take the role of their lead (R343, R346), with the link at its start (R182, R183, R276). -/
def Dev.leaveOff (d : Dev) (grp : List Nat) (r : Nat) : Dev :=
  let d := grp.foldl (fun d k =>
    let d := ((d.wr (F.LF_STATUS_OSTATE k) osUNJOINED).wr (F.LF_STATUS_HOFSV k) 0).wr (F.GV_CHSTAT_ROLE k) r
    d.modCh k (fun c => { c with role := r, lf := {} })) d
  match grp with
  | k :: _ => d.initScope k
  | [] => d

/-- The channel enters role off (R345, R450); GV_CHSTAT goes on naming the service role. -/
def Dev.enterOff (d : Dev) (k : Nat) : Dev := (d.palettesOff k).modCh k (fun c => { c with role := roleOFF })

/-! ### Bring-up (R341 to R346) -/

/-- Outcomes of a bring-up (R344). -/
def lrINSERVICE : Nat := 1
def lrDENIED : Nat := 2
def lrCFGREJ : Nat := 3
def lrCALFAIL : Nat := 4
def lrABORTED : Nat := 5
def lrTBLBAD : Nat := 6
def lrBUSY : Nat := 7
def lrHELD : Nat := 8
def lrDOMREF : Nat := 9

/-- LASTRES of a channel and the CHSVC notice that completes a bring-up (R341, R344). -/
def Dev.setRes (d : Dev) (k code : Nat) : Dev := d.wr (F.GV_CHSTAT_LASTRES k) code
def Dev.chsvc (d : Dev) (k code : Nat) : Dev := (d.setRes k code).notice { cls := 7, code := code, chan := k }

/-- The channel's domain goes off and its floor is released. -/
def Dev.outOfService (d : Dev) (k : Nat) : Dev :=
  let d := (if d.domOn k then d.domainOff k else d).setPhase k phOFF
  let g := { d.gov with bring := Tab.del d.gov.bring k, drain := Tab.del d.gov.drain k
                        queue := d.gov.queue.filter (fun n => n ≠ k) }
  ({ d with gov := g }).wr (F.GV_CHSTAT_ROLE k) (d.record k).role

/-- PHASE of the channels that wait to switch on, by their place in the queue (R343). -/
def Dev.queuePhases (d : Dev) : Dev :=
  match d.gov.queue with
  | k :: l =>
    let rest := l.foldl (fun d n => if n < 64 then d.setPhase n phWAIT else d) d
    if k < 64 then rest.setPhase k phRAMP
    else match l with
      | n :: _ => if n < 64 ∧ (k = 64 + n / 16 ∨ k = 72) then rest.setPhase n phDEPS else rest
      | [] => rest
  | [] => d

/-- Die `n` goes off with its last channel where AUTOFE is set (R345). -/
def Dev.autoFe (d : Dev) (n : Nat) : Dev :=
  if d.on F.GV_ITER_AUTOFE ∧ d.domOn (64 + n) ∧ d.releaseOk (64 + n) then d.domainOff (64 + n) else d

/-- A bring-up of a group failed: its channels go off, with LASTRES and a notice for the lead (R344). -/
def Dev.bringEnd (d : Dev) (k code : Nat) : Dev :=
  let grp := (d.group k).filter (fun m => d.phase m != phOFF)
  let d := grp.foldl (fun d m => (d.outOfService m).setRes m code) d
  d.chsvc k code

/-- The next domain switches on: a channel first brings the domains of phase 2, and a switch-on that R22 or R32 refuses is
dropped with BUDGETDENY (R328, R343, R344).  `fuel` bounds the refusals. -/
def Dev.startNext (d : Dev) : Nat → Dev
  | 0 => d.queuePhases
  | fuel + 1 =>
    match d.gov.queue with
    | [] => d
    | k :: l =>
      let put := fun (q : List Nat) => { d with gov := { d.gov with queue := q } }
      if k < 64 ∧ (d.bring k).abort then
        Dev.startNext (((put l).bringEnd k lrABORTED).autoFe (k / 16)) fuel
      else if 64 ≤ k ∧ d.domOn k then Dev.startNext (put l) fuel
      else if k < 64 ∧ !d.domOn (64 + k / 16) then Dev.startNext (put ((64 + k / 16) :: k :: l)) fuel
      else if k < 64 ∧ !d.anyLdq then Dev.startNext (put (72 :: k :: l)) fuel
      else if d.requiresOk k then d.queuePhases
      else
        let d := (put l).switchDeny (if k < 64 then some k else none)
        Dev.startNext (if k < 64 then d.bringEnd k lrDOMREF else d) fuel

/-- The switch-on at the head of the queue is no longer the one that was under way: the next begins (R328). -/
def Dev.switchOn (d : Dev) (was : Option Nat) : Dev := if d.gov.queue.head? = was then d else d.startNext 256

/-- A bring-up of a group failed (R344); where its channel was switching on, the next switch-on begins (R328). -/
def Dev.bringFail (d : Dev) (k code : Nat) : Dev := (d.bringEnd k code).switchOn d.gov.queue.head?

/-- Queue switch-ons; the first begins at once where none is under way (R328). -/
def Dev.enqueue (d : Dev) (ns : List Nat) : Dev :=
  let idle := d.gov.queue == []
  let d := { d with gov := { d.gov with queue := d.gov.queue ++ ns } }
  if idle then d.startNext 256 else d.queuePhases

/-- A channel that is neither OFF nor HELD nor in service is in a sequence (R341). -/
def Dev.inSequence (d : Dev) (k : Nat) : Bool := (1 ≤ d.phase k && d.phase k ≤ 7) || d.phase k == phDRAIN || d.phase k == phCAPTURE

/-- Mains time and thermal state admit service (R341, R346). -/
def Dev.envOk (d : Dev) : Bool := d.timeRuns && decide (d.tstate < 2)

/-- The conditions of R341 for a group in PHASE OFF, with the request's energy. -/
def Dev.bringOk (d : Dev) (k energy : Nat) : Bool :=
  let grp := d.group k
  let floors := (grp.map (fun m => d.rd (F.GV_FLOOR_FLOOR m))).sum
  grp.all (fun m => d.phase m == phOFF) && d.domOn 76 && d.domOn 70 && d.domOn 78 && d.envOk &&
  !d.gov.vhvLow.contains (k / 16) && decide (2 * (d.floorSum + floors) ≤ d.cap) &&
  decide (((energy + floors : Nat) : Int) ≤ d.headroom)

/-- Set the service role of a group's records; a non-lead member takes the lead's role (R346). -/
def Dev.setService (d : Dev) (k : Nat) (role : Option Nat) : Dev :=
  match role with
  | none => d
  | some r => (d.group k).foldl (fun d m =>
      let d := d.setRecord m { d.record m with role := r }
      if d.phase m = phSERVICE then d else d.wr (F.GV_CHSTAT_ROLE m) r) d

/-- The sequence starts: floors reserved, ENERGY in O, and the switch-ons queue (R343). -/
def Dev.beginBring (d : Dev) (k energy : Nat) (hold : Bool) : Dev :=
  let grp := d.group k
  let d := grp.foldl (fun d m =>
    let d := d.setPhase m phWAIT
    let b : Bring := { energy := if m = k then energy else 0, hold := hold }
    { d with gov := { d.gov with bring := Tab.set {} d.gov.bring m b } }) d
  d.enqueue grp

/-- Change what is known of a channel's bring-up. -/
def Dev.modBring (d : Dev) (k : Nat) (f : Bring → Bring) : Dev :=
  { d with gov := { d.gov with bring := Tab.set {} d.gov.bring k (f (d.bring k)) } }

/-- Phase HELD for a group (R346). -/
def Dev.enterHeld (d : Dev) (grp : List Nat) : Dev :=
  grp.foldl (fun d m => ((d.modBring m (fun _ => { restored := true })).setPhase m phHELD).chsvc m lrHELD) d

/-- The owner pair of a channel. -/
def Dev.ownerPair (d : Dev) (k : Nat) : Option Nat := (d.pairsOf k).find? (fun p => d.on (F.SQ_PAIR_OWNER p))

/-- Phase 6 (R343, R346): the role leaves off and both sequencers of the owner pair start. -/
def Dev.startService (d : Dev) (k : Nat) : Dev :=
  let grp := d.group k
  let lead := d.groupLead k
  let r := (d.record lead).role
  let d := grp.foldl (fun d m => d.modBring m (fun b => { b with energy := 0 })) d
  if r = roleOFF then d.enterHeld grp
  else
    let bad := grp.filter (fun m => !d.mayServe m r grp)
    if bad ≠ [] then (bad.foldl Dev.cfgRej d).bringFail lead lrCFGREJ
    else
      let d := grp.foldl (fun d m => d.setPhase m phSTART) d
      let d := d.leaveOff grp r
      match d.ownerPair lead with
      | some p => (d.sqStart (2 * p) 0).sqStart (2 * p + 1) 0
      | none => d

/-- A command OFF that arrived during the sequence ends it now, at a phase boundary (R345): steps 3 to 7; a member whose phase 4
had not completed captures no record. -/
def Dev.abortBring (d : Dev) (k : Nat) : Dev :=
  let grp := d.group k
  let role := fun m => (d.record m).role
  if grp.any (fun m => (d.bring m).restored) then
    (grp.foldl (fun d m =>
      if (d.bring m).restored then ((d.enterOff m).setPhase m phCAPTURE).setRes m lrABORTED
      else (d.outOfService m).setRes m lrABORTED) d).switchOn d.gov.queue.head?
  else (((grp.foldl (fun d m => d.enterOff m) d).bringFail (d.groupLead k) lrABORTED).wr (F.GV_CHSTAT_ROLE k) (role k)).autoFe (k / 16)

/-! ### Take-out (R345) -/

/-- Sequencers whose pair targets a channel of a list. -/
def Dev.seqsOf (d : Dev) (grp : List Nat) : List Nat :=
  (List.range 128).filter (fun q => grp.contains (d.tgt q) && d.domOn (q / 2))

/-- STOP of those sequencers. -/
def Dev.stopSeqs (d : Dev) (grp : List Nat) : Dev := (d.seqsOf grp).foldl Dev.sqStop d

/-- Step 1 and the begin of step 2 of R345. -/
def Dev.beginDrain (d : Dev) (k : Nat) : Dev :=
  let grp := d.group k
  grp.foldl (fun d m =>
    let d := d.setPhase m phDRAIN
    { d with gov := { d.gov with drain := Tab.put d.gov.drain m d.now } }) (d.stopSeqs grp)

/-- No issued transmission and no issued window remains. -/
def Dev.drained (d : Dev) (k : Nat) : Bool := (d.group k).all (fun m => (d.ch m).txs == [] && (d.ch m).wins == [])

/-- Step 3 and the begin of step 4: the role is off and the record, with the role held, is captured next (R345). -/
def Dev.beginCapture (d : Dev) (k : Nat) : Dev :=
  (d.group k).foldl (fun d m =>
    let r := (d.ch m).role
    let d := if r = roleOFF then d else d.setRecord m { d.record m with role := r }
    (d.enterOff m).setPhase m phCAPTURE) d

/-- Cut what a channel has not ended (R345, R156). -/
def Dev.cutAll (d : Dev) (k : Nat) : Dev :=
  let d := (d.ch k).txs.foldl (fun d x => d.finishTx k x txCUT d.now) d
  (d.ch k).wins.foldl (fun d w => d.commitWin k w rxCUT false) d

/-- A channel goes off at once, without drain or record: a trip, an erase-class alarm or the recovery state (R340, R345,
R346). -/
def Dev.dropChannel (d : Dev) (k : Nat) : Dev :=
  if d.phase k = phOFF ∧ !d.domOn k then d
  else
    let seq := d.inSequence k
    let d := d.outOfService k
    if seq then d.chsvc k lrABORTED else d

/-- Every channel domain goes off at once. -/
def Dev.dropChannels (d : Dev) : Dev := ((List.range 64).foldl Dev.dropChannel d).switchOn d.gov.queue.head?

/-! ### Decisions (R335 to R338, R341) -/

/-- The least n from `lo` with e^20 ≤ n^20 · 10^s, by halving. -/
def leastCharge (e s : Nat) : Nat → Nat → Nat → Nat
  | 0, _, hi => hi
  | fuel + 1, lo, hi =>
    if hi ≤ lo then hi
    else
      let m := (lo + hi) / 2
      if e ^ 20 ≤ m ^ 20 * 10 ^ s then leastCharge e s fuel lo m else leastCharge e s fuel (m + 1) hi

/-- e × 10^(−0.05·s), rounded up to a whole unit (R336). -/
def chargeOf (e s : Nat) : Nat := leastCharge e s 20 0 e

/-- Counts of a decision and its GOV event (R347, R370). -/
def Dev.countDecision (d : Dev) (o : BudgetOut) : Dev :=
  match o with
  | .grant => (d.inc F.GV_CNT_GRANTS).event 10 0 0 1
  | .degrade _ => (d.inc F.GV_CNT_DEGRADES).event 10 1 0 1
  | .deny => (d.inc F.GV_CNT2_DENIES).event 10 2 0 1
  | .failed => d

/-- The outcome of a request is decided (R203, R212): it leaves the pending requests, and the step that waits for it goes on.
While CCLK stands still the decision waits in GOVQ_GNT (R14, R335). -/
def Dev.decide_ (d : Dev) (q : Nat) (r : BudgetReq) (o : BudgetOut) (g : Option SlotGrant) : Dev :=
  if !d.mains.refclk then
    d.modSq q (fun s => { s with
      reqs := s.reqs.map (fun x => if x = r then { x with deferred := false, answer := some (o, g) } else x) })
  else
  let last := (d.sq q).reqs.getLast? == some r
  let d := d.modSq q (fun s => { s with
    reqs := s.reqs.erase r, open_ := s.open_ && !last, out := if last then some o else s.out, decided := some o
    grant := if r.kind = .txslot then g else s.grant })
  let d := d.countDecision o
  let d := match o with
    | .deny => d.budgetDeny (some r.chan) (some q) r.step false
    | _ => d
  (d.wakeGrant q).retryTx q

/-- The request joins the deferred set (R335). -/
def Dev.defer (d : Dev) (q : Nat) (r : BudgetReq) : Dev :=
  d.modSq q (fun s => { s with reqs := s.reqs.map (fun x => if x = r then { x with deferred := true } else x) })

/-- The reduction of row 5 of R336: the smallest within DEG_MAX whose charge H admits. -/
def Dev.slotReduction (d : Dev) (e dmin : Nat) (h : Int) : Option Nat :=
  (List.range' dmin (d.rd F.GV_MODE_DEG_MAX + 1 - dmin)).find? (fun s => decide ((chargeOf e s : Int) ≤ h))

/-- Decide a TXSLOT request (R336). -/
def Dev.decideSlot (d : Dev) (q : Nat) (r : BudgetReq) : Dev :=
  let e := r.energy
  let k := r.chan
  let h := d.headroom
  let dmin := if d.tstate = 1 then d.rd F.GV_MODE_WARM_DEG else 0
  if d.cap < 4 * e then d.decide_ q r .deny none
  else if e ≤ d.floorLeft k then
    let d := { d with gov := { d.gov with floors := (d.now, k, e) :: d.gov.floors } }
    d.decide_ q r .grant (some { chan := k, charged := e, floor := true, d := 0 })
  else if 2 ≤ d.tstate then d.decide_ q r .deny none
  else if dmin = 0 ∧ (e : Int) ≤ h then d.decide_ q r .grant (some { chan := k, charged := e, floor := false, d := 0 })
  else match d.slotReduction e dmin h with
    | some s => d.decide_ q r (.degrade s) (some { chan := k, charged := chargeOf e s, floor := false, d := s })
    | none => d.defer q r

/-- The allowance of R337 for a request of `n` iterations (after the ceiling) and energy `e`; none where even ITER_MIN exceeds
the headroom. -/
def Dev.allowance (d : Dev) (k n e : Nat) : Option Nat :=
  let room := d.headroom + (d.ch k).iterCharge
  (List.range' d.iterMin (n + 1 - d.iterMin)).reverse.find? (fun x => decide (((e * x : Nat) : Int) ≤ room * n))

/-- The allowance of a channel and its standing charge are those of a decision (R212, R337). -/
def Dev.setAllowance (d : Dev) (k x charge : Nat) : Dev :=
  (d.modCh k (fun c => { c with iterCharge := charge })).wr (F.GV_CHSTAT_ITER k) x

/-- Decide an ITER request (R337); while CCLK stands still, the request keeps the allowance and the charge that its decision
carries. -/
def Dev.decideIter (d : Dev) (q : Nat) (r : BudgetReq) : Dev :=
  let k := r.chan
  let n := max 1 (min r.iter d.iterCeiling)
  let got := d.allowance k n r.energy
  let x := got.getD d.iterMin
  let d := if got.isSome then d else d.raise F.GV_STATUS_OVERBUD
  let charge := ceilDiv (r.energy * x) n
  let o := if x = n then .grant else .degrade 0
  if d.mains.refclk then (d.setAllowance k x charge).decide_ q r o none
  else
    let kept : BudgetReq := { r with iter := x, energy := charge }
    (d.modSq q (fun s => { s with reqs := s.reqs.map (fun y => if y = r then kept else y) })).decide_ q kept o none

/-- Decide a BRINGUP request (R341, R346). -/
def Dev.decideBringup (d : Dev) (q : Nat) (r : BudgetReq) : Dev :=
  let k := r.chan
  if d.phase k = phHELD then
    if d.envOk then (d.decide_ q r .grant none).startService k
    else (d.decide_ q r .deny none).chsvc k lrDENIED
  else if d.bringOk k r.energy then (d.decide_ q r .grant none).beginBring k r.energy false
  else (d.decide_ q r .deny none).chsvc k lrDENIED

/-- Decide a request; ITER is never deferred. -/
def Dev.decideReq (d : Dev) (q : Nat) (r : BudgetReq) : Dev :=
  match r.kind with
  | .txslot => d.decideSlot q r
  | .iter => d.decideIter q r
  | .bringup => d.decideBringup q r

/-- A decision that waited in GOVQ_GNT leaves it: within the request's deadline it counts; a later one is discarded, and the request
fails at its deadline (R335). -/
def Dev.leaveGnt (d : Dev) (q : Nat) (r : BudgetReq) : Dev :=
  match r.answer with
  | none => d
  | some (o, g) =>
    if r.deadline < d.now then d
    else (if r.kind = .iter then d.setAllowance r.chan r.iter r.energy else d).decide_ q r o g

/-- REFCLK_SYS_RESTORED (R14, R56, R335): the clocks run again, mains time takes up its reference, and what waited in GOVQ_GNT
leaves it. -/
def execRefclkSysRestored (t : Nat) (s : State) : Host.Outcome State Fault Refusal :=
  s.run t (fun d =>
    let d := d.refclkBack
    (d.seq.flatMap (fun e => e.2.reqs.map (fun r => (e.1, r)))).foldl (fun d x => d.leaveGnt x.1 x.2) d)

/-- Some request is deferred. -/
def Dev.anyDeferred (d : Dev) : Bool := d.seq.any (fun e => e.2.reqs.any BudgetReq.deferred)

/-- A request of a kind that has just reached GOVQ_REQ: decided now, or deferred behind others (R335); a decision later than
D − 40 ns is not made. -/
def Dev.decision (d : Dev) (q : Nat) (kind : BudgetKind) : Dev :=
  match (d.sq q).reqs.find? (fun r => r.kind == kind && !r.deferred && r.answer.isNone) with
  | none => d
  | some r =>
    if r.deadline < d.now + 40 then d
    else if d.anyDeferred ∧ kind ≠ .iter then d.defer q r
    else d.decideReq q r

/-- TXSLOT_DECISION (R336). -/
def execTxslotDecision (t : Nat) (q : SeqId) (s : State) : Host.Outcome State Fault Refusal :=
  s.run t (fun d => d.decision q.val .txslot)

/-- ITER_DECISION (R337). -/
def execIterDecision (t : Nat) (q : SeqId) (s : State) : Host.Outcome State Fault Refusal :=
  s.run t (fun d => d.decision q.val .iter)

/-- BRINGUP_DECISION (R341): its sequence cannot begin while the clocks stand still (R14). -/
def execBringupDecision (t : Nat) (q : SeqId) (s : State) : Host.Outcome State Fault Refusal :=
  s.runClk t (fun d => d.decision q.val .bringup)

/-- The deferred requests by deadline, then sequencer number (R335). -/
def Dev.deferredReqs (d : Dev) : List (Nat × BudgetReq) :=
  let l := d.seq.flatMap (fun e => (e.2.reqs.filter BudgetReq.deferred).map (fun r => (e.1, r)))
  l.foldl (fun acc x =>
    acc.takeWhile (fun y : Nat × BudgetReq => y.2.deadline ≤ x.2.deadline) ++
      x :: acc.dropWhile (fun y : Nat × BudgetReq => y.2.deadline ≤ x.2.deadline)) []

/-! ### The tick (R331 to R335, R339) -/

/-- MODE and GV_CUSTOM as written take effect, unless R333 refuses them: then the registers return to the values in force. -/
def Dev.takeMode (d : Dev) : Dev :=
  let m := d.rd F.GV_MODE_MODE
  let c := d.word A.GV_CUSTOM
  if m = d.gov.mode ∧ c = d.gov.custom then d
  else if d.capOf m c < 2 * d.floorSum then
    ((d.wr F.GV_MODE_MODE d.gov.mode).setWord A.GV_CUSTOM d.gov.custom).raise F.GV_STATUS_GVREJ
  else { d with gov := { d.gov with mode := m, custom := c } }.thermal

/-- Energy of the rail samples within the last window, in nJ (R330). -/
def Dev.windowEnergy (d : Dev) : Nat := (d.gov.power.map Prod.snd).sum

/-- M exceeds C (R339). -/
def Dev.overCap (d : Dev) : Bool := decide (100000 * d.cap < d.windowEnergy)

/-- M is formed from the samples of the rails since the last tick, each the power in mW of 1 µs: PWR, and OVERBUD with its notice
where M exceeds C and did not at the last tick, `was` (R330, R339; the rounding of M and PWR is log entry 10). -/
def Dev.takePower (d : Dev) (was : Bool) (rails : List Nat) : Dev :=
  let live : List (Nat × Nat) := (d.gov.power ++ [(d.now, rails.sum)]).filter (fun e => decide (d.now < e.1 + 1000000 * d.winMs))
  let d := { d with gov := { d.gov with power := live } }
  let m := (roundQuotient d.windowEnergy 100000).toNat
  let d := { d with gov := { d.gov with m := m } }
  let d := d.wr F.GV_PWR_PWR (min 65535 (roundQuotient m d.winMs).toNat)
  if d.overCap then
    let d := d.raise F.GV_STATUS_OVERBUD
    if was then d else d.notice { cls := 8, code := 0 }
  else d

/-- GOVERNOR_TICK (R332): mode, M and thermal state first, then H, then the deferred requests (R338). -/
def execGovernorTick (t : Nat) (rails : List Nat) (s : State) : Host.Outcome State Fault Refusal :=
  s.run t (fun d =>
    let d := d.takeMode.takePower d.overCap rails
    let d := d.wrS F.GV_HEAD_H d.headroom
    let live := d.gov.floors.filter (fun f => decide (d.now < f.1 + 1000000 * d.winMs))
    let d := { d with gov := { d.gov with floors := live } }
    d.deferredReqs.foldl (fun d x =>
      if x.2.deadline < d.now + 40 ∨ !(d.sq x.1).reqs.contains x.2 ∨ (x.2.kind = .bringup ∧ !d.mains.refclk) then d
      else d.decideReq x.1 x.2) d)

/-- The highest reading with its sensor, the lowest of equal ones (R330; log entry 166). -/
def hottest : Tab Int → Int × Nat
  | [] => (0, 0)
  | [(i, x)] => (x, i)
  | (i, x) :: l => let r := hottest l; if r.1 ≤ x then (x, i) else r

/-- TEMPERATURE_SAMPLE (R330, R334, R340): a sensor reads `x`; Tj, its sensor and the thermal state follow. -/
def execTemperatureSample (t : Nat) (x : Int) (sensor : Fin 24) (s : State) : Host.Outcome State Fault Refusal :=
  s.run t (fun d =>
    let d := { d with gov := { d.gov with temps := Tab.put d.gov.temps sensor.val x } }
    let tj := (hottest d.gov.temps).1
    let d := (d.wrS F.GV_PWR_TJ tj).wr F.GV_PWR_HOTS (hottest d.gov.temps).2
    let hot := if tj < 110 then none else some (d.gov.hotFrom.getD d.now)
    let d := { d with gov := { d.gov with tj := tj, hotFrom := hot } }
    let d := { d with gov := { d.gov with barred := d.gov.barred && !decide (tj < d.tc - 10) } }
    d.thermal)

/-! ### Commands of the governor (R301, R328, R329, R341, R345 to R347) -/

/-- The writer is the image loader or the holder of ADMIN_LOCK (R347). -/
def Dev.mayGovern (d : Dev) (w : Writer) : Bool :=
  match w with
  | .loader => true
  | .session n => n.val != 0 && d.lapseLock.holder == n.val
  | .v1 _ => false

/-- A write that R347 refuses. -/
def Dev.gvRej (d : Dev) : Dev := d.raise F.GV_STATUS_GVREJ

/-- GV_PDCMD on (R328, R329): RES 1 ORDER, 3 BUSY for a domain that is already to switch on. -/
def Dev.pdOn (d : Dev) (n : Nat) : Dev :=
  if n < 64 ∨ n = 76 ∨ 79 ≤ n then
    (if n < 79 ∧ !d.domOn n ∧ !d.requiresOk n then (d.wr F.GV_PDCMD_RES 1).switchDeny none else d.wr F.GV_PDCMD_RES 1)
  else if d.gov.queue.contains n then d.wr F.GV_PDCMD_RES 3
  else if d.domOn n then d.wr F.GV_PDCMD_RES 0
  else if d.requiresOk n then (d.wr F.GV_PDCMD_RES 0).enqueue [n]
  else (d.wr F.GV_PDCMD_RES 1).switchDeny none

/-- GV_PDCMD off (R248, R329). -/
def Dev.pdOff (d : Dev) (n : Nat) : Dev :=
  if n < 64 ∨ n = 76 ∨ 79 ≤ n then
    (if (n = 76 ∧ d.domOn 76 ∧ !d.releaseOk 76) ∨ (n = 79 ∧ d.powered 76) then (d.wr F.GV_PDCMD_RES 1).switchDeny none
     else d.wr F.GV_PDCMD_RES 1)
  else if d.gov.queue.contains n then d.wr F.GV_PDCMD_RES 3
  else if !d.domOn n then d.wr F.GV_PDCMD_RES 0
  else if d.releaseOk n then (d.wr F.GV_PDCMD_RES 0).domainOff n
  else (d.wr F.GV_PDCMD_RES 1).switchDeny none

/-- A write of GV_PDCMD by `w` (R329, R347). -/
def Dev.gvPdcmd (d : Dev) (w : Writer) (v : Word32) : Dev :=
  if !d.mayGovern w then (d.wr F.GV_PDCMD_RES 2).gvRej
  else
    let n := getBits v 0 7
    let d := d.wr F.GV_PDCMD_DOM n
    match getBits v 8 2 with
    | 1 => d.pdOn n
    | 2 => d.pdOff n
    | _ => d

/-- GV_PDCMD_ON (R329). -/
def execGvPdcmdOn (t : Nat) (w : Writer) (dom : Fin 128) (s : State) : Host.Outcome State Fault Refusal :=
  s.runClk t (fun d => d.gvPdcmd w (BitVec.ofNat 32 (dom.val + 0x100)))

/-- GV_PDCMD_OFF (R329). -/
def execGvPdcmdOff (t : Nat) (w : Writer) (dom : Fin 128) (s : State) : Host.Outcome State Fault Refusal :=
  s.runClk t (fun d => d.gvPdcmd w (BitVec.ofNat 32 (dom.val + 0x200)))

/-- The domain that switches on counts as on and the next switch-on begins (R328, R343); one that no longer has what it
requires is refused (R344).  In the recovery state a port whose domain comes on is opened (R325). -/
def Dev.domainDone (d : Dev) : Dev :=
  match d.gov.queue with
  | [] => d
  | k :: l =>
    let d' := { d with gov := { d.gov with queue := l } }
    if !d.requiresOk k then d.startNext 256
    else
      let d := d'.domainOn k
      let d := if 64 ≤ k then d
        else if (d.bring k).abort then d.abortBring k
        else d.setPhase k phRESTORE
      let d := if d.rstate = 2 ∧ (k = 68 ∨ k = 69) then d.unsquelch (k - 68) else d
      d.startNext 256

/-- RES of a GV_CHCMD. -/
def Dev.chRes (d : Dev) (n : Nat) : Dev := d.wr F.GV_CHCMD_RES n

/-- GV_CHCMD ON or HOLD (R341, R346). -/
def Dev.chOnCmd (d : Dev) (k : Nat) (role : Option Nat) (hold : Bool) : Dev :=
  if (role.map (fun r => decide (4 < r))).getD false then d.chRes 3
  else if (d.group k).any d.inSequence then (d.chRes 1).setRes k lrBUSY
  else if d.gov.barred then ((d.chRes 3).switchDeny (some k)).chsvc k lrDENIED
  else if d.phase k = phHELD then
    if hold then (d.chRes 0).setService k role
    else if d.envOk then ((d.chRes 0).setService k role).startService k
    else ((d.chRes 3).switchDeny (some k)).chsvc k lrDENIED
  else if d.bringOk k 0 then ((d.chRes 0).setService k role).beginBring k 0 hold
  else ((d.chRes 3).switchDeny (some k)).chsvc k lrDENIED

/-- GV_CHCMD OFF (R345, R346). -/
def Dev.chOffCmd (d : Dev) (k : Nat) : Dev :=
  let p := d.phase k
  if p = phOFF then d.chRes 0
  else if p = phDRAIN ∨ p = phCAPTURE then d.chRes 1
  else if p = phSERVICE then (d.chRes 0).beginDrain k
  else if p = phHELD then (d.group k).foldl (fun d m => (d.enterOff m).setPhase m phCAPTURE) (d.chRes 0)
  else (d.group k).foldl (fun d m => d.modBring m (fun b => { b with abort := true })) (d.chRes 0)

/-- A write of GV_CHCMD by `w` (R346, R347). -/
def Dev.gvChcmd (d : Dev) (w : Writer) (v : Word32) : Dev :=
  if !d.mayGovern w then (d.chRes 2).gvRej
  else
    let k := getBits v 0 6
    let role := if v.getLsbD 16 then some (getBits v 17 3) else none
    let d := ((d.wr F.GV_CHCMD_CHAN k).wr F.GV_CHCMD_ROLESET (getBits v 16 1)).wr F.GV_CHCMD_ROLE (getBits v 17 3)
    if 4 < getBits v 17 3 ∧ getBits v 8 2 ≠ 0 then d.chRes 3
    else match getBits v 8 2 with
    | 1 => d.chOnCmd k role false
    | 2 => d.chOffCmd k
    | 3 => d.chOnCmd k role true
    | _ => d

/-- The word of a GV_CHCMD write. -/
def chcmdWord (k op : Nat) (role : Option (Fin 8)) : Word32 :=
  BitVec.ofNat 32 (k + 256 * op + (match role with | some r => 0x10000 + 0x20000 * r.val | none => 0))

/-! ### The loader's SERVICE step (R395, R396) -/

/-- SERVICE ends: LSTATE DONE, LD_TIME in µs (its rounding is log entry 10), and the flash lands are released. -/
def Dev.loaderDone (d : Dev) : Dev :=
  let us := (roundQuotient ((d.now - d.loader.released : Nat) : Int) 1000).toNat
  let d := (d.wr F.LD_STATUS_LSTATE 7).setWord A.LD_TIME (BitVec.ofNat 32 (min us 0xFFFFFFFF))
  { d with loader := { d.loader with lands := false, serving := false } }

/-- The bring-up of a channel has no outcome yet. -/
def Dev.bringing (d : Dev) (k : Nat) : Bool := 1 ≤ d.phase k && d.phase k ≤ 7

/-- The loader awaits the outcome of a bring-up before it issues the next; after the last one SERVICE ends.  `fuel` bounds the
channels that end at once. -/
def Dev.serviceNext (d : Dev) : Nat → Dev
  | 0 => d
  | fuel + 1 =>
    if d.rstate ≠ 1 ∨ d.rd F.LD_STATUS_LSTATE ≠ 6 ∨ !d.loader.serving then d
    else match d.loader.current with
      | some k =>
        if d.bringing k then d
        else
          let d := if d.rd (F.GV_CHSTAT_LASTRES k) = lrINSERVICE then d else d.raise F.LD_STATUS_SVCFAIL
          Dev.serviceNext { d with loader := { d.loader with current := none } } fuel
      | none =>
        match d.loader.service with
        | [] => d.loaderDone
        | k :: l =>
          Dev.serviceNext ({ d with loader := { d.loader with service := l, current := some k } }.chOnCmd k none false) fuel

/-- A command that can end a bring-up: the loader goes on after its effect. -/
def State.runSvc (s : State) (t : Nat) (f : Dev → Dev) : Host.Outcome State Fault Refusal :=
  s.run t (fun d => (f d).serviceNext 256)

/-- The same for a command of a clock domain that stops without REFCLK_SYS. -/
def State.runClkSvc (s : State) (t : Nat) (f : Dev → Dev) : Host.Outcome State Fault Refusal :=
  s.runClk t (fun d => (f d).serviceNext 256)

/-- THERMAL_TRIP (R334, R340). -/
def execThermalTrip (t : Nat) (s : State) : Host.Outcome State Fault Refusal :=
  s.runSvc t (fun d =>
    match d.gov.hotFrom with
    | some x =>
      if x + 1000000 ≤ d.now ∧ d.tstate ≠ 3 then
        let d := (d.wr F.GV_STATUS_TSTATE 3).dropChannels
        let d := { d with gov := { d.gov with barred := true } }
        ((d.cause causeTHERM { ao := true }).raise F.GV_STATUS_THERMTRIP).notice { cls := 8, code := 1 }
      else d
    | none => d)

/-! ### Writes of GV_CHCMD -/

/-- GV_CHCMD_ON (R341, R346). -/
def execGvChcmdOn (t : Nat) (w : Writer) (k : ChanId) (role : Option (Fin 8)) (s : State) : Host.Outcome State Fault Refusal :=
  s.runClkSvc t (fun d => d.gvChcmd w (chcmdWord k.val 1 role))

/-- GV_CHCMD_OFF (R345). -/
def execGvChcmdOff (t : Nat) (w : Writer) (k : ChanId) (s : State) : Host.Outcome State Fault Refusal :=
  s.runClkSvc t (fun d => d.gvChcmd w (chcmdWord k.val 2 none))

/-- GV_CHCMD_HOLD (R346). -/
def execGvChcmdHold (t : Nat) (w : Writer) (k : ChanId) (role : Option (Fin 8)) (s : State) :
    Host.Outcome State Fault Refusal :=
  s.runClkSvc t (fun d => d.gvChcmd w (chcmdWord k.val 3 role))

/-! ### Phases of bring-up and take-out (R217, R343 to R346) -/

/-- RESTORE_DONE (R343): the record is replayed and calibration begins; one that HBM has lost ends the bring-up (R416). -/
def execRestoreDone (t : Nat) (k : ChanId) (s : State) : Host.Outcome State Fault Refusal :=
  s.runClkSvc t (fun d =>
    if d.phase k.val ≠ phRESTORE then d
    else if (d.record k.val).bad then d.bringFail k.val lrCFGREJ
    else
      let d := (d.replay k.val).modBring k.val (fun b => { b with restored := true })
      if (d.bring k.val).abort then d.abortBring k.val else d.setPhase k.val phCAL)

/-- CALIBRATION_DONE (R343, R344): within limits the group goes on when all its members have calibrated. -/
def execCalibrationDone (t : Nat) (k : ChanId) (within : Bool) (s : State) : Host.Outcome State Fault Refusal :=
  s.runClkSvc t (fun d =>
    if d.phase k.val ≠ phCAL then d
    else if (d.bring k.val).abort then d.abortBring k.val
    else if !within then (d.cause causeCALFAIL { chan := some k.val }).bringFail k.val lrCALFAIL
    else
      let grp := d.group k.val
      let d := d.modBring k.val (fun b => { b with calibrated := true })
      if grp.any (fun m => d.phase m != phCAL || !(d.bring m).calibrated) then d
      else if (d.bring k.val).hold then d.enterHeld grp
      else d.startService k.val)

/-- START_CHECK_COMPLETE (R217): ARMED or BADSTEP; in phase 6 the bring-up goes on to ARMED once both checks have ended, or
fails with TBLBAD (R343, R344). -/
def execStartCheckComplete (t : Nat) (q : SeqId) (s : State) : Host.Outcome State Fault Refusal :=
  s.runClkSvc t (fun d =>
    if (d.sq q.val).checking.isNone then d
    else
      let (ok, d) := d.endCheck q.val
      let k := d.tgt q.val
      if d.phase k ≠ phSTART then d
      else if !ok then (d.stopSeqs (d.group k)).bringFail k lrTBLBAD
      else
        let p := q.val / 2
        if (d.sq (2 * p)).checking.isSome ∨ (d.sq (2 * p + 1)).checking.isSome then d
        else if (d.bring k).abort then (d.stopSeqs (d.group k)).abortBring k
        else (d.group k).foldl (fun d m => d.setPhase m phARMED) d)

/-- SEQ_RUN_ENTRY (R217): at grain 0 of its start cycle an ARMED sequencer enters RUN; with both in RUN the channel is in
service (R343, R344). -/
def execSeqRunEntry (t : Nat) (q : SeqId) (s : State) : Host.Outcome State Fault Refusal :=
  s.runClkSvc t (fun d =>
    let k := d.tgt q.val
    if d.sqState q.val ≠ sqARMED ∨ !d.timeRuns ∨ 2 ^ 31 ≤ (d.cycle + 2 ^ 32 - (d.sq q.val).startAt) % 2 ^ 32 then d
    else if d.phase k = phARMED ∧ (d.bring k).abort then (d.stopSeqs (d.group k)).abortBring k
    else
      let d := d.enterRun q.val
      let p := q.val / 2
      if d.phase k ≠ phARMED ∨ d.sqState (2 * p) = sqARMED ∨ d.sqState (2 * p + 1) = sqARMED then d
      else (d.group k).foldl (fun d m => ((d.modBring m (fun _ => {})).setPhase m phSERVICE).chsvc m lrINSERVICE) d)

/-- DRAIN_COMPLETE (R345). -/
def execDrainComplete (t : Nat) (k : ChanId) (s : State) : Host.Outcome State Fault Refusal :=
  s.runClkSvc t (fun d => if d.phase k.val = phDRAIN ∧ d.drained k.val then d.beginCapture k.val else d)

/-- DRAIN_TIMEOUT (R345): after DRAIN_MAX ms what remains is cut. -/
def execDrainTimeout (t : Nat) (k : ChanId) (s : State) : Host.Outcome State Fault Refusal :=
  s.runClkSvc t (fun d =>
    let since := Tab.get d.now d.gov.drain k.val
    if d.phase k.val = phDRAIN ∧ since + 1000000 * d.rd F.GV_ITER_DRAIN_MAX ≤ d.now then
      ((d.group k.val).foldl Dev.cutAll d).beginCapture k.val
    else d)

/-- CAPTURE_DONE (R345, R365): the record is captured, the floors are released, the domains go off and a CHSVC notice
names LASTRES. -/
def execCaptureDone (t : Nat) (k : ChanId) (s : State) : Host.Outcome State Fault Refusal :=
  s.runClkSvc t (fun d =>
    if d.phase k.val ≠ phCAPTURE then d
    else
      let grp := (d.group k.val).filter (fun m => d.phase m == phCAPTURE)
      let d := grp.foldl (fun d m => d.capture m (d.record m).role) d
      let d := grp.foldl (fun d m => (d.outOfService m).chsvc m (d.rd (F.GV_CHSTAT_LASTRES m))) d
      d.autoFe (k.val / 16))

end Sys2Proof.Machine
end

