-- ==== Sys2Proof/Machine/ImageRead.lean ====
section
/-! DEFINITION. A configuration image as its octets spell it: header, section table and records, every field in network order (R385 to
R391). -/

namespace Sys2Proof

open Machine

/-- The number that `n` octets from octet `i` hold, in network order (R3). -/
def imgField (l : List Byte) (i n : Nat) : Nat := beNat ((l.drop i).take n)

/-- A number of `n` octets from octet `i` in two's complement. -/
def imgSigned (l : List Byte) (i n : Nat) : Int := Int.bmod (imgField l i n) (256 ^ n)

/-- Records of `n` octets each, one after the other. -/
def imgRecords (n : Nat) (l : List Byte) : List (List Byte) := (List.range (l.length / n)).map (fun i => (l.drop (n * i)).take n)

/-- The words of `n` octets each. -/
def imgWords32 (l : List Byte) : List Word32 := (imgRecords 4 l).map (fun w => BitVec.ofNat 32 (beNat w))
def imgWords64 (l : List Byte) : List Word64 := (imgRecords 8 l).map (fun w => BitVec.ofNat 64 (beNat w))

/-- What the choice of a slot reads of its header (R384, R386). -/
def readHeader (l : List Byte) : SlotHeader :=
  { magic := BitVec.ofNat 32 (imgField l 0 4), fver := imgField l 4 1, ilen := imgField l 8 4, iseq := imgField l 12 4 }

/-! ### Records (R387 to R391); none where one runs past its section or sets an octet that is reserved as 0 -/

/-- Register records: address or offset, and value. -/
def readRegs (l : List Byte) : List (Nat × Word32) :=
  (imgRecords 8 l).map (fun r => (imgField r 0 4, BitVec.ofNat 32 (imgField r 4 4)))

/-- An ASSOC record of 80 octets (R389). -/
def readAssoc (r : List Byte) : Option AssocRecord :=
  let key := fun (i : Nat) => if (imgField r 6 1).testBit i then some (BitVec.ofNat 256 (imgField r (16 + 32 * i) 32)) else none
  if imgField r 12 4 ≠ 0 then none
  else some { saidx := imgField r 0 4 % 2 ^ 17, kind := imgField r 4 1, tenant := imgField r 5 1 % 16, key0 := key 0, key1 := key 1
              cph := (imgField r 7 1).testBit 0, salt := BitVec.ofNat 31 (imgField r 8 4) }

/-- A NODES record of 68 octets: entry index and the 16 words (R387). -/
def readNode (r : List Byte) : Nat × List Word32 := (imgField r 0 4, imgWords32 (r.drop 4))

/-- SEQTAB records: sequencer, first step and step words (R387); a step beyond the table has no place (R196). -/
def readSeqtab : Nat → List Byte → Option (List (Nat × Nat × List Word64))
  | _, [] => some []
  | 0, _ => none
  | fuel + 1, l =>
    let n := imgField l 4 4
    if l.length < 8 + 8 * n ∨ 127 < imgField l 0 2 ∨ 8192 < imgField l 2 2 + n then none
    else (readSeqtab fuel (l.drop (8 + 8 * n))).map
      (fun x => (imgField l 0 2, imgField l 2 2, imgWords64 ((l.drop 8).take (8 * n))) :: x)

/-- CHANNEL records (R390). -/
def readChannels : Nat → List Byte → Option (List ChannelRecord)
  | _, [] => some []
  | 0, _ => none
  | fuel + 1, l =>
    let a := (imgField l 2 1).testBit 0
    let b := (imgField l 2 1).testBit 1
    let n := 8 + 8 * imgField l 4 4
    let m := n + (if a then 4096 else 0)
    let e := m + (if b then 4096 else 0)
    if l.length < e ∨ l.length < 8 ∨ imgField l 3 1 ≠ 0 then none
    else (readChannels fuel (l.drop e)).map (fun x =>
      { chan := imgField l 0 1, role := imgField l 1 1, activeB := (imgField l 2 1).testBit 2
        palA := if a then some (imgWords32 ((l.drop n).take 4096)) else none
        palB := if b then some (imgWords32 ((l.drop m).take 4096)) else none
        regs := readRegs ((l.take n).drop 8) } :: x)

/-- PATHS records (R391). -/
def readPaths : Nat → List Byte → Option (List PathsRecord)
  | _, [] => some []
  | 0, _ => none
  | fuel + 1, l =>
    let n := 8 + 8 * imgField l 3 1
    let e := n + 4 * imgField l 6 2
    if l.length < e ∨ l.length < 8 then none
    else (readPaths fuel (l.drop e)).map (fun x =>
      { chan := imgField l 0 1, hyst := imgField l 1 1 % 16, nbrAge := imgField l 2 1, margin := imgField l 4 2
        rungs := (imgRecords 8 ((l.take n).drop 8)).map (fun r =>
          (BitVec.ofNat 32 (imgField r 0 4), imgSigned r 4 2, imgField r 6 2))
        repeaters := (imgRecords 4 ((l.take e).drop n)).map (fun r => imgField r 0 4 % 2 ^ 17) } :: x)

/-! ### Sections and the image (R385 to R387) -/

/-- The whole records of `n` octets that a section holds, if it holds nothing else. -/
def wholeRecords (n : Nat) (l : List Byte) (f : List (List Byte) → SectionBody) : SectionBody :=
  if l.length % n = 0 then f (imgRecords n l) else .broken

/-- The content of a section by its TYPE (R387). -/
def readBody (type : Nat) (late : Bool) (l : List Byte) : SectionBody :=
  match type with
  | 1 => if l.length % 8 = 0 then .regs late (readRegs l) else .broken
  | 2 => wholeRecords 4 l (fun rs => .domains (rs.map (fun r => imgField r 0 1)))
  | 3 => wholeRecords 80 l (fun rs => if rs.all (fun r => (readAssoc r).isSome) then .assoc (rs.filterMap readAssoc) else .broken)
  | 4 => wholeRecords 68 l (fun rs => .nodes (rs.map readNode))
  | 5 => ((readSeqtab l.length l).map .seqtab).getD .broken
  | 6 => ((readChannels l.length l).map .channel).getD .broken
  | 7 => ((readPaths l.length l).map .paths).getD .broken
  | 8 => wholeRecords 4 l (fun rs => .service (rs.map (fun r => imgField r 0 1)))
  | 15 => .info
  | _ => .reserved

/-- Section `i`: its place, and its content where its table entry obeys R387. -/
def readSection (l : List Byte) (i : Nat) : ImageSection :=
  let e := (l.drop (64 + 16 * i)).take 16
  let type := imgField e 0 1
  let stage := imgField e 1 1
  let offset := imgField e 4 4
  let length := imgField e 8 4
  { offset := offset, length := length
    body := if imgField e 2 2 ≠ 0 ∨ imgField e 12 4 ≠ 0 ∨ 1 < stage ∨ (stage = 1 ∧ type ≠ 1) then .broken
            else readBody type (stage == 1) ((l.drop offset).take length) }

/-- An image of octets (R385, R386): its signed part runs to the signature of 2,420 octets and ends in the key. -/
def readImage (l : List Byte) : Image :=
  let ilen := imgField l 8 4
  { header := readHeader l, svn := imgField l 16 1, svcwait := imgField l 18 2, part := imgField l 20 2, step := imgField l 22 1
    sections := (List.range (imgField l 6 2)).map (readSection l)
    octetsOk := l.length == ilen && imgField l 5 1 == 0 && imgField l 17 1 == 0 && imgField l 23 1 == 0 && imgField l 56 8 == 0
    signed := l.take (ilen - 2420), sig := (l.drop (ilen - 2420)).take 2420 }

end Sys2Proof
end

