-- ==== Sys2Proof/Machine/MlDsa.lean ====
section
/-! DEFINITION. ML-DSA-44 of FIPS 204: key generation from a seed, signing and verification with an empty context string (R312, R314 to
R316). -/

namespace Sys2Proof.Machine

open Sys2Proof

/-! ### The ring -/

/-- The modulus q. -/
def mlQ : Nat := 8380417

/-- A polynomial: 256 coefficients modulo q, lowest first. -/
abbrev Poly := List Nat

def polyAdd (a b : Poly) : Poly := a.zipWith (fun x y => (x + y) % mlQ) b
def polySub (a b : Poly) : Poly := a.zipWith (fun x y => (x + mlQ - y) % mlQ) b
/-- Product coefficient by coefficient, in the NTT domain. -/
def polyMul (a b : Poly) : Poly := a.zipWith (fun x y => x * y % mlQ) b
def polyZero : Poly := List.replicate 256 0

/-- The eight bits of a number in reverse order. -/
def bitRev8 (n : Nat) : Nat := (List.range 8).foldl (fun r i => r + n / 2 ^ i % 2 * 2 ^ (7 - i)) 0

/-- A power modulo q, by squaring over the bits of the exponent. -/
def powQ (b : Nat) : Nat → Nat → Nat
  | 0, _ => 1
  | fuel + 1, e => if e = 0 then 1 else powQ (b * b % mlQ) fuel (e / 2) * (if e % 2 = 1 then b else 1) % mlQ

/-- ζ to the power of the reversed bits of `k`, with ζ = 1753. -/
def mlZeta (k : Nat) : Nat := powQ 1753 8 (bitRev8 k)

/-- NTT of 2^depth coefficients at node `k` of the tree of butterflies. -/
def nttAt : Nat → Nat → Poly → Poly
  | 0, _, w => w
  | n + 1, k, w =>
    let lo := w.take (2 ^ n)
    let z := mlZeta k
    let t := (w.drop (2 ^ n)).map (fun x => z * x % mlQ)
    nttAt n (2 * k) (polyAdd lo t) ++ nttAt n (2 * k + 1) (polySub lo t)

/-- Its inverse but for the factor 2^depth; node `k` of a level of 2^level nodes uses the zeta of its mirror image, negated. -/
def inttAt : Nat → Nat → Nat → Poly → Poly
  | 0, _, _, w => w
  | n + 1, level, k, w =>
    let a := inttAt n (level + 1) (2 * k) (w.take (2 ^ n))
    let b := inttAt n (level + 1) (2 * k + 1) (w.drop (2 ^ n))
    let z := mlQ - mlZeta (3 * 2 ^ level - 1 - k)
    polyAdd a b ++ (polySub a b).map (fun x => z * x % mlQ)

/-- NTT of a polynomial, and its inverse. -/
def ntt (w : Poly) : Poly := nttAt 8 1 w
def intt (w : Poly) : Poly := (inttAt 8 0 1 w).map (fun x => 8347681 * x % mlQ)

/-- A row of a matrix times a vector, in the NTT domain. -/
def dotNtt (row v : List Poly) : Poly := (row.zipWith polyMul v).foldl polyAdd polyZero

/-- A matrix times a vector, both in the NTT domain, back from it. -/
def matVec (m : List (List Poly)) (v : List Poly) : List Poly := m.map (fun row => intt (dotNtt row v))

/-- A coefficient as the integer of least size, and the largest size in a vector. -/
def centred (x : Nat) : Int := if 2 * x ≤ mlQ then x else (x : Int) - mlQ
def normInf (v : List Poly) : Nat := v.flatten.foldl (fun m x => max m (centred x).natAbs) 0

/-- An integer modulo q. -/
def modQ (i : Int) : Nat := (i % mlQ).toNat

/-! ### Packing -/

/-- Numbers of `w` bits each as octets, lowest bit first. -/
def packBits (w : Nat) (l : List Nat) : List Byte := octetsLE (l.length * w / 8) (l.foldr (fun x r => x + 2 ^ w * r) 0)

/-- `n` numbers of `w` bits each from octets. -/
def unpackBits (w : Nat) (l : List Byte) : List Nat :=
  let v := leNat l
  (List.range 256).map (fun i => v / 2 ^ (w * i) % 2 ^ w)

/-! ### Sampling -/

/-- A polynomial of the matrix in the NTT domain: 23-bit candidates of the stream below q (RejNTTPoly). -/
def rejNtt (seed : List Byte) : Poly :=
  ((chunks 3 336 (shake128 seed 1008)).filterMap (fun t =>
    let z := (t.getD 0 0).toNat + 256 * (t.getD 1 0).toNat + 65536 * ((t.getD 2 0).toNat % 128)
    if z < mlQ then some z else none)).take 256

/-- A polynomial of coefficients from −2 to 2 (RejBoundedPoly): half octets of the stream below 15. -/
def rejBounded (seed : List Byte) : Poly :=
  (((shake256 seed 544).flatMap (fun b => [b.toNat % 16, b.toNat / 16])).filterMap (fun h =>
    if h < 15 then some (modQ (2 - (h % 5 : Nat))) else none)).take 256

/-- The 4 × 4 matrix of a seed (ExpandA). -/
def expandA (rho : List Byte) : List (List Poly) :=
  (List.range 4).map (fun r => (List.range 4).map (fun s => rejNtt (rho ++ [BitVec.ofNat 8 s, BitVec.ofNat 8 r])))

/-- The secret vectors of a seed (ExpandS): polynomial `i`, of s1 for i below 4 and of s2 above. -/
def expandS (rho : List Byte) (i : Nat) : Poly := rejBounded (rho ++ octetsLE 2 i)

/-- The mask vector of a seed and a counter (ExpandMask). -/
def expandMask (rho : List Byte) (kappa : Nat) : List Poly :=
  (List.range 4).map (fun r =>
    (unpackBits 18 (shake256 (rho ++ octetsLE 2 (kappa + r)) 576)).map (fun x => modQ ((131072 : Int) - x)))

/-- One draw of SampleInBall: the place `i` takes what stands at `j`, and `j` takes ±1. -/
def ballPut (c : Poly) (i j : Nat) (neg : Bool) : Poly := (c.set i (c.getD j 0)).set j (if neg then mlQ - 1 else 1)

/-- SampleInBall from place `i` on: an octet above the place is passed over; `n` places are left. -/
def ballFrom (signs : Nat) : List Byte → Nat → Poly → Poly
  | [], _, c => c
  | b :: l, i, c =>
    if 256 ≤ i then c
    else if i < b.toNat then ballFrom signs l i c
    else ballFrom signs l (i + 1) (ballPut c i b.toNat (signs / 2 ^ (i - 217) % 2 == 1))

/-- A polynomial with 39 coefficients ±1 and else 0 (SampleInBall). -/
def sampleInBall (seed : List Byte) : Poly :=
  let s := shake256 seed 544
  ballFrom (leNat (s.take 8)) (s.drop 8) 217 polyZero

/-! ### High and low parts, hints -/

/-- γ2 of ML-DSA-44. -/
def mlGamma2 : Nat := 95232

/-- Power2Round: the high part, and the low 13 bits about 0. -/
def power2Round (r : Nat) : Nat × Int :=
  let lo : Int := if r % 8192 ≤ 4096 then (r % 8192 : Nat) else ((r % 8192 : Nat) : Int) - 8192
  ((((r : Int) - lo) / 8192).toNat, lo)

/-- Decompose: the high part, modulo 44, and the low part about 0. -/
def decompose (r : Nat) : Nat × Int :=
  let m := 2 * mlGamma2
  let lo : Int := if r % m ≤ mlGamma2 then (r % m : Nat) else ((r % m : Nat) : Int) - m
  if (r : Int) - lo = mlQ - 1 then (0, lo - 1) else ((((r : Int) - lo) / m).toNat, lo)

def highBits (r : Nat) : Nat := (decompose r).1
def lowBits (r : Nat) : Int := (decompose r).2

/-- MakeHint and UseHint. -/
def makeHint (z r : Nat) : Bool := highBits r != highBits ((r + z) % mlQ)
def useHint (h : Bool) (r : Nat) : Nat :=
  let (r1, r0) := decompose r
  if !h then r1 else if 0 < r0 then (r1 + 1) % 44 else (r1 + 43) % 44

/-- w1Encode. -/
def w1Octets (w : List Poly) : List Byte := w.flatMap (fun p => packBits 6 p)

/-- HintBitPack: the places of the ones, padded to 80 octets, then the count after each polynomial. -/
def packHints (h : List (List Bool)) : List Byte :=
  let places := h.map (fun p => (p.zipIdx.filter (fun e => e.1)).map (fun e => BitVec.ofNat 8 e.2))
  let all := places.flatten
  all ++ List.replicate (80 - all.length) 0 ++ (List.range 4).map (fun i => BitVec.ofNat 8 ((places.take (i + 1)).flatten.length))

/-- A list of octets rises strictly. -/
def rises : List Byte → Bool
  | a :: b :: l => decide (a.toNat < b.toNat) && rises (b :: l)
  | _ => true

/-- HintBitUnpack; none where the octets are no packing. -/
def unpackHints (l : List Byte) : Option (List (List Bool)) :=
  let ends := (l.drop 80).map BitVec.toNat
  let from_ := fun i => if i = 0 then 0 else ends.getD (i - 1) 0
  let part := fun i => (l.take (ends.getD i 0)).drop (from_ i)
  if (List.range 4).all (fun i => decide (from_ i ≤ ends.getD i 0) && decide (ends.getD i 0 ≤ 80) && rises (part i)) ∧
      ((l.take 80).drop (ends.getD 3 0)).all (fun b => b == 0) then
    some ((List.range 4).map (fun i => (List.range 256).map (fun x => (part i).contains (BitVec.ofNat 8 x))))
  else none

/-! ### The scheme -/

/-- What KeyGen_internal derives from a seed: ρ, K, s1, s2, and t high and low. -/
structure MlKey where
  rho : List Byte
  k : List Byte
  s1 : List Poly
  s2 : List Poly
  t1 : List Poly
  t0 : List Poly

/-- KeyGen_internal on a seed of 32 octets. -/
def mlKeyGen (xi : List Byte) : MlKey :=
  let h := shake256 (xi ++ [4#8, 4#8]) 128
  let rho := h.take 32
  let rho' := (h.drop 32).take 64
  let s1 := (List.range 4).map (fun i => expandS rho' i)
  let s2 := (List.range 4).map (fun i => expandS rho' (4 + i))
  let t := (matVec (expandA rho) (s1.map ntt)).zipWith polyAdd s2
  { rho := rho, k := h.drop 96, s1 := s1, s2 := s2, t1 := t.map (fun p => p.map (fun x => (power2Round x).1))
    t0 := t.map (fun p => p.map (fun x => modQ (power2Round x).2)) }

/-- pkEncode: 1,312 octets. -/
def MlKey.publicKey (key : MlKey) : List Byte := key.rho ++ key.t1.flatMap (packBits 10)

/-- μ of a message for a public key, with the empty context string of pure ML-DSA. -/
def mlMu (pk msg : List Byte) : List Byte := shake256 (shake256 pk 64 ++ [0#8, 0#8] ++ msg) 64

/-- One attempt of Sign_internal: the signature, none where it is to be rejected. -/
def mlAttempt (key : MlKey) (a : List (List Poly)) (mu rho : List Byte) (kappa : Nat) : Option (List Byte) :=
  let y := expandMask rho kappa
  let w := matVec a (y.map ntt)
  let ct := shake256 (mu ++ w1Octets (w.map (fun p => p.map highBits))) 32
  let c := ntt (sampleInBall ct)
  let times := fun (v : List Poly) => v.map (fun p => intt (polyMul c (ntt p)))
  let z := y.zipWith polyAdd (times key.s1)
  let r := w.zipWith polySub (times key.s2)
  let r0 := r.flatten.foldl (fun m x => max m (lowBits x).natAbs) 0
  let t := times key.t0
  let h := (t.zipWith (fun p q => p.zipWith (fun x y => makeHint ((mlQ - x) % mlQ) y) q)
    (r.zipWith polyAdd t))
  if 131072 - 78 ≤ normInf z ∨ mlGamma2 - 78 ≤ r0 then none
  else if mlGamma2 ≤ normInf t ∨ 80 < (h.flatten.filter id).length then none
  else some (ct ++ z.flatMap (fun p => packBits 18 (p.map (fun x => (131072 - centred x).toNat))) ++ packHints h)

/-- The first attempt that stands, of at most `fuel` (FIPS 204 admits a bound of 814). -/
def mlSignLoop (key : MlKey) (a : List (List Poly)) (mu rho : List Byte) : Nat → Nat → List Byte
  | 0, _ => []
  | fuel + 1, kappa =>
    match mlAttempt key a mu rho kappa with
    | some s => s
    | none => mlSignLoop key a mu rho fuel (kappa + 4)

/-- The signature of 2,420 octets of a message under the key of a seed, with 32 octets of randomness: zeros for the deterministic
variant. -/
def mlSign (xi msg rnd : List Byte) : List Byte :=
  let key := mlKeyGen xi
  let mu := mlMu key.publicKey msg
  mlSignLoop key (expandA key.rho) mu (shake256 (key.k ++ rnd ++ mu) 64) 814 0

/-- Verification of a signature of a message under a public key. -/
def mlVerify (pk msg sig : List Byte) : Bool :=
  let ct := sig.take 32
  let z := (chunks 576 4 (sig.drop 32)).map (fun l => (unpackBits 18 l).map (fun x => modQ ((131072 : Int) - x)))
  match unpackHints (sig.drop 2336) with
  | none => false
  | some h =>
    let t1 := (chunks 320 4 (pk.drop 32)).map (fun l => (unpackBits 10 l).map (fun x => x * 8192 % mlQ))
    let c := ntt (sampleInBall ct)
    let az := (expandA (pk.take 32)).map (fun row => dotNtt row (z.map ntt))
    let w := az.zipWith (fun p t => intt (polySub p (polyMul c (ntt t)))) t1
    let w1 := w.zipWith (fun p q => p.zipWith (fun x b => useHint b x) q) h
    pk.length == 1312 && sig.length == 2420 && decide (normInf z < 131072 - 78) &&
      decide ((h.flatten.filter id).length ≤ 80) && shake256 (mlMu pk msg ++ w1Octets w1) 32 == ct

end Sys2Proof.Machine
end

