-- ==== Sys2Proof/Machine/Records.lean ====
section
/-! DEFINITION. Record commands, the administration lock and the commands of tenant jobs (R279, R285 to R291, R301 to R305,
R319). -/

namespace Sys2Proof.Machine

open Sys2Proof

/-! ### Record commands (R285, R286) -/

/-- Results of SA_CMD (R307). -/
def saOK : Nat := 0
def saPERM : Nat := 1
def saNOREC : Nat := 2
def saNOKEY : Nat := 3
def saBUSY : Nat := 4
def saEXISTS : Nat := 6
def saBADOP : Nat := 7

/-- The key in the staging registers of a source (R285, R307). -/
def Dev.stagedKey (d : Dev) (src : Nat) : BitVec 256 :=
  (List.range 8).foldl (fun k n => (k <<< 32) ||| ((d.word (A.SA_KEY src n)).setWidth 256)) 0

/-- Draw a page wrapping key (R279). -/
def Dev.drawPageKey (d : Dev) (p : Nat) : Dev :=
  let (k, d) := d.drawKey
  { d with root := { d.root with pwk := Tab.set 0 d.root.pwk p k } }

/-- KEYWR: the staged key is wrapped into a phase; a job record's counter is drawn anew (R285, R290, R304, R319). -/
def Dev.keyWrite (d : Dev) (src sa : Nat) (ph : Bool) : Nat × Dev :=
  let a := d.sa_ sa
  if a.kind = 3 ∧ !d.trusted then (saBUSY, d)
  else
    let w := aesKw (d.pageKey a.tenant) (d.stagedKey src)
    let a := (a.setWk ph w).setValid ph true
    if a.kind = 3 then
      let (c, d) := d.drawCtr
      (saOK, d.setSa sa { a with jctr := c })
    else (saOK, d.setSa sa a)

/-- A phase is erased with its slot and the sessions of its key (R290, R359). -/
def Dev.keyClear (d : Dev) (sa : Nat) (ph : Bool) : Dev := ((d.erasePhase sa ph).endKeySessions sa ph).startAllJobs

/-- KEYERASE (R285). -/
def Dev.keyErase (d : Dev) (sa : Nat) (ph : Bool) : Nat × Dev :=
  let a := d.sa_ sa
  if (ph = a.cph ∨ ph = a.txph) ∧ a.valid (!ph) ∧ a.txph ≠ a.cph then (saBUSY, d) else (saOK, d.keyClear sa ph)

/-- ROLL (R287, R288). -/
def Dev.rollRecord (d : Dev) (sa : Nat) : Nat × Dev :=
  let a := d.sa_ sa
  let next := !a.cph
  if !a.valid next then (saNOKEY, d)
  else if a.kind = 3 then
    (saOK, d.setSa sa { a with cph := next, txph := next, failcnt := 0, sentNew := false, rcvdNew := false })
  else if a.kind = 2 then (saOK, d.completeRoll sa)
  else (saOK, (d.setSa sa { a with txph := next, sentNew := false, rcvdNew := false }).mirrorPhase sa)

/-- QUERY fills SA_INFO (R285, R307). -/
def Dev.queryRecord (d : Dev) (src sa : Nat) : Dev :=
  let a := d.sa_ sa
  let d := ((d.wr (F.SA_INFO_VALID0 src) (phN a.valid0)).wr (F.SA_INFO_VALID1 src) (phN a.valid1)).wr (F.SA_INFO_CPH src)
    (phN a.cph)
  let d := ((d.wr (F.SA_INFO_TXPH src) (phN a.txph)).wr (F.SA_INFO_KIND src) a.kind).wr (F.SA_INFO_TENANT src) a.tenant
  (d.wr (F.SA_INFO_SESS src) (phN a.sess)).wr (F.SA_INFO_FAILCNT src) a.failcnt

/-- CREATE of a record of `kind` for SA_ARG's page with SA_SALT's salt (R285). -/
def Dev.createRecord (d : Dev) (src sa kind : Nat) : Nat × Dev :=
  if kind = 0 then (saBADOP, d)
  else if (d.sa_ sa).kind ≠ 0 then (saEXISTS, d)
  else (saOK, d.setSa sa { kind := kind, tenant := d.rd (F.SA_ARG_TENANT src),
                           salt := BitVec.ofNat 31 (d.rd (F.SA_SALT_SALT src)) })

/-- DELETE of a record (R285). -/
def Dev.removeRecord (d : Dev) (sa : Nat) : Dev := ((d.keyClear sa false).keyClear sa true).setSa sa {}

/-- PAGEERASE: DELETE on every record of the page, and a new wrapping key (R279, R285). -/
def Dev.pageErase (d : Dev) (p : Nat) : Dev :=
  ((d.assoc.filter (fun e => e.2.kind != 0 && e.2.tenant == p)).foldl (fun d e => d.removeRecord e.1) d).drawPageKey p

/-- The result of a command with its effect: the checks of R285 first. PAGEERASE draws a wrapping key, which is refused while the
entropy source is not trusted (R279, R319; log entry 188). -/
def Dev.recordEffect (d : Dev) (src op sa : Nat) (ph : Bool) (kind : Nat) : Nat × Dev :=
  let a := d.sa_ sa
  if src ≠ 16 ∧ 5 ≤ op then (saPERM, d.hedge)
  else if op = 5 then d.createRecord src sa kind
  else if op = 7 then (if !d.trusted then (saBUSY, d) else (saOK, d.pageErase (d.rd (F.SA_ARG_TENANT src))))
  else if a.kind = 0 then (saNOREC, d)
  else if src ≠ 16 ∧ a.tenant ≠ src then (saPERM, d.hedge)
  else match op with
    | 1 => d.keyWrite src sa ph
    | 2 => d.keyErase sa ph
    | 3 => d.rollRecord sa
    | 4 => (saOK, d.queryRecord src sa)
    | _ => (saOK, d.removeRecord sa)

/-- RES of a source's SA_CMD. -/
def Dev.saRes (d : Dev) (src res : Nat) : Dev := d.wr (F.SA_CMD_RES src) res

/-- A record command is issued (R285, R286, R324): refused while the source's previous one runs; its result waits for
SA_COMMAND_DONE. -/
def Dev.recordCommand (d : Dev) (src op sa : Nat) (ph : Bool) (kind : Nat) : Dev :=
  if !d.domOn 70 ∨ d.rstate = 2 then d
  else if d.on (F.SA_CMD_BUSYST src) then d.saRes src saBUSY
  else
    let d := ((d.wr (F.SA_CMD_PH src) (phN ph)).wr (F.SA_CMD_SAIDX src) sa).wr (F.SA_CMD_KIND src) kind
    if op = 0 ∨ 7 < op then (d.saRes src saBADOP).zeroStaging src
    else
      let old := if op = 1 ∧ d.resident (sa, ph) then some (d.startKey (sa, ph)) else none
      let (res, d) := d.recordEffect src op sa ph kind
      { d.wr (F.SA_CMD_BUSYST src) 1 with sa := Tab.put d.sa src { op := op, saidx := sa, phase := ph, res := res, old := old } }

/-- A write of SA_CMD. -/
def Dev.writeSaCmd (d : Dev) (src : Nat) (v : Word32) : Dev :=
  d.recordCommand src (getBits v 0 4) (getBits v 8 17) (v.getLsbD 4) (getBits v 25 2)

/-- A record command ends (R286); a KEYWR replaces the key of a resident slot (R290). -/
def Dev.recordDone (d : Dev) (src : Nat) : Dev :=
  match d.sa.find? (fun e => e.1 == src) with
  | some e =>
    let d := match e.2.old with
      | some w => d.noteRewrite (e.2.saidx, e.2.phase) w
      | none => d
    { ((d.saRes src e.2.res).wr (F.SA_CMD_BUSYST src) 0).zeroStaging src with sa := Tab.del d.sa src }
  | none => d

/-- KEYWR (R285, R290). -/
def execKeywr (t : Nat) (src : Fin 17) (saidx : NodeAddr) (phase : Bool) (s : State) : Host.Outcome State Fault Refusal :=
  s.runClk t (fun d => d.recordCommand src.val 1 saidx.toNat phase (d.rd (F.SA_CMD_KIND src.val)))

/-- KEYERASE (R285, R290). -/
def execKeyerase (t : Nat) (src : Fin 17) (saidx : NodeAddr) (phase : Bool) (s : State) :
    Host.Outcome State Fault Refusal :=
  s.runClk t (fun d => d.recordCommand src.val 2 saidx.toNat phase (d.rd (F.SA_CMD_KIND src.val)))

/-- ROLL (R287, R288). -/
def execRoll (t : Nat) (src : Fin 17) (saidx : NodeAddr) (s : State) : Host.Outcome State Fault Refusal :=
  s.runClk t (fun d => d.recordCommand src.val 3 saidx.toNat (d.on (F.SA_CMD_PH src.val)) (d.rd (F.SA_CMD_KIND src.val)))

/-- QUERY (R285). -/
def execQuery (t : Nat) (src : Fin 17) (saidx : NodeAddr) (s : State) : Host.Outcome State Fault Refusal :=
  s.runClk t (fun d => d.recordCommand src.val 4 saidx.toNat (d.on (F.SA_CMD_PH src.val)) (d.rd (F.SA_CMD_KIND src.val)))

/-- CREATE (R285). -/
def execCreate (t : Nat) (src : Fin 17) (saidx : NodeAddr) (kind : Fin 4) (s : State) : Host.Outcome State Fault Refusal :=
  s.runClk t (fun d => d.recordCommand src.val 5 saidx.toNat (d.on (F.SA_CMD_PH src.val)) kind.val)

/-- DELETE (R285). -/
def execDelete (t : Nat) (src : Fin 17) (saidx : NodeAddr) (s : State) : Host.Outcome State Fault Refusal :=
  s.runClk t (fun d => d.recordCommand src.val 6 saidx.toNat (d.on (F.SA_CMD_PH src.val)) (d.rd (F.SA_CMD_KIND src.val)))

/-- PAGEERASE (R285). -/
def execPageerase (t : Nat) (src : Fin 17) (s : State) : Host.Outcome State Fault Refusal :=
  s.runClk t (fun d => d.recordCommand src.val 7 (d.rd (F.SA_CMD_SAIDX src.val)) (d.on (F.SA_CMD_PH src.val))
    (d.rd (F.SA_CMD_KIND src.val)))

/-- SA_COMMAND_DONE (R286). -/
def execSaCommandDone (t : Nat) (src : Fin 17) (s : State) : Host.Outcome State Fault Refusal :=
  s.runClk t (fun d => d.recordDone src.val)

/-! ### ADMIN_LOCK (R301) -/

/-- ACQ by a session: taken where the lock is free, renewed by its holder. -/
def Dev.acquire (d : Dev) (n : Nat) : Dev :=
  if d.holder = 0 ∨ d.holder = n then
    { d.wr F.ADMIN_LOCK_HOLDER n with leaseEnd := some (d.now + 1000000 * max 1 (d.rd F.ADMIN_LEASE_LEASE)) }
  else d

/-- REL by a session. -/
def Dev.releaseLock (d : Dev) (n : Nat) : Dev := if d.holder = n then d.freeLock else d

/-- A session open and confirmed, of administration: the one kind that reaches ADMIN_LOCK (R358, R363). -/
def Dev.adminSession (d : Dev) (n : Nat) : Bool := d.sessions.any (fun s => s.num == n && s.admin && s.confirmed)

/-- A write of ADMIN_LOCK by a session; ACQ and REL together are REL alone (R301). -/
def Dev.writeLock (d : Dev) (n : Nat) (v : Word32) : Dev :=
  let d := d.lapseLock
  if n = 0 then d
  else if v.getLsbD 9 then d.releaseLock n
  else if v.getLsbD 8 then d.acquire n
  else d

/-- ACQ (R301). -/
def execAcq (t : Nat) (sess : Fin 256) (s : State) : Host.Outcome State Fault Refusal :=
  s.runClk t (fun d => if d.adminSession sess.val then d.writeLock sess.val 0x100 else d)

/-- REL (R301). -/
def execRel (t : Nat) (sess : Fin 256) (s : State) : Host.Outcome State Fault Refusal :=
  s.runClk t (fun d => if d.adminSession sess.val then d.writeLock sess.val 0x200 else d)

/-- LEASE_EXPIRY (R301): a command already running completes. -/
def execLeaseExpiry (t : Nat) (s : State) : Host.Outcome State Fault Refusal :=
  s.run t (fun d => d.lapseLock)

/-! ### Tenant jobs (R303 to R305) -/

/-- The checks on setting JEN with a PG_JCFG word (R303). -/
def Dev.jenOk (d : Dev) (p : Nat) (v : Word32) : Bool :=
  let i := getBits v 0 13
  let o := getBits v 16 13
  d.on (F.QS_CFG_EN i) && d.on (F.QS_CFG_EN o) && d.rd (F.QS_OWN_TENANT i) == p && d.rd (F.QS_OWN_TENANT o) == p && i != o

/-- A write of PG_JCFG (R303). -/
def Dev.writeJcfg (d : Dev) (p : Nat) (v : Word32) : Bool × Dev :=
  if v.getLsbD 13 ∧ !d.jenOk p v then (false, d.raise F.CV_STATUS_QREJ) else (true, d.setWord (A.PG_JCFG p) (v &&& 0x1FFF3FFF#32))

/-- JEN (R303): JEN is set with the queues that PG_JCFG names. -/
def execJen (t : Nat) (p : PageId) (s : State) : Host.Outcome State Fault Refusal :=
  s.runClk t (fun d => if d.domOn 70 then (d.writeJcfg p.val (d.word (A.PG_JCFG p.val) ||| 0x2000#32)).2 else d)

/-- The job that the descriptor names (R304, R307). -/
def Dev.descriptor (d : Dev) (p : Nat) : Job :=
  let sa := d.rd (F.PG_JD1_SAIDX p)
  { id := d.rd (F.PG_JD0_JOBID p), op := d.rd (F.PG_JD0_JOP p), saidx := sa
    phase := xor (d.sa_ sa).cph (d.on (F.PG_JD0_JPH p)), aad := d.rd (F.PG_JD2_AADLEN p), dlen := d.rd (F.PG_JD2_DLEN p)
    ctr := if d.rd (F.PG_JD0_JOP p) = 2 then d.rd (F.PG_JD3_JCOUNT p) + 2 ^ 32 * d.rd (F.PG_JD4_JCOUNT p) else 0
    masked := d.on (F.PG_JD0_MASKREQ p) }

/-- A write of GO (R304); one beyond four jobs outstanding, or while JEN is 0, is refused. -/
def Dev.jobGo (d : Dev) (p : Nat) : Dev :=
  if !d.on (F.PG_JCFG_JEN p) ∨ 4 ≤ (d.page p).jobs.length then d.raise (F.PG_JSTAT_JREJ p)
  else (d.modJobs p (fun l => l ++ [d.descriptor p])).startJobs p

/-- JGO (R304). -/
def execJgo (t : Nat) (p : PageId) (s : State) : Host.Outcome State Fault Refusal :=
  s.runClk t (fun d => if d.domOn 70 then d.jobGo p.val else d)

/-- The output of a job is pushed to JOUTQ (R304); answers its status. -/
def Dev.jobOutput (d : Dev) (p : Nat) (out : List Byte) : Nat × Dev :=
  let q := d.rd (F.PG_JCFG_JOUTQ p)
  let n := (d.sh q).items.length
  let d := (d.pushContent q 0 out).pfcCheck
  (if (d.sh q).items.length = n + 1 then jsOK else jsOVERRUN, d)

/-- What the pipeline delivers for a job: the ciphertext and tag of an encrypt job, the plaintext of a decrypt job, none where its
tag does not match; the salt word is 0 ‖ SALT (R271, R304). -/
def Dev.jobResult (d : Dev) (j : Job) : Option (List Byte) :=
  let key := d.clearKey j.saidx (d.startKey (j.saidx, j.phase))
  let nonce := nonceOf ((d.sa_ j.saidx).salt.setWidth 32) j.ctr
  let aad := j.item.take j.aad
  if j.op = 2 then gcmOpen key nonce aad (j.item.drop j.aad) else some (gcmSeal key nonce aad ((j.item.drop j.aad).take j.dlen))

/-- The oldest running job of a page ends (R305). -/
def Dev.completeJob (d : Dev) (p : Nat) : Dev :=
  match (d.page p).jobs.find? Job.started with
  | none => d
  | some j =>
    let d :=
      if j.erased then d.finishJob p j jsERASED 0
      else
        let r := d.jobResult j
        let d := d.event 8 0 1 (ceilDiv j.dlen 16)
        match r with
        | none => (d.tagFail j.saidx none 1).finishJob p j jsTAGFAIL 0
        | some out =>
          let (st, d) := d.jobOutput p (fitTo j.outLen out)
          d.finishJob p j st (if st = jsOK then j.outLen else 0)
    d.startJobs p

/-- JOB_COMPLETE (R305). -/
def execJobComplete (t : Nat) (p : PageId) (s : State) : Host.Outcome State Fault Refusal :=
  s.runClk t (fun d => d.completeJob p.val)

/-- A read of PG_JDONE3 removes the oldest record (R305, R307). -/
def Dev.ringPop (d : Dev) (p : Nat) : Dev := d.setPage p { d.page p with ring := (d.page p).ring.drop 1 }

/-- PG_JDONE3_READ (R305). -/
def execPgJdone3Read (t : Nat) (p : PageId) (s : State) : Host.Outcome State Fault Refusal :=
  s.runClk t (fun d => if d.domOn 70 then d.ringPop p.val else d)

end Sys2Proof.Machine
end

