-- ==== Sys2Proof/Machine/Root.lean ====
section
/-! DEFINITION. The Chiale root: alarms and the recovery state, lifecycle and OTP commands, identity, entropy and the DRBG
(R14, R306, R308 to R326). -/

namespace Sys2Proof.Machine

open Sys2Proof

/-! ### The recovery state (R325, R359, R397) -/

/-- Lifecycle state in force. -/
def Dev.lc (d : Dev) : Nat := d.rd F.RT_STATUS_LC

/-- Loader state. -/
def Dev.lstate (d : Dev) : Nat := d.rd F.LD_STATUS_LSTATE

/-- A port is brought up for the recovery state: its SQUELCH is cleared, once its domain is on. -/
def Dev.openPort (d : Dev) (p : Nat) : Dev :=
  if d.domOn (68 + p) then d.unsquelch p
  else if d.gov.queue.contains (68 + p) then d
  else d.enqueue [68 + p]

/-- A domain on or switching on. -/
def Dev.wantDomain (d : Dev) (n : Nat) : Dev := if d.domOn n ∨ d.gov.queue.contains n then d else d.enqueue [n]

/-- The image cells are zeroed and join the free list (R393, step 9 of R394). -/
def Dev.freeImage (d : Dev) : Dev :=
  let n := d.loader.cells
  { d with loader := { d.loader with cells := 0, image := none }, free := d.free ++ [(0, n)].filter (fun r => r.2 ≠ 0) }

/-- The root enters the recovery state (R325): every session ends, every channel domain with PD_CIPX and PD_HBM goes off,
both ports come up, and no image is left in the canvas. -/
def Dev.enterRecovery (d : Dev) : Dev :=
  if d.rstate = 2 then d
  else
    let d := (d.wr F.RT_STATUS_RSTATE 2).endSessions
    let keep : List MgmtJob := d.engine.filter (fun j => j.frame.prin.val == 31)
    let waits : Bool := keep.any (fun j => j.waits)
    let attest := if waits then d.root.attest else d.root.attest.map (fun a => { a with orphan := true })
    let d := { d with engine := keep, root := { d.root with attest := attest } }
    let d := d.dropChannels
    let d := { d with gov := { d.gov with queue := d.gov.queue.filter (fun n => n == 76 || n == 68 || n == 69) } }
    let d := [71, 78].foldl (fun d n => if d.domOn n then d.domainOff n else d) d
    (((d.freeImage.startNext 256).wantDomain 76).openPort 0).openPort 1

/-! ### Image failures (R312, R324, R384) -/

/-- The subcode field of a slot. -/
def subField (b : Bool) : Field := if b then F.LD_STATUS_SUB_B else F.LD_STATUS_SUB_A

/-- The slot in use is B. -/
def Dev.slotB (d : Dev) : Bool := d.on F.LD_STATUS_SLOT

/-- IMGFAIL of the slot in use with its subcode, section and DETAIL. -/
def Dev.imgFail (d : Dev) (sub sect detail : Nat) : Dev :=
  (((d.wr (subField d.slotB) sub).wr F.LD_STATUS_SECT sect).wr F.LD_STATUS_DETAIL detail).cause causeIMGFAIL
    { sub := sub, ao := true }

/-! ### Alarms (R306, R320 to R324) -/

/-- Alarm sources by their position in ERASED. -/
def almLID : Nat := 4
def almVOLT : Nat := 5
def almCLOCK : Nat := 6
def almTEMP : Nat := 7
def almJTAG : Nat := 8
def almDECOM : Nat := 9

/-- ALM_CFG as it acts: in LOCKED the enable and class bits of LID, VOLT and CLOCK are 1 (R321). -/
def Dev.almWord (d : Dev) : Word32 := d.word A.ALM_CFG ||| (if d.lc = 2 then 0x00700700#32 else 0)

/-- Enable and class of a source; JTAG and DECOM are always enabled and of class erase. -/
def Dev.almEnabled (d : Dev) (src : Nat) : Bool :=
  if src < 4 then d.almWord.getLsbD src else if src < 8 then d.almWord.getLsbD (src + 4) else true
def Dev.almErases (d : Dev) (src : Nat) : Bool :=
  if src < 4 then d.almWord.getLsbD (12 + src) else if src < 8 then d.almWord.getLsbD (16 + src) else true

/-- Record commands under way end BUSY (R324). -/
def Dev.endRecords (d : Dev) : Dev :=
  { d.sa.foldl (fun d e => (d.saRes e.1 saBUSY).wr (F.SA_CMD_BUSYST e.1) 0) d with sa := [] }

/-- An OTP command in progress stops at the word being programmed (R311; what it leaves, also at a reset, is log entry 25). -/
def Dev.cutOtp (d : Dev) : Dev :=
  match d.root.cmd with
  | none => d
  | some (_, _ + 1) => d
  | some (op, 0) =>
    let o := d.root.otp
    let x := Config.otpCut d.draws
    let o := match op with
      | 1 => { o with ownBroken := true }
      | 2 => o.programGroup 2
      | 3 => { o with svnBits := raiseBits (o.svn + x.toNat % (d.rd F.RT_STATUS_IMGSVN - o.svn + 1)) 128 o.svnBits }
      | _ => if x.getLsbD 0 then { o with dus := BitVec.allOnes 256 }.programGroup 3 else { o with dus := x }
    let d := if o.lc ≠ d.root.otp.lc then d.wr F.RT_STATUS_LCPEND 1 else d
    { d with draws := d.draws + 1, root := { d.root with otp := o, cmd := some (op, 5) } }

/-- The key erase of an alarm (R306, R266). -/
def Dev.alarmErase (d : Dev) : Dev :=
  let d := d.eraseKeys (fun _ => true)
  let att := match d.root.attest with
    | a :: l => { a with abandoned := true } :: l
    | [] => []
  let d := { d with assoc := [], root := { d.root with pwk := [], memKey := (0, 0), keyed := false, attest := att } }
  let d := (List.range 17).foldl Dev.zeroStaging d.endRecords
  let d := if d.domOn 70 then d.raise F.CI_STATUS_ALMERASE else d
  let d := d.dropAllDeep
  if d.domOn 76 then d.raise F.CV_STATUS_DQERASE else d

/-- Both classes record ALARM and count (R322). -/
def Dev.countAlarm (d : Dev) : Dev :=
  { d with root := { d.root with alarms := min 65535 (d.root.alarms + 1) } }.cause causeALARM { ao := true }

/-- An image being read or verified is abandoned (R324, R397); in the recovery state none is any more. -/
def Dev.dropImage (d : Dev) : Dev := if d.rstate = 0 ∧ (d.lstate = 2 ∨ d.lstate = 3) then d.imgFail 4 0 0 else d

/-- An alarm of class erase (R322). -/
def Dev.eraseAlarm (d : Dev) (src : Nat) : Dev :=
  let d := { d.cutOtp.alarmErase with alarmed := true }
  ((d.wr ⟨A.ALM_SRC, src, 1⟩ 1).countAlarm.dropImage).enterRecovery

/-- An alarm of class report (R322, R365). -/
def Dev.reportAlarm (d : Dev) (src : Nat) : Dev :=
  (d.wr ⟨A.ALM_SRC, 16 + src, 1⟩ 1).countAlarm.notice { cls := 3, code := src }

/-- A source has detected its condition (R320, R321). -/
def Dev.alarm (d : Dev) (src : Nat) : Dev :=
  if !d.almEnabled src then d else if d.almErases src then d.eraseAlarm src else d.reportAlarm src

/-- Input TAMP[i] is enabled and at its active level. -/
def Dev.tampActive (d : Dev) (i : Nat) : Bool :=
  d.almEnabled i && ((d.root.tampLevel / 2 ^ i % 2 == 1) == d.almWord.getLsbD (4 + i))

/-- The alarms of the inputs that are active in `d` and were not in `was`. -/
def Dev.newTamps (was d : Dev) : Dev :=
  (List.range 4).foldl (fun x i => if d.tampActive i ∧ !was.tampActive i then x.alarm i else x) d

/-- A level of TAMP[i]. -/
def Dev.setTamp (d : Dev) (i : Nat) (level : Bool) : Dev :=
  { d with root := { d.root with
      tampLevel := d.root.tampLevel - d.root.tampLevel / 2 ^ i % 2 * 2 ^ i + (if level then 2 ^ i else 0) } }

/-- TAMP (R320). -/
def execTamp (t : Nat) (i : Fin 4) (level : Bool) (s : State) : Host.Outcome State Fault Refusal :=
  s.run t (fun d => d.newTamps (d.setTamp i.val level))

/-- LID (R320). -/
def execLid (t : Nat) (s : State) : Host.Outcome State Fault Refusal := s.run t (fun d => d.alarm almLID)

/-- VOLT (R320): the monitors are armed when the image loader begins. -/
def execVolt (t : Nat) (s : State) : Host.Outcome State Fault Refusal :=
  s.run t (fun d => if d.root.armed then d.alarm almVOLT else d)

/-- TEMP (R320). -/
def execTemp (t : Nat) (s : State) : Host.Outcome State Fault Refusal :=
  s.run t (fun d => if d.root.armed then d.alarm almTEMP else d)

/-- REFCLK_SYS is lost (R14, R323): mains time enters holdover, and an alarm of class erase switches off at once the domains
whose clocks have stopped. -/
def Dev.refclkLost (d : Dev) : Dev :=
  if !d.mains.refclk then d
  else
    let d := { d with mains := { d.mains with refclk := false } }
    let d := if d.mst = mtLOCKED ∨ d.mst = mtSLEW then d.mainsHold else d
    let erases : Bool := d.almEnabled almCLOCK && d.almErases almCLOCK
    let d := if erases then [70, 71, 78].foldl (fun d n => if d.domOn n then d.domainOff n else d) d else d
    d.alarm almCLOCK

/-- CLOCK (R320, R323): REFCLK_SYS absent, or more than 2 % from 100 MHz. -/
def execClock (t : Nat) (absent : Bool) (s : State) : Host.Outcome State Fault Refusal :=
  s.run t (fun d => if absent then d.refclkLost else d.alarm almCLOCK)

/-- REFCLK_SYS_LOSS (R14). -/
def execRefclkSysLoss (t : Nat) (s : State) : Host.Outcome State Fault Refusal := s.run t Dev.refclkLost

/-- The root holds a key: the page and memory keys, or the identity key (R314, R326). -/
def Dev.holdsKey (d : Dev) : Bool := d.root.keyed || d.root.identity

/-- JTAG (R326): in LOCKED and DECOMMISSIONED the TAP is held in Test-Logic-Reset, and in MANUFACTURE it is open. -/
def execJtag (t : Nat) (s : State) : Host.Outcome State Fault Refusal :=
  s.run t (fun d => if d.lc = 1 ∧ d.holdsKey then d.eraseAlarm almJTAG else d)

/-- ALM_CFG takes a word unless it is locked; in LOCKED the enable and class bits of LID, VOLT and CLOCK ignore it (R321). -/
def Dev.writeAlmCfg (d : Dev) (v : Word32) : Bool × Dev :=
  let kept : Word32 := if d.lc = 2 then 0x00700700#32 else 0
  if d.on F.ALM_CFG_ALMLOCK then (false, d)
  else (true, d.newTamps (d.setWord A.ALM_CFG ((v &&& 0x80F0FFFF#32 &&& ~~~kept) ||| (d.word A.ALM_CFG &&& kept))))

/-- ALMLOCK (R321). -/
def execAlmlock (t : Nat) (s : State) : Host.Outcome State Fault Refusal :=
  s.runClk t (fun d => (d.writeAlmCfg (d.word A.ALM_CFG ||| 0x80000000#32)).2)

/-! ### Lifecycle and OTP commands (R309 to R311, R313) -/

/-- Results of RT_CMD. -/
def rtPERM : Nat := 1
def rtSTATE : Nat := 2
def rtCONFIRM : Nat := 3
def rtBUSY : Nat := 4
def rtNOIMG : Nat := 6
def rtBADOP : Nat := 7

/-- The check of an OP in the present state (R310): the result, 0 where the command runs. -/
def Dev.rtCheck (d : Dev) (op : Nat) : Nat :=
  if op = 0 ∨ 4 < op then rtBADOP
  else if d.word A.RT_CONFIRM ≠ BitVec.ofNat 32 (0x4C430000 + op) then rtCONFIRM
  else if d.lc ≠ 1 ∧ (d.lc ≠ 2 ∨ op ≤ 2) then rtSTATE
  else if op = 1 ∧ d.on F.RT_STATUS_OWNKEY then rtSTATE
  else if op = 2 ∧ !d.on F.RT_STATUS_OWNIMG then rtNOIMG
  else 0

/-- RES of RT_CMD; RT_CONFIRM is zeroed after every command. -/
def Dev.rtRes (d : Dev) (res : Nat) : Dev := (d.wr F.RT_CMD_RES res).setWord A.RT_CONFIRM 0

/-- A write of RT_CMD by `w` (R310); DECOMMISSION raises its alarm first. -/
def Dev.rtCmd (d : Dev) (w : Writer) (op : Nat) : Dev :=
  if !d.mayGovern w then d.rtRes rtPERM
  else if d.root.cmd.isSome then d.rtRes rtBUSY
  else
    let r := d.rtCheck op
    if r ≠ 0 then d.rtRes r
    else
      let d := if op = 4 then d.eraseAlarm almDECOM else d
      { d.wr F.RT_CMD_BUSY 1 with root := { d.root with cmd := some (op, 0) } }

/-- The hash in RT_HASH0 to RT_HASH7. -/
def Dev.rtHash (d : Dev) : BitVec 256 :=
  (List.range 8).foldl (fun k n => (k <<< 32) ||| ((d.word (A.RT_HASH n)).setWidth 256)) 0

/-- What a command programs; a change of lifecycle awaits the next reset (R310, R313, R399). -/
def Dev.rtEffect (d : Dev) (op : Nat) : Dev :=
  let o := d.root.otp
  let put := fun (o : Otp) => { d with root := { d.root with otp := o } }
  match op with
  | 1 => (put { o with vkhO := d.rtHash }).wr F.RT_STATUS_OWNKEY (if d.rtHash = 0 then 0 else 1)
  | 2 => (put (o.programGroup 2)).wr F.RT_STATUS_LCPEND 1
  | 3 =>
    let o := { o with svnBits := raiseBits (d.rd F.RT_STATUS_IMGSVN) 128 o.svnBits }
    (put o).wr F.RT_STATUS_SVNCTR o.svn
  | _ => (put ({ o with dus := BitVec.allOnes 256 }.programGroup 3)).wr F.RT_STATUS_LCPEND 1

/-- An OTP command ends (R310, R311). -/
def Dev.otpDone (d : Dev) : Dev :=
  match d.root.cmd with
  | none => d
  | some (op, res) =>
    let d := if res = 0 then d.rtEffect op else d
    { (d.rtRes res).wr F.RT_CMD_BUSY 0 with root := { d.root with cmd := none } }

/-- OTP_COMMAND_DONE (R310). -/
def execOtpCommandDone (t : Nat) (s : State) : Host.Outcome State Fault Refusal := s.run t Dev.otpDone

/-- OWNKEY_SET (R310). -/
def execOwnkeySet (t : Nat) (w : Writer) (s : State) : Host.Outcome State Fault Refusal := s.runClk t (fun d => d.rtCmd w 1)

/-- LOCK (R310). -/
def execLock (t : Nat) (w : Writer) (s : State) : Host.Outcome State Fault Refusal := s.runClk t (fun d => d.rtCmd w 2)

/-- SVN_COMMIT (R310, R313). -/
def execSvnCommit (t : Nat) (w : Writer) (s : State) : Host.Outcome State Fault Refusal := s.runClk t (fun d => d.rtCmd w 3)

/-- DECOMMISSION (R310). -/
def execDecommission (t : Nat) (w : Writer) (s : State) : Host.Outcome State Fault Refusal := s.runClk t (fun d => d.rtCmd w 4)

/-! ### Identity (R309, R314) -/

/-- The identity exists in the lifecycle states from PROVISIONED to LOCKED. -/
def Dev.hasIdentity (d : Dev) : Bool := d.lc == 1 || d.lc == 2

/-- The seed xi = sha3-256("CHIALE-ID1" || DUS || SERIAL). -/
def Dev.identitySeed (d : Dev) : BitVec 256 :=
  sha3_256 ([0x43#8, 0x48#8, 0x49#8, 0x41#8, 0x4C#8, 0x45#8, 0x2D#8, 0x49#8, 0x44#8, 0x31#8] ++
    octetsBE 32 d.root.otp.dus.toNat ++ octetsBE 8 d.root.otp.serial.toNat)

/-- The 1,312 octets of the public key that KeyGen_internal gives for a seed. -/
def seedKey (seed : BitVec 256) : List Byte := fitTo 1312 (mlKeyGen (keyOctets seed)).publicKey

/-- The public key of the identity of this start. -/
def Dev.identityPk (d : Dev) : List Byte := seedKey d.root.idSeed

/-- DEVID: octets 0 to 15 of SHA3-256 of the public key. -/
def Dev.devid (d : Dev) : BitVec 128 := (sha3_256 (seedKey d.identitySeed)).extractLsb' 128 128

/-- IDENTITY_READY (R314). -/
def execIdentityReady (t : Nat) (s : State) : Host.Outcome State Fault Refusal :=
  s.run t (fun d =>
    if d.hasIdentity ∧ !d.root.identity then
      let id := d.devid
      let d := (List.range 4).foldl (fun d i => d.setWord (A.RT_DEVID i) ((id >>> (96 - 32 * i)).setWidth 32)) d
      { d with root := { d.root with identity := true, idSeed := d.identitySeed } }
    else d)

/-! ### Entropy (R317 to R319, R453) -/

/-- The entropy state moves, and masked operation with it (R299). -/
def Dev.entropyTo (d : Dev) (st : Nat) : Dev := ((d.wr F.ENT_STATUS_ESTATE st).wr F.RT_STATUS_ESTATE st).remask

/-- One raw bit under both tests, and whether it fails the repetition count test with cutoff 41 and the adaptive proportion test
over 1,024 bits with cutoff 800; a window that fails ends there (R317; log entry 165). -/
def RawTests.bit (m : RawTests) (b : Bool) : RawTests × Bool × Bool :=
  let run := if m.last = some b then m.run + 1 else 1
  let hits := if m.pos = 0 then 1 else if b = m.sample then m.hits + 1 else m.hits
  let rct := decide (41 ≤ run)
  let apt := decide (800 ≤ hits)
  ({ last := some b, run := run, pos := if apt then 0 else (m.pos + 1) % 1024, sample := if m.pos = 0 then b else m.sample,
     hits := hits, good := if rct ∨ apt then 0 else m.good + 1 }, rct, apt)

/-- Raw bits under both tests, with the failures of each. -/
def RawTests.bits (m : RawTests) (l : List Bool) : RawTests × Nat × Nat :=
  l.foldl (fun r b =>
    let x := r.1.bit b
    (x.1, r.2.1 + (if x.2.1 then 1 else 0), r.2.2 + (if x.2.2 then 1 else 0))) (m, 0, 0)

/-- The tests stand after raw bits, of which the last 2,048 stay for the conditioner; failures count in every entropy state (R317,
R453). -/
def Dev.countTests (d : Dev) (bits : List Bool) (r : RawTests × Nat × Nat) : Dev :=
  let raw := d.root.raw ++ bits
  ({ d with root := { d.root with tests := r.1, raw := raw.drop (raw.length - 2048) } }.inc F.ENT_STATUS_RCTFAIL r.2.1).inc F.ENT_STATUS_APTFAIL r.2.2

/-- Raw bits as octets, the first bit lowest (FIPS 202). -/
def rawOctets (l : List Bool) : List Byte :=
  (chunks 8 l.length l).map (fun c => BitVec.ofNat 8 (c.foldr (fun b n => 2 * n + (if b then 1 else 0)) 0))

/-- The conditioner: SHA3-256 over 1,024 raw bits gives 256 bits of full entropy; 384 bits of the last 2,048 (R317, R318; log entry
189). -/
def conditioned (raw : List Bool) : List Byte :=
  ((chunks 1024 2 raw).flatMap (fun b => octetsBE 32 (sha3_256 (rawOctets b)).toNat)).take 48

/-- The DRBG is instantiated from conditioned entropy, SERIAL its personalisation string, or reseeded (R318). -/
def Dev.seedDrbg (d : Dev) : Dev :=
  let s := match d.root.drbg with
    | some s => s.reseed (conditioned d.root.raw)
    | none => Drbg.instantiate (conditioned d.root.raw) (octetsBE 8 d.root.otp.serial.toNat)
  { d with root := { d.root with drbg := some s, raw := [], generates := 0, seeded := d.now } }

/-- The page wrapping keys and the memory key pair are drawn (R279). -/
def Dev.drawKeys (d : Dev) : Dev :=
  let d := (List.range 16).foldl Dev.drawPageKey d
  let (a, d) := d.drawKey
  let (b, d) := d.drawKey
  { d with root := { d.root with memKey := (a, b), keyed := true } }

/-- ESTATE becomes TRUSTED; at the first time of a start the keys are drawn (R279, R318). -/
def Dev.entropyTrusted (d : Dev) : Dev :=
  let first : Bool := d.root.drbg.isNone
  let d := ({ d.seedDrbg with root := { d.seedDrbg.root with passes := 0 } }).entropyTo 1
  if first ∧ !d.alarmed then d.drawKeys else d

/-- ENTROPY_FAILURE (R317, R319, R453): raw bits come to continuous testing; a failure in TRUSTED ends it, and during the start-up
test and in FAILED it counts only. -/
def execEntropyFailure (t : Nat) (bits : List Bool) (s : State) : Host.Outcome State Fault Refusal :=
  s.run t (fun d =>
    let r := d.root.tests.bits bits
    let d := d.countTests bits r
    if d.estate = 1 ∧ 0 < r.2.1 + r.2.2 then
      let d := { d with root := { d.root with passes := 0 } }.entropyTo 2
      (d.cause causeENTFAIL { ao := true }).notice { cls := 9, code := 1 }
    else d)

/-- A rerun of the start-up test in FAILED on raw bits: it passes when 4,096 bits in a row have passed both tests, and three
passes in a row return to TRUSTED (R317, R319). -/
def Dev.retest (d : Dev) (bits : List Bool) : Dev :=
  let r := ({} : RawTests).bits bits
  if d.estate ≠ 2 then d
  else
  let d := d.countTests bits r
  if 0 < r.2.1 + r.2.2 then { d with root := { d.root with passes := 0 } }
  else if r.1.good < 4096 then d
  else if d.root.passes + 1 < 3 then { d with root := { d.root with passes := d.root.passes + 1 } }
  else d.entropyTrusted

/-- ENTROPY_START_TIMEOUT (R319). -/
def execEntropyStartTimeout (t : Nat) (s : State) : Host.Outcome State Fault Refusal :=
  s.run t (fun d =>
    if d.estate = 0 ∧ d.loader.released + 1000000000 ≤ d.now ∧ d.rstate = 0 then
      (d.cause causeENTFAIL { ao := true }).enterRecovery
    else d)

/-- DRBG_RESEED (R318): after 2^20 generate requests or 10 s. -/
def execDrbgReseed (t : Nat) (s : State) : Host.Outcome State Fault Refusal :=
  s.run t (fun d =>
    if d.root.drbg.isSome ∧ d.estate = 1 ∧ (2 ^ 20 ≤ d.root.generates ∨ d.root.seeded + 10000000000 ≤ d.now) then d.seedDrbg else d)

end Sys2Proof.Machine
end

