-- ==== Sys2Proof/Machine/Regs.lean ====
section
/-! DEFINITION. Accesses to the register space (R5, R6, R302, R361, R363, R419 to R425): who reaches what, the write guards of
each block, the fields that a read computes, and the side effects of reads. -/

namespace Sys2Proof.Machine

open Sys2Proof

/-! ### Results (R361) -/

def rgOK : Nat := 0
def rgPERM : Nat := 1
def rgREFUSED : Nat := 2
def rgBADADDR : Nat := 3
def rgBUSY : Nat := 4
def rgSTATE : Nat := 8

/-! ### Principals and reach (R301, R302, R347, R360, R363, R388) -/

/-- The principal of a writer, its session number, and whether it writes every register: the loader, or the session that
holds ADMIN_LOCK.  Principal 17 stands for the loader. -/
def Dev.principal (d : Dev) (w : Writer) : Option (Nat × Nat × Bool) :=
  match w with
  | .loader => some (17, 0, true)
  | .v1 p => some (p.val, 0, false)
  | .session n =>
    match d.sessions.find? (fun s => s.num == n.val && s.confirmed) with
    | some s => some (s.prin, n.val, s.prin == 16 && d.holder == n.val)
    | none => none

/-- Page of an address in a page block, and its offset there. -/
def pageOf (a : Nat) : Option (Nat × Nat) :=
  if 0x2100000 ≤ a ∧ a < 0x2200000 then some ((a - 0x2100000) / 0x10000, a % 0x10000) else none

/-- Shadow slot of an address (R231). -/
def slotOf (a : Nat) : Option Nat :=
  if 0x5000 ≤ a ∧ a < 0x5440 then some ((a - 0x5000) / 0x40)
  else if 0x5800 ≤ a ∧ a < 0x5844 then some ((a - 0x5800) / 4) else none

/-- Queue of a queue register (R269). -/
def queueOf (a : Nat) : Option QueueId :=
  if A.QS_CFG 0 ≤ a ∧ a < A.QS_CFG 8192 then some (.shallow (Fin.ofNat _ ((a - A.QS_CFG 0) / 16)))
  else if A.QD_BASE 0 ≤ a ∧ a < A.QD_BASE 1024 then some (.deep (Fin.ofNat _ ((a - A.QD_BASE 0) / 32)))
  else none

/-- TENANT of a queue. -/
def Dev.queueTenant (d : Dev) : QueueId → Nat
  | .shallow q => d.rd (F.QS_OWN_TENANT q.val)
  | .deep q => d.rd (F.QD_BASE_TENANT q.val)

/-- Registers of a page that its session reaches: every one but, for writes, PG_CNTEN. -/
def pageReach (p a : Nat) (write : Bool) : Bool :=
  match pageOf a with
  | some (q, o) => q == p && !(write && o == 0x230)
  | none => slotOf a == some p || a == A.CV_CMD

/-- A page grants a counter (R376, R377). -/
def Dev.grants (d : Dev) (p c : Nat) : Bool := d.on (F.CNT_CTL_PGV c) && d.rd (F.CNT_CTL_OWNPG c) == p && d.on (F.PG_CNTEN_CNTEN p)

/-- A page session reads an address: what it writes, its own entries, queues and counters, and the capture set. -/
def Dev.pageReads (d : Dev) (p a : Nat) : Bool :=
  pageReach p a false ||
  (decide (0x1000000 ≤ a) && decide (a < 0x1800000) && d.rd (N.TENANT ((a - 0x1000000) / 64)) == p) ||
  (match queueOf a with | some q => d.queueTenant q == p | none => false) ||
  (decide (A.CNT_RD 0 ≤ a) && decide (a < A.CNT_RD 2048) && d.grants p ((a - A.CNT_RD 0) / 4)) ||
  (decide (A.CAP_VHI ≤ a) && decide (a ≤ A.CAP_MGRN))

/-- A refused write leaves its mark: HEDGEV, GVREJ with PERM in a command register, PERM in RT_CMD (R302, R310, R347). -/
def Dev.denied (d : Dev) (a : Nat) : Dev :=
  let d := d.hedge
  let d := if blkGv ≤ a ∧ a < blkMt then d.gvRej else d
  if a = A.GV_CHCMD then d.wr F.GV_CHCMD_RES 2
  else if a = A.GV_PDCMD then d.wr F.GV_PDCMD_RES 2
  else if a = A.RT_CMD then d.rtRes rtPERM
  else d

/-! ### Plain storage (R5, R6) -/

/-- A write under the access codes alone: RW fields take the value, a 1 clears a W1C bit, every other field keeps its own. -/
def storeWord (r : RegRow) (old v : Word32) : Word32 :=
  let rw := BitVec.ofNat 32 r.rw
  let w1c := BitVec.ofNat 32 r.w1c
  (old &&& ~~~rw &&& ~~~(w1c &&& v)) ||| (v &&& rw)

/-- The cycle of an instant in the domain of a register: AOCLK in PD_AON, else CCLK (R12). -/
def regCycle (a t : Nat) : Nat := if regDomain a = 79 then t / 4 else t * 5 / 4

/-- The fields of a register that hardware has set in the present cycle of its domain. -/
def Dev.hwSet (d : Dev) (a : Nat) : Word32 :=
  (d.hw.filter (fun u => u.addr == a && decide (regCycle a u.ns = regCycle a d.now))).foldl
    (fun w u => putBits w u.lo u.width (2 ^ u.width - 1)) 0

/-- A write under the access codes; a W1C bit that hardware sets in the cycle of its clearing write stays set (R423). -/
def Dev.store (d : Dev) (a : Nat) (r : RegRow) (v : Word32) : Dev :=
  d.setWord a (storeWord r (d.word a) v ||| (d.word a &&& BitVec.ofNat 32 r.w1c &&& d.hwSet a))

/-- Accepted, or ignored under the register's own rule. -/
def accept (d : Dev) : Nat × Dev := (rgOK, d)
def refuse (d : Dev) : Nat × Dev := (rgREFUSED, d)

/-- Store where `ok` holds; else the write is ignored and `mark` sets the block's flag. -/
def Dev.storeIf (d : Dev) (ok : Bool) (mark : Dev → Dev) (a : Nat) (r : RegRow) (v : Word32) : Nat × Dev :=
  if ok then accept (d.store a r v) else refuse (mark d)

/-! ### Write guards by block -/

/-- FWREJ (R230, R245). -/
def Dev.fwRej (d : Dev) : Dev := d.raise F.FW_UPSTAT_FWREJ

/-- A shadow slot's registers: slot p serves sessions of page p, slot 16 the holder of ADMIN_LOCK (R231, R232). -/
def Dev.writeShadow (d : Dev) (prin slot a : Nat) (r : RegRow) (v : Word32) : Nat × Dev :=
  if slot ≠ min prin 16 ∨ prin = 17 then refuse d
  else if a < 0x5800 then accept (d.store a r v)
  else if !d.domOn 76 then refuse d
  else accept (d.slotCommand slot v)

/-- Global block: SYNC, forwarding and shadow slots (R245, R426). -/
def Dev.writeGl (d : Dev) (prin a : Nat) (r : RegRow) (v : Word32) : Nat × Dev :=
  match slotOf a with
  | some s => d.writeShadow prin s a r v
  | none =>
    if a = A.GL_CTL then accept (if v.getLsbD 0 then d.syncEvent true else d)
    else if a = A.FW_CFG then d.storeIf d.allRolesOff Dev.fwRej a r v
    else if a = A.FW_UPL then
      let v' := putBits v 0 2 (d.rd F.FW_UPL_UPMODE)
      if v' = v then accept (d.store a r v)
      else if d.allRolesOff then accept (d.store a r v).setServing
      else accept (d.store a r v').fwRej
    else if a = A.FW_PFC ∨ a = A.FW_XOFF then accept (d.store a r v).pfcRetune
    else if A.FW_SCOPE 0 ≤ a ∧ a < A.FW_SCOPE 64 then d.storeIf (d.role ((a - A.FW_SCOPE 0) / 4) == roleOFF) Dev.fwRej a r v
    else if A.FW_CHUP 0 ≤ a ∧ a < A.FW_CHUP 64 then
      let k := (a - A.FW_CHUP 0) / 4
      let prim := d.rd (F.FW_CHUP_PRIM k)
      let (res, d) := d.storeIf (d.role k == roleOFF) Dev.fwRej a r v
      (res, if d.rd (F.FW_CHUP_PRIM k) = prim ∨ d.upmode ≠ 3 then d else d.wr (F.FW_CHUP_CUR k) (d.servingNow k))
    else accept (d.store a r v)

/-- Governor (R346, R347). -/
def Dev.writeGv (d : Dev) (w : Writer) (a : Nat) (r : RegRow) (v : Word32) : Nat × Dev :=
  if a = A.GV_CHCMD then accept (d.gvChcmd w v)
  else if a = A.GV_PDCMD then accept (d.gvPdcmd w v)
  else if a = A.GV_MODE then
    let v' := putBits v 8 8 (d.rd F.GV_MODE_WIN)
    if v' = v ∨ d.allRolesOff then accept (d.store a r v) else accept (d.store a r v').gvRej
  else if A.GV_FLOOR 0 ≤ a ∧ a < A.GV_FLOOR 64 then d.storeIf (d.phase ((a - A.GV_FLOOR 0) / 4) == phOFF) Dev.gvRej a r v
  else accept (d.store a r v)

/-- Mains time and the mains-sense inputs (R46, R50, R62). -/
def Dev.writeMt (d : Dev) (a : Nat) (r : RegRow) (v : Word32) : Nat × Dev :=
  if a = A.MT_CFG then accept (d.writeMtCfg v)
  else if A.MT_OFS 0 ≤ a ∧ a < A.MT_OFS 4 then
    let n := (a - A.MT_OFS 0) / 4
    let ignored := d.on F.MT_CFG_EN && n == d.rd F.MT_CFG_REFSEL && (v &&& 0xFFFFF#32) != d.word a
    (if ignored then rgREFUSED else rgOK, d.writeMtOfs n v)
  else if A.MSNS_CFG 0 ≤ a ∧ a < A.MSNS_CFG 4 then accept (d.store a r v).checkRefcfg
  else accept (d.store a r v)

/-- SQ_PAIR is written while its home, old and new target are in role off (R223). -/
def Dev.writePair (d : Dev) (k a : Nat) (r : RegRow) (v : Word32) : Nat × Dev :=
  let off := fun (j : Nat) => d.role j == roleOFF
  d.storeIf (off k && off (d.rd (F.SQ_PAIR_TGT k)) && off (getBits v 0 6)) (fun d => d.cfgRej k) a r v

/-- A sequencer's set at offset `o` (R217, R218, R220, R223). -/
def Dev.writeSq (d : Dev) (q o a : Nat) (r : RegRow) (v : Word32) : Nat × Dev :=
  if o = 0 then accept (d.writeSqCtl q (v.getLsbD 0) (v.getLsbD 1) (v.getLsbD 2))
  else if o = 8 then
    let d' := d.writeLive q v
    (if d'.word (A.SQ_LIVE q) = (v &&& 0x1FFF1FFF#32) then rgOK else rgREFUSED, d')
  else if o = 4 ∨ o = 0x14 ∨ 0x40 ≤ o then
    let st := d.sqState q
    d.storeIf (st == sqIDLE || st == sqHALTED || st == sqFAULT) (fun d => d.raise (F.SQ_STATUS_SQBUSY q)) a r v
  else accept (d.store a r v)

/-- Registers of a channel that are written only in role off (R40, R108, R135, R161, R181). -/
def roleOffOnly (o : Nat) : Bool :=
  o == 0 || o == 4 || o == 0x200 || (decide (0x300 ≤ o) && decide (o ≤ 0x310)) || (decide (0x400 ≤ o) && decide (o ≤ 0x408)) ||
  (decide (0x500 ≤ o) && decide (o ≤ 0x510))

/-- Channel block (R40, R80, R108, R135, R223). -/
def Dev.writeCh (d : Dev) (k o a : Nat) (r : RegRow) (v : Word32) : Nat × Dev :=
  if roleOffOnly o then
    let (c, d) := d.storeIf (d.role k == roleOFF && !(o == 0 && getBits v 0 2 == 3)) (fun d => d.cfgRej k) a r v
    (c, if o = 0 then d.restGain k else d)
  else if o = 0x104 then
    let d := if v.getLsbD 0 then d.commitPalette k false else d
    accept (if v.getLsbD 1 then d.commitPalette k true else d)
  else if 0x4000 ≤ o then
    let b := decide (0x5000 ≤ o)
    if d.palIdle k b then accept ((d.store a r v).wr (loadedField k b) 0) else refuse (d.raise (F.SC_STATUS_PALBUSY k))
  else if o = 0x600 then d.writePair k a r v
  else if o = 0x604 then accept (d.writePflag k (getBits v 8 3) (getBits v 16 3))
  else if 0x680 ≤ o then d.writeSq (2 * k + (if o < 0x700 then 0 else 1)) ((o - 0x680) % 0x80) a r v
  else accept (d.store a r v)

/-- Step table and node-table window (R196, R230). -/
def Dev.writeTable (d : Dev) (loader : Bool) (a : Nat) (v : Word32) : Nat × Dev :=
  if a < 0x1000000 then
    let q := (a - 0x800000) / 0x10000
    if d.stepWritable q (a % 0x10000 / 8) then accept (d.setTable a v) else refuse d
  else if loader ∧ d.allRolesOff then accept (d.setTable a (nodeImage (a / 4 % 16) v))
  else refuse d.fwRej

/-- A write of CV_CMD by a principal (R269). -/
def Dev.writeCvCmd (d : Dev) (prin : Nat) (v : Word32) : Nat × Dev :=
  let n := getBits v 0 13
  let q : QueueId := if v.getLsbD 13 then .deep (Fin.ofNat _ n) else .shallow (Fin.ofNat _ n)
  let named : Bool := !v.getLsbD 13 || decide (n < 1024)
  let put := (d.wr F.CV_CMD_QUEUE n).wr F.CV_CMD_DEEP (getBits v 13 1)
  if prin < 16 ∧ (!named ∨ d.queueTenant q ≠ prin) then (rgPERM, (d.wr F.CV_CMD_RES 2).hedge)
  else if getBits v 16 2 ≠ 1 then accept put
  else
  let d := put
  if !named ∨ !d.queueOn q then accept (d.wr F.CV_CMD_RES 1)
  else accept ((d.flushQueue q).wr F.CV_CMD_RES 0).pfcCheck

/-- A write of QREJ's registers (R269). -/
def Dev.qRej (d : Dev) : Dev := d.raise F.CV_STATUS_QREJ

/-- QS_CFG and QS_OWN (R268, R269). -/
def Dev.writeQs (d : Dev) (q o a : Nat) (r : RegRow) (v : Word32) : Nat × Dev :=
  let en := d.on (F.QS_CFG_EN q)
  if o = 0 then
    if !en then accept (d.store a r v).pfcCheck
    else if v.getLsbD 28 then refuse d.qRej
    else accept ((d.disableShallow q).store a r v).pfcCheck
  else if o = 4 then d.storeIf (!en) Dev.qRej a r v
  else accept (d.store a r v)

/-- QD_BASE and QD_CFG (R266, R268, R269). -/
def Dev.writeQd (d : Dev) (q o a : Nat) (r : RegRow) (v : Word32) : Nat × Dev :=
  let en := d.on (F.QD_CFG_EN q)
  if o = 0 then d.storeIf (!en) Dev.qRej a r v
  else if o = 4 then
    if !en ∧ v.getLsbD 8 then
      let d' := d.enableDeep q (v &&& 0x31F#32)
      (if d'.on (F.QD_CFG_EN q) then rgOK else rgREFUSED, d'.pfcCheck)
    else if !en then accept (d.store a r v)
    else if v.getLsbD 8 then refuse d.qRej
    else accept ((d.disableDeep q).store a r v).pfcCheck
  else accept (d.store a r v)

/-- Canvas (R247, R248, R269). -/
def Dev.writeCv (d : Dev) (prin a : Nat) (r : RegRow) (v : Word32) : Nat × Dev :=
  match queueOf a with
  | some (.shallow q) => d.writeQs q.val ((a - A.QS_CFG 0) % 16) a r v
  | some (.deep q) => d.writeQd q.val ((a - A.QD_BASE 0) % 32) a r v
  | none =>
    if a = A.CV_CFG then accept (d.writeHalf1 (v.getLsbD 0)).pfcCheck
    else if a = A.CV_CMD then d.writeCvCmd prin v
    else accept (d.store a r v)

/-- The command registers of a source, at offset `o` (R285). -/
def Dev.writeSource (d : Dev) (src o a : Nat) (r : RegRow) (v : Word32) : Nat × Dev :=
  if o = 0x100 then accept (d.writeSaCmd src v)
  else if 0x120 ≤ o then accept (d.setWord a v)
  else accept (d.store a r v)

/-- Cipher block (R301, R307). -/
def Dev.writeCi (d : Dev) (sess a : Nat) (r : RegRow) (v : Word32) : Nat × Dev :=
  let o := a - blkCi
  if o = 0 then d.storeIf d.allRolesOff id a r v
  else if o = 0x20 then accept (d.writeLock sess v)
  else if 0x100 ≤ o then d.writeSource 16 o a r v
  else accept (d.store a r v)

/-- Hedged page (R303, R304). -/
def Dev.writePg (d : Dev) (p o a : Nat) (r : RegRow) (v : Word32) : Nat × Dev :=
  if o < 0x200 then d.writeSource p o a r v
  else if o = 0x200 then
    let (ok, d) := d.writeJcfg p v
    (if ok then rgOK else rgREFUSED, d)
  else if o = 0x218 then
    if !v.getLsbD 0 then accept d
    else
      let res := if 4 ≤ (d.page p).jobs.length then rgBUSY else if d.on (F.PG_JCFG_JEN p) then rgOK else rgREFUSED
      (res, d.jobGo p)
  else accept (d.store a r v)

/-- Counters (R372 to R375, R380). -/
def Dev.writeCt (d : Dev) (a : Nat) (r : RegRow) (v : Word32) : Nat × Dev :=
  let o := a - blkCt
  if o < 0x8000 then
    match o % 16 with
    | 0 => accept (d.writeSetting (o / 16) 0 v)
    | 4 => accept (d.writeSetting (o / 16) 2 v)
    | 8 => accept (d.writeSetting (o / 16) 1 v)
    | _ => accept (d.store a r v)
  else if a = A.CNT_CMD then
    let d := d.store a r v
    accept (if v.getLsbD 12 then d.clearWrap (getBits v 0 11) else d)
  else if a = A.BW_CFG then accept (d.writeBwCfg v)
  else accept (d.store a r v)

/-- ETHREJ (R349). -/
def Dev.ethRej (d : Dev) (p : Nat) : Dev := d.raise (F.ETH_STATUS_ETHREJ p)

/-- Ethernet port registers (R349, R350). -/
def Dev.writeEth (d : Dev) (p o a : Nat) (r : RegRow) (v : Word32) : Nat × Dev :=
  let sq := d.on (F.ETH_CFG_SQUELCH p)
  if o = 0 then
    let set := d.store a r (v ||| 1#32)
    if sq then accept (if v.getLsbD 0 then set else set.unsquelch p)
    else if v.getLsbD 0 then accept ((d.store a r (v &&& ~~~1#32)).squelch p)
    else if storeWord r (d.word a) v = d.word a then accept d
    else refuse (d.ethRej p)
  else if o = 4 then d.storeIf sq (fun d => d.ethRej p) a r v
  else accept (d.store a r v)

/-- Key registers of management: a record serves one principal (R355). -/
def Dev.keyTaken (d : Dev) (prin sa : Nat) : Bool := (List.range 17).any (fun p => p != prin && d.keyNamed p == some sa)

/-- Management and fault registers (R355, R367). -/
def Dev.writeMg (d : Dev) (a : Nat) (r : RegRow) (v : Word32) : Nat × Dev :=
  let o := a - blkEth
  let prin := if o = 0x1004 then some 16 else if 0x1040 ≤ o ∧ o < 0x1080 then some ((o - 0x1040) / 4) else none
  match prin with
  | some p => d.storeIf (!(v.getLsbD 17 && d.keyTaken p (getBits v 0 17))) id a r v
  | none => accept (d.store a r v)

/-- Chiale root (R310, R321). -/
def Dev.writeRt (d : Dev) (w : Writer) (a : Nat) (r : RegRow) (v : Word32) : Nat × Dev :=
  let o := a - blkRt
  if o = 0x20 then accept (d.rtCmd w (getBits v 0 4))
  else if o = 0x24 ∨ (0x40 ≤ o ∧ o < 0x60) then accept (d.setWord a v)
  else if o = 0x100 then
    let (ok, d) := d.writeAlmCfg v
    (if ok then rgOK else rgREFUSED, d)
  else accept (d.store a r v)

/-- A write that has passed the checks of reach, address and domain. -/
def Dev.blockWrite (d : Dev) (w : Writer) (prin sess a : Nat) (r : RegRow) (v : Word32) : Nat × Dev :=
  if a < blkGv then d.writeGl prin a r v
  else if a < blkMt then d.writeGv w a r v
  else if a < 0x100000 then d.writeMt a r v
  else if a < 0x800000 then d.writeCh ((a - 0x100000) / 0x10000) (a % 0x10000) a r v
  else if a < blkCv then d.writeTable (prin == 17) a v
  else if a < blkCi then d.writeCv prin a r v
  else if a < 0x2100000 then d.writeCi sess a r v
  else if a < blkCt then d.writePg ((a - 0x2100000) / 0x10000) (a % 0x10000) a r v
  else if a < blkEth then d.writeCt a r v
  else if a < blkEth + 0x200 then d.writeEth ((a - blkEth) / 0x100) (a % 0x100) a r v
  else if a < blkHb then d.writeMg a r v
  else if a < blkRt then accept (d.store a r v)
  else if a < blkLd then d.writeRt w a r v
  else accept (d.store a r v)

/-- The held upper word of a principal is discarded by any other access (R424). -/
def Dev.dropHold (d : Dev) (prin : Nat) : Dev := { d with hold64 := Tab.del d.hold64 prin }

/-- A register write by `w` (R361, R363, R420, R421): the result code and the device after it. -/
def Dev.regWrite (d : Dev) (w : Writer) (a : Nat) (v : Word32) : Nat × Dev :=
  match d.principal w with
  | none => (rgPERM, d)
  | some (prin, sess, all) =>
    let d := d.dropHold prin
    let all := all && (prin == 17 || d.lapseLock.holder == sess)
    let reach : Bool := all || (prin == 16 && a == A.ADMIN_LOCK) || (decide (prin < 16) && pageReach prin a true)
    if !reach then (rgPERM, d.denied a)
    else match rowAt a with
      | none => (rgBADADDR, d)
      | some r =>
        if !d.domOn (regDomain a) then (rgSTATE, d) else d.blockWrite w prin sess a r v

/-- REGISTER_WRITE (R5): the register bus runs on MCLK, which stops without REFCLK_SYS (R12, R14). -/
def execRegisterWrite (t : Nat) (w : Writer) (addr : Nat) (v : Word32) (s : State) : Host.Outcome State Fault Refusal :=
  s.runClk t (fun d => (d.regWrite w addr v).2)

/-- MT_CFG_WRITE (R62). -/
def execMtCfgWrite (t : Nat) (w : Writer) (v : Word32) (s : State) : Host.Outcome State Fault Refusal :=
  s.runClk t (fun d => (d.regWrite w A.MT_CFG v).2)

/-! ### Reads -/

/-- Instants of the receive outputs that carry SETL now (R88). -/
def Dev.settling (d : Dev) (k : Nat) : Bool :=
  decide (d.gdelayRx k ≤ d.now) && d.setl k (d.now - d.gdelayRx k)

/-- Frequency of the current record in units of 2^−16 Hz (R63; its rounding is log entry 10). -/
def Dev.freq (d : Dev) : Nat :=
  if d.timeRuns ∧ d.mains.cur.l ≠ 0 then (roundQuotient (10 ^ 9 * 2 ^ 20) d.mains.cur.l).toNat else 0

/-- Lease left in ms (R301; its rounding is log entry 10). -/
def Dev.leaseLeft (d : Dev) : Nat :=
  match d.leaseEnd with
  | some x => (roundQuotient ((x - d.now : Nat) : Int) 1000000).toNat
  | none => 0

/-- A word with a computed field put in. -/
def overlay (w : Word32) (f : Field) (v : Nat) : Word32 := putBits w f.lo f.width v

/-- The words of the oldest completion record of a page; reading an empty ring gives 0 (R305, R307). -/
def Dev.jobWord (d : Dev) (p i : Nat) : Word32 :=
  match (d.page p).ring.head? with
  | none => 0
  | some r => BitVec.ofNat 32 (match i with | 0 => r.id + 2 ^ 16 * r.status | 1 => r.outlen | 2 => r.ctr | _ => r.ctr / 2 ^ 32)

/-- Registers of the canvas as they read. -/
def Dev.viewCv (d : Dev) (a : Nat) (w : Word32) : Word32 :=
  match queueOf a with
  | some (.shallow q) =>
    let s := d.sh q.val
    match (a - A.QS_CFG 0) % 16 with
    | 4 => overlay w (F.QS_OWN_CELLS 0) s.cells.length
    | 8 => overlay w (F.QS_DEPTH_DEPTH 0) s.depth
    | 12 =>
      overlay (overlay (overlay w (F.QS_STAT_ITEMS 0) s.complete) (F.QS_STAT_PRODOPEN 0) (phN s.openTail)) (F.QS_STAT_CONSOPEN 0)
        (phN s.taking)
    | _ => w
  | some (.deep q) =>
    if (a - A.QD_BASE 0) % 32 = 0x1C then
      overlay (overlay w (F.QD_STAT_PRODOPEN 0) (phN (d.dq q.val).openTail)) (F.QD_STAT_ITEMS 0) (min 65535 (d.deepItems q.val))
    else w
  | none =>
    if a = A.CV_FREE then overlay w F.CV_FREE_FREE d.freeCells
    else if a = A.CV_UPPER then overlay w F.CV_UPPER_UPPER d.upperHeld
    else w

/-- Registers of the cipher and page blocks as they read. -/
def Dev.viewCi (d : Dev) (a : Nat) (w : Word32) : Word32 :=
  match pageOf a with
  | some (p, o) =>
    if o = 0x21C then overlay (overlay w (F.PG_JSTAT_OUTST 0) (d.page p).jobs.length) (F.PG_JSTAT_JRING 0) (d.page p).ring.length
    else if 0x220 ≤ o ∧ o ≤ 0x22C then d.jobWord p ((o - 0x220) / 4)
    else w
  | none =>
    if a = A.KC_STAT then
      overlay (overlay w F.KC_STAT_RESIDENT d.cache.length) F.KC_STAT_PINNED
        ((d.cache.filter (fun k => d.pinned k || d.bound k)).length)
    else if a = A.ADMIN_LOCK then overlay w F.ADMIN_LOCK_LEFT d.leaseLeft
    else w

/-- Registers of the counters as they read, to a reader. -/
def Dev.viewCt (d : Dev) (reader a : Nat) (w : Word32) : Word32 :=
  let o := a - blkCt
  if o < 0x8000 then
    let c := d.counter (o / 16)
    if o % 16 = 12 then overlay (overlay w (F.CNT_STAT_PEND 0) (phN c.pend.isSome)) (F.CNT_STAT_WRAP 0) (phN (d.wrapOf (o / 16))) else w
  else if 0x20000 ≤ o ∧ o ≤ 0x20010 then (Tab.get {} d.captures reader).word ((o - 0x20000) / 4)
  else w

/-- Registers of a channel as they read. -/
def Dev.viewCh (d : Dev) (a : Nat) (w : Word32) : Word32 :=
  let k := (a - 0x100000) / 0x10000
  if a % 0x10000 = 0x100 then overlay w (F.SC_STATUS_SETTLING 0) (phN (d.settling k))
  else if a % 0x10000 = 0x110 then overlay w (F.SC_FADE_FADE_POS 0) (d.fadePos k)
  else w

/-- The word that a read of a mapped register returns before its side effect; WO fields read 0 (R5). -/
def Dev.view (d : Dev) (reader a : Nat) (r : RegRow) : Word32 :=
  let w := d.word a &&& ~~~(BitVec.ofNat 32 r.wo)
  if a = A.GV_STATUS then overlay w F.GV_STATUS_DEFERRED d.deferredReqs.length
  else if A.GV_FLOOR 0 ≤ a ∧ a < A.GV_FLOOR 64 then overlay w (F.GV_FLOOR_USED 0) (d.floorUsed ((a - A.GV_FLOOR 0) / 4))
  else if a = A.MT_FREQ then overlay w F.MT_FREQ_FREQ d.freq
  else if 0x100000 ≤ a ∧ a < 0x500000 then d.viewCh a w
  else if blkCv ≤ a ∧ a < blkCi then d.viewCv a w
  else if blkCi ≤ a ∧ a < blkCt then d.viewCi a w
  else if blkCt ≤ a ∧ a < blkEth then d.viewCt reader a w
  else if a = A.MG_STATUS then overlay w F.MG_STATUS_OPEN d.sessions.length
  else if a = A.ALM_CFG then d.almWord
  else if a = A.HBM_STATUS then
    overlay (overlay w F.HBM_STATUS_TEMP0 (Config.hbmTemp 0 d.now).toNat) F.HBM_STATUS_TEMP1 (Config.hbmTemp 1 d.now).toNat
  else w

/-- Lower words of the 64-bit values that R424 latches. -/
def latched64 (a : Nat) : Bool :=
  a == A.GL_SERIAL_LO || a == A.GL_SYNC_NS_LO ||
  (decide (A.MG_V1SEQ_LO 0 ≤ a) && decide (a < A.MG_V1SEQ_LO 17) && (a - A.MG_V1SEQ_LO 0) % 8 == 0) ||
  (match pageOf a with | some (_, o) => o == 0x228 | none => false)

/-- A node-table word that fails parity reads as an unused entry and records PARITY (R224). -/
def Dev.readNode (d : Dev) (a : Nat) : Word32 × Dev :=
  let i := (a - 0x1000000) / 64
  if d.badParity.contains a then (0, d.cause causePARITY { chan := some (d.rd (N.CHAN i)) }) else (d.word a, d)

/-- The updates of a register that hardware has made in the present core cycle, newest first (R6). -/
def Dev.hwHere (d : Dev) (a : Nat) : List HwUpdate :=
  d.hw.filter (fun u => u.addr == a && decide (u.ns * 5 / 4 = d.now * 5 / 4))

/-- The word that a read returns of a register with RC fields: each as it was before the updates of the present core cycle (R6). -/
def Dev.rcValue (d : Dev) (a : Nat) (r : RegRow) (v : Word32) : Word32 :=
  let rc := BitVec.ofNat 32 r.rc
  (v &&& ~~~rc) ||| (rc &&& (d.hwHere a).foldl (fun w u => putBits w u.lo u.width u.old) v)

/-- A read clears the RC fields of a register and keeps the updates of the present core cycle, which hardware made after it (R5,
R6). -/
def Dev.rcClear (d : Dev) (a : Nat) (r : RegRow) : Dev :=
  let rc := BitVec.ofNat 32 r.rc
  let kept := (d.hwHere a).foldl (fun w u => putBits w u.lo u.width (min (getBits w u.lo u.width + u.n) (2 ^ u.width - 1))) 0#32
  { d.setWord a ((d.word a &&& ~~~rc) ||| (kept &&& rc)) with
    hw := d.hw.map (fun u => if u.addr = a then { u with old := 0 } else u) }

/-- A read of a mapped register in a domain that is on, with its side effect: RC fields clear, MT_NOW_CYC latches, CNT_RD
captures and PG_JDONE3 removes a record (R5, R63, R305, R376, R424). -/
def Dev.readMapped (d : Dev) (prin a : Nat) (r : RegRow) : Word32 × Dev :=
  let held := Tab.get (0, 0) d.hold64 prin
  let v := d.view prin a r
  let d' := d.dropHold prin
  if held.1 + 4 = a ∧ held.1 ≠ 0 then
    (held.2, match pageOf a with | some (p, _) => d'.ringPop p | none => d')
  else if a = A.MT_NOW_CYC then
    let d := d'.latchNow
    (d.word a, d)
  else if A.CNT_RD 0 ≤ a ∧ a < A.CNT_RD 2048 then d'.readCounter ((a - A.CNT_RD 0) / 4) prin
  else if 0x1000000 ≤ a ∧ a < 0x1800000 then d'.readNode a
  else if latched64 a then
    let hi := d.view prin (a + 4) r
    (v, { d' with hold64 := Tab.put d'.hold64 prin (a, hi) })
  else match pageOf a with
    | some (p, 0x22C) => (v, d'.ringPop p)
    | _ =>
      if r.rc = 0 then (v, d') else (d'.rcValue a r v, d'.rcClear a r)

/-- A register of the cipher block that only the holder of ADMIN_LOCK reaches: not of a page, nor ADMIN_LOCK or ADMIN_LEASE
(R302). -/
def cipherOnly (a : Nat) : Bool := decide (blkCi ≤ a) && decide (a < 0x2100000) && a != A.ADMIN_LOCK && a != A.ADMIN_LEASE

/-- Whether a principal reads an address, `lock` saying whether it holds ADMIN_LOCK: administration reads every register but those
of the cipher block that R302 keeps for the holder (R302, R363; log entry 87). -/
def Dev.mayRead (d : Dev) (prin a : Nat) (lock : Bool) : Bool :=
  if prin = 16 then lock || !cipherOnly a else decide (16 < prin) || d.pageReads prin a

/-- A shadow slot serves a reader: slot p the sessions of page p, slot 16 the holder of ADMIN_LOCK, which `lock` says the reader is
(R231). -/
def slotServes (prin : Nat) (lock : Bool) (slot : Nat) : Bool := if prin < 16 then slot == prin else lock && slot == 16

/-- The result that reading an address would give, without reading it (R231, R420 to R422). -/
def Dev.readCheck (d : Dev) (prin a : Nat) (lock : Bool := false) : Nat :=
  if !d.mayRead prin a lock then rgPERM
  else if (rowAt a).isNone then rgBADADDR
  else if !((slotOf a).map (slotServes prin lock)).getD true then rgREFUSED
  else if !d.domOn (regDomain a) then rgSTATE
  else rgOK

/-- A register read by a principal (R302, R363, R420, R421): result code, value and device. -/
def Dev.regRead (d : Dev) (prin a : Nat) (lock : Bool := false) : Nat × Word32 × Dev :=
  let res := d.readCheck prin a lock
  if res = rgPERM then (res, 0, (d.dropHold prin).hedge)
  else if res ≠ rgOK then (res, 0, d.dropHold prin)
  else match rowAt a with
    | none => (rgBADADDR, 0, d)
    | some r => (rgOK, (d.readMapped prin a r).1, (d.readMapped prin a r).2)

end Sys2Proof.Machine
end

