-- ==== Sys2Proof/Machine/Image.lean ====
section
/-! DEFINITION. The checks of a configuration image: layout (R385 to R391) and consistency (R392). -/

namespace Sys2Proof

open Machine

/-! ### Layout (R386 to R391) -/

/-- The checks of R386 on MAGIC, FVER and ILEN, which decide whether a slot is tried (R384). -/
def SlotHeader.ok (h : SlotHeader) : Bool :=
  h.magic == 0x424C494D#32 && (h.fver == 2 || h.fver == 3) && decide (3876 ≤ h.ilen) && decide (h.ilen ≤ 25165824)

/-- The carried public key, its SHA3-256, and the digest of the signed part (R312, R385). -/
def Image.key (img : Image) : List Byte := img.signed.drop (img.signed.length - 1312)
def Image.keyHash (img : Image) : BitVec 256 := sha3_256 img.key
def Image.digest (img : Image) : BitVec 256 := sha3_256 img.signed

/-- The signature verifies for the digest as its message (R312). -/
def Image.signatureOk (img : Image) : Bool := mlVerify img.key (octetsBE 32 img.digest.toNat) img.sig

/-- No two elements of a list are equal. -/
def Machine.distinct (l : List Nat) : Bool := l.eraseDups.length == l.length

/-- Number of sections that satisfy `p`. -/
def Image.count (img : Image) (p : SectionBody → Bool) : Nat := (img.sections.filter (fun s => p s.body)).length

/-- Position of the first section that satisfies `p`, or 0. -/
def Image.sectOf (img : Image) (p : SectionBody → Bool) : Nat :=
  let i := img.sections.findIdx (fun s => p s.body)
  if i < img.sections.length then i else 0

def SectionBody.isDomains : SectionBody → Bool | .domains _ => true | _ => false
def SectionBody.isService : SectionBody → Bool | .service _ => true | _ => false
def SectionBody.isPaths : SectionBody → Bool | .paths _ => true | _ => false
def SectionBody.isNodes : SectionBody → Bool | .nodes _ => true | _ => false
def SectionBody.isAssoc : SectionBody → Bool | .assoc _ => true | _ => false
def SectionBody.isSeqtab : SectionBody → Bool | .seqtab _ => true | _ => false
def SectionBody.isBad : SectionBody → Bool | .reserved => true | .broken => true | _ => false
def SectionBody.isLate : SectionBody → Bool | .regs true _ => true | _ => false

/-- Records of each kind over the image, in order. -/
def Image.domains (img : Image) : List Nat := img.sections.flatMap (fun s => match s.body with | .domains l => l | _ => [])
def Image.assocs (img : Image) : List AssocRecord := img.sections.flatMap (fun s => match s.body with | .assoc l => l | _ => [])
def Image.nodes (img : Image) : List (Nat × List Word32) :=
  img.sections.flatMap (fun s => match s.body with | .nodes l => l | _ => [])
def Image.seqtab (img : Image) : List (Nat × Nat × List Word64) :=
  img.sections.flatMap (fun s => match s.body with | .seqtab l => l | _ => [])
def Image.channels (img : Image) : List ChannelRecord :=
  img.sections.flatMap (fun s => match s.body with | .channel l => l | _ => [])
def Image.paths (img : Image) : List PathsRecord := img.sections.flatMap (fun s => match s.body with | .paths l => l | _ => [])
def Image.service (img : Image) : List Nat := img.sections.flatMap (fun s => match s.body with | .service l => l | _ => [])

/-- REGS records of one stage, each with its section. -/
def Image.regs (img : Image) (late : Bool) : List (Nat × Nat × Word32) :=
  img.sections.zipIdx.flatMap (fun s => match s.1.body with
    | .regs l rs => if l = late then rs.map (fun r => (s.2, r.1, r.2)) else []
    | _ => [])

/-- A section holds the record of channel `k`. -/
def SectionBody.hasChannel (k : Nat) : SectionBody → Bool
  | .channel l => l.any (fun c => c.chan == k)
  | _ => false

/-- Every offset of a CHANNEL record names a register of R342 outside its palettes, which follow the records (R390). -/
def ChannelRecord.ok (c : ChannelRecord) : Bool :=
  decide (c.chan < 64) && decide (c.role ≤ 4) && c.regs.all (fun r => recordOffset r.1 && decide (r.1 < 0x4000)) &&
  (c.palA.map (fun p => p.length == 1024)).getD true && (c.palB.map (fun p => p.length == 1024)).getD true

/-- A section lies between the section table and the key and is aligned (R387). -/
def ImageSection.placed (s : ImageSection) (nsec ilen : Nat) : Bool :=
  s.offset % 4 == 0 && s.length % 4 == 0 && decide (64 + 16 * nsec ≤ s.offset) && decide (s.offset + s.length + 3732 ≤ ilen)

/-- Two sections do not overlap. -/
def ImageSection.apart (a b : ImageSection) : Bool :=
  decide (a.offset + a.length ≤ b.offset) || decide (b.offset + b.length ≤ a.offset) || a.length == 0 || b.length == 0

/-- Section `i` obeys R387 among the sections of the image. -/
def Image.sectionOk (img : Image) (i : Nat) (s : ImageSection) : Bool :=
  s.placed img.sections.length img.header.ilen && !s.body.isBad &&
  (img.sections.take i).all (fun x => x.apart s) &&
  (match s.body with
   | .channel l => l.all ChannelRecord.ok
   | .paths l => img.header.fver == 3 && l.all (fun p => decide (1 ≤ p.rungs.length) && decide (p.rungs.length ≤ 16) &&
       decide (p.repeaters.length ≤ 256))
   | .nodes l => l.all (fun n => n.2.length == 16)
   | _ => true)

/-- FORMAT (R385 to R391): the section that breaks the layout, 0 where the header or the table as a whole does. -/
def Image.formatFails (img : Image) : Option Nat :=
  if !img.header.ok ∨ img.part ≠ 0x4064 ∨ 0xC0 < img.step ∨ img.sections = [] ∨ 64 < img.sections.length ∨ !img.octetsOk ∨
      1 < img.count SectionBody.isDomains ∨ 1 < img.count SectionBody.isService ∨
      !distinct (img.channels.map ChannelRecord.chan) ∨ !distinct (img.paths.map PathsRecord.chan) then some 0
  else (img.sections.zipIdx.find? (fun s => !img.sectionOk s.2 s.1)).map Prod.snd

/-! ### The image as the registers would hold it (R392) -/

/-- A register as a record leaves it: its RW fields take the value. -/
def Machine.putReg (d : Dev) (a : Nat) (v : Word32) : Dev :=
  match rowAt a with
  | some r => d.setWord a (storeWord r (d.word a) v)
  | none => d

/-- The words of a CHANNEL record by offset in the channel block (R390). -/
def ChannelRecord.words (c : ChannelRecord) : List (Nat × Word32) :=
  c.regs ++ ((c.palA.getD []).zipIdx.map (fun p => (0x4000 + 4 * p.2, p.1))) ++
    ((c.palB.getD []).zipIdx.map (fun p => (0x5000 + 4 * p.2, p.1)))

/-- The restore record that a CHANNEL record builds: RW fields of the registers it names, and both palettes (R342, R390). -/
def ChannelRecord.toRestore (c : ChannelRecord) : Restore :=
  let put : List (Nat × Word32) → Nat × Word32 → List (Nat × Word32) := fun t w =>
    let a := chBase c.chan + w.1
    match rowAt a with
    | some r => Tab.set (resetWord a) t w.1 (storeWord r (Tab.get (resetWord a) t w.1) w.2)
    | none => t
  { role := c.role, activeB := c.activeB, loadedA := c.palA.isSome, loadedB := c.palB.isSome
    words := c.words.foldl put [] }

/-- The words of an entry at its place in the table. -/
def Machine.Dev.putNode (d : Dev) (n : Nat × List Word32) : Dev :=
  n.2.zipIdx.foldl (fun d w => d.setTable (nodeWord n.1 w.2) (nodeImage w.2 w.1)) d

/-- The steps of a SEQTAB record at their places in the table. -/
def Machine.Dev.putSteps (d : Dev) (r : Nat × Nat × List Word64) : Dev :=
  let put : Dev → Word64 × Nat → Dev := fun d w =>
    (d.setTable (seqWord r.1 (r.2.1 + w.2) 0) (w.1.extractLsb' 0 32)).setTable (seqWord r.1 (r.2.1 + w.2) 1)
      (w.1.extractLsb' 32 32)
  r.2.2.zipIdx.foldl put d

/-- A device that holds what the image names, for the checks of R392: reset values elsewhere, and every role in force. -/
def Image.trial (img : Image) (otp : Otp) : Dev :=
  let d := Dev.reset otp
  let d := (img.regs false ++ img.regs true).foldl (fun d r => putReg d r.2.1 r.2.2) d
  let d := img.nodes.foldl Dev.putNode d
  let d := img.seqtab.foldl Dev.putSteps d
  img.channels.foldl (fun d c =>
    let d := c.words.foldl (fun d w => putReg d (chBase c.chan + w.1) w.2) d
    let d := d.wr (F.SC_STATUS_ACTIVE c.chan) (if c.activeB then 1 else 0)
    d.modCh c.chan (fun x => { x with role := c.role })) d

/-! ### The consistency checks (R392) -/

/-- Registers that a REGS record may address (R388). -/
def Machine.regsMayAddress (a : Nat) : Bool :=
  (rowAt a).isSome &&
  (decide (a < 0x100000) && a != A.GV_CHCMD && a != A.GV_PDCMD ||
   (decide (blkCv ≤ a) && decide (a < blkCi)) ||
   (decide (blkCi ≤ a) && decide (a < 0x2100000) && !(decide (blkCi + 0x100 ≤ a) && decide (a ≤ blkCi + 0x13C)) &&
      a != A.ADMIN_LOCK) ||
   (decide (0x2100000 ≤ a) && decide (a < 0x2200000)) || (decide (blkCt ≤ a) && decide (a < blkRt)) || a == A.ALM_CFG)

/-- A REGS record obeys R388 beside the domains that the image switches on. -/
def Machine.regRecordOk (doms : List Nat) (late : Bool) (a : Nat) : Bool :=
  regsMayAddress a && (late || (!doms.contains (regDomain a) && (queueOf a).isNone))

/-- 1 REGADDR: the section of a record that breaks R388. -/
def Image.badRegs (img : Image) : Option Nat :=
  let bad := fun (late : Bool) => (img.regs late).find? (fun r => !regRecordOk img.domains late r.2.1)
  match bad false with
  | some r => some r.1
  | none => (bad true).map Prod.fst

/-- Channels of the trial whose role is not off. -/
def Machine.Dev.liveChans (d : Dev) : List Nat := (List.range 64).filter (fun k => d.role k != roleOFF)

/-- 2 BUNDLE: grouping, roles and band plan of a channel's bundle agree (R26, R27). -/
def Machine.Dev.bundleOk (d : Dev) (k : Nat) : Bool :=
  d.bundleAgrees k && (d.members k).all (fun m => d.role m == d.role k)

/-- 3 PALETTE: every present palette passes R81, and a channel not off holds its active one. -/
def Image.palettesOk (img : Image) (d : Dev) (k : Nat) : Bool :=
  match img.channels.find? (fun c => c.chan == k) with
  | none => true
  | some c =>
    (c.palA.isNone || d.palOk k false) && (c.palB.isNone || d.palOk k true) &&
    (c.role == roleOFF || (if c.activeB then c.palB else c.palA).isSome)

/-- A form obeys R132 on a channel with LEN `len`. -/
def Machine.Dev.formFits (d : Dev) (k : Nat) (w : Word32) (len : Nat) : Bool :=
  decide (d.blockOctets k (Form.ofWord w) len ≤ d.ilOctets k)

/-- Rungs of a channel's PATHS record. -/
def Image.rungsOf (img : Image) (k : Nat) : List (Word32 × Int × Nat) :=
  ((img.paths.find? (fun p => p.chan == k)).map PathsRecord.rungs).getD []

/-- 5 ILMEM: R135 on a channel's range, and R132 on its SQ_FORM registers and its rungs. -/
def Image.ilmemOk (img : Image) (d : Dev) (k : Nat) : Bool :=
  d.framingOk k (d.otherLive k) &&
  (d.pairsOf k).all (fun p => (List.range 16).all (fun n =>
    d.formFits k (d.word (A.SQ_FORM (2 * p) n)) 1 && d.formFits k (d.word (A.SQ_FORM (2 * p + 1) n)) 1)) &&
  (img.rungsOf k).all (fun r => d.formFits k r.1 r.2.2)

/-- 8 SEQTAB: the start check on both live ranges of an owner pair (R217). -/
def Machine.Dev.tablesOk (d : Dev) (k : Nat) : Bool :=
  match d.ownerPair k with
  | none => true
  | some p => [2 * p, 2 * p + 1].all (fun q => (d.firstBad q (d.rd (F.SQ_LIVE_LO q)) (d.rd (F.SQ_LIVE_HI q))).isNone)

/-- 9 NODE: an entry obeys the checks of R233 on index, scope and queues. -/
def Machine.Dev.nodeOk (d : Dev) (n : Nat × List Word32) : Bool :=
  let d := n.2.zipIdx.foldl (fun d w => d.setWord (A.NT_SH_W (16 * 16 + w.2)) w.1) d
  n.1 != 0 && decide (n.1 < 0x1FFFF) && d.slotScopeOk 16 n.1 && !d.slotShares 16 n.1

/-- Every scope that the image sets has its broadcast entry. -/
def Machine.Dev.broadcastOk (d : Dev) (k : Nat) : Bool :=
  d.rd (F.FW_SCOPE_SIZE k) == 0 || d.lead k != k || d.rd (N.KIND (d.rd (F.FW_SCOPE_BASE k))) == 3

/-- Entries of the image that name an association record. -/
def Machine.Dev.namers (d : Dev) : List Nat := d.entriesUsed.filter (fun i => d.rd (N.KIND i) != 0)

/-- 10 ASSOC: a line or broadcast record is named by exactly one entry; no ring overlaps the store (R280). -/
def Machine.Dev.assocOk (d : Dev) (r : AssocRecord) : Bool :=
  r.kind == 3 || (d.namers.filter (fun i => d.rd (N.SAIDX i) == r.saidx)).length == 1
def Image.namesOk (img : Image) (d : Dev) (i : Nat) : Bool :=
  img.assocs.any (fun r => r.saidx == d.rd (N.SAIDX i) && r.kind == (if d.rd (N.KIND i) = 3 then 2 else 1))
def Machine.Dev.storeClear (d : Dev) : Bool :=
  (List.range 1024).all (fun q => !d.on (F.QD_CFG_EN q) || decide (4096 ≤ d.rd (F.QD_BASE_DBASE q)))

/-- 12 DOMAIN: each domain is one of 64 to 78 but 76 and has what it requires from the domains before it (R22). -/
def Machine.domainsOk : Dev → List Nat → Bool
  | _, [] => true
  | d, n :: l => decide (64 ≤ n) && decide (n ≤ 78) && n != 76 && d.requiresOk n && Machine.domainsOk (d.setDom n true) l

/-- 13 SERVICE: a listed channel has a role, leads its bundle and is listed once. -/
def Machine.Dev.serviceOk (d : Dev) (l : List Nat) : Bool :=
  distinct l && l.all (fun k => decide (k < 64) && d.role k != roleOFF && d.lead k == k)

/-- Octets of the LATE sections. -/
def Image.lateOctets (img : Image) : Nat := ((img.sections.filter (fun s => s.body.isLate)).map ImageSection.length).sum

/-- A check over channels: the section of the first channel that fails it. -/
def Image.chanCheck (img : Image) (ks : List Nat) (p : Nat → Bool) : Option Nat :=
  (ks.find? (fun k => !p k)).map (fun k => img.sectOf (SectionBody.hasChannel k))

/-- A check over the whole image, with the section concerned. -/
def Machine.failAt (ok : Bool) (sect : Nat) : Option Nat := if ok then none else some sect

/-- The checks of R392 in the order of DETAIL, each with the section it blames (log entry 29). -/
def Image.checks (img : Image) (d : Dev) : List (Nat × Option Nat) :=
  let live := d.liveChans
  let on := d.setDom 76 true
  [(1, img.badRegs),
   (2, img.chanCheck (List.range 64) d.bundleOk),
   (3, img.chanCheck (List.range 64) (img.palettesOk d)),
   (4, img.chanCheck live d.scopeOk),
   (5, img.chanCheck live (img.ilmemOk d)),
   (6, img.chanCheck live d.syncOk),
   (7, img.chanCheck live d.pairsOk),
   (8, (img.chanCheck live d.tablesOk).map (fun _ => img.sectOf SectionBody.isSeqtab)),
   (9, failAt (img.nodes.all d.nodeOk && (List.range 64).all d.broadcastOk) (img.sectOf SectionBody.isNodes)),
   (10, failAt (img.assocs.all d.assocOk && d.namers.all (img.namesOk d) && d.storeClear) (img.sectOf SectionBody.isAssoc)),
   (11, failAt (decide (2 * (live.map (fun k => d.rd (F.GV_FLOOR_FLOOR k))).sum ≤
      modeB (d.rd F.GV_MODE_MODE) (d.word A.GV_CUSTOM) * d.winMs * 10)) 0),
   (12, failAt (domainsOk on img.domains) (img.sectOf SectionBody.isDomains)),
   (13, failAt (d.serviceOk img.service) (img.sectOf SectionBody.isService)),
   (14, failAt (decide (img.lateOctets ≤ 65536)) (img.sectOf SectionBody.isLate)),
   (15, failAt (img.paths.all (fun p => decide (p.chan < 64) && d.role p.chan == roleHEAD)) (img.sectOf SectionBody.isPaths))]

/-- CONSIST: DETAIL and section of the first check that fails. -/
def Image.consistFails (img : Image) (otp : Otp) : Option (Nat × Nat) :=
  let d := img.trial otp
  (img.checks d).findSome? (fun c => c.2.map (fun sect => (c.1, sect)))

end Sys2Proof
end

