-- ==== Sys2Proof/Machine/Startup.lean ====
section
/-! DEFINITION. Reset and the start sequence: flash discovery, slot choice, image checks, application and service (R24, R317,
R319, R325, R328, R381 to R397). -/

namespace Sys2Proof.Machine

open Sys2Proof

/-- Change what the loader holds. -/
def Dev.modLd (d : Dev) (f : Loader → Loader) : Dev := { d with loader := f d.loader }

/-- LSTATE. -/
def Dev.lstateTo (d : Dev) (n : Nat) : Dev := d.wr F.LD_STATUS_LSTATE n

/-- The loader runs: the root is in its start state. -/
def Dev.loading (d : Dev) (st : Nat) : Bool := d.rstate == 0 && d.lstate == st

/-! ### Reset (R381, R308, R309, R325) -/

/-- The whole module takes its reset values; the OTP store, the levels of pins and supplies and the free values' draws go on. -/
def Dev.moduleReset (d : Dev) : Dev :=
  let d := d.cutOtp
  let r := Dev.reset d.root.otp
  { r with
    draws := d.draws
    mains := { r.mains with refclk := d.mains.refclk }
    gov := { r.gov with vhvLow := d.gov.vhvLow, vddFeLow := d.gov.vddFeLow }
    root := { r.root with tampLevel := d.root.tampLevel } }

/-- RESET_N_ASSERT (R381): nanosecond time starts again at 0 (log entry 1). -/
def execResetNAssert (t : Nat) (s : State) : Host.Outcome State Fault Refusal :=
  s.run t (fun d => { d.moduleReset with inReset := true })

/-- The start sequence begins: the OTP store is read, and the loader arms the monitors and switches PD_CNV0 on; the clock monitor
watches REFCLK_SYS in either case (R24, R308, R309, R320, R381, R393). -/
def Dev.startUp (d : Dev) : Dev :=
  let d := d.modLd (fun l => { l with released := d.now, lands := true })
  let d :=
    if d.root.otp.bad then (d.cause causePARITY { ao := true }).enterRecovery
    else if d.lc = 3 then d.enterRecovery
    else ({ d with root := { d.root with armed := true } }.lstateTo 1).enqueue [76]
  if d.mains.refclk then d else d.alarm almCLOCK

/-- RESET_N_RELEASE (R381): also of a module that is right after its reset (`State.reset`). -/
def execResetNRelease (t : Nat) (s : State) : Host.Outcome State Fault Refusal :=
  let d := s.dev.advance t
  let fresh : Bool := d.inReset || d.loading 0
  .next { s with dev := (if fresh then { d with inReset := false }.startUp else d).settle }

/-! ### Slots (R382 to R384, R393) -/

/-- The header of a slot that is still to try. -/
def Dev.slotHeader (d : Dev) (b : Bool) : Option SlotHeader :=
  if (if b then d.loader.triedB else d.loader.triedA) then none
  else (if b then d.loader.hdrB else d.loader.hdrA).filter SlotHeader.ok

/-- The slot to try next: the greater ISEQ, and A where they are equal (R384). -/
def Dev.pickSlot (d : Dev) : Option (Bool × SlotHeader) :=
  match d.slotHeader false, d.slotHeader true with
  | some a, some b => if a.iseq < b.iseq then some (true, b) else some (false, a)
  | some a, none => some (false, a)
  | none, some b => some (true, b)
  | none, none => none

/-- Octets of a slot: half the flash (R383). -/
def Dev.slotOctets (d : Dev) : Nat := 2 ^ d.rd F.LD_FLASH_DENS / 2

/-- Go on to the next slot, or to the recovery state where none is left (R384).  An image that does not lie within its slot
fails at once: in slot B it runs beyond the flash (SUB 7), in slot A into slot B (SUB 5) (R383; log entry 28). -/
def Dev.nextSlot (d : Dev) : Nat → Dev
  | 0 => d.enterRecovery
  | fuel + 1 =>
    match d.pickSlot with
    | none => d.enterRecovery
    | some (b, h) =>
      let d := (d.wr F.LD_STATUS_SLOT (if b then 1 else 0)).modLd (fun l =>
        { l with triedA := l.triedA || !b, triedB := l.triedB || b })
      if d.slotOctets < h.ilen then (d.imgFail (if b then 7 else 5) 0 0).nextSlot fuel else d.lstateTo 2

/-- FLASH_DISCOVERY_DONE (R382): the read mode chosen, the density, the flash clock and the 64 octets of
both headers. -/
def execFlashDiscoveryDone (t : Nat) (mode : Fin 4) (dens : Fin 64) (mhz : Fin 256) (a b : List Byte) (s : State) :
    Host.Outcome State Fault Refusal :=
  s.runClk t (fun d =>
    if !d.loading 1 then d
    else
      let d := ((d.wr F.LD_FLASH_FMODE mode.val).wr F.LD_FLASH_DENS dens.val).wr F.LD_FLASH_FLMHZ (min 100 mhz.val)
      if mode.val ≤ 1 then
        (((d.wr F.LD_STATUS_SUB_A 7).wr F.LD_STATUS_SUB_B 7).cause causeIMGFAIL { sub := 7, ao := true }).enterRecovery
      else (d.modLd (fun l => { l with hdrA := some (readHeader a), hdrB := some (readHeader b) })).nextSlot 3)

/-- The slot in use fails before its image runs (R384): nothing of it stays, and the next slot is tried. -/
def Dev.slotFail (d : Dev) (sub sect detail : Nat) : Dev :=
  let d := (d.wr F.RT_STATUS_IMGSVN 0).wr F.RT_STATUS_OWNIMG 0
  let d := { d with root := { d.root with digest := 0, keyHash := 0 } }
  ((d.modLd (fun l => { l with image := none })).imgFail sub sect detail).nextSlot 3

/-- The first `n` cells leave the free list to hold the image (R393). -/
def Dev.holdCells (d : Dev) (n : Nat) : Dev :=
  { d.modLd (fun l => { l with cells := n }) with free := [(n, upperCell - n)].filter (fun r => r.2 ≠ 0) }

/-- SLOT_READ_DONE (R393): the image lies in canvas cells from 0; a read beyond the flash fails the slot (R384). -/
def execSlotReadDone (t : Nat) (octets : Option (List Byte)) (s : State) : Host.Outcome State Fault Refusal :=
  s.runClk t (fun d =>
    if !d.loading 2 ∨ !d.domOn 76 then d
    else match octets with
      | none => d.slotFail 7 0 0
      | some x => ((d.modLd (fun l => { l with image := some (readImage x) })).holdCells (ceilDiv x.length 256)).lstateTo 3)

/-! ### Application (R394) -/

/-- The image fails while it is applied: IMGFAIL SUB 8, and the module restarts as at RESET_N, but for the subcodes and the
slots tried (R394). -/
def Dev.applyFail (d : Dev) (sect : Nat) : Dev :=
  let d := d.imgFail 8 sect 0
  let st := d.word A.LD_STATUS
  let r := d.moduleReset.modLd (fun l => { l with triedA := d.loader.triedA, triedB := d.loader.triedB })
  (r.setWord A.LD_STATUS (st &&& 0xFF3FFF00#32)).startUp

/-- A step of the application: the device goes on, or the section whose record was refused. -/
abbrev Applied := Except Nat Dev

/-- REGS records of one stage, in order; the loader's writes count as those of the holder of ADMIN_LOCK (R388). -/
def applyRegs : List (Nat × Nat × Word32) → Dev → Applied
  | [], d => .ok d
  | r :: l, d =>
    let (res, d) := d.regWrite .loader r.2.1 r.2.2
    if res = rgOK then applyRegs l d else .error r.1

/-- The staging registers of administration take a key (R389). -/
def Dev.stageKey (d : Dev) (k : BitVec 256) : Dev :=
  (List.range 8).foldl (fun d n => d.setWord (A.SA_KEY 16 n) (k.extractLsb' (224 - 32 * n) 32)) d

/-- KEYWR of a present phase. -/
def Dev.loadKey (d : Dev) (sa : Nat) (ph : Bool) (k : Option (BitVec 256)) : Nat × Dev :=
  match k with
  | none => (saOK, d)
  | some x =>
    let (res, d) := (d.stageKey x).keyWrite 16 sa ph
    (res, d.zeroStaging 16)

/-- One ASSOC record: CREATE, CPH and TXPH, KEYWR per present phase (R389). -/
def Dev.loadAssoc (d : Dev) (r : AssocRecord) : Nat × Dev :=
  let d := (d.wr (F.SA_ARG_TENANT 16) r.tenant).wr (F.SA_SALT_SALT 16) r.salt.toNat
  let (res, d) := d.createRecord 16 r.saidx r.kind
  if res ≠ saOK then (res, d)
  else
    let d := d.setSa r.saidx { d.sa_ r.saidx with cph := r.cph, txph := r.cph }
    let (res, d) := d.loadKey r.saidx false r.key0
    if res ≠ saOK then (res, d) else d.loadKey r.saidx true r.key1

/-- The ASSOC records of the image; they need the record engines and the association store (R280, R286). -/
def applyAssocs (sect : Nat) : List AssocRecord → Dev → Applied
  | [], d => .ok d
  | r :: l, d =>
    if !d.domOn 70 ∨ !d.domOn 78 then .error sect
    else
      let (res, d) := d.loadAssoc r
      if res = saOK then applyAssocs sect l d else .error sect

/-- CHANNEL records become restore records, which lie in PD_HBM; every other record is of role off and reset values. -/
def applyChannels (sect : Nat) (cs : List ChannelRecord) (d : Dev) : Applied :=
  if cs ≠ [] ∧ (!d.domOn 70 ∨ !d.domOn 78) then .error sect
  else .ok (cs.foldl (fun d c =>
    (d.setRecord c.chan c.toRestore).wr (F.GV_CHSTAT_ROLE c.chan) c.role) { d with restore := [] })

/-- Steps 4 to 10 (R394). -/
def applyRest (img : Image) (d : Dev) : Applied := do
  let d ← applyAssocs (img.sectOf SectionBody.isAssoc) img.assocs d
  let d := img.nodes.foldl Dev.putNode d
  let d := img.seqtab.foldl Dev.putSteps d
  let d ← applyChannels (img.sectOf (fun b => match b with | .channel _ => true | _ => false)) img.channels d
  let d := d.modLd (fun l => { l with paths := img.paths.foldl (fun t p => Tab.put t p.chan p) l.paths })
  applyRegs (img.regs true) d.freeImage

/-- Step 11: the root is in service, and the loader waits for mains time (R395). -/
def Dev.beginService (d : Dev) (img : Image) : Dev :=
  let d := (d.wr F.RT_STATUS_RSTATE 1).lstateTo 6
  d.modLd (fun l => { l with stage := 0, service := img.service, since := d.now, svcwait := max 1 img.svcwait })

/-- Step 3 and what follows: with ESTATE TRUSTED the application ends at once; else the loader waits (R394). -/
def Dev.applyKeys (d : Dev) : Dev :=
  match d.loader.image with
  | none => d
  | some img =>
    if d.trusted then
      match applyRest img d with
      | .ok d => d.beginService img
      | .error sect => d.applyFail sect
    else d.modLd (fun l => { l with stage := 3 })

/-- Step 2 with the domains left to switch on, each awaited; one already on takes no time (R394). -/
def Dev.applyDomains (d : Dev) : List Nat → Dev
  | [] => (d.modLd (fun l => { l with domains := [] })).applyKeys
  | n :: l =>
    if d.domOn n then d.applyDomains l
    else if !d.requiresOk n then d.applyFail ((d.loader.image.map (fun i => i.sectOf SectionBody.isDomains)).getD 0)
    else (d.modLd (fun x => { x with domains := n :: l, stage := 2 })).enqueue [n]

/-- Steps 1 and 2. -/
def Dev.applyImage (d : Dev) (img : Image) : Dev :=
  let d := (d.lstateTo 5).setWord A.LD_IMG (BitVec.ofNat 32 img.header.iseq)
  match applyRegs (img.regs false) d with
  | .ok d => d.applyDomains img.domains
  | .error sect => d.applyFail sect

/-- A domain has switched on: step 2 goes on; one that completes with a thermal trip in force fails (R394, R397). -/
def Dev.domainAwaited (d : Dev) : Dev :=
  if !d.loading 5 ∨ d.loader.stage ≠ 2 then d
  else match d.loader.domains with
    | [] => d
    | n :: l =>
      if d.domOn n ∧ d.tstate ≠ 3 then d.applyDomains l
      else if d.gov.queue.contains n then d
      else d.applyFail ((d.loader.image.map (fun i => i.sectOf SectionBody.isDomains)).getD 0)

/-- DOMAIN_SWITCH_ON_DONE (R328, R343): the queue of switch-ons goes on, and the loader and its service with it. -/
def execDomainSwitchOnDone (t : Nat) (s : State) : Host.Outcome State Fault Refusal :=
  s.runSvc t (fun d => d.domainDone.domainAwaited)

/-! ### Verification and checks (R312, R386, R392) -/

/-- The carried key matches the owner's hash, once it is programmed (R309, R312). -/
def Dev.ownerKey (d : Dev) (img : Image) : Bool :=
  let o := d.root.otp
  o.vkhO != 0 && !o.ownBroken && img.keyHash == o.vkhO
/-- The vendor key is accepted in MANUFACTURE and PROVISIONED (R309). -/
def Dev.vendorKey (d : Dev) (img : Image) : Bool := decide (d.lc ≤ 1) && img.keyHash == d.root.otp.vkhV

/-- The subcode of the first image check of R312 that fails. -/
def Dev.rootCheck (d : Dev) (img : Image) : Option Nat :=
  if !(d.vendorKey img || d.ownerKey img) then some 1
  else if !img.signatureOk then some 2
  else if img.svn < d.rd F.RT_STATUS_SVNCTR ∨ 128 < img.svn then some 3
  else if d.lc = 0 ∨ d.lc = 3 ∨ d.root.otp.bad then some 4
  else none

/-- The root accepts an image (R312, R315). -/
def Dev.acceptImage (d : Dev) (img : Image) : Dev :=
  let d := (d.wr F.RT_STATUS_IMGSVN img.svn).wr F.RT_STATUS_OWNIMG (if d.ownerKey img then 1 else 0)
  { d with root := { d.root with digest := img.digest, keyHash := img.keyHash } }.lstateTo 4

/-- IMAGE_VERIFY (R312): the root's verdict; then the loader's checks of layout and consistency, and the application begins. -/
def execImageVerify (t : Nat) (s : State) : Host.Outcome State Fault Refusal :=
  s.runClk t (fun d =>
    match d.loader.image with
    | none => d
    | some img =>
      if !d.loading 3 then d
      else match d.rootCheck img with
        | some sub => d.slotFail sub 0 0
        | none =>
          let d := d.acceptImage img
          match img.formatFails with
          | some sect => d.slotFail 5 sect 0
          | none =>
            match img.consistFails d.root.otp with
            | some (detail, sect) => d.slotFail 6 sect detail
            | none => d.applyImage img)

/-! ### Entropy that the application awaits (R317, R319, R394) -/

/-- The application goes on once ESTATE is TRUSTED. -/
def Dev.entropyAwaited (d : Dev) : Dev := if d.loading 5 ∧ d.loader.stage = 3 then d.applyKeys else d

/-- ENTROPY_STARTUP_PASS (R317, R318): raw bits come to the start-up test, which passes when the last 4,096 of them have passed both
tests. -/
def execEntropyStartupPass (t : Nat) (bits : List Bool) (s : State) : Host.Outcome State Fault Refusal :=
  s.run t (fun d =>
    if d.estate ≠ 0 then d
    else
      let r := d.root.tests.bits bits
      let d := d.countTests bits r
      if r.1.good < 4096 then d else d.entropyTrusted.entropyAwaited)

/-- ENTROPY_RETEST (R319): a rerun of the start-up test in FAILED; three passes in a row return to TRUSTED. -/
def execEntropyRetest (t : Nat) (bits : List Bool) (s : State) : Host.Outcome State Fault Refusal :=
  s.run t (fun d => (d.retest bits).entropyAwaited)

/-! ### Service (R395) -/

/-- The loader waits for mains time. -/
def Dev.awaitsMains (d : Dev) : Bool := d.rstate == 1 && d.lstate == 6 && !d.loader.serving

/-- SERVICE_START (R395): mains time is in LOCKED or SLEW. -/
def execServiceStart (t : Nat) (s : State) : Host.Outcome State Fault Refusal :=
  s.runClkSvc t (fun d =>
    if d.awaitsMains ∧ (d.mst = mtLOCKED ∨ d.mst = mtSLEW) then d.modLd (fun l => { l with serving := true }) else d)

/-- SERVICE_WAIT_TIMEOUT (R395). -/
def execServiceWaitTimeout (t : Nat) (s : State) : Host.Outcome State Fault Refusal :=
  s.runClk t (fun d =>
    if d.awaitsMains ∧ d.mst ≠ mtLOCKED ∧ d.mst ≠ mtSLEW ∧ d.loader.since + 1000000000 * d.loader.svcwait ≤ d.now then
      ((d.raise F.LD_STATUS_NOMAINS).cause causeMAINSLOST { ao := true }).loaderDone
    else d)

end Sys2Proof.Machine
end

