-- ==== Sys2Proof/Machine/Mgmt.lean ====
section
/-! DEFINITION. The management protocol: frames, sessions, the engine and its commands, attestation, recovery transfers and
notices (R315, R316, R354 to R366, R376 to R378). -/

namespace Sys2Proof.Machine

open Sys2Proof

/-! ### Frames (R352, R354) -/

/-- Octets of a management frame on the line, untagged, with its FCS. -/
def mgOctets (prin plen : Nat) : Nat := max 60 (30 + plen + (if prin = 31 then 0 else 16)) + 4

/-- A management frame has passed the receive MAC of a port: the counts of R370 and R379. -/
def Dev.mgReceived (d : Dev) (p n : Nat) : Dev :=
  let d := (d.event 7 0 p 1).event 7 1 p n
  { d with bwSum := Tab.set 0 d.bwSum (2 * (64 + p)) (Tab.get 0 d.bwSum (2 * (64 + p)) + n) }

/-- The 16 octets of the management header, the AAD of its frame (R354). -/
def MgmtOut.header (o : MgmtOut) : List Byte :=
  octetsBE 1 (16 * o.mver + o.mtype) ++ octetsBE 1 (8 * o.prin + phN o.kph) ++ octetsBE 1 o.sess ++ octetsBE 1 0 ++
    octetsBE 2 o.payload.length ++ octetsBE 2 0 ++ octetsBE 8 o.mseq.toNat

/-- The salt word of a management nonce (R356): bits [31:30] by MTYPE, then SSALT of the session, which is 0 in version 1; of an
OPEN 0 and of an OPENACK 1. -/
def mgSalt (mtype : Nat) (ssalt : BitVec 30) : Word32 :=
  match mtype with
  | 0 => BitVec.ofNat 32 ssalt.toNat
  | 1 => BitVec.ofNat 32 (2 ^ 30 + ssalt.toNat)
  | 2 => BitVec.ofNat 32 (2 * 2 ^ 30 + ssalt.toNat)
  | 3 => BitVec.ofNat 32 (3 * 2 ^ 30)
  | _ => BitVec.ofNat 32 (3 * 2 ^ 30 + 1)

/-- The nonce of a management frame: its salt word, then MSEQ (R356). -/
def MgmtOut.nonce (o : MgmtOut) : BitVec 96 := o.salt ++ o.mseq

/-- The session of a number. -/
def Dev.session (d : Dev) (n : Nat) : Option Session := d.sessions.find? (fun s => s.num == n)

/-- The record of a principal's key where it may serve: KIND 3, and TENANT p for a page (R355). -/
def Dev.mgRecord (d : Dev) (prin : Nat) : Option Nat :=
  (d.keyNamed prin).filter (fun sa => (d.sa_ sa).kind == 3 && (prin == 16 || (d.sa_ sa).tenant == prin))

/-- A frame with its salt word, and its payload sealed under the principal's key with the header as AAD; PRIN 31 has no tag
(R354, R356). -/
def Dev.mgSealed (d : Dev) (o : MgmtOut) : MgmtOut :=
  if o.prin = 31 then { o with body := o.payload }
  else
    let salt := mgSalt o.mtype (if o.mver = 1 then 0 else (o.ended.orElse (fun _ => (d.session o.sess).map (fun s => s.ssalt))).getD 0)
    let sa := (d.mgRecord o.prin).getD 0
    let body := gcmSeal (d.clearKey sa ((d.sa_ sa).wk o.kph)) (nonceOf salt o.mseq.toNat) o.header o.payload
    { o with salt := salt, body := fitTo (o.payload.length + 16) body }

/-- The octets of a sealed frame as it leaves, untagged: addresses, MGT_ET, header, body, padding and FCS (R353, R354). -/
def Dev.mgFrame (d : Dev) (o : MgmtOut) : List Byte :=
  let l := octetsBE 6 o.mac.toNat ++ octetsBE 6 (d.station o.port).toNat ++ octetsBE 2 (d.rd F.FW_CFG_MGT_ET) ++ o.header ++ o.body
  let l := l ++ List.replicate (60 - l.length) 0
  l ++ ethFcs l

/-- A management frame leaves by a port that is up and admits its length (R352; log entry 138), and no other way. -/
def Dev.mgSend (d : Dev) (o : MgmtOut) : Dev :=
  let n := mgOctets o.prin o.payload.length
  if !d.on (F.ETH_STATUS_UP o.port) ∨ d.maxFr o.port < n then d
  else
    let d := (d.event 7 2 o.port 1).event 7 3 o.port n
    let key := 2 * (64 + o.port) + 1
    { d with bwSum := Tab.set 0 d.bwSum key (Tab.get 0 d.bwSum key + n)
             mgtOut := d.mgtOut ++ [{ d.mgSealed o with octets := d.mgFrame (d.mgSealed o) }] }

/-- A frame that a port has passed reaches the engine where it obeys R354; one that arrives while the engine holds 4 is dropped
(R362). -/
def Dev.mgTake (d : Dev) (f : MgmtFrame) (act : Dev → Dev) : Dev :=
  if 9120 < f.payload.length ∨ (16 < f.prin.val ∧ f.prin.val ≠ 31) ∨ f.mver = 0 ∨ 2 < f.mver then d
  else if 4 ≤ d.engine.length then d.inc F.MG_CNT2_MGDROP
  else act d

/-- A frame reaches the engine by a port that is up and passes FWPORT (R236, R354). -/
def Dev.mgArrive (d : Dev) (p : Nat) (f : MgmtFrame) (act : Dev → Dev) : Dev :=
  if !d.on (F.ETH_STATUS_UP p) then d
  else
    let n := mgOctets f.prin.val f.payload.length
    if d.maxFr p < n then d.inc (F.ETH_CNT_OVERSIZE p)
    else
      let d := d.mgReceived p n
      if !d.mains.refclk then d
      else if !d.accepting p then d.fwDrop 1
      else d.mgTake f act

/-! ### Keys and sessions (R355 to R359) -/

/-- The principal's key exists in a phase. -/
def Dev.mgKey (d : Dev) (prin : Nat) (ph : Bool) : Bool :=
  match d.mgRecord prin with
  | some sa => (d.sa_ sa).valid ph
  | none => false

/-- A tag failed; a request came out of sequence (R358, R360). -/
def Dev.authFail (d : Dev) : Dev := (d.inc F.MG_CNT_AUTHFAIL).mgRise 0 1
def Dev.mgReplay (d : Dev) : Dev := (d.inc F.MG_CNT_MGREPLAY).mgRise 1 1

/-- A keyed frame passes the checks before its sequence: a key (KEYMISS), no recovery state (R325), its tag (AUTHFAIL). -/
def Dev.mgKeyed (d : Dev) (f : MgmtFrame) (tagOk : Bool) (act : Dev → Dev) : Dev :=
  if !d.mgKey f.prin.val f.kph then d.inc F.CI_CNT2_KEYMISS
  else if d.rstate = 2 then d
  else if !tagOk then d.authFail
  else act d

/-- Change a session. -/
def Dev.modSession (d : Dev) (n : Nat) (f : Session → Session) : Dev :=
  { d with sessions := d.sessions.map (fun s => if s.num = n then f s else s) }

/-- The lowest session number not in use above the last one assigned, wrapping from 255 to 1 (R357). -/
def Dev.nextSession (d : Dev) : Nat :=
  let last := d.rd F.MG_STATUS_LASTSESS
  (((List.range 255).map (fun i => (last + i) % 255 + 1)).find? (fun n => (d.session n).isNone)).getD 0

/-- SSALT of a session (R357). -/
def sessionSalt (nonceC nonceM : BitVec 64) (prin sess : Nat) : BitVec 30 :=
  let h := sha3_256 ([0x4C#8, 0x4D#8, 0x53#8, 0x32#8] ++ octetsBE 8 nonceC.toNat ++ octetsBE 8 nonceM.toNat ++
    octetsBE 1 prin ++ octetsBE 1 sess)
  let x := h.extractLsb' 226 30
  if x = 0 then 1 else x

/-- At most two unconfirmed sessions of a principal are kept: the oldest gives way to another (R357). -/
def Dev.displace (d : Dev) (prin : Nat) : Dev :=
  match d.sessions.filter (fun s => s.prin == prin && !s.confirmed) with
  | s :: _ :: _ => d.endSession s.num
  | _ => d

/-- An OPEN with a good tag (R357). -/
def Dev.openSession (d : Dev) (p : Nat) (mac : BitVec 48) (f : MgmtFrame) : Dev :=
  if !d.trusted then d
  else
    let d := d.displace f.prin.val
    if 32 ≤ d.sessions.length then d.inc F.MG_CNT2_MGDROP
    else
      let n := d.nextSession
      let (nonceM, d) := d.draw
      let s : Session :=
        { num := n, prin := f.prin.val, kph := f.kph, ssalt := sessionSalt f.mseq nonceM f.prin.val n
          opened := d.now, heard := d.now, mac := mac, port := p }
      let d := { d.wr F.MG_STATUS_LASTSESS n with sessions := d.sessions ++ [s] }
      d.mgSend { port := p, mac := mac, mver := 2, mtype := 4, prin := f.prin.val, kph := f.kph, sess := n, mseq := nonceM
                 payload := octetsBE 8 f.mseq.toNat }

/-- A frame that the engine has no use for: of a principal without a key it counts in KEYMISS all the same (R355). -/
def Dev.mgIdle (d : Dev) (f : MgmtFrame) : Dev :=
  if f.prin.val ≠ 31 ∧ !d.mgKey f.prin.val f.kph then d.inc F.CI_CNT2_KEYMISS else d

/-- An OPEN that the engine takes (R357). -/
def Dev.mgOpen (d : Dev) (p : Nat) (mac : BitVec 48) (f : MgmtFrame) (tagOk : Bool) : Dev :=
  if f.prin.val = 31 ∨ f.mver ≠ 2 ∨ f.sess ≠ 0 ∨ f.payload ≠ [] then d.mgIdle f
  else d.mgKeyed f tagOk (fun d => d.openSession p mac f)

/-- OPEN (R357). -/
def execOpenFrame (t : Nat) (p : PortId) (mac : BitVec 48) (f : MgmtFrame) (tagOk : Bool) (s : State) :
    Host.Outcome State Fault Refusal :=
  s.run t (fun d => d.mgArrive p.val f (fun d => d.mgOpen p.val mac f tagOk))

/-- SESSION_LAPSE (R357): a session not confirmed within 1 s. -/
def execSessionLapse (t : Nat) (sess : Fin 256) (s : State) : Host.Outcome State Fault Refusal :=
  s.runClk t (fun d =>
    match d.session sess.val with
    | some x => if !x.confirmed ∧ x.opened + 1000000000 ≤ d.now then d.endSession x.num else d
    | none => d)

/-- SESSION_IDLE_TIMEOUT (R359): IDLE seconds without an accepted REQ. -/
def execSessionIdleTimeout (t : Nat) (sess : Fin 256) (s : State) : Host.Outcome State Fault Refusal :=
  s.runClk t (fun d =>
    match d.session sess.val with
    | some x =>
      if x.confirmed ∧ x.heard + 1000000000 * max 1 (d.rd F.MG_CFG_IDLE) ≤ d.now then d.endSession x.num else d
    | none => d)

/-! ### Commands (R361, R363, R364) -/

/-- Further command results. -/
def rgBADCMD : Nat := 5
def rgEMPTY : Nat := 6
def rgTOOLONG : Nat := 7

/-- The commands of a request: CMD with its arguments, none where their length runs past the payload (R361). -/
def splitCmds : Nat → List Byte → List (Nat × Option (List Byte))
  | 0, _ => []
  | fuel + 1, l =>
    match l with
    | [] => []
    | c :: l' =>
      let n := beNat ((l'.drop 1).take 2)
      let args := (l'.drop 3).take n
      if l'.length < 3 ∨ args.length < n then [(c.toNat, none)]
      else (c.toNat, some args) :: splitCmds fuel ((l'.drop 3).drop n)

/-- Lengths that the arguments of a command may have (R361). -/
def cmdArgsOk (cmd : Nat) (a : List Byte) : Bool :=
  match cmd with
  | 1 => a.length == 4
  | 2 => a.length == 8
  | 3 => a.length == 8 && decide (1 ≤ beNat (a.drop 4)) && decide (beNat (a.drop 4) ≤ 256)
  | 4 => a.length == 4
  | 5 => a != [] && decide (a.length ≤ 16383)
  | 6 => a == []
  | 7 => a.length == 32
  | 8 => a == []
  | 9 => a.length == 4
  | 10 => decide (4 ≤ a.length)
  | 11 => a == []
  | _ => false

/-- One entry of a response (R361); `low` stands in the length word of a refused RIMGEND (R364). -/
def respEntry (cmd res low : Nat) (data : List Byte) : List Byte :=
  octetsBE 1 cmd ++ octetsBE 1 (16 * res) ++ octetsBE 2 (if data = [] then low else data.length) ++ data

/-- What a command answers: its result, the low bits of the length word, its data, and the device. -/
structure CmdOut where
  res : Nat
  data : List Byte := []
  low : Nat := 0
  dev : Dev

/-- A result without data. -/
def Dev.answer (d : Dev) (res : Nat) : CmdOut := { res := res, dev := d }

/-- The writer that a request stands for (R301, R360). -/
def MgmtJob.writer (j : MgmtJob) : Writer :=
  if j.frame.mver = 1 then .v1 (Fin.ofNat 17 j.frame.prin.val) else .session j.frame.sess

/-- The registers that PRIN 31 reads in the recovery state (R364). -/
def openRead (a : Nat) : Bool :=
  a == A.RT_STATUS || a == A.ALM_SRC || (List.range 4).any (fun i => a == A.RT_DEVID i)

/-- REGRD: a refused read returns the value 0 with its result (R302, R420). -/
def Dev.cmdRead (d : Dev) (prin a : Nat) (lock : Bool := false) : CmdOut :=
  let (res, v, d) := d.regRead prin a lock
  { res := res, data := octetsBE 4 v.toNat, dev := d }

/-- REGRDN: every address is checked before any is read (R422). -/
def Dev.cmdReadN (d : Dev) (prin a n room : Nat) (lock : Bool := false) : CmdOut :=
  let addrs := (List.range n).map (fun i => a + 4 * i)
  match addrs.find? (fun x => d.readCheck prin x lock != rgOK) with
  | some x => (if d.readCheck prin x lock = rgPERM then d.hedge else d).answer (d.readCheck prin x lock)
  | none =>
    if room < 4 * n then d.answer rgTOOLONG
    else
      let step : List Byte × Dev → Nat → List Byte × Dev := fun acc x =>
        let (_, v, d) := acc.2.regRead prin x lock
        (acc.1 ++ octetsBE 4 v.toNat, d)
      let r := addrs.foldl step ([], d)
      { res := rgOK, data := r.1, dev := r.2 }

/-- CNTRD (R376 to R378). -/
def Dev.cmdCounter (d : Dev) (prin c room : Nat) : CmdOut :=
  if 2047 < c then d.answer rgBADADDR
  else if prin < 16 ∧ !d.grants prin c then d.hedge.answer rgPERM
  else if !d.domOn 76 then d.answer rgSTATE
  else if room < 24 then d.answer rgTOOLONG
  else { res := rgOK, data := (d.captureOf c).1.octets, dev := (d.captureOf c).2 }

/-- JOBIN (R303, R361): the item goes to JINQ where it has room. -/
def Dev.cmdJobIn (d : Dev) (p : Nat) (item : List Byte) : CmdOut :=
  let q := d.rd (F.PG_JCFG_JINQ p)
  if !d.domOn 70 ∨ !d.on (F.PG_JCFG_JEN p) then d.answer rgSTATE
  else if d.room q false < (wordsOf item).length + 1 then d.answer rgBUSY
  else ((d.pushContent q 0 item).pfcCheck.startJobs p).answer rgOK

/-- JOBOUT (R303, R361): the next complete item of JOUTQ. -/
def Dev.cmdJobOut (d : Dev) (p room : Nat) : CmdOut :=
  let q := d.rd (F.PG_JCFG_JOUTQ p)
  if !d.domOn 70 ∨ !d.on (F.PG_JCFG_JEN p) then d.answer rgSTATE
  else match (d.sh q).items.head? with
    | some i =>
      if !i.complete ∨ i.aborted then d.answer rgEMPTY
      else if room < i.content.length then d.answer rgTOOLONG
      else { res := rgOK, data := i.content, dev := (d.popItem q).pfcCheck }
    | none => d.answer rgEMPTY

/-- RIMG (R364): consecutive data, 24 MiB at most, in canvas cells; where no cell is free the command ends BUSY (log entry 190). -/
def Dev.cmdRimg (d : Dev) (a : List Byte) : CmdOut :=
  if !d.domOn 76 ∨ d.loader.writing.isSome ∨ beNat (a.take 4) ≠ d.loader.rimg.length ∨
      25165824 < d.loader.rimg.length + (a.drop 4).length then d.answer rgSTATE
  else match takeRuns (ceilDiv (d.loader.rimg.length + (a.drop 4).length) 256 - d.loader.rimgCells.length) d.ripen.free with
    | none => d.answer rgBUSY
    | some (cs, free) =>
      ({ d.ripen with free := free }.modLd (fun l => { l with rimg := l.rimg ++ a.drop 4, rimgCells := l.rimgCells ++ cs })).answer
        rgOK

/-- The buffer of a recovery transfer is given up: its cells are zeroed (R257, R364). -/
def Dev.dropRimg (d : Dev) : Dev := (d.zeroCells d.loader.rimgCells).modLd (fun l => { l with rimg := [], rimgCells := [] })

/-- RIMGEND (R364): the checks of R312 on the buffer, then the write of slot B. -/
def Dev.cmdRimgEnd (d : Dev) (j : MgmtJob) : CmdOut :=
  if d.loader.writing.isSome then d.answer rgBUSY
  else
    let sub := (d.rootCheck (readImage d.loader.rimg)).getD 0
    if sub = 0 then
      (d.modLd (fun l => { l with writing := some (j.port, j.mac, j.frame.mseq), lands := true })).answer rgOK
    else { res := rgSTATE, low := sub, dev := d.dropRimg }

/-- A command that does not wait, for a session or a version-1 principal (R361, R363). -/
def Dev.cmdKeyed (d : Dev) (j : MgmtJob) (cmd : Nat) (a : List Byte) (room : Nat) : CmdOut :=
  let prin := j.frame.prin.val
  let addr := beNat (a.take 4)
  let lock := j.frame.mver != 1 && prin == 16 && d.lapseLock.holder == j.frame.sess.val
  match cmd with
  | 1 => if room < 4 then d.answer rgTOOLONG else d.cmdRead prin addr lock
  | 2 => (d.regWrite j.writer addr (BitVec.ofNat 32 (beNat (a.drop 4)))).2.answer
      (d.regWrite j.writer addr (BitVec.ofNat 32 (beNat (a.drop 4)))).1
  | 3 => d.cmdReadN prin addr (beNat (a.drop 4)) room lock
  | 4 => d.cmdCounter prin addr room
  | 5 => if prin < 16 then d.cmdJobIn prin a else d.hedge.answer rgPERM
  | 6 => if prin < 16 then d.cmdJobOut prin room else d.hedge.answer rgPERM
  | 8 => (d.endSession j.frame.sess.val).answer rgOK
  | 9 => (d.modSession j.frame.sess.val (fun s => { s with mask := BitVec.ofNat 32 addr })).answer rgOK
  | _ => d.answer rgPERM

/-- A command of PRIN 31 (R364): anything not named returns STATE. -/
def Dev.cmdOpen (d : Dev) (j : MgmtJob) (cmd : Nat) (a : List Byte) (room : Nat) : CmdOut :=
  let addr := beNat (a.take 4)
  if d.rstate ≠ 2 then d.answer rgSTATE
  else match cmd with
    | 1 => if !openRead addr then d.answer rgSTATE else if room < 4 then d.answer rgTOOLONG else d.cmdRead 31 addr
    | 3 =>
      if (List.range (beNat (a.drop 4))).all (fun i => openRead (addr + 4 * i)) then d.cmdReadN 31 addr (beNat (a.drop 4)) room
      else d.answer rgSTATE
    | 10 => d.cmdRimg a
    | 11 => d.cmdRimgEnd j
    | _ => d.answer rgSTATE

/-- ATTEST (R316, R325, R361): refused where there is no identity, where four requests wait, or where the report is too long;
otherwise the request joins those that wait. -/
def Dev.cmdAttest (d : Dev) (a : List Byte) (room : Nat) : Nat × Dev :=
  if !d.hasIdentity then (rgSTATE, d)
  else if 4 ≤ (d.root.attest.filter (fun a => !a.orphan)).length then (rgBUSY, d)
  else if room < 3868 then (rgTOOLONG, d)
  else (rgOK, { d with root := { d.root with attest := d.root.attest ++ [{ nonce := a }] } })

/-! ### The engine (R362) -/

/-- A request whose session is still open or ended by its own CLOSE, or that needs none. -/
def Dev.jobLives (d : Dev) (j : MgmtJob) : Bool :=
  j.frame.prin.val == 31 || d.rstate != 2 && d.mgKey j.frame.prin.val j.frame.kph &&
    (j.frame.mver == 1 || j.close.isSome || (d.session j.frame.sess.val).isSome)

/-- The response of a request (R358, R362); after CLOSE it leaves under the salt of the session that has ended. -/
def Dev.reply (d : Dev) (j : MgmtJob) : Dev :=
  if !d.jobLives j then d
  else
    d.mgSend { port := j.port, mac := j.mac, mver := j.frame.mver, mtype := 1, prin := j.frame.prin.val
               kph := j.frame.kph, sess := j.frame.sess.val, mseq := j.frame.mseq, payload := j.resp, ended := j.close }

/-- The request at the head of the engine takes an entry of its response. -/
def MgmtJob.put (j : MgmtJob) (rest : List (Nat × Option (List Byte))) (cmd res low : Nat) (data : List Byte) : MgmtJob :=
  { j with rest := rest, resp := j.resp ++ respEntry cmd res low data, waits := false }

/-- Octets of data that the response can still take. -/
def MgmtJob.room (j : MgmtJob) : Nat := 9120 - (j.resp.length + 4)

/-- A command that its version or its arguments do not allow (R360, R361). -/
def MgmtJob.badCmd (j : MgmtJob) (cmd : Nat) (a : List Byte) : Bool :=
  !cmdArgsOk cmd a || (j.frame.mver == 1 && j.frame.prin.val != 31 && cmd != 1 && cmd != 2 && cmd != 4)

/-- The next command of a request runs; CLOSE ends the session at once, and what follows it in the request is not allowed any more
(R359; log entry 186). -/
def Dev.runCommand (d : Dev) (j : MgmtJob) (cmd : Nat) (a : Option (List Byte)) (rest : List (Nat × Option (List Byte))) :
    MgmtJob × Dev :=
  if 9116 < j.resp.length then ({ j with rest := [] }, d)
  else match a with
    | none => (j.put [] cmd rgBADCMD 0 [], d)
    | some x =>
      if j.badCmd cmd x then (j.put rest cmd rgBADCMD 0 [], d)
      else if j.close.isSome then (j.put rest cmd rgSTATE 0 [], d)
      else if cmd = 7 then
        let (res, d) := d.cmdAttest x j.room
        if res = rgOK then ({ j with waits := true }, d) else (j.put rest cmd res 0 [], d)
      else
        let o := if j.frame.prin.val = 31 then d.cmdOpen j cmd x j.room else d.cmdKeyed j cmd x j.room
        let j := if cmd = 8 ∧ j.frame.prin.val ≠ 31 then { j with close := (d.session j.frame.sess.val).map (fun s => s.ssalt) } else j
        (j.put rest cmd o.res o.low o.data, o.dev)

/-- The engine runs the requests it holds, in order of arrival, until one awaits a report (R362); a request whose own command
brought the recovery state is gone with its session (R325, R359). -/
def Dev.engineRun (d : Dev) : Nat → Dev
  | 0 => d
  | fuel + 1 =>
    match d.engine with
    | [] => d
    | j :: l =>
      if j.waits then d
      else match j.rest with
        | [] => ({ d with engine := l }.reply j).engineRun fuel
        | (cmd, a) :: rest =>
          if !d.jobLives j then { d with engine := l }.engineRun fuel
          else
            let (j', d) := d.runCommand j cmd a rest
            Dev.engineRun (if d.engine.head? = some j then { d with engine := j' :: d.engine.drop 1 } else d) fuel

/-- A request joins the engine; where the other port's frame of the same CCLK cycle waits, ETHA's goes first (R362). -/
def Dev.engineTake (d : Dev) (p : Nat) (mac : BitVec 48) (f : MgmtFrame) : Dev :=
  let j : MgmtJob := { port := p, mac := mac, frame := f, rest := splitCmds f.payload.length f.payload, at_ := d.cclk }
  let later := fun (x : MgmtJob) => p == 0 && x.port == 1 && x.at_ == d.cclk && x.resp == [] && !x.waits
  let engine := d.engine.filter (fun x => !later x) ++ j :: d.engine.filter later
  { d with engine := engine }.engineRun 9200

/-- V1SEQ of a principal (R360). -/
def Dev.v1seq (d : Dev) (prin : Nat) : Nat := d.rd (F.MG_V1SEQ_LO_V1SEQ prin) + 2 ^ 32 * d.rd (F.MG_V1SEQ_HI_V1SEQ prin)

/-- A session takes an accepted request; the first one confirms it, and an administration session then has the ring (R357,
R358, R366). -/
def Dev.acceptReq (d : Dev) (x : Session) (mseq : Nat) : Dev :=
  let ring : Bool := !x.confirmed && x.admin
  let d := d.modSession x.num (fun s =>
    { s with last := mseq, confirmed := true, heard := d.now, buf := if ring then d.ring else s.buf })
  if ring then { d with ring := [] } else d

/-- A request with a good tag (R358, R360); one that names no open session of its principal is dropped with MGREPLAY too. -/
def Dev.takeReq (d : Dev) (p : Nat) (mac : BitVec 48) (f : MgmtFrame) : Dev :=
  if f.mver = 1 then
    if f.sess ≠ 0 ∨ !d.on F.MG_CFG_V1EN ∨ f.mseq.toNat ≤ d.v1seq f.prin.val then d.mgReplay
    else (d.wr64 (F.MG_V1SEQ_LO_V1SEQ f.prin.val) (F.MG_V1SEQ_HI_V1SEQ f.prin.val) f.mseq.toNat).engineTake p mac f
  else match d.session f.sess.val with
    | none => d.mgReplay
    | some x =>
      if x.prin ≠ f.prin.val ∨ f.mseq.toNat ≤ x.last then d.mgReplay else (d.acceptReq x f.mseq.toNat).engineTake p mac f

/-- A REQ that the engine takes (R358, R360 to R364). -/
def Dev.mgReq (d : Dev) (p : Nat) (mac : BitVec 48) (f : MgmtFrame) (tagOk : Bool) : Dev :=
  if f.prin.val = 31 then d.engineTake p mac f
  else d.mgKeyed f tagOk (fun d => d.takeReq p mac f)

/-- REQ (R358, R360 to R364). -/
def execReq (t : Nat) (p : PortId) (mac : BitVec 48) (f : MgmtFrame) (tagOk : Bool) (s : State) :
    Host.Outcome State Fault Refusal :=
  s.run t (fun d => d.mgArrive p.val f (fun d => d.mgReq p.val mac f tagOk))

/-- What a management frame carries, from the octets after its EtherType (R354): the header's fields, with the payload decrypted
under the principal's key and the nonce of R356, and whether the tag passes; MTYPE stands first.  None where PLEN runs past the
frame. -/
def Dev.readMgmt (d : Dev) (l : List Byte) : Option (Nat × MgmtFrame × Bool) :=
  let o0 := (l.getD 0 0).toNat
  let o1 := (l.getD 1 0).toNat
  let prin : Fin 32 := Fin.ofNat 32 (o1 / 8)
  let kph : Bool := o1 % 2 == 1
  let sess : Fin 256 := Fin.ofNat 256 (l.getD 2 0).toNat
  let plen := beNat ((l.drop 4).take 2)
  let mseq := BitVec.ofNat 64 (beNat ((l.drop 8).take 8))
  let n := plen + (if prin.val = 31 then 0 else 16)
  if l.length < 16 + n then none
  else
    let body := (l.drop 16).take n
    let frame := fun p : List Byte =>
      ({ mver := o0 / 16, prin := prin, kph := kph, sess := sess, mseq := mseq, payload := p } : MgmtFrame)
    if prin.val = 31 then some (o0 % 16, frame body, true)
    else
      let salt := mgSalt (o0 % 16) (if o0 / 16 = 1 then 0 else ((d.session sess.val).map (fun s => s.ssalt)).getD 0)
      let sa := (d.mgRecord prin.val).getD 0
      match gcmOpen (d.clearKey sa ((d.sa_ sa).wk kph)) (nonceOf salt mseq.toNat) (l.take 16) body with
      | some p => some (o0 % 16, frame (fitTo plen p), true)
      | none => some (o0 % 16, frame (List.replicate plen 0), false)

/-- A received frame of MGT_ET goes to the management engine (R235, R354): REQ and OPEN act, and of any other MTYPE only
the missing key counts. -/
def Dev.mgReceive (d : Dev) (p : Nat) (mac : BitVec 48) (l : List Byte) : Dev :=
  match d.readMgmt l with
  | some (0, f, ok) => d.mgTake f (fun d => d.mgReq p mac f ok)
  | some (3, f, ok) => d.mgTake f (fun d => d.mgOpen p mac f ok)
  | some (_, f, _) => d.mgTake f (fun d => d.mgIdle f)
  | none => d

/-- FRAME_RECEIVE (R352, R236): the octets run from the destination address to the FCS. -/
def execFrameReceive (t : Nat) (p : PortId) (octets : List Byte) (s : State) : Host.Outcome State Fault Refusal :=
  s.run t (fun d =>
    if !d.on (F.ETH_STATUS_UP p.val) then d
    else if octets.length < 64 ∨ !fcsGood octets then (d.inc (F.ETH_CNT_FCSERR p.val)).event 7 4 p.val 1
    else if d.maxFr p.val < octets.length then d.inc (F.ETH_CNT_OVERSIZE p.val)
    else
      let d := (d.event 7 0 p.val 1).event 7 1 p.val octets.length
      let d := { d with bwSum := Tab.set 0 d.bwSum (2 * (64 + p.val)) (Tab.get 0 d.bwSum (2 * (64 + p.val)) + octets.length) }
      let mac := BitVec.ofNat 48 (beNat ((octets.drop 6).take 6))
      if d.mains.refclk then d.ingress p.val octets (fun d l => d.mgReceive p.val mac l) else d)

/-! ### Attestation (R315, R316) -/

/-- Octets 0 to 135 of a report. -/
def Dev.reportHead (d : Dev) (nonce : List Byte) (det : Bool) : List Byte :=
  let flag : Bool → Nat → Nat := fun b n => if b then 2 ^ n else 0
  let fl := flag (d.on F.RT_STATUS_OWNIMG) 0 + flag d.masked 1 + flag (d.rstate == 2) 2 + flag (d.root.alarms != 0) 3 + flag det 4
  let (c, g) := d.mainsAt d.now
  octetsBE 2 1 ++ octetsBE 1 d.lc ++ octetsBE 1 fl ++ (List.range 4).flatMap (fun i => octetsBE 4 (d.word (A.RT_DEVID i)).toNat) ++
    nonce ++ octetsBE 32 d.root.digest.toNat ++ octetsBE 32 d.root.keyHash.toNat ++ octetsBE 1 (d.rd F.RT_STATUS_IMGSVN) ++
    octetsBE 1 (d.rd F.RT_STATUS_SVNCTR) ++ octetsBE 2 d.root.alarms ++ octetsBE 8 d.now ++ octetsBE 4 (c % 2 ^ 32) ++
    octetsBE 2 g ++ octetsBE 2 0

/-- The report with its signature and the identity's public key: signed with 32 octets of randomness, zeros for the deterministic
variant (R315, R316). -/
def Dev.report (d : Dev) (nonce : List Byte) (det : Bool) (rnd : List Byte) : List Byte :=
  let head := d.reportHead nonce det
  head ++ fitTo 2420 (mlSign (keyOctets d.root.idSeed) (octetsBE 32 (sha3_256 head).toNat) rnd) ++ d.identityPk

/-- The oldest attestation request ends: one whose session has ended leaves the engine to the requests still waiting; else with
its report, or refused with ALARM where an alarm abandoned it (R316); the code of
that refusal is log entry 24. -/
def Dev.attestDone (d : Dev) : Dev :=
  match d.root.attest.dropWhile AttestReq.orphan, d.engine with
  | a :: l, j :: js =>
    if !j.waits then d
    else
      let det := !d.trusted
      let rest := j.rest.drop 1
      let root := { d.root with attest := l }
      if a.abandoned then
        { d with root := root, engine := j.put rest 7 Config.alarmRefusal.toNat 0 [] :: js }.engineRun 9200
      else if !d.root.identity then d
      else
        let rnd := if det then (List.replicate 32 0, d) else d.random 32
        let j' := j.put rest 7 rgOK 0 (d.report a.nonce det rnd.1)
        let d := rnd.2
        { d with root := { d.root with attest := l }, engine := j' :: js }.engineRun 9200
  | l, _ => { d with root := { d.root with attest := l } }.engineRun 9200

/-- ATTEST_REPORT_READY (R316). -/
def execAttestReportReady (t : Nat) (s : State) : Host.Outcome State Fault Refusal :=
  s.runClk t (fun d => d.attestDone)

/-! ### Notices (R364 to R366) -/

/-- A notice record of 32 octets (R365). -/
def Notice.octets (n : Notice) : List Byte :=
  octetsBE 2 n.cls ++ octetsBE 2 n.code ++ octetsBE 1 n.chan ++ octetsBE 1 n.seq ++ octetsBE 2 n.step ++ octetsBE 4 n.cyc ++
    octetsBE 2 n.grn ++ octetsBE 1 n.page ++ octetsBE 1 0 ++ octetsBE 8 n.ns ++ octetsBE 8 n.arg

/-- FLASH_WRITE_DONE (R364): an IMAGE notice in clear to the requester. -/
def execFlashWriteDone (t : Nat) (ok : Bool) (s : State) : Host.Outcome State Fault Refusal :=
  s.runClk t (fun d =>
    match d.loader.writing with
    | none => d
    | some (p, mac, mseq) =>
      let (c, g) := d.mainsAt d.now
      let n : Notice := { cls := 11, code := if ok then 0 else 7, ns := d.now, cyc := c % 2 ^ 32, grn := g }
      (d.dropRimg.modLd (fun l => { l with writing := none, lands := false })).mgSend
        { port := p, mac := mac, mver := 2, mtype := 2, prin := 31, sess := 0, mseq := mseq, payload := n.octets })

/-- The port by which a session's notices leave: its own, or the other one while its own is down (R366). -/
def Dev.noticePort (d : Dev) (p : Nat) : Option Nat :=
  if d.on (F.ETH_STATUS_UP p) then some p else if d.on (F.ETH_STATUS_UP (1 - p)) then some (1 - p) else none

/-- A session may have a frame now: its oldest record has been gathered for NHOLD µs, its key holds CPH, and NRATE admits one more
(R355, R366). -/
def Dev.noticeDue (d : Dev) (s : Session) : Bool :=
  let ms := d.now / 1000000
  s.confirmed && (s.buf.head?.map (fun n => decide (n.ns + 1000 * d.rd F.MG_CFG_NHOLD ≤ d.now))).getD false &&
  ((d.mgRecord s.prin).map (fun sa => (d.sa_ sa).valid (d.sa_ sa).cph)).getD false &&
  (s.rate.1 != ms || decide (s.rate.2 < max 1 (d.rd F.MG_CFG_NRATE)))

/-- One NOTICE frame of a session: its oldest records, 32 at most (R358, R365, R366). -/
def Dev.sendNotices (d : Dev) (n : Nat) : Dev :=
  match d.session n with
  | none => d
  | some s =>
    match d.noticePort s.port with
    | none => d
    | some p =>
      if !d.noticeDue s then d
      else
        let ms := d.now / 1000000
        let cph := ((d.mgRecord s.prin).map (fun sa => (d.sa_ sa).cph)).getD false
        let d := d.modSession n (fun s =>
          { s with buf := s.buf.drop 32, ncount := s.ncount + 1
                   rate := (ms, if s.rate.1 = ms then s.rate.2 + 1 else 1) })
        d.mgSend { port := p, mac := s.mac, mver := 2, mtype := 2, prin := s.prin, kph := cph, sess := n
                   mseq := BitVec.ofNat 64 (s.ncount + 1), payload := (s.buf.take 32).flatMap Notice.octets }

/-- NOTICE_SEND (R366): NHOLD µs of gathering are over. -/
def execNoticeSend (t : Nat) (s : State) : Host.Outcome State Fault Refusal :=
  s.runClk t (fun d => d.sessions.foldl (fun d s => d.sendNotices s.num) d)

end Sys2Proof.Machine
end

