-- ==== Sys2Proof/Machine/Scrub.lean ====
section
/-! DEFINITION. The scrubber, the repair of table words and uncorrectable HBM errors (R413 to R416). -/

namespace Sys2Proof.Machine

open Sys2Proof

/-! ### Orphan cells (R413) -/

/-- Canvas cells in use: the upper half while HALF1 adds it (R247). -/
def Dev.cellCount (d : Dev) : Nat := if d.half1 ∧ d.domOn 77 then 196608 else upperCell

/-- Runs in order of their first cell. -/
def sortRuns (l : List (Nat × Nat)) : List (Nat × Nat) :=
  l.foldl (fun acc x =>
    acc.takeWhile (fun y : Nat × Nat => y.1 ≤ x.1) ++ x :: acc.dropWhile (fun y : Nat × Nat => y.1 ≤ x.1)) []

/-- The cells from `lo` below `hi` that rising runs leave out. -/
def gapCells (hi : Nat) : Nat → List (Nat × Nat) → List Nat
  | lo, [] => List.range' lo (hi - lo)
  | lo, r :: l => List.range' lo (min r.1 hi - lo) ++ gapCells hi (max lo (r.1 + r.2)) l

/-- Cells found in no list: neither free, held by a queue, staging or the zeroing engine, nor holding the image. -/
def Dev.orphans (d : Dev) : List Nat :=
  gapCells d.cellCount 0 (sortRuns ((0, d.loader.cells) :: d.free ++ (d.fresh.map Prod.fst ++ d.heldCells).map (fun c => (c, 1))))

/-! ### Repair of table words (R414, R415) -/

/-- The session of an entry's association ends with what that means for the link (R174, R186, R415). -/
def Dev.endAssociation (d : Dev) (i : Nat) : Dev :=
  let k := d.lead (d.rd (N.CHAN i))
  let d := d.dropSession i
  if d.role k = roleHEAD ∧ d.rd (N.KIND i) = 1 ∧ d.rd (N.STATE i) ≠ stABSENT then d.nodeLost k i
  else if d.isOut k ∧ d.rd (N.KIND i) = 2 ∧ d.ostate k = osJOINED then d.unjoin k
  else d

/-- A word of an entry takes identity and tunable fields from the copy; its live fields become 0, but for STATE and FCINIT,
which stay where they agree with the copy's shadow of them (whether they do is log entry 27). -/
def Dev.repairFields (d : Dev) (i w : Nat) : Dev :=
  let a := nodeWord i w
  let x := Config.upset d.draws
  let stays : Word32 := if w = 0 ∧ !x.getLsbD 1 then 0x18000000#32 else if w = 1 ∧ !x.getLsbD 2 then 0x10000000#32 else 0
  let fixed := identMask w ||| tuneMask w
  let v := (Tab.get 0 d.copy a &&& fixed) ||| (d.word a &&& stays)
  let d := { d with draws := d.draws + 1 }.setTable a v
  if w = 1 ∧ x.getLsbD 2 then d.endAssociation i else d

/-- Words 14 and 15: FCTR is drawn anew and the association's session ends (R415). -/
def Dev.repairCounter (d : Dev) (i : Nat) : Dev :=
  let (c, d) := d.drawCtr
  ((d.setTable (nodeWord i 14) (BitVec.ofNat 32 c)).setTable (nodeWord i 15) (BitVec.ofNat 32 (c / 2 ^ 32))).endAssociation i

/-- The channel that a table word concerns: the home channel of its sequencer, or the channel of its entry. -/
def Dev.tableChan (d : Dev) (a : Nat) : Nat :=
  if a < 0x1000000 then (a - 0x800000) / 0x10000 / 2 else d.rd (N.CHAN ((a - 0x1000000) / 64))

/-- A table word that fails parity is repaired from the copy: REPAIRS and PARITY (R414).  A damaged copy leaves it as it is
(R416). -/
def Dev.repairWord (d : Dev) (a : Nat) : Dev :=
  let k := d.tableChan a
  let i := (a - 0x1000000) / 64
  let w := a / 4 % 16
  if 0x1000000 ≤ a ∧ 14 ≤ w then ((d.repairCounter i).inc F.FT_CNT_REPAIRS).cause causePARITY { chan := some k }
  else if d.copyBad.contains a then { d with badParity := a :: d.badParity.filter (fun b => b ≠ a) }
  else
    let d := if a < 0x1000000 then d.setTable a (Tab.get 0 d.copy a) else d.repairFields i w
    (d.inc F.FT_CNT_REPAIRS).cause causePARITY { chan := some k }

/-- A word found failing parity is repaired, or stays as it is while PD_HBM is off. -/
def Dev.foundBad (d : Dev) (a : Nat) : Dev :=
  if d.domOn 78 then d.repairWord a
  else { d.raise F.FT_STAT_SCRUBOFF with badParity := a :: d.badParity.filter (fun b => b ≠ a) }

/-- A word of an entry that a COMMIT has written in this cycle: its repair is discarded (R414). -/
def Dev.overwritten (d : Dev) (a : Nat) : Bool :=
  decide (0x1000000 ≤ a) && d.justCommitted.any (fun e => e.1 == (a - 0x1000000) / 64)

/-- WORD_REPAIR (R414): an access or the walk has found a word of a table that fails parity. -/
def execWordRepair (t : Nat) (addr : Nat) (s : State) : Host.Outcome State Fault Refusal :=
  s.runClk t (fun d =>
    if d.domOn 76 ∧ 0x800000 ≤ addr ∧ addr < 0x1800000 ∧ addr % 4 = 0 ∧ !d.overwritten addr then d.foundBad addr else d)

/-- SCRUB_MS, below 10 treated as 10. -/
def Dev.scrubNs (d : Dev) : Nat := 1000000 * max 10 (d.rd F.FT_CFG_SCRUB_MS)

/-- Cells that two passes in a row found in no list are zeroed and go back to the free list. -/
def Dev.scrubCells (d : Dev) : Dev :=
  let found := d.orphans
  let twice := found.filter d.suspects.contains
  let d := { d.zeroCells twice with suspects := found.filter (fun c => !twice.contains c) }
  if twice = [] then d else d.inc F.FT_CNT_ORPHANS twice.length

/-- SCRUB_PASS (R413, R414): a pass ends. -/
def execScrubPass (t : Nat) (s : State) : Host.Outcome State Fault Refusal :=
  s.runClk t (fun d =>
    if !d.domOn 76 ∨ d.now < d.scrubFrom + d.scrubNs then d
    else
      let d := d.scrubCells
      let d := d.wr F.FT_STAT_SCRUBOFF (if d.domOn 78 then 0 else 1)
      let d := d.badParity.foldl Dev.foundBad d
      { d.wr F.FT_STAT_PASSES (d.rd F.FT_STAT_PASSES + 1) with scrubFrom := d.now })

/-! ### Uncorrectable HBM errors (R416) -/

/-- First 4 KiB block of the deep-queue region. -/
def deepBlock : Nat := 8388608

/-- Items of a ring with a word in 16-octet block `w` of sector `s`: `pos` is the ring position of the first one, and `n` the
words of the ring that have left staging. -/
def poisonRing (ring s w : Nat) : Nat → Nat → List Item → List Item
  | _, _, [] => []
  | pos, n, i :: l =>
    let hit := (List.range (min i.span n)).any (fun x => (pos + x) / 512 % ring == s && (pos + x) % 512 / 2 == w)
    (if hit then { i with words := i.words.map (fun x => (x.1, true)) } else i) :: poisonRing ring s w (pos + i.span) (n - i.span) l

/-- The enabled deep queue whose ring holds a sector. -/
def Dev.ringOf (d : Dev) (s : Nat) : Option Nat :=
  (d.deep.map Prod.fst).find? (fun q => d.on (F.QD_CFG_EN q) && decide (d.rd (F.QD_BASE_DBASE q) ≤ s) &&
    decide (s < d.rd (F.QD_BASE_DBASE q) + 2 ^ d.rd (F.QD_CFG_DLOG q)))

/-- A deep-queue sector: every item with a word in the block is poisoned. -/
def Dev.poisonSector (d : Dev) (q s w : Nat) : Dev :=
  let x := d.dq q
  let stored := ringDist (d.dHead q) (d.dTail q) - d.staged q
  let ring := 2 ^ d.rd (F.QD_CFG_DLOG q)
  d.setDq q { x with items := poisonRing ring (s - d.rd (F.QD_BASE_DBASE q)) w (d.dHead q) stored x.items }

/-- PARITY of an HBM error, with the channel that it concerns. -/
def Dev.hbmCause (d : Dev) (chan : Option Nat) : Dev := d.cause causePARITY { chan := chan }

/-- The channel in whose interleaver range a sector lies (R132, R135). -/
def Dev.ilChan (d : Dev) (block : Nat) : Option Nat :=
  (List.range 64).find? (fun k => d.role k != roleOFF && decide (d.rd (F.FR_ILBASE_ILBASE k) ≤ block / 256) &&
    decide (block / 256 < d.rd (F.FR_ILBASE_ILBASE k) + min 512 (d.rd (F.FR_ILMEM_ILMEM k))))

/-- Soft values from place `o` on, of which those at some places are 0. -/
def zeroPlaces (ps : List Nat) (o : Nat) (l : List Int) : List Int :=
  (l.zipIdx o).map (fun x => if ps.contains x.2 then 0 else x.1)

def zeroSyms (ps : List Nat) : Nat → List (Nat × List Int) → List (Nat × List Int)
  | _, [] => []
  | o, (t, s) :: l => (t, zeroPlaces ps o s) :: zeroSyms ps (o + s.length) l

/-- A block of interleaver memory fails: the soft values that stood there are 0; bits of a transmission are sent as read (R416; log
entry 110). -/
def Dev.loseSoft (d : Dev) (k : Nat) : Dev :=
  let ps := (List.range 16).map (Config.softPlace d.draws)
  ({ d with draws := d.draws + 1 }).modLock (d.lead k) (fun l =>
    { l with stream := zeroPlaces ps 0 l.stream, syms := zeroSyms ps l.stream.length l.syms })

/-- The effect by region: interleaver, association store (its next unwrap fails, R284), restore records, repair copy, deep queues.
-/
def Dev.hbmRegion (d : Dev) (block w : Nat) : Dev :=
  if block < deepBlock then
    match d.ilChan block with
    | some k => (d.loseSoft k).hbmCause (some k)
    | none => d.hbmCause none
  else
    let s := block - deepBlock
    if s < 4096 then d.hbmCause (d.chanOfSa (32 * s + w / 8))
    else if s < 4288 then
      let k := (s - 4096) / 3
      { d with restore := Tab.set {} d.restore k { d.record k with bad := true } }.hbmCause (some k)
    else if s < 8384 then
      let a := 0x800000 + (s - 4288) * 4096 + 16 * w
      { d with copyBad := [a, a + 4, a + 8, a + 12] ++ d.copyBad }.hbmCause none
    else match d.ringOf s with
      | some q => (d.poisonSector q s w).hbmCause (some (d.rd (F.QD_BASE_CHAN q)))
      | none => d.hbmCause none

/-- HBM_UNCORRECTABLE (R416). -/
def execHbmUncorrectable (t : Nat) (block : Nat) (octets16 : Fin 256) (s : State) : Host.Outcome State Fault Refusal :=
  s.runClk t (fun d =>
    if !d.domOn 78 ∨ 12582912 ≤ block then d
    else
      let d := ((d.inc F.FT_CNT2_HBMUE).wr F.HBM_ERRLOC_BLOCK block).wr F.HBM_ERRLOC_ERRV 1
      d.hbmRegion block octets16.val)

end Sys2Proof.Machine
end

