-- ==== Sys2Proof/Machine/Dispatch.lean ====
section
/-! DEFINITION. One arm per command: a direct call of its meaning. -/

namespace Sys2Proof.Machine

open Sys2Proof

/-- The effect of a command on everything but the queue. -/
def exec (i : Instr) (s : State) : Host.Outcome State Fault Refusal :=
  match i with
  | .refclkSysLoss t => Sys2Proof.Machine.execRefclkSysLoss t s
  | .sampleSync t => Sys2Proof.Machine.execSampleSync t s
  | .sync t => Sys2Proof.Machine.execSync t s
  | .syncReset t => Sys2Proof.Machine.execSyncReset t s
  | .transmitEntry t k => Sys2Proof.Machine.execTransmitEntry t k s
  | .transmissionEnd t k => Sys2Proof.Machine.execTransmissionEnd t k s
  | .driverOvercurrent t k => Sys2Proof.Machine.execDriverOvercurrent t k s
  | .vhvFeLow t die => Sys2Proof.Machine.execVhvFeLow t die s
  | .vhvFeRestored t die => Sys2Proof.Machine.execVhvFeRestored t die s
  | .zeroCrossing t input falling => Sys2Proof.Machine.execZeroCrossing t input falling s
  | .cycleRecordFix t => Sys2Proof.Machine.execCycleRecordFix t s
  | .missedCycles t => Sys2Proof.Machine.execMissedCycles t s
  | .freerun t => Sys2Proof.Machine.execFreerun t s
  | .mtCfgWrite t w v => Sys2Proof.Machine.execMtCfgWrite t w v s
  | .mtNowCycRead t => Sys2Proof.Machine.execMtNowCycRead t s
  | .deadlineMiss t item => Sys2Proof.Machine.execDeadlineMiss t item s
  | .responseWindowCommit t k => Sys2Proof.Machine.execResponseWindowCommit t k s
  | .commitA t k => Sys2Proof.Machine.execCommitA t k s
  | .commitB t k => Sys2Proof.Machine.execCommitB t k s
  | .paletteSwap t k => Sys2Proof.Machine.execPaletteSwap t k s
  | .fadeEnd t k => Sys2Proof.Machine.execFadeEnd t k s
  | .windowOpen t k => Sys2Proof.Machine.execWindowOpen t k s
  | .preambleDetection t k f => Sys2Proof.Machine.execPreambleDetection t k f s
  | .trimApply t k => Sys2Proof.Machine.execTrimApply t k s
  | .signReversal t k f => Sys2Proof.Machine.execSignReversal t k f s
  | .syncReversalTimeout t k f => Sys2Proof.Machine.execSyncReversalTimeout t k f s
  | .syncWordDecision t k f => Sys2Proof.Machine.execSyncWordDecision t k f s
  | .headerDecode t k hdr => Sys2Proof.Machine.execHeaderDecode t k hdr s
  | .sentinelCandidate t k f => Sys2Proof.Machine.execSentinelCandidate t k f s
  | .payloadSymbol t k r => Sys2Proof.Machine.execPayloadSymbol t k r s
  | .interleaverBlockComplete t k => Sys2Proof.Machine.execInterleaverBlockComplete t k s
  | .codewordDecode t k => Sys2Proof.Machine.execCodewordDecode t k s
  | .tagVerdict t k v => Sys2Proof.Machine.execTagVerdict t k v s
  | .noiseFloorMeasurement t k level => Sys2Proof.Machine.execNoiseFloorMeasurement t k level s
  | .beacon t k => Sys2Proof.Machine.execBeacon t k s
  | .poll t k => Sys2Proof.Machine.execPoll t k s
  | .resp t k => Sys2Proof.Machine.execResp t k s
  | .relay t k => Sys2Proof.Machine.execRelay t k s
  | .joinreq t k => Sys2Proof.Machine.execJoinreq t k s
  | .joinacc t k => Sys2Proof.Machine.execJoinacc t k s
  | .nodeLost t index => Sys2Proof.Machine.execNodeLost t index s
  | .joinAbandon t index => Sys2Proof.Machine.execJoinAbandon t index s
  | .outstationLoss t k => Sys2Proof.Machine.execOutstationLoss t k s
  | .halt t q => Sys2Proof.Machine.execHalt t q s
  | .waitTime t q => Sys2Proof.Machine.execWaitTime t q s
  | .waitTimeComplete t q => Sys2Proof.Machine.execWaitTimeComplete t q s
  | .waitRxdone t q => Sys2Proof.Machine.execWaitRxdone t q s
  | .waitTxdone t q => Sys2Proof.Machine.execWaitTxdone t q s
  | .waitGrant t q => Sys2Proof.Machine.execWaitGrant t q s
  | .waitKey t q => Sys2Proof.Machine.execWaitKey t q s
  | .waitFlagSet t q => Sys2Proof.Machine.execWaitFlagSet t q s
  | .waitFlagClear t q => Sys2Proof.Machine.execWaitFlagClear t q s
  | .armNode t q => Sys2Proof.Machine.execArmNode t q s
  | .armSwap t q => Sys2Proof.Machine.execArmSwap t q s
  | .armPath t q => Sys2Proof.Machine.execArmPath t q s
  | .armPathCommit t q => Sys2Proof.Machine.execArmPathCommit t q s
  | .tx t q => Sys2Proof.Machine.execTx t q s
  | .rx t q => Sys2Proof.Machine.execRx t q s
  | .branch t q => Sys2Proof.Machine.execBranch t q s
  | .loop t q => Sys2Proof.Machine.execLoop t q s
  | .call t q => Sys2Proof.Machine.execCall t q s
  | .ret t q => Sys2Proof.Machine.execRet t q s
  | .budgetTxslot t q => Sys2Proof.Machine.execBudgetTxslot t q s
  | .budgetIter t q => Sys2Proof.Machine.execBudgetIter t q s
  | .budgetBringup t q => Sys2Proof.Machine.execBudgetBringup t q s
  | .keyfetch t q => Sys2Proof.Machine.execKeyfetch t q s
  | .noteNotice t q => Sys2Proof.Machine.execNoteNotice t q s
  | .noteEvent t q => Sys2Proof.Machine.execNoteEvent t q s
  | .noteFlagSet t q => Sys2Proof.Machine.execNoteFlagSet t q s
  | .noteFlagClear t q => Sys2Proof.Machine.execNoteFlagClear t q s
  | .sequencerFault t q cause => Sys2Proof.Machine.execSequencerFault t q cause s
  | .seqWatchdog t q => Sys2Proof.Machine.execSeqWatchdog t q s
  | .start t q => Sys2Proof.Machine.execStart t q s
  | .startCheckComplete t q => Sys2Proof.Machine.execStartCheckComplete t q s
  | .seqRunEntry t q => Sys2Proof.Machine.execSeqRunEntry t q s
  | .stop t q => Sys2Proof.Machine.execStop t q s
  | .clear t q => Sys2Proof.Machine.execClear t q s
  | .pfset t k mask => Sys2Proof.Machine.execPfset t k mask s
  | .pfclr t k mask => Sys2Proof.Machine.execPfclr t k mask s
  | .sqLiveWrite t q v => Sys2Proof.Machine.execSqLiveWrite t q v s
  | .seqTableWrite t q step high v => Sys2Proof.Machine.execSeqTableWrite t q step high v s
  | .seqAutoRestart t q => Sys2Proof.Machine.execSeqAutoRestart t q s
  | .txslotDecision t q => Sys2Proof.Machine.execTxslotDecision t q s
  | .iterDecision t q => Sys2Proof.Machine.execIterDecision t q s
  | .bringupDecision t q => Sys2Proof.Machine.execBringupDecision t q s
  | .governorTick t rails => Sys2Proof.Machine.execGovernorTick t rails s
  | .temperatureSample t x sensor => Sys2Proof.Machine.execTemperatureSample t x sensor s
  | .thermalTrip t => Sys2Proof.Machine.execThermalTrip t s
  | .gvPdcmdOn t w dom => Sys2Proof.Machine.execGvPdcmdOn t w dom s
  | .gvPdcmdOff t w dom => Sys2Proof.Machine.execGvPdcmdOff t w dom s
  | .domainSwitchOnDone t => Sys2Proof.Machine.execDomainSwitchOnDone t s
  | .gvChcmdOn t w k role => Sys2Proof.Machine.execGvChcmdOn t w k role s
  | .gvChcmdOff t w k => Sys2Proof.Machine.execGvChcmdOff t w k s
  | .gvChcmdHold t w k role => Sys2Proof.Machine.execGvChcmdHold t w k role s
  | .restoreDone t k => Sys2Proof.Machine.execRestoreDone t k s
  | .calibrationDone t k within => Sys2Proof.Machine.execCalibrationDone t k within s
  | .drainComplete t k => Sys2Proof.Machine.execDrainComplete t k s
  | .drainTimeout t k => Sys2Proof.Machine.execDrainTimeout t k s
  | .captureDone t k => Sys2Proof.Machine.execCaptureDone t k s
  | .queuePush t q cls words last => Sys2Proof.Machine.execQueuePush t q cls words last s
  | .queuePop t q n badWord badLink => Sys2Proof.Machine.execQueuePop t q n badWord badLink s
  | .prune t q => Sys2Proof.Machine.execPrune t q s
  | .flush t q => Sys2Proof.Machine.execFlush t q s
  | .abort t q => Sys2Proof.Machine.execAbort t q s
  | .zeroingDone t => Sys2Proof.Machine.execZeroingDone t s
  | .sectorEncryptDone t d => Sys2Proof.Machine.execSectorEncryptDone t d s
  | .sectorDecryptDone t d => Sys2Proof.Machine.execSectorDecryptDone t d s
  | .queueEnable t q => Sys2Proof.Machine.execQueueEnable t q s
  | .queueDisable t q => Sys2Proof.Machine.execQueueDisable t q s
  | .half1Set t => Sys2Proof.Machine.execHalf1Set t s
  | .half1Clear t => Sys2Proof.Machine.execHalf1Clear t s
  | .frameReceive t p octets => Sys2Proof.Machine.execFrameReceive t p octets s
  | .egressFrameStart t p => Sys2Proof.Machine.execEgressFrameStart t p s
  | .lossOfSignal t p lane => Sys2Proof.Machine.execLossOfSignal t p lane s
  | .lossOfAlignment t p hiser => Sys2Proof.Machine.execLossOfAlignment t p hiser s
  | .portUp t p => Sys2Proof.Machine.execPortUp t p s
  | .failholdExpiry t p => Sys2Proof.Machine.execFailholdExpiry t p s
  | .revert t p => Sys2Proof.Machine.execRevert t p s
  | .pfcFrame t p prio quanta => Sys2Proof.Machine.execPfcFrame t p prio quanta s
  | .pauseExpiry t p prio => Sys2Proof.Machine.execPauseExpiry t p prio s
  | .pfcRepeat t => Sys2Proof.Machine.execPfcRepeat t s
  | .load t slot index => Sys2Proof.Machine.execLoad t slot index s
  | .commit t slot index setabs clrhold => Sys2Proof.Machine.execCommit t slot index setabs clrhold s
  | .keyResident t saidx phase intact => Sys2Proof.Machine.execKeyResident t saidx phase intact s
  | .keywaitExpiry t k => Sys2Proof.Machine.execKeywaitExpiry t k s
  | .keywr t src saidx phase => Sys2Proof.Machine.execKeywr t src saidx phase s
  | .keyerase t src saidx phase => Sys2Proof.Machine.execKeyerase t src saidx phase s
  | .roll t src saidx => Sys2Proof.Machine.execRoll t src saidx s
  | .query t src saidx => Sys2Proof.Machine.execQuery t src saidx s
  | .create t src saidx kind => Sys2Proof.Machine.execCreate t src saidx kind s
  | .delete t src saidx => Sys2Proof.Machine.execDelete t src saidx s
  | .pageerase t src => Sys2Proof.Machine.execPageerase t src s
  | .saCommandDone t src => Sys2Proof.Machine.execSaCommandDone t src s
  | .acq t sess => Sys2Proof.Machine.execAcq t sess s
  | .rel t sess => Sys2Proof.Machine.execRel t sess s
  | .leaseExpiry t => Sys2Proof.Machine.execLeaseExpiry t s
  | .jen t p => Sys2Proof.Machine.execJen t p s
  | .jgo t p => Sys2Proof.Machine.execJgo t p s
  | .jobComplete t p => Sys2Proof.Machine.execJobComplete t p s
  | .pgJdone3Read t p => Sys2Proof.Machine.execPgJdone3Read t p s
  | .ownkeySet t w => Sys2Proof.Machine.execOwnkeySet t w s
  | .lock t w => Sys2Proof.Machine.execLock t w s
  | .svnCommit t w => Sys2Proof.Machine.execSvnCommit t w s
  | .decommission t w => Sys2Proof.Machine.execDecommission t w s
  | .imageVerify t => Sys2Proof.Machine.execImageVerify t s
  | .identityReady t => Sys2Proof.Machine.execIdentityReady t s
  | .attestReportReady t => Sys2Proof.Machine.execAttestReportReady t s
  | .entropyStartupPass t bits => Sys2Proof.Machine.execEntropyStartupPass t bits s
  | .entropyFailure t bits => Sys2Proof.Machine.execEntropyFailure t bits s
  | .entropyRetest t bits => Sys2Proof.Machine.execEntropyRetest t bits s
  | .entropyStartTimeout t => Sys2Proof.Machine.execEntropyStartTimeout t s
  | .drbgReseed t => Sys2Proof.Machine.execDrbgReseed t s
  | .tamp t pin level => Sys2Proof.Machine.execTamp t pin level s
  | .lid t => Sys2Proof.Machine.execLid t s
  | .volt t => Sys2Proof.Machine.execVolt t s
  | .clock t absent => Sys2Proof.Machine.execClock t absent s
  | .temp t => Sys2Proof.Machine.execTemp t s
  | .jtag t => Sys2Proof.Machine.execJtag t s
  | .almlock t => Sys2Proof.Machine.execAlmlock t s
  | .resetNAssert t => Sys2Proof.Machine.execResetNAssert t s
  | .resetNRelease t => Sys2Proof.Machine.execResetNRelease t s
  | .flashDiscoveryDone t mode dens mhz a b => Sys2Proof.Machine.execFlashDiscoveryDone t mode dens mhz a b s
  | .slotReadDone t img => Sys2Proof.Machine.execSlotReadDone t img s
  | .serviceStart t => Sys2Proof.Machine.execServiceStart t s
  | .serviceWaitTimeout t => Sys2Proof.Machine.execServiceWaitTimeout t s
  | .squelchClear t p => Sys2Proof.Machine.execSquelchClear t p s
  | .squelchSet t p => Sys2Proof.Machine.execSquelchSet t p s
  | .openFrame t p mac f tagOk => Sys2Proof.Machine.execOpenFrame t p mac f tagOk s
  | .req t p mac f tagOk => Sys2Proof.Machine.execReq t p mac f tagOk s
  | .flashWriteDone t ok => Sys2Proof.Machine.execFlashWriteDone t ok s
  | .sessionLapse t sess => Sys2Proof.Machine.execSessionLapse t sess s
  | .sessionIdleTimeout t sess => Sys2Proof.Machine.execSessionIdleTimeout t sess s
  | .noticeSend t => Sys2Proof.Machine.execNoticeSend t s
  | .windowBoundary t timer => Sys2Proof.Machine.execWindowBoundary t timer s
  | .wrapclr t c => Sys2Proof.Machine.execWrapclr t c s
  | .cntRdRead t c reader => Sys2Proof.Machine.execCntRdRead t c reader s
  | .counterSettingWrite t c which v => Sys2Proof.Machine.execCounterSettingWrite t c which v s
  | .wtCfgWrite t timer v => Sys2Proof.Machine.execWtCfgWrite t timer v s
  | .bwCfgWrite t v => Sys2Proof.Machine.execBwCfgWrite t v s
  | .scrubPass t => Sys2Proof.Machine.execScrubPass t s
  | .wordRepair t addr => Sys2Proof.Machine.execWordRepair t addr s
  | .hbmUncorrectable t block octets16 => Sys2Proof.Machine.execHbmUncorrectable t block octets16 s
  | .registerWrite t w addr v => Sys2Proof.Machine.execRegisterWrite t w addr v s
  | .refclkSysRestored t => Sys2Proof.Machine.execRefclkSysRestored t s
  | .vddFeOutOfRange t => Sys2Proof.Machine.execVddFeOutOfRange t s
  | .discoveryWindowEnd t k => Sys2Proof.Machine.execDiscoveryWindowEnd t k s
  | .nfAgeExpiry t k => Sys2Proof.Machine.execNfAgeExpiry t k s
  | .portUpTimeout t p g => Sys2Proof.Machine.execPortUpTimeout t p g s
  | .otpCommandDone t => Sys2Proof.Machine.execOtpCommandDone t s

end Sys2Proof.Machine
end

