-- ==== Sys2Proof/WellFormed.lean ====
section
/-! DEFINITION. Which commands are well formed: the bounds that the rules put on operands wider than their types. -/

namespace Sys2Proof

/-- The nanosecond instant at which a command falls (R13; log entry 1). -/
def Instr.stamp : Instr → Nat
  | .refclkSysLoss t => t
  | .sampleSync t => t
  | .sync t => t
  | .syncReset t => t
  | .transmitEntry t _ => t
  | .transmissionEnd t _ => t
  | .driverOvercurrent t _ => t
  | .vhvFeLow t _ => t
  | .vhvFeRestored t _ => t
  | .zeroCrossing t _ _ => t
  | .cycleRecordFix t => t
  | .missedCycles t => t
  | .freerun t => t
  | .mtCfgWrite t _ _ => t
  | .mtNowCycRead t => t
  | .deadlineMiss t _ => t
  | .responseWindowCommit t _ => t
  | .commitA t _ => t
  | .commitB t _ => t
  | .paletteSwap t _ => t
  | .fadeEnd t _ => t
  | .windowOpen t _ => t
  | .preambleDetection t _ _ => t
  | .trimApply t _ => t
  | .signReversal t _ _ => t
  | .syncReversalTimeout t _ _ => t
  | .syncWordDecision t _ _ => t
  | .headerDecode t _ _ => t
  | .sentinelCandidate t _ _ => t
  | .payloadSymbol t _ _ => t
  | .interleaverBlockComplete t _ => t
  | .codewordDecode t _ => t
  | .tagVerdict t _ _ => t
  | .noiseFloorMeasurement t _ _ => t
  | .beacon t _ => t
  | .poll t _ => t
  | .resp t _ => t
  | .relay t _ => t
  | .joinreq t _ => t
  | .joinacc t _ => t
  | .nodeLost t _ => t
  | .joinAbandon t _ => t
  | .outstationLoss t _ => t
  | .halt t _ => t
  | .waitTime t _ => t
  | .waitTimeComplete t _ => t
  | .waitRxdone t _ => t
  | .waitTxdone t _ => t
  | .waitGrant t _ => t
  | .waitKey t _ => t
  | .waitFlagSet t _ => t
  | .waitFlagClear t _ => t
  | .armNode t _ => t
  | .armSwap t _ => t
  | .armPath t _ => t
  | .armPathCommit t _ => t
  | .tx t _ => t
  | .rx t _ => t
  | .branch t _ => t
  | .loop t _ => t
  | .call t _ => t
  | .ret t _ => t
  | .budgetTxslot t _ => t
  | .budgetIter t _ => t
  | .budgetBringup t _ => t
  | .keyfetch t _ => t
  | .noteNotice t _ => t
  | .noteEvent t _ => t
  | .noteFlagSet t _ => t
  | .noteFlagClear t _ => t
  | .sequencerFault t _ _ => t
  | .seqWatchdog t _ => t
  | .start t _ => t
  | .startCheckComplete t _ => t
  | .seqRunEntry t _ => t
  | .stop t _ => t
  | .clear t _ => t
  | .pfset t _ _ => t
  | .pfclr t _ _ => t
  | .sqLiveWrite t _ _ => t
  | .seqTableWrite t _ _ _ _ => t
  | .seqAutoRestart t _ => t
  | .txslotDecision t _ => t
  | .iterDecision t _ => t
  | .bringupDecision t _ => t
  | .governorTick t _ => t
  | .temperatureSample t _ _ => t
  | .thermalTrip t => t
  | .gvPdcmdOn t _ _ => t
  | .gvPdcmdOff t _ _ => t
  | .domainSwitchOnDone t => t
  | .gvChcmdOn t _ _ _ => t
  | .gvChcmdOff t _ _ => t
  | .gvChcmdHold t _ _ _ => t
  | .restoreDone t _ => t
  | .calibrationDone t _ _ => t
  | .drainComplete t _ => t
  | .drainTimeout t _ => t
  | .captureDone t _ => t
  | .queuePush t _ _ _ _ => t
  | .queuePop t _ _ _ _ => t
  | .prune t _ => t
  | .flush t _ => t
  | .abort t _ => t
  | .zeroingDone t => t
  | .sectorEncryptDone t _ => t
  | .sectorDecryptDone t _ => t
  | .queueEnable t _ => t
  | .queueDisable t _ => t
  | .half1Set t => t
  | .half1Clear t => t
  | .frameReceive t _ _ => t
  | .egressFrameStart t _ => t
  | .lossOfSignal t _ _ => t
  | .lossOfAlignment t _ _ => t
  | .portUp t _ => t
  | .failholdExpiry t _ => t
  | .revert t _ => t
  | .pfcFrame t _ _ _ => t
  | .pauseExpiry t _ _ => t
  | .pfcRepeat t => t
  | .load t _ _ => t
  | .commit t _ _ _ _ => t
  | .keyResident t _ _ _ => t
  | .keywaitExpiry t _ => t
  | .keywr t _ _ _ => t
  | .keyerase t _ _ _ => t
  | .roll t _ _ => t
  | .query t _ _ => t
  | .create t _ _ _ => t
  | .delete t _ _ => t
  | .pageerase t _ => t
  | .saCommandDone t _ => t
  | .acq t _ => t
  | .rel t _ => t
  | .leaseExpiry t => t
  | .jen t _ => t
  | .jgo t _ => t
  | .jobComplete t _ => t
  | .pgJdone3Read t _ => t
  | .ownkeySet t _ => t
  | .lock t _ => t
  | .svnCommit t _ => t
  | .decommission t _ => t
  | .imageVerify t => t
  | .identityReady t => t
  | .attestReportReady t => t
  | .entropyStartupPass t _ => t
  | .entropyFailure t _ => t
  | .entropyRetest t _ => t
  | .entropyStartTimeout t => t
  | .drbgReseed t => t
  | .tamp t _ _ => t
  | .lid t => t
  | .volt t => t
  | .clock t _ => t
  | .temp t => t
  | .jtag t => t
  | .almlock t => t
  | .resetNAssert t => t
  | .resetNRelease t => t
  | .flashDiscoveryDone t _ _ _ _ _ => t
  | .slotReadDone t _ => t
  | .serviceStart t => t
  | .serviceWaitTimeout t => t
  | .squelchClear t _ => t
  | .squelchSet t _ => t
  | .openFrame t _ _ _ _ => t
  | .req t _ _ _ _ => t
  | .flashWriteDone t _ => t
  | .sessionLapse t _ => t
  | .sessionIdleTimeout t _ => t
  | .noticeSend t => t
  | .windowBoundary t _ => t
  | .wrapclr t _ => t
  | .cntRdRead t _ _ => t
  | .counterSettingWrite t _ _ _ => t
  | .wtCfgWrite t _ _ => t
  | .bwCfgWrite t _ => t
  | .scrubPass t => t
  | .wordRepair t _ => t
  | .hbmUncorrectable t _ _ => t
  | .registerWrite t _ _ _ => t
  | .refclkSysRestored t => t
  | .vddFeOutOfRange t => t
  | .discoveryWindowEnd t _ => t
  | .nfAgeExpiry t _ => t
  | .portUpTimeout t _ _ => t
  | .otpCommandDone t => t

/-- Samples as they can come: at most the four members of a bundle, and codes of 14 bits (R26, R65). -/
def Feed.ok (f : Feed) : Bool :=
  decide (f.codes.length ≤ 4) && f.codes.all (fun l => l.all (fun c => decide (-8192 ≤ c ∧ c ≤ 8191)))

/-- The operands lie within the bounds of the command's rule: samples of a bundle have 14 bits (R65), a push or pop moves 1 to 8 words and
an END counts an octet (R249), a register address has 32 bits (R419), a table word is aligned and lies in a table (R414), HBM has
12,582,912 blocks (R416), an item has 16,383 octets at most (R250), a management payload 9,120 (R354), a frame holds its addresses, its
EtherType and its FCS (R352), address 0 has no entry (R224). -/
def Instr.operandsOk : Instr → Bool
  | .refclkSysLoss _ => true
  | .sampleSync _ => true
  | .sync _ => true
  | .syncReset _ => true
  | .transmitEntry _ _ => true
  | .transmissionEnd _ _ => true
  | .driverOvercurrent _ _ => true
  | .vhvFeLow _ _ => true
  | .vhvFeRestored _ _ => true
  | .zeroCrossing _ _ _ => true
  | .cycleRecordFix _ => true
  | .missedCycles _ => true
  | .freerun _ => true
  | .mtCfgWrite _ _ _ => true
  | .mtNowCycRead _ => true
  | .deadlineMiss _ _ => true
  | .responseWindowCommit _ _ => true
  | .commitA _ _ => true
  | .commitB _ _ => true
  | .paletteSwap _ _ => true
  | .fadeEnd _ _ => true
  | .windowOpen _ _ => true
  | .preambleDetection _ _ f => f.ok
  | .trimApply _ _ => true
  | .signReversal _ _ f => f.ok
  | .syncReversalTimeout _ _ f => f.ok
  | .syncWordDecision _ _ f => f.ok
  | .headerDecode _ _ f => f.ok
  | .sentinelCandidate _ _ f => f.ok
  | .payloadSymbol _ _ f => f.ok
  | .interleaverBlockComplete _ _ => true
  | .codewordDecode _ _ => true
  | .tagVerdict _ _ _ => true
  | .noiseFloorMeasurement _ _ f => f.ok
  | .beacon _ _ => true
  | .poll _ _ => true
  | .resp _ _ => true
  | .relay _ _ => true
  | .joinreq _ _ => true
  | .joinacc _ _ => true
  | .nodeLost _ index => decide (index ≠ 0)
  | .joinAbandon _ _ => true
  | .outstationLoss _ _ => true
  | .halt _ _ => true
  | .waitTime _ _ => true
  | .waitTimeComplete _ _ => true
  | .waitRxdone _ _ => true
  | .waitTxdone _ _ => true
  | .waitGrant _ _ => true
  | .waitKey _ _ => true
  | .waitFlagSet _ _ => true
  | .waitFlagClear _ _ => true
  | .armNode _ _ => true
  | .armSwap _ _ => true
  | .armPath _ _ => true
  | .armPathCommit _ _ => true
  | .tx _ _ => true
  | .rx _ _ => true
  | .branch _ _ => true
  | .loop _ _ => true
  | .call _ _ => true
  | .ret _ _ => true
  | .budgetTxslot _ _ => true
  | .budgetIter _ _ => true
  | .budgetBringup _ _ => true
  | .keyfetch _ _ => true
  | .noteNotice _ _ => true
  | .noteEvent _ _ => true
  | .noteFlagSet _ _ => true
  | .noteFlagClear _ _ => true
  | .sequencerFault _ _ _ => true
  | .seqWatchdog _ _ => true
  | .start _ _ => true
  | .startCheckComplete _ _ => true
  | .seqRunEntry _ _ => true
  | .stop _ _ => true
  | .clear _ _ => true
  | .pfset _ _ _ => true
  | .pfclr _ _ _ => true
  | .sqLiveWrite _ _ _ => true
  | .seqTableWrite _ _ _ _ _ => true
  | .seqAutoRestart _ _ => true
  | .txslotDecision _ _ => true
  | .iterDecision _ _ => true
  | .bringupDecision _ _ => true
  | .governorTick _ _ => true
  | .temperatureSample _ _ _ => true
  | .thermalTrip _ => true
  | .gvPdcmdOn _ _ _ => true
  | .gvPdcmdOff _ _ _ => true
  | .domainSwitchOnDone _ => true
  | .gvChcmdOn _ _ _ _ => true
  | .gvChcmdOff _ _ _ => true
  | .gvChcmdHold _ _ _ _ => true
  | .restoreDone _ _ => true
  | .calibrationDone _ _ _ => true
  | .drainComplete _ _ => true
  | .drainTimeout _ _ => true
  | .captureDone _ _ => true
  | .queuePush _ _ _ words last => words != [] && decide (words.length ≤ 8) && last != some 0
  | .queuePop _ _ n _ _ => decide (1 ≤ n) && decide (n ≤ 8)
  | .prune _ _ => true
  | .flush _ _ => true
  | .abort _ _ => true
  | .zeroingDone _ => true
  | .sectorEncryptDone _ _ => true
  | .sectorDecryptDone _ _ => true
  | .queueEnable _ _ => true
  | .queueDisable _ _ => true
  | .half1Set _ => true
  | .half1Clear _ => true
  | .frameReceive _ _ octets => decide (18 ≤ octets.length)
  | .egressFrameStart _ _ => true
  | .lossOfSignal _ _ _ => true
  | .lossOfAlignment _ _ _ => true
  | .portUp _ _ => true
  | .failholdExpiry _ _ => true
  | .revert _ _ => true
  | .pfcFrame _ _ _ _ => true
  | .pauseExpiry _ _ _ => true
  | .pfcRepeat _ => true
  | .load _ _ _ => true
  | .commit _ _ _ _ _ => true
  | .keyResident _ _ _ _ => true
  | .keywaitExpiry _ _ => true
  | .keywr _ _ _ _ => true
  | .keyerase _ _ _ _ => true
  | .roll _ _ _ => true
  | .query _ _ _ => true
  | .create _ _ _ _ => true
  | .delete _ _ _ => true
  | .pageerase _ _ => true
  | .saCommandDone _ _ => true
  | .acq _ _ => true
  | .rel _ _ => true
  | .leaseExpiry _ => true
  | .jen _ _ => true
  | .jgo _ _ => true
  | .jobComplete _ _ => true
  | .pgJdone3Read _ _ => true
  | .ownkeySet _ _ => true
  | .lock _ _ => true
  | .svnCommit _ _ => true
  | .decommission _ _ => true
  | .imageVerify _ => true
  | .identityReady _ => true
  | .attestReportReady _ => true
  | .entropyStartupPass _ _ => true
  | .entropyFailure _ _ => true
  | .entropyRetest _ _ => true
  | .entropyStartTimeout _ => true
  | .drbgReseed _ => true
  | .tamp _ _ _ => true
  | .lid _ => true
  | .volt _ => true
  | .clock _ _ => true
  | .temp _ => true
  | .jtag _ => true
  | .almlock _ => true
  | .resetNAssert _ => true
  | .resetNRelease _ => true
  | .flashDiscoveryDone _ _ _ _ _ _ => true
  | .slotReadDone _ _ => true
  | .serviceStart _ => true
  | .serviceWaitTimeout _ => true
  | .squelchClear _ _ => true
  | .squelchSet _ _ => true
  | .openFrame _ _ _ f _ => decide (f.payload.length ≤ 9120)
  | .req _ _ _ f _ => decide (f.payload.length ≤ 9120)
  | .flashWriteDone _ _ => true
  | .sessionLapse _ _ => true
  | .sessionIdleTimeout _ _ => true
  | .noticeSend _ => true
  | .windowBoundary _ _ => true
  | .wrapclr _ _ => true
  | .cntRdRead _ _ _ => true
  | .counterSettingWrite _ _ _ _ => true
  | .wtCfgWrite _ _ _ => true
  | .bwCfgWrite _ _ => true
  | .scrubPass _ => true
  | .wordRepair _ addr => addr % 4 == 0 && decide (0x800000 ≤ addr) && decide (addr < 0x1800000)
  | .hbmUncorrectable _ block _ => decide (block < 12582912)
  | .registerWrite _ _ addr _ => decide (addr < 2 ^ 32)
  | .refclkSysRestored _ => true
  | .vddFeOutOfRange _ => true
  | .discoveryWindowEnd _ _ => true
  | .nfAgeExpiry _ _ => true
  | .portUpTimeout _ _ _ => true
  | .otpCommandDone _ => true

/-- A well-formed command: its instant fits nanosecond time (R13), and its operands their bounds. -/
def Instr.wf (i : Instr) : Bool := decide (i.stamp < 2 ^ 64) && i.operandsOk

end Sys2Proof
end

