-- ==== Sys2Proof/Safety.lean ====
section
/-! DEFINITION. The terms in which statements speak of the machine: when a command has its effect, the state after it, and what
holds after every command. -/

namespace Sys2Proof

/-- The families of commands whose frames are stated; `other` is every command that can reach the whole module. -/
inductive Family where
  | timing | counters | queues | sectors | steps | records | links | reception | messages | transmission | sessions | other
deriving DecidableEq, Repr

/-- The family of a command. -/
def Instr.family : Instr → Family
  | .refclkSysLoss _ => .other
  | .sampleSync _ => .steps
  | .sync _ => .steps
  | .syncReset _ => .steps
  | .transmitEntry _ _ => .transmission
  | .transmissionEnd _ _ => .transmission
  | .driverOvercurrent _ _ => .transmission
  | .vhvFeLow _ _ => .transmission
  | .vhvFeRestored _ _ => .transmission
  | .zeroCrossing _ _ _ => .timing
  | .cycleRecordFix _ => .timing
  | .missedCycles _ => .timing
  | .freerun _ => .timing
  | .mtCfgWrite _ _ _ => .other
  | .mtNowCycRead _ => .timing
  | .deadlineMiss _ _ => .other
  | .responseWindowCommit _ _ => .reception
  | .commitA _ _ => .timing
  | .commitB _ _ => .timing
  | .paletteSwap _ _ => .steps
  | .fadeEnd _ _ => .timing
  | .windowOpen _ _ => .reception
  | .preambleDetection _ _ _ => .reception
  | .trimApply _ _ => .reception
  | .signReversal _ _ _ => .reception
  | .syncReversalTimeout _ _ _ => .reception
  | .syncWordDecision _ _ _ => .reception
  | .headerDecode _ _ _ => .reception
  | .sentinelCandidate _ _ _ => .reception
  | .payloadSymbol _ _ _ => .reception
  | .interleaverBlockComplete _ _ => .reception
  | .codewordDecode _ _ => .reception
  | .tagVerdict _ _ _ => .reception
  | .noiseFloorMeasurement _ _ _ => .reception
  | .beacon _ _ => .messages
  | .poll _ _ => .messages
  | .resp _ _ => .messages
  | .relay _ _ => .messages
  | .joinreq _ _ => .messages
  | .joinacc _ _ => .messages
  | .nodeLost _ _ => .messages
  | .joinAbandon _ _ => .messages
  | .outstationLoss _ _ => .messages
  | .halt _ _ => .steps
  | .waitTime _ _ => .steps
  | .waitTimeComplete _ _ => .steps
  | .waitRxdone _ _ => .steps
  | .waitTxdone _ _ => .steps
  | .waitGrant _ _ => .steps
  | .waitKey _ _ => .steps
  | .waitFlagSet _ _ => .steps
  | .waitFlagClear _ _ => .steps
  | .armNode _ _ => .steps
  | .armSwap _ _ => .steps
  | .armPath _ _ => .steps
  | .armPathCommit _ _ => .other
  | .tx _ _ => .transmission
  | .rx _ _ => .reception
  | .branch _ _ => .steps
  | .loop _ _ => .steps
  | .call _ _ => .steps
  | .ret _ _ => .steps
  | .budgetTxslot _ _ => .steps
  | .budgetIter _ _ => .steps
  | .budgetBringup _ _ => .steps
  | .keyfetch _ _ => .other
  | .noteNotice _ _ => .steps
  | .noteEvent _ _ => .steps
  | .noteFlagSet _ _ => .steps
  | .noteFlagClear _ _ => .steps
  | .sequencerFault _ _ _ => .other
  | .seqWatchdog _ _ => .other
  | .start _ _ => .steps
  | .startCheckComplete _ _ => .other
  | .seqRunEntry _ _ => .other
  | .stop _ _ => .steps
  | .clear _ _ => .steps
  | .pfset _ _ _ => .steps
  | .pfclr _ _ _ => .steps
  | .sqLiveWrite _ _ _ => .steps
  | .seqTableWrite _ _ _ _ _ => .other
  | .seqAutoRestart _ _ => .other
  | .txslotDecision _ _ => .other
  | .iterDecision _ _ => .other
  | .bringupDecision _ _ => .other
  | .governorTick _ _ => .other
  | .temperatureSample _ _ _ => .other
  | .thermalTrip _ => .other
  | .gvPdcmdOn _ _ _ => .other
  | .gvPdcmdOff _ _ _ => .other
  | .domainSwitchOnDone _ => .other
  | .gvChcmdOn _ _ _ _ => .other
  | .gvChcmdOff _ _ _ => .other
  | .gvChcmdHold _ _ _ _ => .other
  | .restoreDone _ _ => .other
  | .calibrationDone _ _ _ => .other
  | .drainComplete _ _ => .other
  | .drainTimeout _ _ => .other
  | .captureDone _ _ => .other
  | .queuePush _ _ _ _ _ => .queues
  | .queuePop _ _ _ _ _ => .queues
  | .prune _ _ => .queues
  | .flush _ _ => .queues
  | .abort _ _ => .queues
  | .zeroingDone _ => .queues
  | .sectorEncryptDone _ _ => .sectors
  | .sectorDecryptDone _ _ => .sectors
  | .queueEnable _ _ => .queues
  | .queueDisable _ _ => .queues
  | .half1Set _ => .queues
  | .half1Clear _ => .queues
  | .frameReceive _ _ _ => .other
  | .egressFrameStart _ _ => .links
  | .lossOfSignal _ _ _ => .links
  | .lossOfAlignment _ _ _ => .links
  | .portUp _ _ => .links
  | .failholdExpiry _ _ => .links
  | .revert _ _ => .links
  | .pfcFrame _ _ _ _ => .links
  | .pauseExpiry _ _ _ => .links
  | .pfcRepeat _ => .queues
  | .load _ _ _ => .other
  | .commit _ _ _ _ _ => .other
  | .keyResident _ _ _ _ => .other
  | .keywaitExpiry _ _ => .reception
  | .keywr _ _ _ _ => .records
  | .keyerase _ _ _ _ => .records
  | .roll _ _ _ => .records
  | .query _ _ _ => .records
  | .create _ _ _ _ => .records
  | .delete _ _ _ => .records
  | .pageerase _ _ => .records
  | .saCommandDone _ _ => .records
  | .acq _ _ => .records
  | .rel _ _ => .records
  | .leaseExpiry _ => .records
  | .jen _ _ => .records
  | .jgo _ _ => .other
  | .jobComplete _ _ => .other
  | .pgJdone3Read _ _ => .records
  | .ownkeySet _ _ => .other
  | .lock _ _ => .other
  | .svnCommit _ _ => .other
  | .decommission _ _ => .other
  | .imageVerify _ => .other
  | .identityReady _ => .other
  | .attestReportReady _ => .other
  | .entropyStartupPass _ _ => .other
  | .entropyFailure _ _ => .other
  | .entropyRetest _ _ => .other
  | .entropyStartTimeout _ => .other
  | .drbgReseed _ => .other
  | .tamp _ _ _ => .other
  | .lid _ => .other
  | .volt _ => .other
  | .clock _ _ => .other
  | .temp _ => .other
  | .jtag _ => .other
  | .almlock _ => .other
  | .resetNAssert _ => .other
  | .resetNRelease _ => .other
  | .flashDiscoveryDone _ _ _ _ _ _ => .other
  | .slotReadDone _ _ => .other
  | .serviceStart _ => .other
  | .serviceWaitTimeout _ => .other
  | .squelchClear _ _ => .links
  | .squelchSet _ _ => .links
  | .openFrame _ _ _ _ _ => .sessions
  | .req _ _ _ _ _ => .other
  | .flashWriteDone _ _ => .other
  | .sessionLapse _ _ => .sessions
  | .sessionIdleTimeout _ _ => .sessions
  | .noticeSend _ => .sessions
  | .windowBoundary _ _ => .counters
  | .wrapclr _ _ => .counters
  | .cntRdRead _ _ _ => .counters
  | .counterSettingWrite _ _ _ _ => .counters
  | .wtCfgWrite _ _ _ => .counters
  | .bwCfgWrite _ _ => .counters
  | .scrubPass _ => .other
  | .wordRepair _ _ => .other
  | .hbmUncorrectable _ _ _ => .other
  | .registerWrite _ _ _ _ => .other
  | .refclkSysRestored _ => .transmission
  | .vddFeOutOfRange _ => .transmission
  | .discoveryWindowEnd _ _ => .messages
  | .nfAgeExpiry _ _ => .counters
  | .portUpTimeout _ _ _ => .links
  | .otpCommandDone _ => .other

end Sys2Proof

namespace Sys2Proof.Machine

open Sys2Proof

/-- The block takes commands: RESET_N is high (R381), and REFCLK_SYS is present, so that every clock runs (R14). -/
def State.live (s : State) : Prop := s.dev.inReset = false ∧ s.dev.mains.refclk = true

/-- The device at the instant of a command (R13). -/
def State.at_ (s : State) (t : Nat) : Dev := s.dev.advance t

/-- `d` is the device at the instant `t` of a command, with the block taking commands. -/
def State.ready (s : State) (t : Nat) (d : Dev) : Prop := s.live ∧ s.at_ t = d

/-- `d` is the device at the instant `t` of a command, RESET_N high; REFCLK_SYS may be absent. -/
def State.awake (s : State) (t : Nat) (d : Dev) : Prop := s.dev.inReset = false ∧ s.at_ t = d

/-- The state after a command that leaves the device `d`: its outputs settle and the queue stays. -/
def State.to (s : State) (d : Dev) : State := { s with dev := d.settle }

/-- A running sequencer fetches step `st` without a fault, the device then being `e`, and no table entry is committed in the step's
cycle, so that the step reads the entries that stand (R200, R216, R234). -/
def Dev.atStep (d e : Dev) (q : Nat) (st : Step) : Prop :=
  d.sqState q = 2 ∧ d.fetchFault q = none ∧ d.stepAt q = some st ∧ e.justCommitted = [] ∧
  e = (d.modSq q (fun z => { z with run := z.run + 1 })).condParity q st.cond.toNat

/-- A running sequencer fetches step `st` without a fault, the device then being `e`, and the step's time `x` has not passed
(R198, R200, R216). -/
def Dev.takesStep (d e : Dev) (q : Nat) (st : Step) (x : Nat) : Prop :=
  d.atStep e q st ∧ e.stepTime q st 0 = some x ∧ e.now ≤ x

/-- The state after a command at `t` whose effect on the device is `f`; the queue stays. -/
def State.after (s : State) (t : Nat) (f : Dev → Dev) : State := { s with dev := (f (s.at_ t)).settle }

/-- A domain's registers, its channel and its sequencers hold nothing while it is off (R23, R425). -/
def Dev.offIsEmpty (d : Dev) : Prop :=
  (∀ e ∈ d.regs, regDomain e.1 = 79 ∨ d.domOn (regDomain e.1) = true) ∧
  (∀ e ∈ d.chan, e.1 < 64 → d.domOn e.1 = true) ∧ (∀ e ∈ d.seq, e.1 < 128 → d.domOn (e.1 / 2) = true)

/-- FAULT_N and ALARM_N stand as R367 and R368 say. -/
def Dev.pinsFollow (d : Dev) : Prop := d.faultLow = d.faultOut ∧ d.alarmLow = d.alarmed

/-- What every command leaves: the outputs follow their rules and what is off holds nothing. -/
def State.settled (s : State) : Prop := s.dev.offIsEmpty ∧ s.dev.pinsFollow

/-! ### What a command leaves alone -/

/-- The association store, the key cache, record commands and the jobs of pages. -/
def Dev.sameKeys (d e : Dev) : Prop :=
  e.assoc = d.assoc ∧ e.cache = d.cache ∧ e.fetches = d.fetches ∧ e.sa = d.sa ∧ e.pages = d.pages

/-- The canvas and every queue in it. -/
def Dev.sameQueues (d e : Dev) : Prop :=
  e.shallow = d.shallow ∧ e.deep = d.deep ∧ e.free = d.free ∧ e.zeroing = d.zeroing

/-- Table memory's copy, its failing words and the shadow slots. -/
def Dev.sameTables (d e : Dev) : Prop :=
  e.copy = d.copy ∧ e.badParity = d.badParity ∧ e.edits = d.edits ∧ e.shadow = d.shadow

/-- The governor's account, the restore records, the image loader and the alarm that has erased. -/
def Dev.samePower (d e : Dev) : Prop :=
  e.gov = d.gov ∧ e.restore = d.restore ∧ e.loader = d.loader ∧ e.alarmed = d.alarmed ∧ e.inReset = d.inReset

/-- A run is safe while no step stops. -/
def State.steps (s : State) : Prop := ∃ s', step s = .next s'

end Sys2Proof.Machine
end

