-- ==== Sys2Proof/Certificates/Slice0/Obligations.lean ====
section
/-! DEFINITION. The statements for the provers, each with the rules of the spec that it formalises or rests on. -/

open Sys2Proof Sys2Proof.Machine

/-- A step takes the command at the front of the queue and runs it with the queue's rest; on an empty queue the block idles (log
entry 2, the model's choice). -/
def Obligations.StepRunsFrontCommand : Prop :=
  (∀ (s : State) (c : Instr) (rest : List Instr), s.pending = c :: rest → step s = exec c { s with pending := rest }) ∧
  (∀ s : State, s.pending = [] → step s = .next s)

/-- Every command is answered with a next state, its outputs settled, and with the queue as it was (R367, R368): the model has
no command that stops the machine. -/
def Obligations.EveryCommandIsAnswered : Prop :=
  ∀ (c : Instr) (s : State), ∃ d : Dev, exec c s = .next (s.to d)

/-- After reset only PD_AON is on (R24), the root is in its start state, FAULT_N and ALARM_N are high-impedance (R368), RESET_N
is high and no command waits; the state is settled. -/
def Obligations.ResetState : Prop :=
  (∀ n, n < 79 → State.reset.dev.domOn n = false) ∧ State.reset.dev.domOn 79 = true ∧
  State.reset.dev.rstate = 0 ∧ State.reset.dev.faultLow = false ∧ State.reset.dev.alarmLow = false ∧
  State.reset.dev.inReset = false ∧ State.reset.pending = [] ∧ Regs.wf State.reset.dev.regs = true ∧
  State.reset.dev.rd (F.ETH_CFG_SQUELCH 0) = 1 ∧ State.reset.dev.rd (F.ETH_CFG_SQUELCH 1) = 1 ∧ State.reset.settled

/-- While RESET_N is low every command but RESET_N_RELEASE leaves the device as it is, time aside (R381). -/
def Obligations.ResetLowHoldsTheModule : Prop :=
  ∀ (c : Instr) (s : State), s.dev.inReset = true → (∀ t, c ≠ .resetNRelease t) → exec c s = .next (s.to (s.at_ c.stamp))

/-- From a settled state every step leads to a settled state: FAULT_N and ALARM_N follow their rules (R367, R368), and a domain
that is off holds no register value, channel state or sequencer state (R23, R425). -/
def Obligations.StepKeepsSettled : Prop :=
  ∀ s s' : State, s.settled → step s = .next s' → s'.settled

/-- FAULT_N is low after a command exactly while the root has left its start state and either a bit of FLT_LATCH is set whose
bit in FLT_MASK is set, or the root is in the recovery state (R367, R368). -/
def Obligations.FaultPinFollowsLatch : Prop :=
  ∀ (c : Instr) (s s' : State), exec c s = .next s' →
    (s'.dev.faultLow = true ↔ s'.dev.rstate ≠ 0 ∧
      ((s'.dev.word A.FLT_LATCH &&& s'.dev.word A.FLT_MASK) ≠ 0#32 ∨ s'.dev.rstate = 2))

/-- Step words and steps correspond (R197, R202, R217): decoding the word of a step whose operands hold no reserved code gives
that step, with every field at every value; and a word that decodes is the word of the step it decodes to, so that the decoder
drops no bit and admits no reserved code. -/
def Obligations.StepWordRoundTrip : Prop :=
  (∀ st : Step, st.ok = true → Step.decode st.encode = some st) ∧
  (∀ (w : Word64) (st : Step), Step.decode w = some st → st.encode = w ∧ st.ok = true)

/-- The energy charged after a reduction of `z` steps of 0.5 dB is e × 10^(−0.05·z) rounded up to a whole unit: the least n with
e^20 ≤ n^20 × 10^z (R336). -/
def Obligations.ChargeIsLeast : Prop :=
  ∀ e z : Nat, e < 2 ^ 16 → e ^ 20 ≤ chargeOf e z ^ 20 * 10 ^ z ∧ ∀ n, n < chargeOf e z → n ^ 20 * 10 ^ z < e ^ 20

/-- The receive window (R277): a counter that passed is not accepted again, a counter that did not pass does not pass later, a
counter 64 or more behind RXHI does not pass, and a window set to a base passes exactly the counters from the base on. -/
def Obligations.ReplayWindow : Prop :=
  (∀ (a : Assoc) (c : Nat), a.passes c = true → (a.accept c).passes c = false) ∧
  (∀ (a : Assoc) (c x : Nat), a.passes c = true → a.passes x = false → (a.accept c).passes x = false) ∧
  (∀ (a : Assoc) (c : Nat), a.empty = false → c + 63 < a.rxhi → a.passes c = false) ∧
  (∀ (a : Assoc) (b c : Nat), 1 ≤ b → b < 2 ^ 64 → ((a.setBase b).passes c = true ↔ b ≤ c))

/-- Contents read back whole: octets packed in words with the last one padded, from the words of their item (R250); data units
laid end to end, one by one with nothing left over (R171); the node shim (R235), in eight octets, each field at every value that
its width admits. -/
def Obligations.ContentRoundTrips : Prop :=
  (∀ (l : List Byte), (({ words := (wordsOf l).map (fun w => (w, false)), len := l.length } : Item)).content = l) ∧
  (∀ (us : List Unit_) (n : Nat), (∀ u ∈ us, u.dseq < 2 ^ 16 ∧ u.cls < 4 ∧ u.content ≠ [] ∧ u.content.length < 2 ^ 14) →
    us.length ≤ n → readUnits n (us.flatMap unitOctets) = (us, false)) ∧
  (∀ h : Shim, h.ver < 16 → h.tenant < 16 → h.node < 2 ^ 17 → h.cls < 4 → h.seq < 2 ^ 16 →
    h.octets.length = 8 ∧ readShim h.octets = h)

/-- Taking cells from the free list (R247): the number asked for, in the list's order, the rest staying; none where it holds
fewer. -/
def Obligations.CellsComeFromTheHead : Prop :=
  ∀ (n : Nat) (l : List (Nat × Nat)),
    (∀ cs r, takeRuns n l = some (cs, r) → cs ++ r.flatMap (fun x => List.range' x.1 x.2) =
      l.flatMap (fun x => List.range' x.1 x.2) ∧ cs.length = n) ∧
    (takeRuns n l = none ↔ (l.map Prod.snd).sum < n)

/-- The coding of a frame loses nothing: whitening removes itself (R124); every check of every block row holds on a codeword, at
each rate (R125 to R127); the position p = 97·j mod 288 of the header carries coded bit j (R118); the places that R130 gives bit
i of an interleaver block, in multiplex and in single-tine mode, read bit i back. -/
def Obligations.FrameCodingRoundTrips : Prop :=
  (∀ (src : Nat) (b : List Byte), whiteBody src (whiteBody src b) = b) ∧
  (∀ (rate i : Nat) (info : List Byte) (u : List (BitVec 256)), rate ≤ 4 → i < ldpcRows rate → u = infoBlocks rate info →
    ldpcCheck rate (u ++ ldpcParity rate u) i = 0) ∧
  (∀ (h : BitVec 96) (j : Nat), j < 288 → hdrAt h (97 * j % 288) = hdrCoded h j) ∧
  (∀ (f : Form) (first n i u tines : Nat), f.mux = true → 1 ≤ f.load → i < n * f.bits → u = i / n →
    tines = f.s * (15 * f.n / 16) →
    muxPlace f first n (first + i % n) (u % tines) ((u / tines + u % tines) % (2 * f.load)) = first * f.bits + i) ∧
  (∀ (f : Form) (first n i : Nat), i < n * f.bits → singlePlace f first n (first + i % n) (i / n) = first * f.bits + i)

/-- Control blocks of Luafen messages (R167 to R170): a BEACON, POLL, JOINREQ or JOINACC written octet by octet reads back to
its fields, each at every value that its width admits. -/
def Obligations.ControlBlocksRoundTrip : Prop :=
  (∀ b : BeaconMsg, b.bcyc < 2 ^ 32 → b.begrn < 2 ^ 16 → b.dgrn < 2 ^ 16 → b.dcyc < 2 ^ 16 → b.vmax < 16 → b.nslot < 16 →
    b.boffMax < 8 → readBeacon b.octets = some b) ∧
  (∀ p : PollMsg, p.acku < 2 ^ 16 → p.umode < 2 ^ 12 → p.ustrm < 4 → p.uspan < 8 → p.ulen < 2 ^ 12 → p.rgap < 2 ^ 12 →
    -128 ≤ p.ulvl → p.ulvl < 128 → readPoll p.octets = some p) ∧
  (∀ j : JoinReqMsg, j.vmax < 16 → j.bands < 16 → j.maxq < 8 → j.mink < 16 → j.maxk < 16 → j.bundle < 4 → j.ilmem < 2 ^ 10 →
    -32768 ≤ j.bq → j.bq < 32768 → j.rgmin < 2 ^ 12 → readJoinReq j.octets = some j) ∧
  (∀ j : JoinAccMsg, j.status < 4 → j.ver < 16 → j.rgap < 2 ^ 12 → j.lostc < 2 ^ 12 → readJoinAcc j.octets = some j)

/-- An OPEN takes the lowest session number not in use above the last one assigned, wrapping from 255 to 1 (R357). -/
def Obligations.SessionNumbers : Prop :=
  ∀ (d : Dev) (n : Nat), 1 ≤ n → n ≤ 255 → d.rd F.MG_STATUS_LASTSESS ≤ 255 → d.session n = none →
    (∀ m, d.rd F.MG_STATUS_LASTSESS < m → m ≤ 255 → (n ≤ d.rd F.MG_STATUS_LASTSESS ∨ m < n) → d.session m ≠ none) →
    (n ≤ d.rd F.MG_STATUS_LASTSESS → ∀ m, 1 ≤ m → m < n → d.session m ≠ none) → d.nextSession = n

/-- The thermal state (R334): from COOL, WARM and HOT the next state is entered at its threshold, and a state is left only once
Tj is 2 °C below the threshold at which it is entered. -/
def Obligations.ThermalStates : Prop :=
  ∀ (cur : Nat) (tj tc band : Int), cur ≤ 2 → 0 ≤ band →
    (tc ≤ tj → thermalNext cur tj tc band = 2) ∧
    (tj < tc → cur = 2 → tc - 2 < tj → thermalNext cur tj tc band = 2) ∧
    (tj < tc → cur < 2 → tc - band ≤ tj → thermalNext cur tj tc band = 1) ∧
    (tj ≤ tc - 2 → cur = 2 → tc - band - 2 < tj → thermalNext cur tj tc band = 1) ∧
    (tj < tc - band → cur = 1 → tc - band - 2 < tj → tj < tc → thermalNext cur tj tc band = 1) ∧
    (tj < tc - band → cur = 0 → tj < tc → thermalNext cur tj tc band = 0) ∧
    (tj ≤ tc - band - 2 → tj ≤ tc - 2 → thermalNext cur tj tc band = 0)

/-- A register field: a write puts the value, as far as the field is wide, in the field, leaves the other fields of its
register, and leaves every other register (R6 for RW fields); a count saturates at all ones. -/
def Obligations.FieldWrites : Prop :=
  ∀ (d : Dev) (f g : Field) (n : Nat), Regs.wf d.regs = true → f.lo + f.width ≤ 32 →
    (d.wr f n).rd f = n % 2 ^ f.width ∧
    (g.addr ≠ f.addr → (d.wr f n).rd g = d.rd g) ∧
    (g.addr = f.addr → g.lo + g.width ≤ f.lo ∨ f.lo + f.width ≤ g.lo → g.lo + g.width ≤ 32 → (d.wr f n).rd g = d.rd g) ∧
    (d.inc f n).rd f = min (d.rd f + n) (2 ^ f.width - 1)

/-- The fields of a step word lie where R197 puts them, and a DLC other than 0 stands only beside TB 0. -/
def Obligations.StepWordLayout : Prop :=
  (∀ st : Step, st.encode.extractLsb' 60 4 = st.op.opc ∧ st.encode.extractLsb' 56 4 = st.cond ∧
    st.encode.extractLsb' 54 2 = st.tb ∧ st.encode.extractLsb' 46 8 = st.dlc ∧ st.encode.extractLsb' 30 16 = st.dlo ∧
    st.encode.extractLsb' 0 30 = st.op.ops) ∧
  (∀ (w : Word64) (st : Step), Step.decode w = some st →
    w.extractLsb' 60 4 = st.op.opc ∧ w.extractLsb' 56 4 = st.cond ∧ w.extractLsb' 54 2 = st.tb ∧
    w.extractLsb' 46 8 = st.dlc ∧ w.extractLsb' 30 16 = st.dlo ∧ w.extractLsb' 0 30 = st.op.ops ∧ (st.tb ≠ 0 → st.dlc = 0))

/-- An access to an unmapped address, or to one that is no multiple of 4, reads 0, writes nothing and sets no flag, and a
management command that makes it answers BADADDR (R420); a principal that may not reach the address reads 0 too. -/
def Obligations.UnmappedAccess : Prop :=
  (∀ a : Nat, a % 4 ≠ 0 → rowAt a = none) ∧
  (∀ (d : Dev) (a p n : Nat) (w : Writer) (v : Word32), rowAt a = none →
    d.principal w = some (p, n, true) → (p = 17 ∨ d.lapseLock.holder = n) → (d.regWrite w a v).1 = rgBADADDR ∧ (d.regWrite w a v).2.regs = d.regs ∧
      ∀ x, (d.regWrite w a v).2.word x = d.word x) ∧
  (∀ (d : Dev) (a p : Nat) (lock : Bool), rowAt a = none → d.mayRead p a lock = true →
    (d.regRead p a lock).1 = rgBADADDR ∧ (d.regRead p a lock).2.1 = 0 ∧ ∀ x, (d.regRead p a lock).2.2.word x = d.word x) ∧
  (∀ (d : Dev) (a p : Nat) (lock : Bool), rowAt a = none → (d.regRead p a lock).2.1 = 0)

/-- REGRDN checks every address of its range first (R422): where one fails it returns the result of the first that fails, no
data, and reads nothing; where all pass it reads them in ascending order, each as one REGRD. -/
def Obligations.RangeReadIsAllOrNothing : Prop :=
  (∀ (d : Dev) (p a n room i : Nat) (lock : Bool), i < n → d.readCheck p (a + 4 * i) lock ≠ rgOK →
    (∀ j, j < i → d.readCheck p (a + 4 * j) lock = rgOK) →
    (d.cmdReadN p a n room lock).res = d.readCheck p (a + 4 * i) lock ∧ (d.cmdReadN p a n room lock).data = [] ∧
    (d.readCheck p (a + 4 * i) lock ≠ rgPERM → (d.cmdReadN p a n room lock).dev = d) ∧
    (d.readCheck p (a + 4 * i) lock = rgPERM → (d.cmdReadN p a n room lock).dev = d.hedge)) ∧
  (∀ (d : Dev) (p a n room : Nat) (lock : Bool), (∀ i, i < n → d.readCheck p (a + 4 * i) lock = rgOK) → 4 * n ≤ room →
    (d.cmdReadN p a n room lock).res = rgOK ∧
    (d.cmdReadN p a n room lock).data = (List.range n).flatMap (fun i => octetsBE 4
      (((List.range i).foldl (fun (x : Dev) j => (x.regRead p (a + 4 * j) lock).2.2) d).regRead p (a + 4 * i) lock).2.1.toNat) ∧
    (d.cmdReadN p a n room lock).dev = (List.range n).foldl (fun (x : Dev) j => (x.regRead p (a + 4 * j) lock).2.2) d)

/-- A commit of an idle palette fails in exactly the cases of R81: then its LOADED bit becomes 0 and PALBAD is set; otherwise
LOADED is set. A commit of a palette that is not idle sets PALBUSY and nothing else (R80). -/
def Obligations.PaletteCommitRule : Prop :=
  ∀ (s : State) (t : Nat) (d : Dev) (k : ChanId) (b : Bool) (c : Instr) (w : Nat → Word32), s.ready t d →
    d.chOn k.val = true → (c = if b then .commitB t k else .commitA t k) → (∀ n, w n = d.palWord k.val b n) →
    (d.palIdle k.val b = false → exec c s = .next (s.to (d.raise (F.SC_STATUS_PALBUSY k.val)))) ∧
    (d.palIdle k.val b = true →
      (5 < getBits (w 1) 0 3 ∨ getBits (w 1) 4 7 < 7 ∨ getBits (w 1) 12 3 = 0 ∨
        2 * getBits (w 1) 12 3 < getBits (w 4) 0 4 ∨ getBits (w 1) 16 2 = 3 ∨ getBits (w 2) 0 26 < 2 ^ 24 ∨
        2 ^ 25 - 1 < getBits (w 2) 0 26 ∨ getBits (w 5) 16 14 = 0 →
        exec c s = .next (s.to ((d.wr (loadedField k.val b) 0).raise (F.SC_STATUS_PALBAD k.val)))) ∧
      (getBits (w 1) 0 3 ≤ 5 → 7 ≤ getBits (w 1) 4 7 → getBits (w 1) 12 3 ≠ 0 →
        getBits (w 4) 0 4 ≤ 2 * getBits (w 1) 12 3 → getBits (w 1) 16 2 ≠ 3 → 2 ^ 24 ≤ getBits (w 2) 0 26 →
        getBits (w 2) 0 26 ≤ 2 ^ 25 - 1 → getBits (w 5) 16 14 ≠ 0 →
        exec c s = .next (s.to (d.wr (loadedField k.val b) 1))))

/-- Setting EN on a deep queue is refused, QREJ set and every other register unchanged, in each case of R268, the free list as
the cells that may be taken in the cycle make it (R247); in no other case is it refused: then the queue has its 48 staging cells
and EN set. -/
def Obligations.DeepEnableRule : Prop :=
  ∀ (s : State) (t : Nat) (d : Dev) (q : Fin 1024) (v : Word32) (base dlog : Nat), s.ready t d → d.domOn 76 = true →
    d.on (F.QD_CFG_EN q.val) = false → base = d.rd (F.QD_BASE_DBASE q.val) → dlog = d.rd (F.QD_CFG_DLOG q.val) →
    v = putBits (d.word (A.QD_CFG q.val)) 8 1 1 →
    (22 < dlog ∨ 4194304 < base + 2 ^ dlog ∨ (∃ r ∈ d.ringsBut q.val, base < r.1 + r.2 ∧ r.1 < base + 2 ^ dlog) ∨
      d.domOn 78 = false ∨ (d.ripen.free.map Prod.snd).sum < 48 →
      exec (.queueEnable t (.deep q)) s = .next (s.to (d.ripen.raise F.CV_STATUS_QREJ).pfcCheck)) ∧
    (∀ cs l g, dlog ≤ 22 → base + 2 ^ dlog ≤ 4194304 →
      (∀ r ∈ d.ringsBut q.val, r.1 + r.2 ≤ base ∨ base + 2 ^ dlog ≤ r.1) → d.domOn 78 = true →
      takeRuns 48 d.ripen.free = some (cs, l) → g = { d.ripen with free := l } →
      exec (.queueEnable t (.deep q)) s =
        .next (s.to ((g.setWord (A.QD_CFG q.val) v).setDq q.val { staging := cs }).pfcCheck))

/-- SVN_COMMIT raises SVNCTR to IMGSVN, as far as its 128 bits go; no bit of it is ever cleared, and where IMGSVN is not above
SVNCTR it changes nothing there; RES is OK (R313). -/
def Obligations.SvnCommitRule : Prop :=
  ∀ (s : State) (t : Nat) (d g : Dev), s.awake t d → d.root.cmd = some (3, 0) →
    (d.root.otp.svn < d.rd F.RT_STATUS_IMGSVN → d.rd F.RT_STATUS_IMGSVN ≤ 128 →
      ∃ (w : BitVec 128) (h : Dev), onesIn 128 w = d.rd F.RT_STATUS_IMGSVN ∧ d.root.otp.svnBits &&& w = d.root.otp.svnBits ∧
        h = { d with root := { d.root with otp := { d.root.otp with svnBits := w }, cmd := none } } ∧
        exec (.otpCommandDone t) s = .next (s.to ((((h.wr F.RT_STATUS_SVNCTR (d.rd F.RT_STATUS_IMGSVN)).wr F.RT_CMD_RES
          0).setWord A.RT_CONFIRM 0).wr F.RT_CMD_BUSY 0))) ∧
    (d.rd F.RT_STATUS_IMGSVN ≤ d.root.otp.svn → g = { d with root := { d.root with cmd := none } } →
      exec (.otpCommandDone t) s = .next (s.to ((((g.wr F.RT_STATUS_SVNCTR d.root.otp.svn).wr F.RT_CMD_RES 0).setWord
        A.RT_CONFIRM 0).wr F.RT_CMD_BUSY 0)))

/-- Setting JEN is refused, with QREJ, where a queue is not enabled, belongs to another tenant, or is the other queue (R303). -/
def Obligations.JobQueueRule : Prop :=
  ∀ (s : State) (t i o : Nat) (d : Dev) (p : PageId), s.ready t d → d.domOn 70 = true → Regs.wf d.regs = true →
    i = d.rd (F.PG_JCFG_JINQ p.val) → o = d.rd (F.PG_JCFG_JOUTQ p.val) →
    (d.on (F.QS_CFG_EN i) = false ∨ d.on (F.QS_CFG_EN o) = false ∨ d.rd (F.QS_OWN_TENANT i) ≠ p.val ∨
      d.rd (F.QS_OWN_TENANT o) ≠ p.val ∨ i = o → exec (.jen t p) s = .next (s.to (d.raise F.CV_STATUS_QREJ))) ∧
    (d.on (F.QS_CFG_EN i) = true → d.on (F.QS_CFG_EN o) = true → d.rd (F.QS_OWN_TENANT i) = p.val →
      d.rd (F.QS_OWN_TENANT o) = p.val → i ≠ o →
      ∃ g : Dev, exec (.jen t p) s = .next (s.to g) ∧ g.on (F.PG_JCFG_JEN p.val) = true ∧
        g.rd (F.PG_JCFG_JINQ p.val) = i ∧ g.rd (F.PG_JCFG_JOUTQ p.val) = o ∧
        ∀ a, a ≠ A.PG_JCFG p.val → g.word a = d.word a)

/-- The energy of the rail samples of the last window, at a tick, above the cap C (R330, R339): OVERBUD is set, the samples are
kept, and no domain, channel or phase of the governor is switched off. -/
def Obligations.OverBudgetRule : Prop :=
  ∀ (d e : Dev) (was : Bool) (rails : List Nat) (l : List (Nat × Nat)), Regs.wf d.regs = true →
    l = (d.gov.power ++ [(d.now, rails.sum)]).filter (fun e => d.now < e.1 + 1000000 * d.winMs) →
    100000 * d.cap < (l.map Prod.snd).sum → e = d.takePower was rails →
    e.on F.GV_STATUS_OVERBUD = true ∧ e.gov.power = l ∧ e.chan = d.chan ∧ (∀ n, n < 80 → e.domOn n = d.domOn n) ∧
    (∀ k, k < 64 → e.phase k = d.phase k)

/-- Mains time (R46 to R56, R63). A crossing of the reference input in LOCKED that lies within the limit of its cycle's start,
the first one of that cycle, is accepted: PHERR takes its phase error and the loop holds it (R52). One of the alternate input
teaches its grain, until 16 are learnt (R55). From grain 32,768 on the next cycle's record is fixed: from the period kept in
HOLDOVER and FREERUN, held between the limits with RANGE set where they bind, and in LOCKED from the crossing accepted in the
cycle (R48, R53, R56). After HOLD_MISS missed cycles the alternate input takes over, once it has been learnt, and without one
mains time enters HOLDOVER with MAINSLOST (R55; when a cycle counts as missed is log entry 175); after HOLD_MAX cycles of that
FREERUN follows (R56). A read of MT_NOW_CYC latches mains time and the instant (R63). REFCLK_SYS comes back (R56). -/
def Obligations.MainsTimeCommandsComplete : Prop :=
  (∀ (s : State) (t : Nat) (d : Dev) (m : Mains) (input : Fin 4) (falling : Bool) (z e : Int) (r : CycleRec), s.awake t d →
    d.on (F.MSNS_CFG_EN input) = true → d.edgeAdmits input falling = true →
    (Tab.get 0 d.mains.lastHit input = 0 ∨
      Tab.get 0 d.mains.lastHit input + d.rd (F.MSNS_CFG_BLANK input) * 64000 ≤ d.now) →
    d.rd F.MT_STATUS_STATE = 2 → d.rd F.MT_CFG_REFSEL = input.val → d.refConflict = false →
    d.on F.MT_CFG_REF_EDGE = falling → d.mains.onAlt = false →
    z = (d.now : Int) - 180 - d.rdS (F.MT_OFS_ZC_OFFSET input) → r = d.cycleOf z → e = z - r.t0 →
    (∀ h ∈ d.mains.hits, h.1 ≠ r.c) → e.natAbs * 2 ^ 20 ≤ d.jumpLimit * r.l →
    m = { d.mains with lastHit := Tab.set 0 d.mains.lastHit input d.now } →
    exec (.zeroCrossing t input falling) s = .next (s.to ({ (d.setPherr r e).wr F.MT_STATUS_STATE 2 with
      mains := { m with hits := ((r.c, z, e) :: d.mains.hits).take 2, outs := [], okCyc := r.c, zLast := some (z, r.c) } }))) ∧
  (∀ (s : State) (t : Nat) (d : Dev) (m : Mains) (input : Fin 4) (falling : Bool) (z : Int) (gs : List Nat), s.awake t d →
    d.on (F.MSNS_CFG_EN input) = true → d.edgeAdmits input falling = true →
    (Tab.get 0 d.mains.lastHit input = 0 ∨
      Tab.get 0 d.mains.lastHit input + d.rd (F.MSNS_CFG_BLANK input) * 64000 ≤ d.now) →
    d.rd F.MT_STATUS_STATE = 2 → d.rd F.MT_CFG_REFSEL ≠ input.val → d.altInput = some input.val →
    d.on F.MT_CFG_REF_EDGE = falling → d.mains.onAlt = false →
    z = (d.now : Int) - 180 - d.rdS (F.MT_OFS_ZC_OFFSET input) → (d.mains.cur.t0 : Int) ≤ z →
    gs = (d.mains.cur.at_ z.toNat).2 :: d.mains.altGrains → gs.length < 16 →
    m = { d.mains with lastHit := Tab.set 0 d.mains.lastHit input d.now, altGrains := gs } →
    exec (.zeroCrossing t input falling) s = .next (s.to { d with mains := m })) ∧
  (∀ (s : State) (t : Nat) (d e : Dev) (period : Int) (n : CycleRec), s.awake t d →
    d.rd F.MT_STATUS_STATE = 4 ∨ d.rd F.MT_STATUS_STATE = 5 → d.mains.next = none → 32768 ≤ d.grn →
    period = max (15151515 * 2 ^ 20) (min d.mains.p (66666666 * 2 ^ 20)) →
    n = ⟨d.mains.cur.c + 1, d.mains.cur.t0 + d.mains.cur.len, (period / 65536).toNat⟩ →
    e = { d with mains := { d.mains with held := d.mains.held + 1, next := some n } } →
    (period = d.mains.p → exec (.cycleRecordFix t) s = .next (s.to e)) ∧
    (period ≠ d.mains.p → exec (.cycleRecordFix t) s = .next (s.to (e.raise F.MT_STATUS_RANGE)))) ∧
  (∀ (s : State) (t : Nat) (d : Dev) (z e corr : Int) (tc : Nat) (n : CycleRec), s.awake t d → d.rd F.MT_STATUS_STATE = 2 →
    d.mains.next = none → 32768 ≤ d.grn → d.mains.hits = [(d.mains.cur.c, z, e)] → tc = min 5 (d.rd F.MT_CFG_TC) →
    corr = max (-(divZero d.mains.p 64)) (min (divZero (e * 2 ^ 20) (2 ^ (tc + 1))) (divZero d.mains.p 64)) →
    15151515 * 2 ^ 20 ≤ d.mains.p + corr → d.mains.p + corr ≤ 66666666 * 2 ^ 20 →
    n = ⟨d.mains.cur.c + 1, d.mains.cur.t0 + d.mains.cur.len, ((d.mains.p + corr) / 65536).toNat⟩ →
    exec (.cycleRecordFix t) s = .next (s.to { d with mains := { d.mains with next := some n } })) ∧
  (∀ (s : State) (t : Nat) (d : Dev) (m : Mains), s.awake t d → d.rd F.MT_STATUS_STATE = 2 ∨ d.rd F.MT_STATUS_STATE = 3 →
    max 1 (d.rd F.MT_HOLD_HOLD_MISS) ≤ d.missedRun →
    (∀ a, d.altInput = some a → d.mains.onAlt = false → d.on F.MT_STATUS_ALTVALID = true →
      m = { d.mains with onAlt := true, okCyc := d.overCyc a true, seek := [] } →
      exec (.missedCycles t) s =
        .next (s.to (({ d with mains := m }.wr F.MT_STATUS_ACTIVE a).raise F.MT_STATUS_ALTUSED))) ∧
    (d.altInput = none → m = { d.mains with seek := [], outs := [], held := 0 } →
      exec (.missedCycles t) s = .next (s.to
        (({ d.wr F.MT_STATUS_STATE 4 with mains := m }.raise F.MT_STATUS_MAINSLOST).cause 5 { ao := true })))) ∧
  (∀ (s : State) (t : Nat) (d : Dev), s.awake t d → d.rd F.MT_STATUS_STATE = 4 →
    d.rd F.MT_HOLD_HOLD_MAX ≤ d.mains.held →
    exec (.freerun t) s = .next (s.to (((d.wr F.MT_STATUS_STATE 5).raise F.MT_STATUS_MAINSLOST).cause 5 { ao := true }))) ∧
  (∀ (s : State) (t : Nat) (c g : Nat) (d : Dev), s.ready t d → d.mainsAt d.now = (c, g) →
    exec (.mtNowCycRead t) s = .next (s.to ((((d.wr F.MT_NOW_CYC_CYCLE c).wr F.MT_NOW_GRN_GRAIN g).wr F.MT_NOW_NS_LO_NS
      d.now).wr F.MT_NOW_NS_HI_NS (d.now / 2 ^ 32)))) ∧
  (∀ (s : State) (t : Nat) (d : Dev) (m : Mains), s.awake t d → d.mains.seek = [] →
    m = { d.mains with refclk := true } → (∀ e ∈ d.seq, ∀ r ∈ e.2.reqs, r.answer = none) →
    exec (.refclkSysRestored t) s = .next (s.to { d with mains := m }))

/-- Palettes (R80 to R86) and the synchronising reset (R20, R87). A commit of an idle palette that passes its checks sets LOADED;
one of a palette that is not idle sets PALBUSY; one that fails a check clears LOADED and sets PALBAD. A hard swap of a channel
that is alone in its bundle, between compatible palettes, exchanges them from the first boundary of each direction on, the chips
before it having run, and leaves code 1 in LASTCODE, which goes back to the issuing sequencer. A fade whose last samples have
passed in both directions ends, and the pending swap starts with the samples after them. A synchronising event with no reset
pending is stamped and puts a reset entry for 200 ns later into PRMQ of every powered channel; a SYNC before that instant is
ignored and counted. At its instant the reset is applied on every channel that holds a due entry. -/
def Obligations.PaletteCommandsComplete : Prop :=
  (∀ (s : State) (t : Nat) (d : Dev) (k : ChanId), s.ready t d → d.domOn k.val = true → d.palIdle k.val false = true →
    d.palOk k.val false = true → exec (.commitA t k) s = .next (s.to (d.wr (F.SC_STATUS_LOADED_A k) 1))) ∧
  (∀ (s : State) (t : Nat) (d : Dev) (k : ChanId), s.ready t d → d.domOn k.val = true → d.palIdle k.val true = true →
    d.palOk k.val true = true → exec (.commitB t k) s = .next (s.to (d.wr (F.SC_STATUS_LOADED_B k) 1))) ∧
  (∀ (s : State) (t : Nat) (d : Dev) (k : ChanId), s.ready t d → d.domOn k.val = true →
    (d.palIdle k.val false = false →
      exec (.commitA t k) s = .next (s.to (d.raise (F.SC_STATUS_PALBUSY k)))) ∧
    (d.palIdle k.val true = false →
      exec (.commitB t k) s = .next (s.to (d.raise (F.SC_STATUS_PALBUSY k)))) ∧
    (d.palIdle k.val false = true → d.palOk k.val false = false →
      exec (.commitA t k) s = .next (s.to ((d.wr (F.SC_STATUS_LOADED_A k) 0).raise (F.SC_STATUS_PALBAD k)))) ∧
    (d.palIdle k.val true = true → d.palOk k.val true = false →
      exec (.commitB t k) s = .next (s.to ((d.wr (F.SC_STATUS_LOADED_B k) 0).raise (F.SC_STATUS_PALBAD k))))) ∧
  (∀ (s : State) (t : Nat) (d d1 d2 g : Dev) (k : ChanId) (e : PrmqEntry) (f : Nat) (w : Swap), s.ready t d →
    dueSwap (d.ch k.val).prmq d.now = some (e, false, f) →
    d1 = d.modCh k.val (fun c => { c with prmq := c.prmq.erase e }) → d1.members k.val = [k.val] →
    d1.on (F.SC_STATUS_FADING k) = false → d1.on (loadedField k.val (!d1.activeB k.val)) = true →
    d1.palCompatible k.val = true → (∀ r ∈ (d1.ch k.val).prmq, r.kind ≠ .reset) →
    w = ⟨d1.rxBoundary k.val e.at_, d1.txBoundary k.val e.at_, !d1.activeB k.val, none⟩ →
    g = d1.runTx k.val (ceilDiv w.txAt (2 ^ 24)) →
    d2 = ((g.wr (F.SC_STATUS_ACTIVE k) (1 - g.rd (F.SC_STATUS_ACTIVE k))).modCh k.val (fun c =>
      { c with swaps := (w :: c.swaps).take 4 })).wr (F.SC_STATUS_LASTCODE k) 1 →
    exec (.paletteSwap t k) s = .next (s.to ((d2.returnCode k.val e.seq).pullPrmq k.val))) ∧
  (∀ (s : State) (t r x : Nat) (d g : Dev) (k : ChanId) (w : Swap), s.ready t d → d.on (F.SC_STATUS_FADING k) = true →
    d.lastFade k.val = some w → d.fadeEnds k.val w = (r, x) → r ≤ d.now → x ≤ d.now →
    g = (d.wr (F.SC_STATUS_FADING k) 0).wr (F.SC_FADE_FADE_F k) 0 →
    ((d.ch k.val).swapPend = none → exec (.fadeEnd t k) s = .next (s.to g)) ∧
    (∀ fade n h, (d.ch k.val).swapPend = some (fade, n) →
      h = (g.wr (F.SC_STATUS_PENDING k) 0).modCh k.val (fun c => { c with swapPend := none }) →
      exec (.fadeEnd t k) s = .next (s.to
        (h.startSwap k.val (g.rxBoundary k.val (r + 1)) (g.txBoundary k.val (x + 1)) fade n)))) ∧
  (∀ (s : State) (t : Nat) (d d1 d2 d3 : Dev) (cmd : Bool), (if cmd then s.ready t d else s.awake t d) →
    (d.syncAt = none →
      d1 = (((d.wr F.GL_SYNCST_SYNCSRC (if cmd then 1 else 0)).wr F.GL_SYNCST_SYNCV 1).wr F.GL_SYNC_NS_LO_T d.now).wr
        F.GL_SYNC_NS_HI_T (d.now / 2 ^ 32) →
      d2 = { d1 with syncAt := some (d.now + 200) } →
      d3 = ((List.range 64).filter d2.chOn).foldl (fun x k => x.pushPrmq k ⟨x.now + 200, .reset, 128, 0⟩) d2 →
      exec (if cmd then .sync t else .sampleSync t) s = .next (s.to d3)) ∧
    (∀ x, d.syncAt = some x → d.now < x → cmd = true → exec (.sync t) s = .next (s.to (d.inc F.GL_SYNCST_SYNCIGN)))) ∧
  (∀ (s : State) (t : Nat) (d : Dev) (x : Nat), s.ready t d → d.syncAt = some x → x ≤ d.now →
    exec (.syncReset t) s = .next (s.to ((List.range 64).foldl Dev.applyReset { d with syncAt := none })))

/-- Performance counters (R372 to R376, R380). A write of CNT_SEL, CNT_THR, or CNT_CTL with another WT makes the written setting
active at once, VALUE 0, where the active GRP is 0, and pending otherwise; a write of CNT_CTL that leaves WT alone makes nothing
pending. WRAPCLR clears WRAP unless this cycle carries. A read of CNT_RD of a counter whose event the model raises captures
VALUE, WRAP, the pending flag, the instant and mains time. WT_CFG and BW_CFG are written. At a boundary of BASE 0 or 1 each
counter of the timer takes its pending setting, unless it was written in this cycle, with the increment of this cycle as VALUE,
and the timer of the figures closes their window. -/
def Obligations.CounterCommandsComplete : Prop :=
  (∀ (s : State) (t : Nat) (d d1 : Dev) (c : Fin 2048) (i : Fin 3) (v sel thr : Word32) (wt : Nat) (x : Counter), s.ready t d →
    d.domOn 76 = true → x = d.counter c.val →
    d1 = (match i with
      | 0 => d.setWord (A.CNT_SEL c.val) (v &&& 0x3F1F1FFF#32)
      | 1 => d.setWord (A.CNT_THR c.val) v
      | 2 => d.setWord (A.CNT_CTL c.val) (v &&& 0x1F7#32)) →
    (i = 2 → d1.rd (F.CNT_CTL_WT c.val) ≠ d.rd (F.CNT_CTL_WT c.val)) →
    sel = d1.word (A.CNT_SEL c.val) → thr = d1.word (A.CNT_THR c.val) → wt = d1.rd (F.CNT_CTL_WT c.val) →
    (getBits x.sel 24 5 = 0 → exec (.counterSettingWrite t c i v) s = .next (s.to (d1.setCounter c.val
      { x with value := 0, sel := sel, thr := thr, wt := wt, pend := none, older := none }))) ∧
    (getBits x.sel 24 5 ≠ 0 → exec (.counterSettingWrite t c i v) s = .next (s.to (d1.setCounter c.val
      { x with pend := some (sel, thr, wt), pendAt := d.cclk + 1
               older := if x.pendAt = d.cclk + 1 then x.older else x.pend })))) ∧
  (∀ (s : State) (t : Nat) (d d1 : Dev) (c : Fin 2048) (v : Word32), s.ready t d → d.domOn 76 = true →
    d1 = d.setWord (A.CNT_CTL c.val) (v &&& 0x1F7#32) → d1.rd (F.CNT_CTL_WT c.val) = d.rd (F.CNT_CTL_WT c.val) →
    exec (.counterSettingWrite t c 2 v) s = .next (s.to d1)) ∧
  (∀ (s : State) (t : Nat) (d : Dev) (c : Fin 2048), s.ready t d → d.domOn 76 = true →
    exec (.wrapclr t c) s = .next (s.to ((d.wr F.CNT_CMD_IDX c.val).setCounter c.val
      { d.counter c.val with wrap := decide ((d.counter c.val).carry = d.cclk + 1) }))) ∧
  (∀ (s : State) (t : Nat) (d : Dev) (c : Fin 2048) (reader : Fin 18) (x : Counter) (y : Capture), s.ready t d →
    d.domOn 76 = true → x = d.counter c.val → eventKept x.sel = true →
    y = ⟨x.value, x.wrap, x.pend.isSome, d.now, (d.mainsAt d.now).1 % 2 ^ 32, (d.mainsAt d.now).2, c.val, true⟩ →
    exec (.cntRdRead t c reader) s =
      .next (s.to { d with captures := Tab.set {} d.captures reader.val y })) ∧
  (∀ (s : State) (t : Nat) (d : Dev) (j : Fin 8) (v : Word32), s.ready t d → d.domOn 76 = true →
    exec (.wtCfgWrite t j v) s = .next (s.to (d.setWord (A.WT_CFG j.val) (v &&& 0xFFFF0001#32)))) ∧
  (∀ (s : State) (t : Nat) (d d1 : Dev) (v : Word32), s.ready t d → d.domOn 76 = true →
    d1 = (d.setWord A.BW_CFG (v &&& 0xF#32)).wr F.BW_STAT_VALID 0 →
    exec (.bwCfgWrite t v) s = .next (s.to { d1 with bwSum := [], bwLast := none, bwFresh := true })) ∧
  (∀ (s : State) (t n : Nat) (d d1 g : Dev) (j : Fin 8) (x : Timer), s.ready t d → d.domOn 76 = true →
    x = d.timer j.val → n = max 1 (getBits x.cfg 16 16) →
    (x.cfg.getLsbD 0 = false → x.last + 1000 * n ≤ d.now) →
    (x.cfg.getLsbD 0 = true → d.timeRuns = true ∧ n ≤ (d.cycle + 2 ^ 32 - x.lastCycle) % 2 ^ 32 ∧
      (d.cycle + 2 ^ 32 - x.lastCycle) % 2 ^ 32 < 2 ^ 31) →
    d1 = { d with counters := d.counters.map (fun e => if e.2.wt = j.val then (e.1, d.takeSetting e.2) else e) } →
    g = d1.setTimer j.val ⟨d.word (A.WT_CFG j.val), d.now, d.cycle⟩ →
    exec (.windowBoundary t j) s =
      .next (s.to (if d.on F.BW_CFG_EN = true ∧ d.rd F.BW_CFG_BW_WT = j.val then g.bandwidth else g))) ∧
  (∀ (d : Dev) (x : Counter) (sel thr : Word32) (wt : Nat), x.pend = some (sel, thr, wt) → x.pendAt ≠ d.cclk + 1 →
    d.takeSetting x = { x with value := d.thisCycle x sel thr, sel := sel, thr := thr, wt := wt, pend := none, older := none })

/-- Control steps (R202, R203, R211, R214) of a sequencer in RUN whose condition holds before their time: each counts as
executed and the sequencer goes to the step the rules name; HALT stops it. -/
def Obligations.ControlStepsComplete : Prop :=
  ∀ (s : State) (t : Nat) (d e : Dev) (q : SeqId) (st : Step) (x : Nat), s.ready t d → d.takesStep e q.val st x →
    (e.cond q.val st.cond.toNat = true →
      (∀ n, st.op = .halt n → exec (.halt t q) s = .next (s.to
        (let h := ((e.event 4 0 q.val 1).wr (F.SQ_STATUS_STATE q) 4).modSq q.val
            (fun z => { z with held := none, live2 := none })
         if n then h.notice { cls := 2, code := 0, chan := h.tgt q.val, seq := q.val, step := e.sqPc q.val } else h))) ∧
      (∀ c n tg, st.op = .loop c true n tg → exec (.loop t q) s = .next (s.to
        ((e.modSq q.val (fun z => { z with loops := (e.sq q.val).loops.set c.toNat n.toNat })).done q.val))) ∧
      (∀ c n tg v, st.op = .loop c false n tg → (e.sq q.val).loops.getD c.toNat 0 = v + 2 → exec (.loop t q) s = .next (s.to
        ((e.modSq q.val (fun z => { z with loops := (e.sq q.val).loops.set c.toNat (v + 1) })).doneTo q.val tg.toNat))) ∧
      (∀ c n tg, st.op = .loop c false n tg → (e.sq q.val).loops.getD c.toNat 0 = 1 → exec (.loop t q) s = .next (s.to
        ((e.modSq q.val (fun z => { z with loops := (e.sq q.val).loops.set c.toNat 0 })).done q.val))) ∧
      (∀ c n tg, st.op = .loop c false n tg → (e.sq q.val).loops.getD c.toNat 0 = 0 → exec (.loop t q) s = .next (s.to
        (e.done q.val))) ∧
      (∀ tg, st.op = .call tg → (e.sq q.val).stack.length < 8 → exec (.call t q) s = .next (s.to
        ((e.setStack q.val ((e.sqPc q.val + 1) :: (e.sq q.val).stack)).doneTo q.val tg.toNat))) ∧
      (∀ i l, st.op = .ret → (e.sq q.val).stack = i :: l → exec (.ret t q) s = .next (s.to
        ((e.setStack q.val l).doneTo q.val i))) ∧
      (∀ code, st.op = .noteNotice code → exec (.noteNotice t q) s = .next (s.to ((e.notice
        { cls := 1, code := code.toNat, chan := e.tgt q.val, seq := q.val, step := e.sqPc q.val }).done q.val))) ∧
      (∀ code, st.op = .noteEvent code → exec (.noteEvent t q) s = .next (s.to
        ((e.seqnote q.val (code.toNat % 256)).done q.val))) ∧
      (∀ pf, st.op = .noteFlag false pf → exec (.noteFlagSet t q) s = .next (s.to
        (((e.setPairFlags (q.val / 2) (1 + q.val % 2) (2 ^ pf.toNat) true).done q.val).wakeFlags (q.val / 2)))) ∧
      (∀ pf, st.op = .noteFlag true pf → exec (.noteFlagClear t q) s = .next (s.to
        (((e.setPairFlags (q.val / 2) (1 + q.val % 2) (2 ^ pf.toNat) false).done q.val).wakeFlags (q.val / 2))))) ∧
    (∀ inv tg, st.op = .branch inv tg → exec (.branch t q) s = .next (s.to
      (if e.cond q.val st.cond.toNat = !inv then e.doneTo q.val tg.toNat else e.done q.val)))

/-- WAIT (R201, R203): a time wait whose instant lies ahead holds until it, and completes there with SETBT; RXDONE and TXDONE
hold; GRANT, KEY and the flag waits complete at once where what they wait for holds, and else hold. -/
def Obligations.WaitStepsComplete : Prop :=
  (∀ (s : State) (t : Nat) (d e g : Dev) (q : SeqId) (st : Step) (x : Nat) (wk : BitVec 3) (setbt lateok : Bool)
    (pf : BitVec 2), s.ready t d → d.takesStep e q.val st x → e.cond q.val st.cond.toNat = true →
    st.op = .wait wk setbt lateok pf → g = e.modSq q.val (fun z => { z with run := 0 }) → g.stepTime q.val st 0 = some x →
    g.now ≤ x →
    (wk = 0 → exec (.waitTime t q) s = .next (s.to (g.hold q.val x x))) ∧
    (wk = 1 → exec (.waitRxdone t q) s = .next (s.to (g.hold q.val x x))) ∧
    (wk = 2 → exec (.waitTxdone t q) s = .next (s.to (g.hold q.val x x))) ∧
    (wk = 3 → exec (.waitGrant t q) s = .next (s.to (if (g.sq q.val).open_ then g.hold q.val x x else g.done q.val))) ∧
    (wk = 4 → exec (.waitKey t q) s = .next (s.to (if (g.sq q.val).keys = [] then g.done q.val else g.hold q.val x x))) ∧
    (wk = 5 → exec (.waitFlagSet t q) s = .next (s.to
      (if g.pairFlag q.val pf.toNat then g.done q.val else g.hold q.val x x))) ∧
    (wk = 6 → exec (.waitFlagClear t q) s = .next (s.to
      (if g.pairFlag q.val pf.toNat then g.hold q.val x x else g.done q.val)))) ∧
  (∀ (s : State) (t : Nat) (d : Dev) (q : SeqId) (st : Step) (setbt lateok : Bool) (pf : BitVec 2) (b : Nat × Nat),
    s.ready t d → d.sqState q.val = 3 → d.stepAt q.val = some st → st.op = .wait 0 setbt lateok pf →
    (d.sq q.val).target ≤ d.now → b = d.waitBase q.val st (d.sq q.val).target →
    exec (.waitTimeComplete t q) s = .next (s.to ((if setbt then
      d.modSq q.val (fun z => { z with btc := b.1, btg := b.2, wdog := d.cycle, live2 := none }) else d).done q.val)))

/-- ARM, KEYFETCH and BUDGET (R204, R212, R213). Of a step that is executed in time: ARM NODE names the entry of the scope, or
none with NOENT counted, and reads the entries as they stood before a commit of its cycle (R234); ARM SWAP of the pair that owns
the channel places a timed swap where PRMQ has room, and else waits, its swap instant kept (R17, R57); ARM PATH asks for a
re-selection of the armed node that none other asks for; KEYFETCH asks for the phases that SEL names; BUDGET passes its request
to the governor where GOVQ_REQ has room. The re-selection issued first, in time, commits hops and form where they are new and
PIN is 0. -/
def Obligations.ArmAndRequestStepsComplete : Prop :=
  (∀ (s : State) (t : Nat) (d e : Dev) (q : SeqId) (st : Step) (x : Nat), s.ready t d → d.takesStep e q.val st x →
    e.cond q.val st.cond.toNat = true →
    (∀ a i, st.op = .armNode a → e.lookup (e.tgt q.val) a.toNat = some i → exec (.armNode t q) s = .next (s.to
      ((e.modSq q.val (fun z => { z with armed := some i })).done q.val))) ∧
    (∀ a g, st.op = .armNode a → e.lookup (e.tgt q.val) a.toNat = none → g = e.modSq q.val (fun z => { z with armed := none }) →
      exec (.armNode t q) s = .next (s.to (((if a.toNat < 0x1FFFF then g.entryParity (g.tgt q.val) a.toNat else g).countRef
        q.val).done q.val))) ∧
    (∀ f fade, st.op = .armSwap f fade → (e.sq q.val).stall = none → e.prmqRoom (e.tgt q.val) 1 = true →
      e.ownerOk q.val = true → e.now + 40 ≤ x → exec (.armSwap t q) s = .next (s.to ((e.modCh (e.tgt q.val) (fun c =>
        { c with prmq := c.prmq ++ [⟨x, .swap fade f.toNat, q.val, e.sqPc q.val⟩] })).done q.val))) ∧
    (∀ i, st.op = .armPath → (e.sq q.val).armed = some i → e.pathBusy i = false →
      (∃ p ∈ e.loader.paths, p.1 = e.tgt q.val) → exec (.armPath t q) s = .next (s.to
      ((e.modSq q.val (fun y => { y with paths := y.paths ++ [(i, x, e.sqPc q.val)] })).done q.val))) ∧
    (∀ sel i g, st.op = .keyfetch sel → (e.sq q.val).armed = some i →
      g = ((e.modSq q.val (fun y => y.keyfetch [⟨e.sqPc q.val, x, [], true⟩])).selPhases (e.rd (N.SAIDX i)) sel.toNat).foldl
        (fun d ph => d.fetchFor q.val (e.rd (N.SAIDX i)) ph) (e.modSq q.val (fun y => y.keyfetch [⟨e.sqPc q.val, x, [], true⟩])) →
      exec (.keyfetch t q) s = .next (s.to
        ((g.modSq q.val (fun y => { y with fetched := y.fetched.filter (fun f => f.keys ≠ []) })).done q.val))) ∧
    (∀ k en it c, st.op = .budget k en it c → k = 0 → (∀ (r : BudgetReq) g, r = ⟨.txslot, e.tgt q.val, en.toNat, it.toNat, x,
          e.sqPc q.val, false, none⟩ → g = e.modSq q.val (fun z => { z with
            reqs := z.reqs.filter (fun y => y.kind ≠ .txslot), grant := none, asked := true, slotFailed := false }) →
        g.govWaiting < 128 → exec (.budgetTxslot t q) s = .next (s.to
          ((g.modSq q.val (fun z => { z with reqs := z.reqs ++ [r], open_ := true })).done q.val)))) ∧
    (∀ k en it c, st.op = .budget k en it c → k = 1 → e.govWaiting < 128 → (∀ (r : BudgetReq),
        r = ⟨.iter, e.tgt q.val, en.toNat, it.toNat, x, e.sqPc q.val, false, none⟩ → exec (.budgetIter t q) s = .next (s.to
          ((e.modSq q.val (fun z => { z with reqs := z.reqs ++ [r], open_ := true })).done q.val)))) ∧
    (∀ k en it c, st.op = .budget k en it c → k = 2 → e.govWaiting < 128 → (∀ (r : BudgetReq),
        r = ⟨.bringup, c.toNat, en.toNat, it.toNat, x, e.sqPc q.val, false, none⟩ → exec (.budgetBringup t q) s = .next (s.to
          ((e.modSq q.val (fun z => { z with reqs := z.reqs ++ [r], open_ := true })).done q.val))))) ∧
  (∀ (s : State) (t : Nat) (d : Dev) (q : SeqId) (st : Step) (f : BitVec 4) (fade : Bool) (x : Nat), s.ready t d →
    d.sqState q.val = 2 → (d.sq q.val).stall = some x → d.stepAt q.val = some st → st.op = .armSwap f fade → d.now + 40 ≤ x →
    (d.prmqRoom (d.tgt q.val) 1 = true → exec (.armSwap t q) s = .next (s.to ((d.modCh (d.tgt q.val) (fun c =>
      { c with prmq := c.prmq ++ [⟨x, .swap fade f.toNat, q.val, d.sqPc q.val⟩] })).done q.val))) ∧
    (d.prmqRoom (d.tgt q.val) 1 = false → exec (.armSwap t q) s =
      .next (s.to (d.modSq q.val (fun z => { z with stall := some x }))))) ∧
  (∀ (s : State) (t : Nat) (d e old : Dev) (q : SeqId) (st : Step) (x i : Nat) (a : BitVec 17) (l : List (Nat × List Word32)),
    s.ready t d → d.sqState q.val = 2 → d.fetchFault q.val = none → d.stepAt q.val = some st → st.op = .armNode a →
    e = (d.modSq q.val (fun z => { z with run := z.run + 1 })).condParity q.val st.cond.toNat →
    e.cond q.val st.cond.toNat = true → e.justCommitted = l → l ≠ [] → old = l.foldl (fun x y => x.putEntry y.1 y.2) e →
    old.stepTime q.val st 0 = some x → old.now ≤ x → old.lookup (old.tgt q.val) a.toNat = some i →
    exec (.armNode t q) s = .next (s.to ((l.zip (l.map (fun y => e.entryWords y.1))).foldl
      (fun x y => x.recommit y.1.1 y.1.2 y.2) ((old.modSq q.val (fun z => { z with armed := some i })).done q.val)))) ∧
  (∀ (s : State) (t : Nat) (d g h : Dev) (q : SeqId) (p : Nat × Nat × Nat) (i : Nat) (c : PathCost), s.ready t d →
    (d.sq q.val).paths.find? (fun p => d.now ≤ p.2.1) = some p → i = p.1 →
    g = d.modSq q.val (fun y => { y with paths := y.paths.erase p }) → d.reselect (d.tgt q.val) i = some c →
    h = { g with adopted := (g.cclk, (i, Tab.get 0 g.edits i,
      [c.hops.getD 0 0, c.hops.getD 1 0, c.hops.getD 2 0, c.form.toNat]) ::
        (if g.adopted.1 = g.cclk then g.adopted.2 else []).filter (fun e => e.1 != i)) } →
    ((d.on (N.PIN i) = true ∨ (c.hops = d.espalier i ∧ c.form = d.word (nodeWord i 3) ∧ c.form = d.word (nodeWord i 4))) →
      exec (.armPathCommit t q) s = .next (s.to g)) ∧
    (d.on (N.PIN i) = false → (c.hops ≠ d.espalier i ∨ c.form ≠ d.word (nodeWord i 3) ∨ c.form ≠ d.word (nodeWord i 4)) →
      exec (.armPathCommit t q) s = .next (s.to ((((((((h.wr (N.ESP1 i) (c.hops.getD 0 0)).wr (N.ESP2 i)
        (c.hops.getD 1 0)).wr (N.ESP3 i) (c.hops.getD 2 0)).setWord (nodeWord i 3) c.form).setWord
        (nodeWord i 4) c.form).copyEntry i).edited i)))))

/-- Commands to a sequencer and its tables. START of one in IDLE begins its check, and else sets STARTREJ (R217); STOP abandons a
check, a restart and a held step, returns the grant of a held TX and halts a sequencer in ARMED, RUN or HOLD; CLEAR ends a pending
restart and leads one in HALTED or FAULT to IDLE (R218). The pair flags are set and cleared (R223), the live range is taken or
refused with TBLBAD (R220), and a table word is written where R196 and R220 let it be. Where the domain of the registers is off
nothing changes (R23). -/
def Obligations.SequencerCommandsComplete : Prop :=
  (∀ (s : State) (t : Nat) (d : Dev) (q : SeqId), s.ready t d →
    (d.domOn (q.val / 2) = false → exec (.start t q) s = .next (s.to d)) ∧
    (d.domOn (q.val / 2) = true → d.timeRuns = true → d.sqState q.val = 0 → exec (.start t q) s = .next (s.to
      (d.modSq q.val (fun z => { z with checking := some (d.rd (F.SQ_STARTC_CYCLE q)), live2 := none })))) ∧
    (d.domOn (q.val / 2) = true → d.timeRuns = false ∨ d.sqState q.val ≠ 0 →
      exec (.start t q) s = .next (s.to (d.raise (F.SQ_STATUS_STARTREJ q))))) ∧
  (∀ (s : State) (t : Nat) (d g : Dev) (q : SeqId) (tx : Bool), s.ready t d →
    (tx = true ↔ ∃ a b c f l, d.heldWait q.val = some (.tx a b c f l)) →
    g = d.modSq q.val (fun z => { z with
      checking := none, restart := false, held := none, stall := none, live2 := none
      grant := if tx then none else z.grant }) →
    (d.domOn (q.val / 2) = false → exec (.stop t q) s = .next (s.to d)) ∧
    (d.domOn (q.val / 2) = true → d.sqState q.val = 1 ∨ d.sqState q.val = 2 ∨ d.sqState q.val = 3 →
      exec (.stop t q) s = .next (s.to (g.wr (F.SQ_STATUS_STATE q) 4))) ∧
    (d.domOn (q.val / 2) = true → d.sqState q.val ≠ 1 → d.sqState q.val ≠ 2 → d.sqState q.val ≠ 3 →
      exec (.stop t q) s = .next (s.to g))) ∧
  (∀ (s : State) (t : Nat) (d g : Dev) (q : SeqId), s.ready t d →
    g = d.modSq q.val (fun z => { z with restart := false }) →
    (d.domOn (q.val / 2) = false → exec (.clear t q) s = .next (s.to d)) ∧
    (d.domOn (q.val / 2) = true → d.sqState q.val = 4 ∨ d.sqState q.val = 5 →
      exec (.clear t q) s = .next (s.to ((g.wr (F.SQ_STATUS_STATE q) 0).wr (F.SQ_FAULT_FCODE q) 0))) ∧
    (d.domOn (q.val / 2) = true → d.sqState q.val ≠ 4 → d.sqState q.val ≠ 5 → exec (.clear t q) s = .next (s.to g))) ∧
  (∀ (s : State) (t : Nat) (d : Dev) (k : ChanId) (m : BitVec 3), s.ready t d →
    (d.domOn k.val = false → exec (.pfset t k m) s = .next (s.to d) ∧ exec (.pfclr t k m) s = .next (s.to d)) ∧
    (d.domOn k.val = true →
      exec (.pfset t k m) s =
        .next (s.to (((d.setPairFlags k.val 0 m.toNat true).setPairFlags k.val 0 0 false).wakeFlags k.val)) ∧
      exec (.pfclr t k m) s =
        .next (s.to (((d.setPairFlags k.val 0 0 true).setPairFlags k.val 0 m.toNat false).wakeFlags k.val)))) ∧
  (∀ (s : State) (t : Nat) (d : Dev) (q : SeqId) (v w : Word32), s.ready t d → w = v &&& 0x1FFF1FFF#32 →
    (d.domOn (q.val / 2) = false → exec (.sqLiveWrite t q v) s = .next (s.to d)) ∧
    (d.domOn (q.val / 2) = true → d.sqState q.val ≠ 1 → d.sqState q.val ≠ 2 → d.sqState q.val ≠ 3 →
      exec (.sqLiveWrite t q v) s = .next (s.to (d.setWord (A.SQ_LIVE q.val) w))) ∧
    (d.domOn (q.val / 2) = true → d.sqState q.val = 1 → d.firstBad q.val (getBits w 0 13) (getBits w 16 13) = none →
      exec (.sqLiveWrite t q v) s = .next (s.to (d.setWord (A.SQ_LIVE q.val) w))) ∧
    (d.domOn (q.val / 2) = true → d.sqState q.val = 2 ∨ d.sqState q.val = 3 →
      d.firstBad q.val (getBits w 0 13) (getBits w 16 13) = none →
      exec (.sqLiveWrite t q v) s = .next (s.to ((d.setWord (A.SQ_LIVE q.val) w).modSq q.val
        (fun z => { z with live2 := some (d.live q.val) })))) ∧
    (∀ i, d.domOn (q.val / 2) = true → d.sqState q.val = 1 ∨ d.sqState q.val = 2 ∨ d.sqState q.val = 3 →
      d.firstBad q.val (getBits w 0 13) (getBits w 16 13) = some i →
      exec (.sqLiveWrite t q v) s = .next (s.to ((d.raise (F.SQ_STATUS_TBLBAD q)).wr (F.SQ_FAULT_FSTEP q) i)))) ∧
  (∀ (s : State) (t : Nat) (d : Dev) (q : SeqId) (i : Fin 8192) (high : Bool) (v : Word32) (a : Nat), s.ready t d →
    a = seqWord q.val i.val (if high then 1 else 0) →
    (d.domOn 76 = true → (d.domOn (q.val / 2) = false ∨ d.sqState q.val = 0 ∨ d.sqState q.val = 4 ∨ d.sqState q.val = 5 ∨
        inRange (d.live q.val) i.val = false ∧ inRange (d.liveReg q.val) i.val = false) →
      exec (.seqTableWrite t q i high v) s = .next (s.to { d.setWord a v with
        badParity := d.badParity.filter (fun b => b ≠ a), copy := Tab.set 0 d.copy a v,
        copyBad := d.copyBad.filter (fun b => b ≠ a) })) ∧
    ((d.domOn 76 = false ∨ d.domOn (q.val / 2) = true ∧ (d.sqState q.val = 1 ∨ d.sqState q.val = 2 ∨ d.sqState q.val = 3) ∧
        (inRange (d.live q.val) i.val = true ∨ inRange (d.liveReg q.val) i.val = true)) →
      exec (.seqTableWrite t q i high v) s = .next (s.to d)))

/-- What a sequencer meets. A check that ends leads to ARMED, or sets TBLBAD and BADSTEP with the failing step; in the start phase
of a bring-up it fails the bring-up, waits for the other check, takes the group on to the armed phase or ends an aborted bring-up
(R217, R343, R345). An ARMED sequencer enters RUN at grain 0 of its start cycle; with both of the pair in RUN the group of an armed
phase is in service (R217, R344). A fault found at the fetch takes its code where its cause holds, and so does the watchdog
(R216); which word of a step fails parity is log entry 27. The automatic restart clears and starts (R412). Where what a row tells
of does not hold, nothing changes. -/
def Obligations.SequencerEventsComplete : Prop :=
  (∀ (s : State) (t : Nat) (d : Dev) (q : SeqId) (c : SeqCause) (code : Nat), s.ready t d → d.sqState q.val = 2 →
    (d.fetchFault q.val = some code → (c = .runaway ∧ code = 3 ∨ c = .outlive ∧ code = 5 ∨
        c = .parity ∧ code = 1 ∧ d.stepBad q.val (d.sqPc q.val) = true) →
      exec (.sequencerFault t q c) s = .next (s.to (d.seqFault q.val code (d.sqPc q.val)))) ∧
    (∀ st x, c = .stack → d.fetchFault q.val = none → d.stepAt q.val = some st → d.cond q.val st.cond.toNat = true →
      d.stepTime q.val st 0 = some x → d.now ≤ x →
      ((∃ tg, st.op = .call tg ∧ 8 ≤ (d.sq q.val).stack.length) ∨ (st.op = .ret ∧ (d.sq q.val).stack = [])) →
      exec (.sequencerFault t q c) s =
        .next (s.to ((d.condParity q.val st.cond.toNat).seqFault q.val 2 (d.sqPc q.val)))) ∧
    (c ≠ .parity → d.fetchFault q.val = some code → ¬(c = .runaway ∧ code = 3) → ¬(c = .outlive ∧ code = 5) →
      exec (.sequencerFault t q c) s = .next (s.to d)) ∧
    (c = .runaway ∨ c = .outlive → d.fetchFault q.val = none → exec (.sequencerFault t q c) s = .next (s.to d)) ∧
    (c = .stack → d.fetchFault q.val = none → (∀ st, d.stepAt q.val = some st → d.stackFails q.val st = false) →
      exec (.sequencerFault t q c) s = .next (s.to d)) ∧
    (c = .parity → inRange (d.live q.val) (d.sqPc q.val) = false → exec (.sequencerFault t q c) s = .next (s.to d))) ∧
  (∀ (s : State) (t : Nat) (d : Dev) (q : SeqId) (c : SeqCause), s.ready t d → d.sqState q.val ≠ 2 →
    exec (.sequencerFault t q c) s = .next (s.to d)) ∧
  (∀ (s : State) (t : Nat) (d g : Dev) (q : SeqId) (i : Nat), s.ready t d → d.sqState q.val = 2 → i = d.sqPc q.val →
    d.stepBad q.val i = false → inRange (d.live q.val) i = true → g = { d with
      draws := d.draws + 1, badParity := seqWord q.val i (if (Config.upset d.draws).getLsbD 0 then 1 else 0) :: d.badParity } →
    exec (.sequencerFault t q .parity) s = .next (s.to (g.seqFault q.val 1 i))) ∧
  (∀ (s : State) (t : Nat) (d : Dev) (q : SeqId) (w : Nat), s.ready t d → w = d.rd (F.SQ_CFG_WDOG q) →
    (d.sqLive q.val = true → w ≠ 0 → 2 ^ (w + 1) ≤ (d.cycle + 2 ^ 32 - (d.sq q.val).wdog) % 2 ^ 32 →
      exec (.seqWatchdog t q) s = .next (s.to (d.seqFault q.val 4 (d.sqPc q.val)))) ∧
    (d.sqLive q.val = false ∨ w = 0 ∨ (d.cycle + 2 ^ 32 - (d.sq q.val).wdog) % 2 ^ 32 < 2 ^ (w + 1) →
      exec (.seqWatchdog t q) s = .next (s.to d))) ∧
  (∀ (s : State) (t : Nat) (d g : Dev) (q : SeqId), s.ready t d →
    g = d.modSq q.val (fun z => { z with restarts := d.cycle :: z.restarts.take 7 }) →
    (d.sqState q.val = 5 → (d.sq q.val).restart = true →
      (∀ i, (d.liveReg q.val).1 ≤ i → i ≤ (d.liveReg q.val).2 → d.stepBad q.val i = false) →
      exec (.seqAutoRestart t q) s = .next (s.to ((g.sqClear q.val).sqStart q.val 0))) ∧
    (d.sqState q.val ≠ 5 ∨ (d.sq q.val).restart = false ∨
        (∃ i, (d.liveReg q.val).1 ≤ i ∧ i ≤ (d.liveReg q.val).2 ∧ d.stepBad q.val i = true) →
      exec (.seqAutoRestart t q) s = .next (s.to d))) ∧
  (∀ (s : State) (t : Nat) (d g e : Dev) (q : SeqId) (c k : Nat), s.ready t d → (d.sq q.val).checking = some c →
    k = e.tgt q.val → g = d.modSq q.val (fun z => { z with checking := none }) →
    (g.firstBad q.val (g.liveReg q.val).1 (g.liveReg q.val).2 = none →
      e = (g.wr (F.SQ_STATUS_STATE q) 1).modSq q.val (fun z =>
        { z with startAt := if c = 0 ∨ (d.cycle + 2 ^ 32 - c) % 2 ^ 32 < 2 ^ 31 then (d.cycle + 1) % 2 ^ 32 else c }) →
      (e.phase k ≠ 6 → exec (.startCheckComplete t q) s = .next (s.to (e.serviceNext 256))) ∧
      (e.phase k = 6 → ((e.sq (2 * (q.val / 2))).checking.isSome ∨ (e.sq (2 * (q.val / 2) + 1)).checking.isSome) →
        exec (.startCheckComplete t q) s = .next (s.to (e.serviceNext 256))) ∧
      (e.phase k = 6 → (e.sq (2 * (q.val / 2))).checking = none → (e.sq (2 * (q.val / 2) + 1)).checking = none →
        ((e.bring k).abort = true → exec (.startCheckComplete t q) s = .next (s.to
          (((e.stopSeqs (e.group k)).abortBring k).serviceNext 256))) ∧
        ((e.bring k).abort = false → exec (.startCheckComplete t q) s = .next (s.to
          (((e.group k).foldl (fun d m => d.setPhase m 7) e).serviceNext 256))))) ∧
    (∀ i, g.firstBad q.val (g.liveReg q.val).1 (g.liveReg q.val).2 = some i →
      e = ((g.raise (F.SQ_STATUS_TBLBAD q)).wr (F.SQ_FAULT_FCODE q) 8).wr (F.SQ_FAULT_FSTEP q) i →
      (e.phase k ≠ 6 → exec (.startCheckComplete t q) s = .next (s.to (e.serviceNext 256))) ∧
      (e.phase k = 6 → exec (.startCheckComplete t q) s = .next (s.to
        (((e.stopSeqs (e.group k)).bringFail k 6).serviceNext 256))))) ∧
  (∀ (s : State) (t : Nat) (d : Dev) (q : SeqId), s.ready t d → (d.sq q.val).checking = none →
    exec (.startCheckComplete t q) s = .next (s.to (d.serviceNext 256))) ∧
  (∀ (s : State) (t : Nat) (d e : Dev) (q : SeqId) (k : Nat), s.ready t d → d.sqState q.val = 1 → d.timeRuns = true →
    (d.cycle + 2 ^ 32 - (d.sq q.val).startAt) % 2 ^ 32 < 2 ^ 31 → k = d.tgt q.val →
    e = ((((d.wr (F.SQ_STATUS_DEPTH q) 0).modSq q.val (fun z => { z with stack := [] })).wr (F.SQ_STATUS_PC q)
      (d.rd (F.SQ_CFG_ENTRY q))).wr (F.SQ_STATUS_STATE q) 2).modSq q.val (fun z => { z with
        btc := d.cycle, btg := 0, loops := [0, 0, 0, 0], armed := none, held := none, run := 0, wdog := d.cycle,
        open_ := false, keys := [], keyBad := false
        fetched := z.fetched.map (fun f => { f with newest := false }) }) →
    (d.phase k ≠ 7 → e.phase k ≠ 7 → exec (.seqRunEntry t q) s = .next (s.to (e.serviceNext 256))) ∧
    (d.phase k = 7 → (d.bring k).abort = true →
      exec (.seqRunEntry t q) s = .next (s.to (((d.stopSeqs (d.group k)).abortBring k).serviceNext 256))) ∧
    (d.phase k = 7 → (d.bring k).abort = false → e.phase k = 7 →
      (e.sqState (2 * (q.val / 2)) = 1 ∨ e.sqState (2 * (q.val / 2) + 1) = 1 →
        exec (.seqRunEntry t q) s = .next (s.to (e.serviceNext 256))) ∧
      (e.sqState (2 * (q.val / 2)) ≠ 1 → e.sqState (2 * (q.val / 2) + 1) ≠ 1 →
        exec (.seqRunEntry t q) s = .next (s.to (((e.group k).foldl (fun d m =>
          ((d.modBring m (fun _ => {})).setPhase m 8).chsvc m 1) e).serviceNext 256))))) ∧
  (∀ (s : State) (t : Nat) (d : Dev) (q : SeqId), s.ready t d →
    d.sqState q.val ≠ 1 ∨ d.timeRuns = false ∨ 2 ^ 31 ≤ (d.cycle + 2 ^ 32 - (d.sq q.val).startAt) % 2 ^ 32 →
    exec (.seqRunEntry t q) s = .next (s.to (d.serviceNext 256)))

/-- A missed deadline (R60, R201, R215, R451): a wait on an event, an RX or a TX that holds past its deadline is missed; the
oldest request that passed its deadline undecided, a KEYFETCH that lacks a key, a re-selection not committed and a transmission
whose chips ran out are missed after their steps. -/
def Obligations.DeadlineMissCompletes : Prop :=
  (∀ (s : State) (t : Nat) (d : Dev) (q : SeqId) (x : Nat) (op : StepOp), s.ready t d → (d.sq q.val).held = some x →
    d.heldWait q.val = some op → x < d.now →
    (∀ w sb lo pf, op = .wait w sb lo pf → w ≠ 0 →
      exec (.deadlineMiss t (.step q)) s = .next (s.to (d.stepMiss q.val 0 (some x)))) ∧
    (∀ a b c e f, op = .tx a b c e f → exec (.deadlineMiss t (.step q)) s = .next (s.to (d.missTx q.val (d.tgt q.val) 1 (some x)))) ∧
    (∀ a b c e f g, op = .rx a b c e f g → exec (.deadlineMiss t (.step q)) s = .next (s.to (d.stepMiss q.val 2 (some x))))) ∧
  (∀ (s : State) (t : Nat) (d : Dev) (q : SeqId) (p : Nat × Nat × Nat), s.ready t d →
    (d.sq q.val).paths.find? (fun p => p.2.1 < d.now) = some p → exec (.deadlineMiss t (.path q)) s = .next (s.to
      ((d.modSq q.val (fun z => { z with paths := z.paths.erase p })).lateMiss q.val p.2.2 0 p.2.1))) ∧
  (∀ (s : State) (t : Nat) (d g : Dev) (q : SeqId) (f : KeyAsked), s.ready t d →
    (d.sq q.val).fetched.find? (fun f => f.deadline < d.now) = some f → g = d.modSq q.val (fun z =>
      { z with fetched := z.fetched.erase f, keys := if f.newest then [] else z.keys, keyBad := f.newest || z.keyBad
               pins := if f.newest then z.pins.filter (fun p => !f.keys.contains p) else z.pins }) →
    exec (.deadlineMiss t (.key q)) s = .next (s.to ((g.lateMiss q.val f.step 0 f.deadline).wakeKey))) ∧
  (∀ (s : State) (t : Nat) (d g e : Dev) (q : SeqId) (r : BudgetReq) (last : Bool), s.ready t d →
    (d.sq q.val).reqs.find? (fun r => r.deadline < d.now) = some r → last = ((d.sq q.val).reqs.getLast? == some r) →
    g = d.modSq q.val (fun z => { z with
      reqs := z.reqs.erase r, open_ := z.open_ && !last, out := if last then some .failed else z.out
      slotFailed := z.slotFailed || r.kind == .txslot }) →
    e = (if r.deferred then g.inc F.GV_CNT2_DEFERS else g) → exec (.deadlineMiss t (.budget q)) s = .next (s.to
      ((((e.event 10 3 0 1).lateMiss q.val r.step 3 r.deadline).wakeGrant q.val).retryTx q.val))) ∧
  (∀ (s : State) (t : Nat) (d g : Dev) (k : ChanId) (x : TxJob), s.ready t d →
    (d.ch k.val).txs.find? (fun x => x.begun && !x.starved) = some x → g = d.modCh k.val (fun c =>
      { c with txs := c.txs.map (fun y => if y = x then
        { y with starved := true, starveFrom := d.nsChips k.val (d.now - (x.t + 250)) 1 } else y) }) →
    exec (.deadlineMiss t (.slot k)) s = .next (s.to (g.lateMiss x.seq x.step 1 x.t)))

/-- Transmission (R27 to R35, R110, R203, R205, R207, R332). A TX step whose gap R207 gives, that passes every check of R205 and
holds its grant issues its entry. The entry takes effect at its instant on every member: the switch turns, the driver follows
150 ns later and blanking begins. The last sample ends the transmission, SENT unless its chips ran out. An overcurrent trips a
live driver, the fourth trip within 16 cycles locks it, and the transmission is cut. A low front-end supply turns drivers off,
and a restored one lets them on again. -/
def Obligations.TransmissionCommandsComplete : Prop :=
  (∀ (s : State) (t : Nat) (d e e1 e2 : Dev) (q : SeqId) (st : Step) (x n k : Nat) (typ : BitVec 4) (fsel : BitVec 5) (via : Bool)
    (lenmax : BitVec 12) (gap : Bool) (p : TxPlan) (g : SlotGrant) (inner : List Byte) (len : Nat), s.ready t d →
    d.atStep e q.val st → e.cond q.val st.cond.toNat = true → st.op = .tx typ fsel via lenmax gap → k = e.tgt q.val →
    e.locked k = false → (if gap then e.useGap k typ.toNat else some (0, e)) = some (n, e1) → e.stepTime q.val st n = some x →
    e.ownerOk q.val = true → roleSends (e.role k) typ.toNat = true →
    (needsArmed typ.toNat fsel.toNat via = true → (e1.sq q.val).armed ≠ none) → e1.txBad q.val k typ.toNat via = [] →
    e1.txPlan q.val k typ.toNat fsel.toNat via lenmax.toNat = some p →
    inner = ((e1.ch k).grant.map (fun g => g.inner)).getD [] → len = p.lenOf inner (e1.baseLen k p) →
    e1.planRefusal k p len = none → (len ≤ p.limit ∨ p.typ = 15) →
    e2 = (if typ.toNat = 4 ∧ (e1.joinSlot k x).isSome then e1.drawSlot k else e1) →
    e2.typeReady k p.entry typ.toNat x = true → e2.now + 40 ≤ x → e2.prmqRoom k 1 = true →
    (e2.sq q.val).grant = some g → (∀ y ∈ e2.txKeys p, e2.keyReady y = true ∧ e2.slotFails y = false) →
    e2.overlapsTx k x = false → e2.fctrSpent p = false → e2.locked k = false →
    exec (.tx t q) s = .next (s.to ((e2.issueTx q.val k p x g).abortStarted k))) ∧
  (∀ (s : State) (t : Nat) (d g : Dev) (k : ChanId) (x : TxJob), s.ready t d → dueJob (d.ch k.val).txs d.now = some x →
    g = d.modCh k.val (fun c => { c with txs := c.txs.map (fun y => if y = x then { y with begun := true } else y)
                                         prmq := c.prmq.filter (fun e => !(e.kind == .tx && e.at_ == x.t)) }) →
    exec (.transmitEntry t k) s = .next (s.to
      (((((g.members k.val).foldl (fun d m => (d.modCh m (fun c => { c with
        swTx := true, swTo := x.fin + 200, driverOn := d.supplyOk m, drvFrom := x.t + 150, drvTo := x.fin + 50, tripped := false
        highBand := d.driveHigh m, blankFrom := if x.t < c.blankUntil then c.blankFrom else x.t
        blankUntil := x.fin + 400
        blanked := (if x.t < c.blankUntil then c.blanked else (c.blankFrom, c.blankUntil) :: c.blanked).filter (fun b =>
          decide (c.rx.at_ < b.2 + 8192)) })).primeTx m x.t) g).blankWindow k.val).pullPrmq k.val).retryAll))) ∧
  (∀ (s : State) (t : Nat) (d : Dev) (k : ChanId) (x : TxJob), s.ready t d →
    (d.ch k.val).txs.find? (fun x => x.begun && decide (x.fin ≤ d.now)) = some x →
    exec (.transmissionEnd t k) s =
      .next (s.to (d.finishTx k.val x (if x.starved then 3 else 0) x.fin))) ∧
  (∀ (s : State) (t : Nat) (d g h : Dev) (k : ChanId) (trips : List Nat), s.ready t d → d.driverLive k.val = true →
    (∃ x ∈ (d.ch (d.lead k.val)).txs, x.begun = true) → trips = (d.cycle :: (d.ch k.val).trips).take 4 →
    g = (d.setCh k.val { d.ch k.val with trips := trips, driverOn := false, tripped := true }).raise (F.LIF_STATUS_DRVOC k) →
    h = (if tripsLock trips d.cycle then g.raise (F.LIF_STATUS_DRVLOCK k) else g) →
    exec (.driverOvercurrent t k) s = .next (s.to ((h.cause 14 { chan := some k.val }).cutTx (d.lead k.val)))) ∧
  (∀ (s : State) (t : Nat) (d : Dev) (n : DieId) (g : Gov), s.awake t d →
    g = { d.gov with vhvLow := insertNat n.val (d.gov.vhvLow.filter (fun m => m ≠ n.val)) } →
    exec (.vhvFeLow t n) s = .next (s.to ({ d with gov := g }.dropDrivers (fun k => k / 16 == n.val)))) ∧
  (∀ (s : State) (t : Nat) (d : Dev) (n : DieId) (g : Gov), s.awake t d →
    g = { d.gov with vhvLow := d.gov.vhvLow.filter (fun m => m ≠ n.val) } →
    exec (.vhvFeRestored t n) s = .next (s.to { d with gov := g })) ∧
  (∀ (s : State) (t : Nat) (d : Dev) (g : Gov), s.awake t d → g = { d.gov with vddFeLow := true } →
    exec (.vddFeOutOfRange t) s = .next (s.to ({ d with gov := g }.dropDrivers (fun _ => true))))

/-- Acquisition (R18, R35, R37, R59, R138 to R143, R146, R147, R179, R207 to R209). An RX step whose gap R207 gives and that
passes its checks issues its window. The window opens with its gains and searches, unless a frame of an earlier window still comes
in (log entry 176), or, while blanked, opens later and misses once. A row of the receiver takes the samples of its feed first.
NDET counting windows stamped at or before D lock the frame with its strength and its first estimate, later ones count as a late
arrival (log entry 177); TRIM is applied; a reversed window leads to SYNC; 32 sync symbols are decided, and the word leads to
HEADER or fails; the decoded header leads to PAYLOAD or fails; 72 windows without a reversal give the frame up; D + H(k) settles a
window. -/
def Obligations.AcquisitionCommandsComplete : Prop :=
  (∀ (s : State) (t : Nat) (d e e1 g : Dev) (q : SeqId) (st : Step) (x k : Nat) (wlen : BitVec 16) (kh : BitVec 3)
    (sync : BitVec 2) (gsrc : Bool) (gain : BitVec 6) (gap : Bool) (p : RxPlan) (w : RxWin), s.ready t d →
    d.atStep e q.val st → e.cond q.val st.cond.toNat = true → st.op = .rx wlen kh sync gsrc gain gap →
    k = e.tgt q.val → (e.rxGap k gap).map (e.stepTime q.val st) = some (some x) → e.ownerOk q.val = true → e.role k ≠ 0 →
    e.rxPlan q.val k wlen.toNat kh.toNat sync.toNat gsrc gain.toNat gap = some p →
    e1 = (if gap then e.modCh k (fun c => { c with grant := c.grant.map (fun g => { g with winFree := false }) }) else e) →
    e1.rxRefusal k p.kh p.sync = none → e1.now + 40 ≤ x →
    (∀ v ∈ (e1.ch k).wins, v.close ≤ x ∨ x + e1.grains p.wlen ≤ v.opn) → e1.rxRoom k = true →
    w = { seq := q.val, step := e1.sqPc q.val, opn := x, close := x + e1.grains p.wlen, kh := p.kh, sync := p.sync, gains := p.gains
          relay := p.relay, entry := (e1.sq q.val).armed.getD 0 } →
    g = e1.modCh k (fun c => { c with
      wins := c.wins ++ [w], prmq := c.prmq ++ [⟨x, .rx, q.val, w.step⟩]
      lf := if p.relay then { c.lf with upward := none } else c.lf }) →
    exec (.rx t q) s = .next (s.to ((((g.members k).zip p.gains).foldl (fun d y => d.modCh y.1 (fun c => { c with
      prmq := c.prmq ++ [⟨x, .gain y.2, q.val, w.step⟩] })) g).done q.val))) ∧
  (∀ (s : State) (t : Nat) (d g h : Dev) (k : ChanId) (w : RxWin), s.ready t d →
    (d.ch k.val).wins.find? (fun w => !w.opened && decide (w.opn ≤ d.now) && decide (w.opn ≤ w.close)) = some w →
    g = (((d.dropOpening k.val w.opn).members k.val).zip w.gains).foldl (fun d e => d.applyGain e.1 e.2) (d.dropOpening k.val w.opn) →
    (d.blankEnd k.val w.opn ≤ w.opn → h = g.putWin k.val w { w with opened := true } → exec (.windowOpen t k) s = .next (s.to
      (if (h.ch k.val).live.isSome then h else h.wr (F.AQ_STATUS_STATE k) 1))) ∧
    (∀ x, d.blankEnd k.val w.opn = x → w.opn < x →
      h = g.putWin k.val w { w with opn := x, gains := [], want := some (w.want.getD w.opn) } →
      exec (.windowOpen t k) s = .next (s.to
        (let r := if (d.ch k.val).txs.any (fun y => decide (y.t ≤ w.opn) && decide (w.opn < y.fin)) then
            h.raise (F.LIF_STATUS_TRCONF k) else h
         if w.want.isSome then r else r.lateMiss w.seq w.step 2 w.opn)))) ∧
  (∀ (s : State) (t : Nat) (d0 d g : Dev) (k : ChanId) (f : Feed) (w : RxWin) (stamp : Nat) (p : Peak) (l : List Peak), s.ready t d0 →
    d = d0.intake k.val f → d.aqState k.val = 1 → (d.ch k.val).search.peaks = p :: l → d.ndet k.val ≤ l.length + 1 →
    stamp = p.last / 2 ^ 24 → d.searchWin k.val = some w → w.cut = false →
    g = ((d.modCh k.val (fun h => { h with search := {} })).inc (F.AQ_CNT_DETCNT k)).event 2 0 k.val 1 →
    (stamp ≤ w.close → exec (.preambleDetection t k f) s = .next (s.to
      ((((g.putWin k.val w { w with arrival := some stamp, last := none }).wr (F.AQ_STATUS_STATE k) 2).modCh k.val (fun c =>
        { c with
          behind := c.behind ++ c.lock.toList.filter RxLock.ended
          lock := some { stamp := stamp, opn := w.opn, ss := g.strength k.val w.n (p :: l), corr := { peaks := p :: l } }
          cand := none, search := {} })).estimate k.val w.n))) ∧
    (w.close < stamp → exec (.preambleDetection t k f) s = .next (s.to (g.inc F.MT_CNT_LATEARR)))) ∧
  (∀ (s : State) (t : Nat) (d g : Dev) (k : ChanId) (e : PrmqEntry) (v : Int), s.ready t d →
    (d.ch k.val).prmq.find? (fun e => decide (e.at_ ≤ d.now) && (match e.kind with | .trim _ => true | _ => false)) = some e →
    e.kind = .trim v → g = d.modCh k.val (fun c => { c with prmq := c.prmq.erase e }) →
    exec (.trimApply t k) s = .next (s.to ((g.setTrim k.val e.at_ v).pullPrmq k.val))) ∧
  (∀ (s : State) (t : Nat) (d0 d : Dev) (k : ChanId) (f : Feed) (l : RxLock), s.ready t d0 → d = d0.intake k.val f →
    d.aqState k.val = 2 → (d.ch k.val).lock = some l → l.reversed = true → exec (.signReversal t k f) s = .next (s.to
      ((d.modLock k.val (fun l => { l with bits := [true] })).wr (F.AQ_STATUS_STATE k) 3))) ∧
  (∀ (s : State) (t : Nat) (d0 d : Dev) (k : ChanId) (f : Feed) (w : RxWin) (l : RxLock), s.ready t d0 → d = d0.intake k.val f →
    d.aqState k.val = 2 → (d.ch k.val).lock = some l → l.reversed = false → 72 ≤ l.windows →
    d.lockWin k.val = some w → d.takable k.val w = none → d.refNow k.val < w.close →
    exec (.syncReversalTimeout t k f) s = .next (s.to (((((d.signalQuality k.val l).putWin k.val w
      { w with last := some 2 }).trimHome k.val).modCh k.val (fun c => { c with lock := none, cand := none })).wr
      (F.AQ_STATUS_STATE k) 1))) ∧
  (∀ (s : State) (t : Nat) (d0 d g : Dev) (k : ChanId) (f : Feed) (w : RxWin) (l : RxLock) (ss : Int), s.ready t d0 →
    d = d0.intake k.val f → d.lockWin k.val = some w → (d.ch k.val).lock = some l → d.aqState k.val = 3 → 32 ≤ l.bits.length →
    ss = d.strength k.val w.n l.corr.peaks → g = (d.wrS (F.AQ_LEVEL_SS k) ss).modLock k.val (fun l =>
      { l with ss := ss, ssLatched := true, corr := { skip := w.n / 16 } }) →
    (g.syncAccepts k.val w.sync (syncWord l.bits) = true →
      exec (.syncWordDecision t k f) s = .next (s.to (g.wr (F.AQ_STATUS_STATE k) 4))) ∧
    (g.syncAccepts k.val w.sync (syncWord l.bits) = false →
      exec (.syncWordDecision t k f) s = .next (s.to ((g.syncFail k.val).failFrame k.val 2)))) ∧
  (∀ (s : State) (t : Nat) (d0 d : Dev) (k : ChanId) (f : Feed) (w : RxWin) (l : RxLock) (hdr : BitVec 96), s.ready t d0 →
    d = d0.intake k.val f → d.lockWin k.val = some w → (d.ch k.val).lock = some l → d.aqState k.val = 4 →
    288 ≤ l.soft.length → headerSymbols w.kh * w.kh ≤ l.soft.length → hdr = decodeHeader l.soft →
    (∀ i g, hcrcOk hdr = true → (d.neighbourHeard k.val (hdrSrc hdr) l.ss).judgeHeader k.val w hdr = (.accept i, g) →
      exec (.headerDecode t k f) s = .next (s.to ((g.modLock k.val (fun l => { l with
        hdr := some hdr, fin := g.refNow k.val + g.chipsNs k.val (g.payloadChips k.val (hdrForm hdr w.kh) (hdrLen hdr))
        entry := some i, corr := {} })).wr (F.AQ_STATUS_STATE k) 5))) ∧
    (hcrcOk hdr = false →
      exec (.headerDecode t k f) s = .next (s.to ((d.inc (F.FR_CNT_HDRCRCCNT k)).failFrame k.val 3)))) ∧
  (∀ (s : State) (t : Nat) (d g : Dev) (k : ChanId) (w w' : RxWin), s.ready t d →
    (d.ch k.val).wins.find? (fun w => w.outcome.isNone && decide (w.close + d.hns k.val ≤ d.now)) = some w →
    w' = { w with outcome := some w.arrival.isSome } → g = d.putWin k.val w w' →
    ((g.ch k.val).frames.any (fun l => w.owns (some l)) = false →
      exec (.responseWindowCommit t k) s = .next (s.to (g.commitWin k.val w' (w.last.getD 1) false))) ∧
    ((g.ch k.val).frames.any (fun l => w.owns (some l)) = true → exec (.responseWindowCommit t k) s = .next (s.to g)))

/-- Payload reception (R129, R132, R136, R144 to R146, R149 to R157, R274, R277, R283, R295). The sentinel's NDET-th counting
window declares a candidate with its stamp and strength, which is kept, or taken where CAPPOL says so. A complete symbol gives
its soft values, all 0 and counted where it is erased; after the last payload chip the receiver leaves PAYLOAD. A complete block
goes to the pool, and the codewords it overtakes fail. A decoded codeword joins the body, is counted, the first one asks for
the key, and what it decrypts to is handed on. A frame that passes every test ends OK and leaves its message; one whose tag fails,
whose CRC fails, or whose counter passed before ends so. Of several frames the oldest is decoded and judged. The end of KEYWAIT
discards a frame, or the upward frame of a RESP; the first quiet run sets NF, and NFSTALE rises with its age. -/
def Obligations.PayloadCommandsComplete : Prop :=
  (∀ (s : State) (t : Nat) (d0 d g : Dev) (k : ChanId) (f : Feed) (w : RxWin) (l : RxLock) (x : List Peak) (c : Candidate),
    s.ready t d0 → d = d0.intake k.val f → d.lockWin k.val = some w → (d.ch k.val).lock = some l → l.ended = false →
    l.declared = false → d.ndet k.val ≤ l.sent.peaks.length → x = l.sent.peaks.drop (l.sent.peaks.length - d.ndet k.val) →
    c = { stamp := ((x.head?.map Peak.last).getD 0) / 2 ^ 24, ss := d.strength k.val w.n x } →
    g = ((d.raise (F.AQ_STATUS_SENTSEEN k)).inc (F.AQ_CNT2_SENTCNT k)).modCh k.val (fun x =>
      { x with cand := some c, lock := x.lock.map (fun l => { l with declared := true }) }) →
    (g.on (F.AQ_CFG_CAPPOL (g.lead k.val)) = false ∨ c.ss - l.ss < 16 * (g.capDb k.val : Int) ∨ w.close < c.stamp →
      exec (.sentinelCandidate t k f) s = .next (s.to g)) ∧
    (g.on (F.AQ_CFG_CAPPOL (g.lead k.val)) = true → 16 * (g.capDb k.val : Int) ≤ c.ss - l.ss → c.stamp ≤ w.close →
      exec (.sentinelCandidate t k f) s = .next (s.to
        (((g.abortHandOn k.val false).raise (F.AQ_STATUS_CAPSW k)).takeCandidate k.val w c)))) ∧
  (∀ (s : State) (t : Nat) (d0 d e g : Dev) (k : ChanId) (fd : Feed) (w : RxWin) (l : RxLock) (f : Form) (cols : List Col)
    (soft : Option (List Int)) (i len : Nat) (ended : Bool), s.ready t d0 → d = d0.intake k.val fd → d.lockWin k.val = some w →
    (d.ch k.val).lock = some l → d.aqState k.val = 5 → l.symbolFull w.kh = true → f = l.form w.kh → cols = l.corr.buf.reverse →
    len = hdrLen (l.hdr.getD 0) → i = ((d.symbolAt k.val f len (l.pos - 1)).map Prod.fst).getD 0 →
    (f.mux = true → d.muxSymbol k.val w.kh l cols = (e, soft.getD []) ∧ soft.isSome = true) →
    (f.mux = false → d.tineSymbol k.val w.kh i l cols = (e, soft)) → ended = decide (e.payloadChips k.val f len ≤ l.pos) →
    g = e.modLock k.val (fun l' => { l' with
      corr := {}, pre := 0, ended := ended, fin := if ended then ((l.corr.buf.head?.map Col.ref).getD 0) / 2 ^ 24 else l'.fin
      gain := if ended then some (e.ch k.val).gain else l'.gain
      syms := match soft with | some x => l'.syms ++ [(i, x)] | none => l'.syms }) →
    (ended = false → exec (.payloadSymbol t k fd) s = .next (s.to g)) ∧
    (ended = true → exec (.payloadSymbol t k fd) s = .next (s.to ((g.trimHome k.val).wr (F.AQ_STATUS_STATE k)
      (if ((g.trimHome k.val).curWin k.val).isSome then 1 else 0))))) ∧
  (∀ (d : Dev) (k kh : Nat) (l : RxLock) (cols : List Col), overErased (d.eras k) (l.flagged (l.form kh).p cols) = true →
    d.muxSymbol k kh l cols = (d.inc (F.AQ_CNT4_ERASCNT k), List.replicate (l.form kh).bits 0)) ∧
  (∀ (s : State) (t : Nat) (d g : Dev) (k : ChanId) (w : RxWin) (l : RxLock) (f : Form) (h : BitVec 96) (a b n : Nat), s.ready t d →
    (d.ch k.val).behind = [] →
    d.lockWin k.val = some w → (d.ch k.val).lock = some l → l.hdr = some h → f = hdrForm h w.kh →
    a = d.blockEnd k.val f (hdrLen h) (hdrAnchor h) l.blocks → b = d.blockEnd k.val f (hdrLen h) (hdrAnchor h) (l.blocks + 1) →
    a < b → b - a ≤ (l.blockSyms a b).length → n = d.issuedCodewords k.val l →
    g = d.modLock k.val (fun l' => { l' with
      blocks := l'.blocks + 1, codewords := n, stream := l'.stream ++ deinterleave f (l.blockSyms a b)
      syms := l'.syms.filter (fun x => b ≤ x.1) }) →
    exec (.interleaverBlockComplete t k) s = .next (s.to
      (if b < f.symbols (hdrLen h) then
        ({ g with pool := if l.codewords < n then g.pool ++ [(k.val, l.stamp, n - l.codewords)] else g.pool }.startPool).overtake
          k.val (a * f.bits)
       else { g with pool := if l.codewords < n then g.pool ++ [(k.val, l.stamp, n - l.codewords)] else g.pool }.startPool))) ∧
  (∀ (d g : Dev) (k bits n : Nat) (l : RxLock), (d.ch k).lock = some l →
    n = min l.codewords (ceilDiv bits 6144) - (l.decoded + l.started.length) → n ≠ 0 → g = d.modLock k (fun l' => { l' with
      decoded := l'.decoded + n, failed := true, stream := l'.stream.drop (6144 * n)
      body := l'.body ++ List.replicate (n * l'.infoLen) 0 }) →
    d.overtake k bits =
      ({ g with pool := dropWaiting k l.stamp n g.pool }.raise (F.AQ_STATUS_DECSKIP k)).inc (F.AQ_CNT3_DECSKIPCNT k) n) ∧
  (∀ (s : State) (t : Nat) (d g e : Dev) (k : ChanId) (l : RxLock) (cap it : Nat) (soft : List Int) (ok : Bool) (info b : List Byte),
    s.ready t d → (d.ch k.val).behind = [] → (d.ch k.val).lock = some l → l.started.head? = some (cap, soft) →
    decodeWord (l.form 8).rate cap (d.rd (F.AQ_CFG3_MS_OFFSET k)) soft = (it, ok, info) → b = l.body ++ fitTo l.infoLen info →
    g = ((d.event 2 9 k.val 1).event 2 10 k.val it).modLock k.val (fun l' => { l' with
      started := l'.started.drop 1, decoded := l'.decoded + 1, failed := l'.failed || !ok, body := b
      margin := some (min (l'.margin.getD (cap - it)) (cap - it)) }) →
    e = { (if ok then g else g.inc (F.AQ_CNT3_DECFAILCNT k)) with
      poolBusy := (if ok then g else g.inc (F.AQ_CNT3_DECFAILCNT k)).poolBusy.erase (k.val, l.stamp) }.startPool →
    (l.entry = none → exec (.codewordDecode t k) s = .next (s.to e)) ∧
    (∀ i, l.entry = some i → l.decoded ≠ 0 ∨ ok = false → exec (.codewordDecode t k) s = .next (s.to (e.handOn k.val))) ∧
    (∀ i, l.entry = some i → l.decoded = 0 → ok = true → exec (.codewordDecode t k) s = .next (s.to
      ((e.firstCodeword k.val i (beNat ((b.drop 4).take 8)) ((b.getD 3 0).getLsbD 7)).handOn k.val)))) ∧
  (∀ (s : State) (t : Nat) (d x g : Dev) (k : ChanId) (l : RxLock) (h : BitVec 96) (b : List Byte) (i sa n c : Nat)
    (ph poll : Bool),
    s.ready t d → (d.ch k.val).behind = [] → (d.ch k.val).lock = some l → l.hdr = some h →
    hdrLen h ≤ l.decoded → b = whiteBody (hdrSrc h) l.body → n = beNat (b.take 3) → c = beNat ((b.drop 4).take 8) →
    (l.failed = true ∨ hdrLen h ≠ lenFor (infoOctets (hdrForm h 8).rate) n →
      exec (.tagVerdict t k false) s = .next (s.to (((d.plCrc k.val).abortHandOn k.val false).endFrame k.val 4 false))) ∧
    (l.failed = false → hdrLen h = lenFor (infoOctets (hdrForm h 8).rate) n → n + 32 ≤ b.length →
      (fcs32 (b.take (n + 28))).toNat = beNat ((b.drop (n + 28)).take 4) → l.entry = some i → l.key = some (sa, ph) →
      l.aborted = false →
      ((d.sa_ sa).passes c = false → exec (.tagVerdict t k false) s = .next (s.to
        (((d.inc F.CI_CNT_REPLAYCNT).abortHandOn k.val false).endFrame k.val 6 false))) ∧
      ((d.sa_ sa).passes c = true → poll = (d.isOut k.val && (hdrType h == 1 || hdrType h == 3) && hdrDst h != 0x1FFFF) →
        x = d.setSa sa ((d.sa_ sa).accept c) →
        g = ((if x.role k.val = 4 then x else x.acceptedUnder sa ph).event 8 0 0 (ceilDiv n 16)).bwRx k.val n →
        exec (.tagVerdict t k false) s = .next (s.to (match d.lineOpen h sa ph b with
          | some msg => (g.acceptFrame k.val i h l false (fitTo n msg)).endFrame k.val 0 poll
          | none => (((d.event 8 0 0 (ceilDiv n 16)).tagFail sa (some k.val)).abortHandOn k.val true).endFrame
              k.val 5 false))))) ∧
  (∀ (s : State) (t : Nat) (d : Dev) (k : ChanId) (o : RxLock) (rest : List RxLock), s.ready t d →
    (d.ch k.val).behind = o :: rest →
    exec (.codewordDecode t k) s = .next (s.to (d.inPlace k.val o rest (fun x => x.decodeNext k.val))) ∧
    exec (.tagVerdict t k false) s = .next (s.to (d.inPlace k.val o rest (fun x => x.judgeFrame k.val))) ∧
    exec (.interleaverBlockComplete t k) s = .next (s.to
      (if o.syms = [] then d.issueBlock k.val else d.inPlace k.val o rest (fun x => x.issueBlock k.val)))) ∧
  (∀ (s : State) (t : Nat) (d : Dev) (k : ChanId) (f : List Byte), s.ready t d → (d.ch k.val).lf.nested = some f →
    d.role k.val = 1 → exec (.tagVerdict t k true) s = .next (s.to (d.upVerdict k.val f))) ∧
  (∀ (s : State) (t : Nat) (d : Dev) (k : ChanId) (x : Nat), s.ready t d → x ≤ d.now → (d.ch k.val).behind = [] →
    (∀ l, (d.ch k.val).lock = some l → l.keyWait = some x → exec (.keywaitExpiry t k) s =
      .next (s.to ((d.inc F.CI_CNT2_KEYMISS).endFrame k.val 5 false))) ∧
    ((∀ l, (d.ch k.val).lock = some l → l.keyWait = none) → (d.ch k.val).lf.nestedWait = some x →
      exec (.keywaitExpiry t k) s = .next (s.to ((d.inc F.CI_CNT2_KEYMISS).loseNested k.val)))) ∧
  (∀ (s : State) (t : Nat) (d0 d : Dev) (k : ChanId) (f : Feed) (r : NfRun) (l : List NfRun) (level : Int), s.ready t d0 →
    d = d0.intake k.val f → (d.ch k.val).nfDue = r :: l → level = d.levelOf k.val r.power (r.n - r.flagged) 0 →
    (d.ch k.val).nfValid = false → exec (.noiseFloorMeasurement t k f) s = .next (s.to
      ((((d.modCh k.val (fun c => { c with nfDue := l })).wrS (F.AQ_LEVEL_NF k) level).wr (F.AQ_STATUS_NFSTALE k) 0).modCh k.val
        (fun c => { c with nfCycle := some d.cycle, nfValid := true })))) ∧
  (∀ (s : State) (t : Nat) (d : Dev) (k : ChanId), s.ready t d → d.domOn k.val = true → d.nfFresh k.val = false →
    exec (.nfAgeExpiry t k) s = .next (s.to (d.wr (F.AQ_STATUS_NFSTALE k) 1)))

/-- Luafen messages (R166, R173, R174, R177, R181 to R190). An accepted BEACON at an outstation sets HOFS and announces its
window where its block is whole, or, at a joined one, beyond BCN_TOL, is counted as odd; MSGBAD tells of a block that is cut
(R170). A POLL or RELAY at a joined outstation acknowledges and
delivers, and one addressed to it restarts the loss timer and grants; a RELAY that a repeater refuses sets RELAYX. A RESP of an
ACTIVE node, or of a JOINING one with the right nonce, which makes it ACTIVE, settles its exchange; a wrong nonce ends the join. A JOINREQ waits for its
JOINACC; a JOINACC joins, holds off or backs off as STATUS says. Nodes, joins and outstations are lost; a discovery window ends.
-/
def Obligations.LuafenCommandsComplete : Prop :=
  (∀ (s : State) (t : Nat) (d g h : Dev) (k : ChanId) (a : Accepted), s.ready t d → (d.ch k.val).accepted = some a →
    g = d.modCh k.val (fun c => { c with accepted := none }) →
    h = (if a.msg.length < blockLen a.typ then g.raise (F.LF_STATUS_MSGBAD k) else g) →
    (∀ b o, a.typ = 0 → h.isOut k.val = true →
      (readBeacon a.msg = some b ∨ readBeacon a.msg = none ∧ readBeaconTime a.msg = some b) →
      o = h.impliedOffset a.fin b → (h.ostate k.val ≠ 2 ∨ h.on (F.LF_STATUS_HOFSV k) = false ∨
        offsetJump o (h.hofs k.val) ≤ h.rd (F.LF_BCN_BCN_TOL (h.lead k.val))) →
      exec (.beacon t k) s = .next (s.to (let x := (((h.wr (F.LF_HOFS_CYC_HCYC k) (o / 65536)).wr (F.LF_HOFS_GRN_HGRN k)
        (o % 65536)).raise (F.LF_STATUS_HOFSV k)).modLf k.val (fun l => { l with beaconQ := a.q })
        if readBeacon a.msg = none then x else x.announce k.val b))) ∧
    (∀ b o, a.typ = 0 → h.isOut k.val = true →
      (readBeacon a.msg = some b ∨ readBeacon a.msg = none ∧ readBeaconTime a.msg = some b) →
      o = h.impliedOffset a.fin b → h.ostate k.val = 2 → h.on (F.LF_STATUS_HOFSV k) = true →
      h.rd (F.LF_BCN_BCN_TOL (h.lead k.val)) < offsetJump o (h.hofs k.val) →
      exec (.beacon t k) s = .next (s.to ((h.raise (F.LF_STATUS_BCNODD k)).inc (F.LF_CNT4_BCNODDCNT k)))) ∧
    (a.typ = 1 → g.isOut k.val = true → g.ostate k.val = 2 → a.dst = 0x1FFFF →
      exec (.poll t k) s = .next (s.to (g.readReply k.val a))) ∧
    (∀ p, a.typ = 1 → g.isOut k.val = true → g.ostate k.val = 2 → a.dst ≠ 0x1FFFF → readPoll a.msg = some p →
      exec (.poll t k) s = .next (s.to (((g.modLf k.val (fun l => { l with lastPoll := g.cycle })).readReply k.val a).modCh
        k.val (fun c => { c with grant := some (pollGrant a p) })))) ∧
    (∀ p r y, a.typ = 3 → g.isOut k.val = true → g.ostate k.val = 2 → a.dst ≠ 0x1FFFF → readPoll a.msg = some p → readRelay a.msg = some r →
      24 + relayInlen a.msg ≤ a.msg.length →
      y = (g.modLf k.val (fun l => { l with lastPoll := g.cycle })).readReply k.val a →
      (y.refusesRelay k.val (relayGrant a p r) = false → exec (.relay t k) s = .next (s.to ((y.modCh k.val (fun c =>
        { c with grant := some { relayGrant a p r with refused := false } })).modLf k.val (fun l =>
        { l with upward := none })))) ∧
      (y.refusesRelay k.val (relayGrant a p r) = true → exec (.relay t k) s = .next (s.to (((y.raise (F.LF_STATUS_RELAYX k)).modCh
        k.val (fun c => { c with grant := some { relayGrant a p r with refused := true } })).modLf k.val (fun l =>
        { l with upward := none }))))) ∧
    (a.typ = 2 → g.role k.val = 1 → g.rd (N.STATE a.entry) = 2 →
      exec (.resp t k) s = .next (s.to (g.respActive k.val a))) ∧
    (a.typ = 2 → g.role k.val = 1 → g.rd (N.STATE a.entry) = 1 → respNonce a.msg = some (g.nonceH a.entry) →
      exec (.resp t k) s = .next (s.to ((g.confirmJoin k.val a.entry).respActive k.val a))) ∧
    (a.typ = 2 → g.role k.val = 1 → g.rd (N.STATE a.entry) = 1 → respNonce a.msg ≠ some (g.nonceH a.entry) →
      exec (.resp t k) s = .next (s.to ((if (messageUnits 2 a.msg).2 then g.raise (F.LF_STATUS_MSGBAD k) else g).joinAbandon
        a.entry))) ∧
    (∀ r, a.typ = 4 → h.role k.val = 1 → readJoinReq a.msg = some r →
      exec (.joinreq t k) s = .next (s.to (h.modLf k.val (fun l =>
        { l with
          pend := l.pend.filter (fun p => p.1 ≠ a.entry) ++ [(a.entry, a.msg)]
          joinPath := l.joinPath.filter (fun p => p.1 ≠ a.entry) ++ [(a.entry, a.path)] })))) ∧
    (∀ r m, a.typ = 5 → h.isOut k.val = true → h.ostate k.val = 1 → readJoinAcc a.msg = some r →
      m = (if a.msg.length < blockLen 5 then { r with lostc := (h.ch k.val).lf.lostc } else r) →
      m.nonceN = (h.ch k.val).lf.nonceN →
      (m.status = 0 → exec (.joinacc t k) s = .next (s.to (h.joined k.val a.entry m))) ∧
      (m.status = 1 → exec (.joinacc t k) s =
        .next (s.to ((h.wr (F.LF_STATUS_OSTATE k) 0).wr (N.HOLDJ a.entry) 1))) ∧
      (m.status = 2 → exec (.joinacc t k) s = .next (s.to (h.joinFailed k.val))))) ∧
  (∀ (s : State) (t : Nat) (d : Dev) (i : NodeAddr) (k : Nat), s.ready t d → k = d.rd (N.CHAN i.toNat) → d.role k = 1 →
    d.retryMax k ≤ d.rd (N.FAILS i.toNat) →
    (d.rd (N.STATE i.toNat) = 2 → exec (.nodeLost t i) s = .next (s.to
      (((d.wr (N.STATE i.toNat) 3).raise (F.LF_STATUS_LOST k)).modLf k
        (fun l => { l with polled := l.polled.erase i.toNat })))) ∧
    (d.rd (N.STATE i.toNat) = 1 → exec (.joinAbandon t i) s = .next (s.to (d.joinAbandon i.toNat)))) ∧
  (∀ (s : State) (t : Nat) (d : Dev) (k : ChanId), s.ready t d → d.isOut k.val = true → d.ostate k.val = 2 →
    max 1 (d.ch k.val).lf.lostc ≤ (d.cycle + 2 ^ 32 - (d.ch k.val).lf.lastPoll) % 2 ^ 32 →
    exec (.outstationLoss t k) s = .next (s.to ((((d.raise (F.LF_STATUS_LOST k)).wr (F.LF_STATUS_OSTATE k) 0).wr
      (F.LF_STATUS_HOFSV k) 0).modLf k.val (fun l => { l with nonceH := none, disc := none, drawn := none })))) ∧
  (∀ (s : State) (t : Nat) (d : Dev) (k : ChanId) (w : Nat), s.ready t d → d.role k.val = 1 →
    (d.ch k.val).lf.window = some w → d.discWindow k.val ≠ some w →
    exec (.discoveryWindowEnd t k) s = .next (s.to (d.modLf k.val (fun l =>
      { l with window := none, handled := 0, pend := [] })))) ∧
  (∀ (s : State) (t : Nat) (d g : Dev) (k : ChanId) (first grain slots boff n : Nat) (jopen : Bool), s.ready t d → d.role k.val ≠ 1 →
    d.isOut k.val = true → (d.ch k.val).lf.disc = some (first, grain, slots, boff, jopen) →
    n = ((d.headTime k.val d.now).1 + 2 ^ 32 - first) % 2 ^ 32 → slots ≤ n → n < 2 ^ 31 →
    g = (if d.ostate k.val = 1 then d.joinFailed k.val else if (d.ch k.val).lf.sentJoin then d
      else d.modLf k.val (fun l => { l with skip := l.skip - 1 })) →
    exec (.discoveryWindowEnd t k) s = .next (s.to (g.modLf k.val (fun l =>
      { l with disc := none, drawn := none, sentJoin := false }))))

/-- Queue commands (R247 to R260, R263 to R266, R268, R298). A request of a port that R249 does not grant leaves the queues alone.
A push into an enabled shallow queue that has room in the cycle appends its words at the tail and takes the cells it needs, one
without room is an OVERRUN, one into a queue that is not enabled does nothing; a push into a deep queue with staging and room
advances TAIL, one without staging, or that would complete a 33rd sector operation, waits. A pop takes up to eight words; a link
entry that fails parity flushes the queue, a word that a TX step reads bad is poisoned. PRUNE drops the item that the consumer has
begun and counts; FLUSH empties, ABORT drops the open item, enabling and disabling set EN; a full sector goes to HBM, a decrypted
one is in read staging, and what waited for the sector engine goes on; a zeroed cell returns to the free list; HALF1 adds and drops
the upper cells; a pause that is due is repeated. -/
def Obligations.QueueCommandsComplete : Prop :=
  (∀ (s : State) (t : Nat) (d x : Dev) (q : Fin 8192) (cls : Fin 4) (words : List Word64) (last : Option (Fin 9)) (h : Shallow)
    (a : Bool × Grants),
    s.ready t d → d.domOn 76 = true → words ≠ [] → words.length ≤ 8 → last ≠ some 0 → h = d.sh q.val →
    a = d.pushes.ask d.cclk q.val words.length → x = { d with pushes := a.2 } →
    (a.1 = false → exec (.queuePush t (.shallow q) cls words last) s = .next (s.to x)) ∧
    (a.1 = true → d.on (F.QS_CFG_EN q.val) = false →
      exec (.queuePush t (.shallow q) cls words last) s = .next (s.to x.pfcCheck)) ∧
    (a.1 = true → d.on (F.QS_CFG_EN q.val) = true → h.discard = true → exec (.queuePush t (.shallow q) cls words last) s =
      .next (s.to (x.setSh q.val { h with discard := last.isNone }).pfcCheck)) ∧
    (∀ (need : Nat) (cs : List Nat) (free : List (Nat × Nat)) (items : List Item) (e g : Dev),
      a.1 = true → d.on (F.QS_CFG_EN q.val) = true → h.discard = false →
      need = words.length + (if h.openTail then 0 else 1) → e = x.ripen →
      takeRuns (ceilDiv (h.fill + need) 32 - h.cells.length) e.free = some (cs, free) →
      need ≤ e.cycRoom h.log (e.room q.val false) →
      items = pushItems h.items h.openTail cls.val (words.map (fun w => (w, false))) (last.map Fin.val) →
      g = { e with free := free }.setSh q.val { h with
        items := items, cells := h.cells ++ cs, fill := h.fill + need, log := e.cycPush h.log words.length need last.isSome } →
      exec (.queuePush t (.shallow q) cls words last) s =
        .next (s.to (if last.isSome then g.event 6 0 q.val 1 else g).pfcCheck)) ∧
    (∀ (need : Nat) (e : Dev), a.1 = true → d.on (F.QS_CFG_EN q.val) = true → h.discard = false →
      need = words.length + (if h.openTail then 0 else 1) → e = x.ripen →
      (takeRuns (ceilDiv (h.fill + need) 32 - h.cells.length) e.free = none ∨ e.cycRoom h.log (e.room q.val false) < need) →
      exec (.queuePush t (.shallow q) cls words last) s =
        .next (s.to (e.overrunSh q.val need last.isSome).pfcCheck))) ∧
  (∀ (s : State) (t : Nat) (d x : Dev) (q : Fin 1024) (cls : Fin 4) (words : List Word64) (last : Option (Fin 9)) (h : Deep)
    (a : Bool × Grants) (need : Nat),
    s.ready t d → d.domOn 76 = true → words ≠ [] → words.length ≤ 8 → last ≠ some 0 → h = d.dq q.val →
    a = d.pushes.ask d.cclk (8192 + q.val) words.length → x = { d with pushes := a.2 } →
    need = words.length + (if h.openTail then 0 else 1) →
    (a.1 = false → exec (.queuePush t (.deep q) cls words last) s = .next (s.to x)) ∧
    (a.1 = true → d.on (F.QD_CFG_EN q.val) = false → exec (.queuePush t (.deep q) cls words last) s = .next (s.to x)) ∧
    (a.1 = true → d.on (F.QD_CFG_EN q.val) = true → h.discard = true → exec (.queuePush t (.deep q) cls words last) s =
      .next (s.to (x.setDq q.val { h with discard := last.isNone }))) ∧
    (a.1 = true → d.on (F.QD_CFG_EN q.val) = true → h.discard = false →
      h.waiting ≠ [] ∨ 1024 < 512 * h.full + d.dTail q.val % 512 + need ∨ 512 ≤ d.dTail q.val % 512 + need ∧ 32 ≤ d.sectorOps →
      exec (.queuePush t (.deep q) cls words last) s = .next (s.to (x.setDq q.val
        { h with waiting := h.waiting ++ [(words.map (fun w => (w, false)), last.map Fin.val, cls.val)] }))) ∧
    (∀ (room fill span : Nat) (items : List Item) (g : Dev), a.1 = true → d.on (F.QD_CFG_EN q.val) = true → h.discard = false →
      h.waiting = [] → 512 * h.full + d.dTail q.val % 512 + need ≤ 1024 →
      (d.dTail q.val % 512 + need < 512 ∨ d.sectorOps < 32) →
      room = 512 * 2 ^ d.rd (F.QD_CFG_DLOG q.val) - ringDist (d.dHead q.val) (d.dTail q.val) → need ≤ d.cycRoom h.log room →
      fill = d.dTail q.val % 512 + need →
      items = pushItems h.items h.openTail cls.val (words.map (fun w => (w, false))) (last.map Fin.val) →
      g = ((x.setDq q.val { h with
        items := items, full := h.full + fill / 512, wfill := fill % 512
        log := d.cycPush h.log words.length need last.isSome }).wr (F.QD_TAIL_POS q.val)
          (d.dTail q.val + need)).event 8 1 1 (fill / 512) →
      span = ((g.dq q.val).items.getLast?.getD {}).span →
      exec (.queuePush t (.deep q) cls words last) s = .next (s.to (if last.isSome then
        (g.rewriteWord q.val ((g.dTail q.val + 2 ^ 32 - span) % 2 ^ 32)).event 6 0 (4096 + q.val) 1 else g)))) ∧
  (∀ (s : State) (t : Nat) (d : Dev) (q : Fin 8192) (n : Nat) (bad : Option Nat) (link : Bool) (a : Bool × Grants), s.ready t d →
    a = d.pops.ask d.cclk q.val n →
    (n ≠ 0 → n ≤ 8 → link = false ∨ (d.sh q.val).cells = [] →
      (a.1 = false → exec (.queuePop t (.shallow q) n bad link) s = .next (s.to { d with pops := a.2 })) ∧
      (a.1 = true → exec (.queuePop t (.shallow q) n bad link) s =
        .next (s.to (Dev.popShallow { d with pops := a.2 } q.val n bad).pfcCheck))) ∧
    (link = true → (d.sh q.val).cells ≠ [] →
      exec (.queuePop t (.shallow q) n bad link) s = .next (s.to (d.linkError q.val).pfcCheck)) ∧
    (∀ b, bad = some b → link = false ∨ (d.sh q.val).cells = [] →
      exec (.queuePop t (.shallow q) 0 bad link) s = .next (s.to (d.poisonShallow q.val b)))) ∧
  (∀ (s : State) (t : Nat) (d : Dev) (q : Fin 1024) (n : Nat) (bad : Option Nat), s.ready t d →
    (d.on (F.QD_CFG_EN q.val) = true →
      exec (.queuePop t (.deep q) n bad true) s = .next (s.to (((d.flushDeep q.val).raise F.CV_STATUS_LINKERR).cause causePARITY
        { chan := some (d.rd (F.QD_BASE_CHAN q.val)) }))) ∧
    (∀ b, bad = some b → exec (.queuePop t (.deep q) n bad false) s = .next (s.to (d.poisonDeep q.val b))) ∧
    (bad = none → exec (.queuePop t (.deep q) n bad false) s = .next (s.to d))) ∧
  (∀ (s : State) (t : Nat) (d g : Dev) (q : Fin 8192) (i : Item) (l : List Item) (h : Shallow), s.ready t d →
    (d.sh q.val).taking = true → g = d.ethEnd q.val true → h = g.sh q.val → h.taking = true → h.items = i :: l →
    exec (.prune t q) s = .next (s.to (((g.putSh q.val
      { h with items := l, gone := h.gone + i.words.length, taking := false, discard := h.discard || !i.complete
               log := g.cycFree h.log (g.room q.val false) }
      true).inc F.CV_CNT2_PRUNECNT).event 6 2 q.val 1))) ∧
  (∀ (s : State) (t : Nat) (d : Dev) (q : Fin 8192), s.ready t d →
    (d.queueOn (.shallow q) = true → exec (.flush t (.shallow q)) s = .next (s.to (d.flushShallow q.val))) ∧
    (exec (.abort t (.shallow q)) s = .next (s.to ((d.abortTail q.val).setSh q.val
      { (d.abortTail q.val).sh q.val with discard := false }))) ∧
    (d.domOn 76 = true → exec (.queueEnable t (.shallow q)) s = .next (s.to (d.wr (F.QS_CFG_EN q.val) 1).pfcCheck)) ∧
    (d.queueOn (.shallow q) = true → exec (.queueDisable t (.shallow q)) s = .next (s.to (d.disableShallow q.val)))) ∧
  (∀ (s : State) (t : Nat) (d g : Dev) (q : Fin 1024), s.ready t d →
    (d.queueOn (.deep q) = true → exec (.flush t (.deep q)) s = .next (s.to (d.flushDeep q.val))) ∧
    ((∀ x ∈ (d.dq q.val).waiting, x.2.1 = none) → exec (.abort t (.deep q)) s = .next (s.to ((d.dropDeepTail q.val).setDq q.val
      { (d.dropDeepTail q.val).dq q.val with discard := false, waiting := [] }))) ∧
    (∀ a b, (d.dq q.val).waiting = a ++ b → (∀ x ∈ b, x.2.1 = none) → (∃ x l, a = l ++ [x] ∧ x.2.1 ≠ none) →
      exec (.abort t (.deep q)) s = .next (s.to (d.setDq q.val { d.dq q.val with discard := false, waiting := a }))) ∧
    (d.domOn 76 = true → d.on (F.QD_CFG_EN q.val) = false → exec (.queueEnable t (.deep q)) s =
      .next (s.to (d.enableDeep q.val (putBits (d.word (A.QD_CFG q.val)) 8 1 1)).pfcCheck)) ∧
    (d.queueOn (.deep q) = true → exec (.queueDisable t (.deep q)) s = .next (s.to (d.disableDeep q.val))) ∧
    (∀ n p, (d.dq q.val).full = n + 1 →
      p = (d.dTail q.val + 2 ^ 32 - (512 * (n + 1) + d.dTail q.val % 512)) % 2 ^ 32 →
      g = ((d.hbmWrite (d.ringBlock q.val p) (pairBlocks (d.ringWords q.val p 512))).event 8 0 1 256).setDq q.val
        { d.dq q.val with full := n, waiting := [] } →
      exec (.sectorEncryptDone t q) s =
        .next (s.to (g.pushWaiting q.val (d.dq q.val).waiting).pushAllWaiting.startAllJobs)) ∧
    ((d.dq q.val).reading = true → g = (d.event 8 0 1 256).setDq q.val { d.dq q.val with
        reading := false, rstage := d.hbmRead (d.ringBlock q.val (d.dRd q.val - d.dRd q.val % 512)) 256 } →
      exec (.sectorDecryptDone t q) s = .next (s.to g.pushAllWaiting.startAllJobs))) ∧
  (∀ (s : State) (t : Nat) (d : Dev), s.ready t d →
    (∀ c l, d.zeroing = c :: l → exec (.zeroingDone t) s =
      .next (s.to (({ d with zeroing := l } : Dev).returnCell c).pfcCheck)) ∧
    (d.domOn 76 = true → d.domOn 77 = true → d.half1 = false →
      exec (.half1Set t) s = .next (s.to (d.wr F.CV_CFG_HALF1 1).addUpper.pfcCheck)) ∧
    (d.domOn 76 = true → d.half1 = true →
      exec (.half1Clear t) s = .next (s.to (d.wr F.CV_CFG_HALF1 0).dropUpper.pfcCheck)) ∧
    (d.pfcTx = true → d.pfcOff = true → d.freeCells < 16 * d.rd F.FW_XOFF_XON →
      d.pfcAt + ceilDiv (d.rd F.FW_PFC_QUANTA * 64) 100 ≤ d.now →
      exec (.pfcRepeat t) s = .next (s.to { d.sendPfc (d.rd F.FW_PFC_QUANTA) with pfcAt := d.now })))

/-- Node-entry shadows and key arrival (R224, R232, R233, R281 to R284, R448): a LOAD names its entry in INDEX; it answers
BADIDX for index 0 and 0x1FFFF, or PERM with the slot's words cleared for another tenant's entry, or copies the entry's sixteen
words and answers OK. A COMMIT answers the first check that fails and changes nothing else, or writes the identity and tunable
fields, counting an edit if a tunable field differs, returns the entry to ABSENT under SETABS and clears HOLDJ under CLRHOLD.
Both record PARITY and read an entry that fails parity as an unused one. A key that arrives for a fetch under way becomes
resident where its unwrap is intact and its phase valid, binds the frames that wait for it, and what waits goes on; a phase no
longer valid ends what waits for it with KEYMISS, and so does a failed unwrap, which clears VALID with KEYERR and POISON (R284). A completion of no fetch changes nothing.
-/
def Obligations.ShadowAndKeyCommandsComplete : Prop :=
  (∀ (s : State) (t : Nat) (d g h : Dev) (slot : Fin 17) (i : NodeAddr), s.ready t d → d.domOn 76 = true →
    g = d.wr (F.NT_SH_CTL_INDEX slot.val) i.toNat →
    (i = 0 ∨ i = 0x1FFFF → exec (.load t slot i) s = .next (s.to (g.wr (F.NT_SH_CTL_RES slot.val) 1))) ∧
    (i ≠ 0 → i ≠ 0x1FFFF → slot.val < 16 → (g.seen i.toNat).rd (N.TENANT i.toNat) ≠ slot.val →
      exec (.load t slot i) s = .next (s.to
        (((List.range 16).foldl (fun (x : Dev) w => x.setWord (A.NT_SH_W (16 * slot.val + w)) 0) (g.tableParity i.toNat)).wr
          (F.NT_SH_CTL_RES slot.val) 2))) ∧
    (i ≠ 0 → i ≠ 0x1FFFF → slot.val = 16 ∨ (g.seen i.toNat).rd (N.TENANT i.toNat) = slot.val →
      h = (List.range 16).foldl (fun (x : Dev) w => x.setWord (A.NT_SH_W (16 * slot.val + w))
        ((g.seen i.toNat).word (nodeWord i.toNat w))) (g.tableParity i.toNat) →
      exec (.load t slot i) s = .next (s.to { h.wr (F.NT_SH_CTL_RES slot.val) 0 with
        shadow := Tab.put h.shadow slot.val (i.toNat, Tab.get 0 h.edits i.toNat) })) ∧
    (∀ (r : Nat) (a c : Bool) (e x y : Dev), r = (g.seen i.toNat).commitResult slot.val i.toNat →
      h = (if r = 1 then g else g.tableParity i.toNat).wr (F.NT_SH_CTL_RES slot.val) r →
      (r ≠ 0 → exec (.commit t slot i a c) s = .next (s.to h)) ∧
      (r = 0 → e = (if h.tuneDiffers slot.val i.toNat then h.edited i.toNat else h) →
        x = { e.writeSlot slot.val i.toNat with shadow := Tab.del e.shadow slot.val } →
        y = (if a then (x.wr (N.STATE i.toNat) 0).dropSession i.toNat else x) →
        exec (.commit t slot i a c) s = .next (s.to (if c then y.wr (N.HOLDJ i.toNat) 0 else y))))) ∧
  (∀ (s : State) (t : Nat) (d g : Dev) (i : NodeAddr) (p intact : Bool), s.ready t d →
    (d.fetches.contains (i.toNat, p) = false → exec (.keyResident t i p intact) s = .next (s.to d)) ∧
    (d.fetches.contains (i.toNat, p) = true →
      g = { d with fetches := d.fetches.erase (i.toNat, p)
                   sa := d.sa.map (fun (e : Nat × SaCmd) =>
                     (e.1, if (e.2.saidx, e.2.phase) = (i.toNat, p) then { e.2 with old := none } else e.2)) } →
      (g.keyValid i.toNat p = true → intact = true → exec (.keyResident t i p intact) s = .next (s.to (((((
        { g with cache := (i.toNat, p) :: g.cache, slotBad := g.slotBad.filter (fun x => x ≠ (i.toNat, p)) } : Dev).bindWaiting
          (i.toNat, p)).keysSettled (i.toNat, p) false).wakeKey).retryAll).startAllJobs)) ∧
      (g.resident (i.toNat, p) = false → g.keyValid i.toNat p = false → exec (.keyResident t i p intact) s = .next (s.to
        (((g.keyFails (i.toNat, p)).wakeKey).retryAll).startAllJobs)) ∧
      (g.resident (i.toNat, p) = false → g.keyValid i.toNat p = true → intact = false →
        exec (.keyResident t i p intact) s = .next (s.to ((((((
          g.setSa i.toNat ((g.sa_ i.toNat).setValid p false)).raise F.CI_STATUS_KEYERR).cause causePOISON
            { chan := g.chanOfSa i.toNat }).keyFails (i.toNat, p)).wakeKey).retryAll).startAllJobs))))

/-- Ethernet link commands (R239 to R241, R243, R349 to R351): on a port that is on and not squelched a loss clears its status and
UP, sets LOS or LOA and takes the port down; PORT_UP brings it up in its status and in the fabric, and the channels of a port that
has stayed down move to it; a port not up 50 ms after SQUELCH was cleared raises LOS while a lane has no signal, else LOA. SQUELCH
is cleared and set. In modes 2 and 3, after FAILHOLD with the port down and the other up every channel moves to the other, and
after RESTORE those that prefer the port move back, one whose frame is under way on the other port when that frame ends, each with
MOVED and the notice where some channel moved. A received pause holds its priority for its quanta of 1.28 ns, none for 0, where
PFCRX is set, and counts in any case; it expires. -/
def Obligations.LinkCommandsComplete : Prop :=
  (∀ (s : State) (t : Nat) (d g : Dev) (p : PortId), s.awake t d → d.ethLive p.val = true →
    (∀ lane : Fin 8, exec (.lossOfSignal t p lane) s = .next (s.to (((((d.wr ⟨A.ETH_STATUS p.val, lane.val, 1⟩ 0).raise
      (F.ETH_STATUS_LOS p.val)).wr (F.ETH_STATUS_UP p.val) 0)).portLost p.val))) ∧
    (exec (.lossOfAlignment t p false) s = .next (s.to (((((d.wr (F.ETH_STATUS_ALIGN p.val) 0).raise
      (F.ETH_STATUS_LOA p.val)).wr (F.ETH_STATUS_UP p.val) 0)).portLost p.val))) ∧
    (exec (.lossOfAlignment t p true) s = .next (s.to (((((d.wr (F.ETH_STATUS_HISER p.val) 1).raise
      (F.ETH_STATUS_LOA p.val)).wr (F.ETH_STATUS_UP p.val) 0)).portLost p.val))) ∧
    (∀ (any : Bool) (h x : Dev), d.on (F.ETH_STATUS_UP p.val) = false →
      g = ((((d.wr (F.ETH_STATUS_SIGDET p.val) 0xFF).wr (F.ETH_STATUS_ALIGN p.val) 1).wr (F.ETH_STATUS_HISER p.val) 0).wr
        (F.ETH_STATUS_UP p.val) 1).wr (upField p.val) 1 →
      h = { g with downSince := Tab.del g.downSince p.val, upSince := Tab.put g.upSince p.val (some g.now)
                   linkWait := Tab.del g.linkWait p.val } →
      h.portUp p.val = true → h.moveTo p.val (fun _ => true) = (any, x) →
      (h.upmode < 2 ∨ h.heldDown (1 - p.val) = false → exec (.portUp t p) s = .next (s.to h)) ∧
      (2 ≤ h.upmode → h.heldDown (1 - p.val) = true → exec (.portUp t p) s = .next (s.to
        (if any then (x.raise F.FW_UPSTAT_MOVED).uplinkNotice 0 p.val else x)))) ∧
    (∀ x (lanes : BitVec 8), Tab.get none d.linkWait p.val = some x → x + 50000000 ≤ d.now →
      g = d.wr (F.ETH_STATUS_SIGDET p.val) lanes.toNat →
      (lanes ≠ 0xFF#8 → exec (.portUpTimeout t p lanes) s = .next (s.to (g.raise (F.ETH_STATUS_LOS p.val)))) ∧
      (lanes = 0xFF#8 → exec (.portUpTimeout t p lanes) s = .next (s.to (g.raise (F.ETH_STATUS_LOA p.val)))))) ∧
  (∀ (s : State) (t : Nat) (d g : Dev) (p : PortId), s.awake t d → d.ethDomOn p.val = true →
    (d.on (F.ETH_CFG_SQUELCH p.val) = true → exec (.squelchClear t p) s = .next (s.to
      { d.wr (F.ETH_CFG_SQUELCH p.val) 0 with linkWait := Tab.put d.linkWait p.val (some d.now) })) ∧
    (d.on (F.ETH_CFG_SQUELCH p.val) = false →
      g = ((d.wr (F.ETH_CFG_SQUELCH p.val) 1).wr (F.ETH_STATUS_SIGDET p.val) 0).wr (F.ETH_STATUS_ALIGN p.val) 0 →
      exec (.squelchSet t p) s = .next (s.to
        (Dev.linkLoss { g with linkWait := Tab.del g.linkWait p.val } p.val (F.ETH_STATUS_LOS p.val))))) ∧
  (∀ (s : State) (t : Nat) (d g : Dev) (p : PortId) (x : Nat) (any : Bool), s.ready t d → 2 ≤ d.upmode →
    (d.portUp p.val = false → Tab.get none d.downSince p.val = none ∨
        (Tab.get none d.downSince p.val = some x ∧ x + 1000 * min 150 (d.rd F.FW_UPL_FAILHOLD) ≤ d.now) →
      d.portUp (1 - p.val) = true → d.moveTo (1 - p.val) (fun _ => true) = (any, g) →
      exec (.failholdExpiry t p) s = .next (s.to
        (if any then (g.raise F.FW_UPSTAT_MOVED).uplinkNotice 0 (1 - p.val) else g))) ∧
    (Tab.get none d.upSince p.val = some x → d.on F.FW_UPL_REVERT = true → d.portUp p.val = true →
      x + 1000000 * max 1 (d.rd F.FW_UPL_RESTORE) ≤ d.now →
      (∀ (late : List Nat) (h : Dev), late = (List.range 64).filter (fun k =>
          d.rd (F.FW_CHUP_CUR k) != p.val && d.preferred k == p.val && d.sendsElsewhere k p.val) →
        d.moveTo p.val (fun k => d.preferred k == p.val && !late.contains k) = (any, g) →
        h = { g with returning := g.returning ++ late.map (fun k => (k, p.val)) } →
        exec (.revert t p) s =
          .next (s.to (if any ∨ late ≠ [] then (h.raise F.FW_UPSTAT_MOVED).uplinkNotice 1 p.val else h))))) ∧
  (∀ (s : State) (t : Nat) (d g : Dev) (p : PortId) (r : Fin 8), s.awake t d →
    (∀ (quanta : BitVec 16) (x : Nat), d.on (F.ETH_STATUS_UP p.val) = true → g = d.event 7 5 p.val 1 →
      (g.on F.FW_PFC_PFCRX = true → x = (if quanta = 0 then 0 else g.now + ceilDiv (quanta.toNat * 128) 100) →
        exec (.pfcFrame t p r quanta) s = .next (s.to
          { g with paused := Tab.set 0 g.paused (8 * p.val + r.val) x })) ∧
      (g.on F.FW_PFC_PFCRX = false → exec (.pfcFrame t p r quanta) s = .next (s.to g))) ∧
    (Tab.get 0 d.paused (8 * p.val + r.val) ≤ d.now → exec (.pauseExpiry t p r) s = .next (s.to
      { d with paused := Tab.del d.paused (8 * p.val + r.val) })))

/-- Frames of the ports (R14, R235 to R238, R352, R447, R449): on a port that is up a frame with a bad FCS or under 64 octets
counts in FCSERR, one over MAXFR in OVERSIZE; any other counts with its octets. Without REFCLK_SYS no more happens. Else a port
that does not accept drops it with code 1, MGT_ET takes it to the management engine, any other EtherType but SHIM_ET drops it
with code 2; a shim frame is dropped with the code of the first check of R236 that fails, 3 to 7, or pushed to the queue that
R237 selects. A port that is up and free begins the frame of the queue R447 names, advancing the shim's SEQ; with no such queue
nothing happens. -/
def Obligations.FrameCommandsComplete : Prop :=
  (∀ (s : State) (t : Nat) (d : Dev) (p : PortId) (octets : List Byte), s.awake t d →
    (d.on (F.ETH_STATUS_UP p.val) = false → exec (.frameReceive t p octets) s = .next (s.to d)) ∧
    (d.on (F.ETH_STATUS_UP p.val) = true →
      (octets.length < 64 ∨ fcsGood octets = false → exec (.frameReceive t p octets) s =
        .next (s.to ((d.inc (F.ETH_CNT_FCSERR p.val)).event 7 4 p.val 1))) ∧
      (64 ≤ octets.length → fcsGood octets = true → d.maxFr p.val < octets.length →
        exec (.frameReceive t p octets) s = .next (s.to (d.inc (F.ETH_CNT_OVERSIZE p.val)))) ∧
      (∀ (g h : Dev) (et : Nat) (body : List Byte) (b : Tab Nat), 64 ≤ octets.length → fcsGood octets = true →
        octets.length ≤ d.maxFr p.val → g = (d.event 7 0 p.val 1).event 7 1 p.val octets.length →
        b = Tab.set 0 g.bwSum (2 * (64 + p.val)) (Tab.get 0 g.bwSum (2 * (64 + p.val)) + octets.length) →
        h = { g with bwSum := b } →
        frameBody [h.rd F.FW_CFG_SHIM_ET, h.rd F.FW_CFG_MGT_ET] octets = (et, body) →
        (h.mains.refclk = false → exec (.frameReceive t p octets) s = .next (s.to h)) ∧
        (h.mains.refclk = true → h.accepting p.val = false → exec (.frameReceive t p octets) s = .next (s.to (h.fwDrop 1))) ∧
        (h.mains.refclk = true → h.accepting p.val = true →
          (et = h.rd F.FW_CFG_MGT_ET → exec (.frameReceive t p octets) s =
            .next (s.to (h.mgReceive p.val (BitVec.ofNat 48 (beNat ((octets.drop 6).take 6))) body))) ∧
          (et ≠ h.rd F.FW_CFG_MGT_ET → et ≠ h.rd F.FW_CFG_SHIM_ET →
            exec (.frameReceive t p octets) s = .next (s.to ((h.inc F.FW_CNT_DROPCNT).wr F.FW_UPSTAT_LASTDROP 2))) ∧
          (∀ (x : Shim) (n : Nat), et ≠ h.rd F.FW_CFG_MGT_ET → et = h.rd F.FW_CFG_SHIM_ET → x = readShim body →
            n = body.length - 8 →
            exec (.frameReceive t p octets) s = .next (s.to
              (if x.ver ≠ 1 ∨ x.up then h.fwDrop 3
              else if h.lookup (h.rd (N.CHAN x.node)) x.node ≠ some x.node ∨
                  !kindSuits (h.rd (N.KIND x.node)) (h.kindRole (h.lead (h.rd (N.CHAN x.node)))) then
                (h.entryParity (h.lead (h.rd (N.CHAN x.node))) x.node).fwDrop 4
              else if x.tenant ≠ h.rd (N.TENANT x.node) then h.fwDrop 5
              else if h.fwState (h.lead (h.rd (N.CHAN x.node))) x.node x.cls then h.fwDrop 6
              else if n = 0 ∨ 16383 < n then h.fwDrop 7
              else h.fwPush x.node x.cls (body.drop 8)))))))) ∧
  (∀ (s : State) (t : Nat) (d g : Dev) (p : PortId), s.ready t d → d.portUp p.val = true →
    d.ethOut.any (fun e : EthOut => e.port == p.val && !e.done) = false →
    (d.nextQueue p.val = none → exec (.egressFrameStart t p) s = .next (s.to d)) ∧
    (∀ (q k c : Nat) (it : Item) (e : EthOut) (z : Tab Nat),
      d.nextQueue p.val = some (q, k, c) → it = (d.sh q).items.head?.getD {} →
      e = { port := p.val, queue := q, head := d.egressHead p.val k c it } →
      z = Tab.set 0 d.shimSeq (4 * k + c) ((Tab.get 0 d.shimSeq (4 * k + c) + 1) % 65536) →
      g = { d with ethOut := d.ethOut ++ [e], rr := Tab.put d.rr (8 * p.val + d.pri c) q, shimSeq := z } →
      exec (.egressFrameStart t p) s =
        .next (s.to (((g.entryParity k (g.itemNode k it).1).beginItem q).event 7 2 p.val 1))))

/-- Budget decisions (R335 to R338, R341, R346): a request that no sequencer has deferred is decided while 40 ns remain before its
deadline, and not afterwards; a TXSLOT or BRINGUP request is deferred while another is deferred. Else R336 denies a TXSLOT request
over a quarter of C, grants it from the floor, denies it by the thermal state, grants it from H, degrades it by the least
reduction H admits, or defers it; R337 gives an ITER request the largest allowance H admits, or ITER_MIN with OVERBUD where H
admits none, and while CCLK stands still the request keeps what was decided (R14); a BRINGUP request of a channel in HELD starts
service where mains time and the thermal state admit it and is else denied, and of another begins the sequence where R341 admits
it and is else denied. -/
def Obligations.BudgetDecisionsComplete : Prop :=
  (∀ (s : State) (t : Nat) (d : Dev) (q : SeqId) (r : BudgetReq), s.awake t d →
    ((d.sq q.val).reqs.find? (fun x => x.kind == .txslot && !x.deferred && x.answer.isNone) = some r →
      (r.deadline < d.now + 40 → exec (.txslotDecision t q) s = .next (s.to d)) ∧
      (d.now + 40 ≤ r.deadline → d.anyDeferred = true → exec (.txslotDecision t q) s = .next (s.to (d.defer q.val r)))) ∧
    ((d.sq q.val).reqs.find? (fun x => x.kind == .iter && !x.deferred && x.answer.isNone) = some r → r.deadline < d.now + 40 →
      exec (.iterDecision t q) s = .next (s.to d)) ∧
    (d.mains.refclk = true → (d.sq q.val).reqs.find? (fun x => x.kind == .bringup && !x.deferred && x.answer.isNone) = some r →
      (r.deadline < d.now + 40 → exec (.bringupDecision t q) s = .next (s.to d)) ∧
      (d.now + 40 ≤ r.deadline → d.anyDeferred = true → exec (.bringupDecision t q) s = .next (s.to (d.defer q.val r))))) ∧
  (∀ (s : State) (t : Nat) (d : Dev) (q : SeqId) (r : BudgetReq) (e k dmin : Nat), s.awake t d →
    (d.sq q.val).reqs.find? (fun x => x.kind == .txslot && !x.deferred && x.answer.isNone) = some r →
    d.now + 40 ≤ r.deadline → d.anyDeferred = false → e = r.energy → k = r.chan →
    dmin = (if d.tstate = 1 then d.rd F.GV_MODE_WARM_DEG else 0) →
    (d.cap < 4 * e → exec (.txslotDecision t q) s = .next (s.to (d.decide_ q.val r .deny none))) ∧
    (4 * e ≤ d.cap → e ≤ d.floorLeft k → ∀ g, g = { d.gov with floors := (d.now, k, e) :: d.gov.floors } →
      exec (.txslotDecision t q) s = .next (s.to (({ d with gov := g } : Dev).decide_ q.val r .grant
        (some { chan := k, charged := e, floor := true, d := 0 })))) ∧
    (4 * e ≤ d.cap → d.floorLeft k < e → 2 ≤ d.tstate →
      exec (.txslotDecision t q) s = .next (s.to (d.decide_ q.val r .deny none))) ∧
    (4 * e ≤ d.cap → d.floorLeft k < e → d.tstate < 2 → dmin = 0 → (e : Int) ≤ d.headroom →
      exec (.txslotDecision t q) s = .next (s.to (d.decide_ q.val r .grant
        (some { chan := k, charged := e, floor := false, d := 0 })))) ∧
    (∀ z, 4 * e ≤ d.cap → d.floorLeft k < e → d.tstate < 2 → dmin ≠ 0 ∨ d.headroom < (e : Int) →
      dmin ≤ z → z ≤ d.rd F.GV_MODE_DEG_MAX → (chargeOf e z : Int) ≤ d.headroom →
      (∀ y, dmin ≤ y → y < z → d.headroom < (chargeOf e y : Int)) →
      exec (.txslotDecision t q) s = .next (s.to (d.decide_ q.val r (.degrade z)
        (some { chan := k, charged := chargeOf e z, floor := false, d := z })))) ∧
    (4 * e ≤ d.cap → d.floorLeft k < e → d.tstate < 2 → dmin ≠ 0 ∨ d.headroom < (e : Int) →
      (∀ y, dmin ≤ y → y ≤ d.rd F.GV_MODE_DEG_MAX → d.headroom < (chargeOf e y : Int)) →
      exec (.txslotDecision t q) s = .next (s.to (d.defer q.val r)))) ∧
  (∀ (s : State) (t : Nat) (d g h : Dev) (q : SeqId) (r : BudgetReq) (k n x : Nat), s.awake t d →
    (d.sq q.val).reqs.find? (fun x => x.kind == .iter && !x.deferred && x.answer.isNone) = some r →
    d.now + 40 ≤ r.deadline → k = r.chan → n = max 1 (min r.iter d.iterCeiling) →
    ((d.allowance k n r.energy = some x ∧ g = d) ∨
      (d.allowance k n r.energy = none ∧ x = d.iterMin ∧ g = d.raise F.GV_STATUS_OVERBUD)) →
    (d.mains.refclk = true →
      h = (g.modCh k (fun c => { c with iterCharge := ceilDiv (r.energy * x) n })).wr (F.GV_CHSTAT_ITER k) x →
      exec (.iterDecision t q) s = .next (s.to (h.decide_ q.val r (if x = n then .grant else .degrade 0) none))) ∧
    (∀ y : BudgetReq, d.mains.refclk = false → y = { r with iter := x, energy := ceilDiv (r.energy * x) n } →
      h = g.modSq q.val (fun z => { z with reqs := z.reqs.map (fun w => if w = r then y else w) }) →
      exec (.iterDecision t q) s = .next (s.to (h.decide_ q.val y (if x = n then .grant else .degrade 0) none)))) ∧
  (∀ (s : State) (t : Nat) (d : Dev) (q : SeqId) (r : BudgetReq), s.ready t d →
    (d.sq q.val).reqs.find? (fun x => x.kind == .bringup && !x.deferred && x.answer.isNone) = some r →
    d.now + 40 ≤ r.deadline → d.anyDeferred = false →
    (d.phase r.chan = phHELD → d.envOk = true → exec (.bringupDecision t q) s =
      .next (s.to ((d.decide_ q.val r .grant none).startService r.chan))) ∧
    (d.phase r.chan ≠ phHELD → d.bringOk r.chan r.energy = true → exec (.bringupDecision t q) s =
      .next (s.to ((d.decide_ q.val r .grant none).beginBring r.chan r.energy false))) ∧
    ((d.phase r.chan = phHELD ∧ d.envOk = false) ∨ (d.phase r.chan ≠ phHELD ∧ d.bringOk r.chan r.energy = false) →
      exec (.bringupDecision t q) s = .next (s.to ((d.decide_ q.val r .deny none).chsvc r.chan lrDENIED))))

/-- Ticks and samples of the governor (R330 to R335, R338 to R340): a tick takes MODE and GV_CUSTOM, or returns them to the
values in force with GVREJ where twice the floors would exceed C; it forms M and PWR from the rail samples within WIN, sets
OVERBUD with one notice as M comes to exceed C, sets H, drops the floor charges that have left the window, and decides the
deferred requests in their order, but those within 40 ns of their deadline. A temperature sample enters its sensor; Tj and HOTS
are the highest reading and its sensor, and the thermal state follows. 1 ms at 110 °C trips and drops every channel. The
rounding of M and PWR and the choice among equal readings are the model's (log entries 10 and 166). -/
def Obligations.GovernorTickCompletes : Prop :=
  (∀ (s : State) (t : Nat) (rails : List Nat) (d e g h x y : Dev) (c : Word32) (n m nj : Nat) (live : List (Nat × Nat))
      (f : List (Nat × Nat × Nat)), s.awake t d → n = d.rd F.GV_MODE_MODE → c = d.word A.GV_CUSTOM →
    e = (if n = d.gov.mode ∧ c = d.gov.custom then d
      else if modeB n c * d.winMs * 10 < 2 * d.floorSum then
        ((d.wr F.GV_MODE_MODE d.gov.mode).setWord A.GV_CUSTOM d.gov.custom).raise F.GV_STATUS_GVREJ
      else ({ d with gov := { d.gov with mode := n, custom := c } } : Dev).thermal) →
    live = (e.gov.power ++ [(e.now, rails.sum)]).filter (fun p => decide (e.now < p.1 + 1000000 * e.winMs)) →
    nj = (live.map Prod.snd).sum → m = (roundQuotient nj 100000).toNat →
    g = { e with gov := { e.gov with power := live, m := m } } →
    h = g.wr F.GV_PWR_PWR (min 65535 (roundQuotient m g.winMs).toNat) →
    x = (if nj ≤ 100000 * h.cap then h
      else if 100000 * d.cap < (d.gov.power.map Prod.snd).sum then h.raise F.GV_STATUS_OVERBUD
      else (h.raise F.GV_STATUS_OVERBUD).notice { cls := 8, code := 0 }) →
    y = x.wrS F.GV_HEAD_H x.headroom → f = y.gov.floors.filter (fun f => decide (y.now < f.1 + 1000000 * y.winMs)) →
    exec (.governorTick t rails) s = .next (s.to (({ y with gov := { y.gov with floors := f } } : Dev).deferredReqs.foldl
      (fun z p => if p.2.deadline < z.now + 40 ∨ (z.sq p.1).reqs.contains p.2 = false ∨
          (p.2.kind = .bringup ∧ z.mains.refclk = false) then z else z.decideReq p.1 p.2)
      { y with gov := { y.gov with floors := f } }))) ∧
  (∀ (s : State) (t : Nat) (d g : Dev) (c tj : Int) (n : Fin 24) (i : Nat) (l : Tab Int) (u v : Gov), s.awake t d →
    l = Tab.put d.gov.temps n.val c → hottest l = (tj, i) →
    g = (({ d with gov := { d.gov with temps := l } } : Dev).wrS F.GV_PWR_TJ tj).wr F.GV_PWR_HOTS i →
    u = { g.gov with tj := tj, hotFrom := if tj < 110 then none else some (g.gov.hotFrom.getD g.now) } →
    v = { u with barred := u.barred && !decide (tj < ({ g with gov := u } : Dev).tc - 10) } →
    exec (.temperatureSample t c n) s = .next (s.to ({ g with gov := v } : Dev).thermal)) ∧
  (∀ (s : State) (t : Nat) (d g : Dev) (x : Nat), s.awake t d → d.gov.hotFrom = some x → x + 1000000 ≤ d.now → d.tstate ≠ 3 →
    g = (d.wr F.GV_STATUS_TSTATE 3).dropChannels →
    exec (.thermalTrip t) s = .next (s.to ((((({ g with gov := { g.gov with barred := true } } : Dev).cause causeTHERM
      { ao := true }).raise F.GV_STATUS_THERMTRIP).notice { cls := 8, code := 1 }).serviceNext 256)))

/-- Switching of domains and channels (R21, R22, R248, R328, R329, R341 to R347, R416): a writer that may not govern gets RES 2
and GVREJ. GV_PDCMD of a channel domain, PD_CNV0 or PD_AON answers ORDER, with BUDGETDENY where the order of R22 forbids the
switch; of another domain BUSY while it is to switch on, OK where it stands as asked, ORDER with BUDGETDENY where the order
forbids the switch, and else OK with the switch queued or made. GV_CHCMD with a role above 4 answers 3; ON and HOLD of a channel
in a sequence answer BUSY; while service is barred, or where R341 refuses it, DENIED; else they set the service role and begin
the sequence, or from HELD stay there or start service; OFF drains a channel in service, captures one in HELD and aborts a
bring-up. The record is replayed, unless HBM has lost it; calibration ends in CALFAIL, HELD or the start of service; an abort
ends a bring-up at its phase boundary; a drained channel, or one past DRAIN_MAX, is captured, and then goes off with its notice.
A switch-on that has ended puts its domain on, a channel into RESTORE, and the next begins; one whose requirements are gone is
refused. -/
def Obligations.PowerCommandsComplete : Prop :=
  (∀ (s : State) (t : Nat) (d g : Dev) (w : Writer) (n : Fin 128), s.ready t d →
    (d.mayGovern w = false →
      exec (.gvPdcmdOn t w n) s = .next (s.to ((d.wr F.GV_PDCMD_RES 2).raise F.GV_STATUS_GVREJ)) ∧
      exec (.gvPdcmdOff t w n) s = .next (s.to ((d.wr F.GV_PDCMD_RES 2).raise F.GV_STATUS_GVREJ))) ∧
    (d.mayGovern w = true → g = d.wr F.GV_PDCMD_DOM n.val →
      (n.val < 64 ∨ n.val = 76 ∨ 79 ≤ n.val →
        exec (.gvPdcmdOn t w n) s = .next (s.to (if n.val < 79 ∧ g.domOn n.val = false ∧ g.requiresOk n.val = false then
          (g.wr F.GV_PDCMD_RES 1).switchDeny none else g.wr F.GV_PDCMD_RES 1)) ∧
        exec (.gvPdcmdOff t w n) s = .next (s.to (if (n.val = 76 ∧ g.domOn 76 = true ∧ g.releaseOk 76 = false) ∨
          (n.val = 79 ∧ g.powered 76 = true) then (g.wr F.GV_PDCMD_RES 1).switchDeny none else g.wr F.GV_PDCMD_RES 1))) ∧
      (64 ≤ n.val → n.val ≠ 76 → n.val < 79 →
        exec (.gvPdcmdOn t w n) s = .next (s.to (if g.gov.queue.contains n.val then g.wr F.GV_PDCMD_RES 3
          else if g.domOn n.val then g.wr F.GV_PDCMD_RES 0
          else if g.requiresOk n.val then (g.wr F.GV_PDCMD_RES 0).enqueue [n.val]
          else (g.wr F.GV_PDCMD_RES 1).switchDeny none)) ∧
        exec (.gvPdcmdOff t w n) s = .next (s.to (if g.gov.queue.contains n.val then g.wr F.GV_PDCMD_RES 3
          else if !g.domOn n.val then g.wr F.GV_PDCMD_RES 0
          else if g.releaseOk n.val then (g.wr F.GV_PDCMD_RES 0).domainOff n.val
          else (g.wr F.GV_PDCMD_RES 1).switchDeny none))))) ∧
  (∀ (s : State) (t : Nat) (d : Dev) (w : Writer) (k : ChanId) (hold : Bool) (r : Option (Fin 8)), s.ready t d →
    (d.mayGovern w = false →
      exec (.gvChcmdOn t w k r) s = .next (s.to (((d.wr F.GV_CHCMD_RES 2).raise F.GV_STATUS_GVREJ).serviceNext 256)) ∧
      exec (.gvChcmdHold t w k r) s = .next (s.to (((d.wr F.GV_CHCMD_RES 2).raise F.GV_STATUS_GVREJ).serviceNext 256)) ∧
      exec (.gvChcmdOff t w k) s = .next (s.to (((d.wr F.GV_CHCMD_RES 2).raise F.GV_STATUS_GVREJ).serviceNext 256))) ∧
    (∀ (g x y : Dev) (b c : Nat), d.mayGovern w = true → b = (if r.isSome then 1 else 0) → c = (r.map Fin.val).getD 0 →
      g = ((d.wr F.GV_CHCMD_CHAN k.val).wr F.GV_CHCMD_ROLESET b).wr F.GV_CHCMD_ROLE c →
      x = (g.wr F.GV_CHCMD_RES 0).setService k.val (r.map Fin.val) →
      y = ((g.wr F.GV_CHCMD_RES 3).switchDeny (some k.val)).chsvc k.val lrDENIED →
      exec (if hold then .gvChcmdHold t w k r else .gvChcmdOn t w k r) s = .next (s.to
        ((if 4 < c then g.wr F.GV_CHCMD_RES 3
          else if (g.group k.val).any g.inSequence then (g.wr F.GV_CHCMD_RES 1).setRes k.val lrBUSY
          else if g.gov.barred then y
          else if g.phase k.val = phHELD then (if hold then x else if g.envOk then x.startService k.val else y)
          else if g.bringOk k.val 0 then x.beginBring k.val 0 hold else y : Dev).serviceNext 256))) ∧
    (∀ (g : Dev) (p : Nat), d.mayGovern w = true →
      g = ((d.wr F.GV_CHCMD_CHAN k.val).wr F.GV_CHCMD_ROLESET 0).wr F.GV_CHCMD_ROLE 0 → p = g.phase k.val →
      exec (.gvChcmdOff t w k) s = .next (s.to
        ((if p = phOFF then g.wr F.GV_CHCMD_RES 0
          else if p = phDRAIN ∨ p = phCAPTURE then g.wr F.GV_CHCMD_RES 1
          else if p = phSERVICE then (g.wr F.GV_CHCMD_RES 0).beginDrain k.val
          else if p = phHELD then (g.group k.val).foldl (fun z m => (z.enterOff m).setPhase m phCAPTURE)
            (g.wr F.GV_CHCMD_RES 0)
          else (g.group k.val).foldl (fun (z : Dev) m => z.modBring m (fun b => { b with abort := true }))
            (g.wr F.GV_CHCMD_RES 0) : Dev).serviceNext 256)))) ∧
  (∀ (s : State) (t : Nat) (d g : Dev) (k : ChanId), s.ready t d →
    (d.phase k.val = phRESTORE → (d.record k.val).bad = true →
      exec (.restoreDone t k) s = .next (s.to ((d.bringFail k.val lrCFGREJ).serviceNext 256))) ∧
    (d.phase k.val = phRESTORE → (d.record k.val).bad = false →
      g = (d.replay k.val).modBring k.val (fun b => { b with restored := true }) →
      exec (.restoreDone t k) s = .next (s.to
        ((if (g.bring k.val).abort then g.abortBring k.val else g.setPhase k.val phCAL).serviceNext 256))) ∧
    (d.phase k.val = phCAL → (d.bring k.val).abort = true → ∀ ok,
      exec (.calibrationDone t k ok) s = .next (s.to ((d.abortBring k.val).serviceNext 256))) ∧
    (d.phase k.val = phCAL → (d.bring k.val).abort = false → exec (.calibrationDone t k false) s =
      .next (s.to (((d.cause causeCALFAIL { chan := some k.val }).bringFail k.val lrCALFAIL).serviceNext 256))) ∧
    (d.phase k.val = phCAL → (d.bring k.val).abort = false →
      g = d.modBring k.val (fun b => { b with calibrated := true }) →
      exec (.calibrationDone t k true) s = .next (s.to ((if (d.group k.val).any (fun m =>
          g.phase m != phCAL || !(g.bring m).calibrated) then g
        else if (g.bring k.val).hold then g.enterHeld (d.group k.val) else g.startService k.val).serviceNext 256))) ∧
    (d.phase k.val = phDRAIN → d.drained k.val = true → exec (.drainComplete t k) s =
      .next (s.to ((d.beginCapture k.val).serviceNext 256))) ∧
    (∀ l, d.phase k.val = phCAPTURE → l = (d.group k.val).filter (fun m => d.phase m == phCAPTURE) →
      g = l.foldl (fun x m => x.capture m (x.record m).role) d →
      exec (.captureDone t k) s = .next (s.to (((l.foldl (fun x m =>
        (x.outOfService m).chsvc m (x.rd (F.GV_CHSTAT_LASTRES m))) g).autoFe (k.val / 16)).serviceNext 256)))) ∧
  (∀ (s : State) (t : Nat) (d : Dev) (k : ChanId), s.ready t d → d.phase k.val = phDRAIN →
    Tab.get d.now d.gov.drain k.val + 1000000 * d.rd F.GV_ITER_DRAIN_MAX ≤ d.now →
    exec (.drainTimeout t k) s = .next (s.to ((((d.group k.val).foldl Dev.cutAll d).beginCapture k.val).serviceNext 256))) ∧
  (∀ (s : State) (t n : Nat) (l : List Nat) (d g h : Dev), s.awake t d → d.gov.queue = n :: l →
    (d.requiresOk n = false →
      exec (.domainSwitchOnDone t) s = .next (s.to (((d.startNext 256).domainAwaited).serviceNext 256))) ∧
    (d.requiresOk n = true → g = ({ d with gov := { d.gov with queue := l } } : Dev).domainOn n →
      h = (if 64 ≤ n then g else if (g.bring n).abort then g.abortBring n else g.setPhase n phRESTORE) →
      exec (.domainSwitchOnDone t) s = .next (s.to ((((if h.rstate = 2 ∧ (n = 68 ∨ n = 69) then h.unsquelch (n - 68)
        else h).startNext 256).domainAwaited).serviceNext 256))))

/-- Record commands (R279, R285 to R291, R307, R324): with PD_CIPG off or in the recovery state they have no effect; while the
source's previous command runs they answer BUSY. Else the command names its record, phase and kind in SA_CMD, sets BUSYST, has its
effect at once and leaves its result to SA_COMMAND_DONE. CREATE, DELETE and PAGEERASE of a page source are PERM; CREATE answers
BADOP for kind 0, EXISTS for a record in use, and else makes the record with the salt and page staged; PAGEERASE erases the page,
or answers BUSY while entropy is not TRUSTED (log entry 188); the others answer NOREC for a free record, PERM for another page's,
and else the result of the KEYWR, KEYERASE, ROLL, QUERY or DELETE; a KEYWR of a resident phase leaves its slot the old key until
it is done. SA_COMMAND_DONE sets RES, clears BUSYST and zeroes the staging. -/
def Obligations.RecordCommandsComplete : Prop :=
  (∀ (s : State) (t : Nat) (d : Dev) (src : Fin 17) (i : NodeAddr) (ph : Bool) (kind : Fin 4), s.ready t d →
    (d.domOn 70 = false ∨ d.rstate = 2 → ∀ c ∈ [Instr.keywr t src i ph, .keyerase t src i ph, .roll t src i, .query t src i,
      .create t src i kind, .delete t src i, .pageerase t src], exec c s = .next (s.to d)) ∧
    (d.domOn 70 = true → d.rstate ≠ 2 → d.on (F.SA_CMD_BUSYST src.val) = true →
      ∀ c ∈ [Instr.keywr t src i ph, .keyerase t src i ph, .roll t src i, .query t src i, .create t src i kind,
        .delete t src i, .pageerase t src], exec c s = .next (s.to (d.wr (F.SA_CMD_RES src.val) 4)))) ∧
  (∀ (s : State) (t : Nat) (d : Dev) (src : Fin 17) (i : NodeAddr) (k0 : Nat) (p0 : Bool) (g : Bool → Nat → Nat → Dev)
      (chk : Dev → Nat × Dev → Nat × Dev) (put : SaCmd → Nat × Dev → State), s.ready t d →
    d.domOn 70 = true → d.rstate ≠ 2 → d.on (F.SA_CMD_BUSYST src.val) = false →
    k0 = d.rd (F.SA_CMD_KIND src.val) → p0 = d.on (F.SA_CMD_PH src.val) →
    g = (fun p sa k => ((d.wr (F.SA_CMD_PH src.val) (if p then 1 else 0)).wr (F.SA_CMD_SAIDX src.val) sa).wr
      (F.SA_CMD_KIND src.val) k) →
    chk = (fun e x => if (e.sa_ i.toNat).kind = 0 then (2, e)
      else if src.val ≠ 16 ∧ (e.sa_ i.toNat).tenant ≠ src.val then (1, e.hedge) else x) →
    put = (fun c x => s.to { x.2.wr (F.SA_CMD_BUSYST src.val) 1 with sa := Tab.put x.2.sa src.val { c with res := x.1 } }) →
    (∀ ph e old, e = g ph i.toNat k0 → old = (if e.resident (i.toNat, ph) then some (e.startKey (i.toNat, ph)) else none) →
      exec (.keywr t src i ph) s = .next (put { op := 1, saidx := i.toNat, phase := ph, res := 0, old := old }
        (chk e (e.keyWrite src.val i.toNat ph))) ∧
      exec (.keyerase t src i ph) s = .next (put { op := 2, saidx := i.toNat, phase := ph, res := 0 }
        (chk e (e.keyErase i.toNat ph)))) ∧
    (∀ e, e = g p0 i.toNat k0 →
      exec (.roll t src i) s = .next (put { op := 3, saidx := i.toNat, phase := p0, res := 0 } (chk e (e.rollRecord i.toNat))) ∧
      exec (.query t src i) s = .next (put { op := 4, saidx := i.toNat, phase := p0, res := 0 }
        (chk e (0, e.queryRecord src.val i.toNat))) ∧
      exec (.delete t src i) s = .next (put { op := 6, saidx := i.toNat, phase := p0, res := 0 }
        (if src.val ≠ 16 then (1, e.hedge) else chk e (0, e.removeRecord i.toNat)))) ∧
    (∀ (kind : Fin 4) e, e = g p0 i.toNat kind.val →
      exec (.create t src i kind) s = .next (put { op := 5, saidx := i.toNat, phase := p0, res := 0 }
        (if src.val ≠ 16 then (1, e.hedge) else if kind.val = 0 then (7, e) else if (e.sa_ i.toNat).kind ≠ 0 then (6, e)
         else (0, e.setSa i.toNat
           { kind := kind.val, tenant := e.rd (F.SA_ARG_TENANT 16), salt := BitVec.ofNat 31 (e.rd (F.SA_SALT_SALT 16)) })))) ∧
    (∀ e, e = g p0 (d.rd (F.SA_CMD_SAIDX src.val)) k0 →
      exec (.pageerase t src) s = .next (put { op := 7, saidx := d.rd (F.SA_CMD_SAIDX src.val), phase := p0, res := 0 }
        (if src.val ≠ 16 then (1, e.hedge) else if e.trusted = false then (4, e)
          else (0, e.pageErase (e.rd (F.SA_ARG_TENANT 16))))))) ∧
  (∀ (s : State) (t : Nat) (d g h : Dev) (src : Fin 17) (e : Nat × SaCmd), s.ready t d →
    d.sa.find? (fun e : Nat × SaCmd => e.1 == src.val) = some e →
    g = (match e.2.old with | some w => d.noteRewrite (e.2.saidx, e.2.phase) w | none => d) →
    h = ((g.wr (F.SA_CMD_RES src.val) e.2.res).wr (F.SA_CMD_BUSYST src.val) 0).zeroStaging src.val →
    exec (.saCommandDone t src) s = .next (s.to { h with sa := Tab.del g.sa src.val }))

/-- ADMIN_LOCK and tenant jobs (R301, R303 to R305, R363): a lease that has run out ends first; ACQ of an administration session
takes a free lock, or its own, for LEASE ms, and leaves another's; REL frees its own alone; a session that is none changes
nothing; an expired lease frees the lock and zeroes the administration staging. With PD_CIPG on JEN is set with two queues of the
page and refused with QREJ otherwise; JGO takes the descriptor, or raises JREJ while JEN is 0 or four jobs are outstanding; the
oldest running job ends ERASED, TAGFAIL where its tag does not open, or with what its output gives, and the page's jobs go on;
with none running nothing happens; a read of PG_JDONE3 removes the oldest record. -/
def Obligations.LockAndJobCommandsComplete : Prop :=
  (∀ (s : State) (t : Nat) (d g : Dev) (n : Fin 256), s.ready t d →
    (d.adminSession n.val = false → exec (.acq t n) s = .next (s.to d) ∧ exec (.rel t n) s = .next (s.to d)) ∧
    (d.adminSession n.val = true → n ≠ 0 → g = d.lapseLock →
      (g.holder = 0 ∨ g.holder = n.val → exec (.acq t n) s = .next (s.to { g.wr F.ADMIN_LOCK_HOLDER n.val with
        leaseEnd := some (g.now + 1000000 * max 1 (g.rd F.ADMIN_LEASE_LEASE)) })) ∧
      (g.holder ≠ 0 → g.holder ≠ n.val → exec (.acq t n) s = .next (s.to g)) ∧
      (g.holder = n.val → exec (.rel t n) s = .next (s.to { g.wr F.ADMIN_LOCK_HOLDER 0 with leaseEnd := none })) ∧
      (g.holder ≠ n.val → exec (.rel t n) s = .next (s.to g)))) ∧
  (∀ (s : State) (t x : Nat) (d : Dev), s.awake t d → d.leaseEnd = some x →
    (x ≤ d.now →
      exec (.leaseExpiry t) s = .next (s.to (({ d.wr F.ADMIN_LOCK_HOLDER 0 with leaseEnd := none } : Dev).zeroStaging 16))) ∧
    (d.now < x → exec (.leaseExpiry t) s = .next (s.to d))) ∧
  (∀ (s : State) (t : Nat) (d : Dev) (p : PageId) (v : Word32), s.ready t d → d.domOn 70 = true →
    v = d.word (A.PG_JCFG p.val) ||| 0x2000#32 →
    (d.jenOk p.val v = true →
      exec (.jen t p) s = .next (s.to (d.setWord (A.PG_JCFG p.val) (v &&& 0x1FFF3FFF#32)))) ∧
    (d.jenOk p.val v = false → exec (.jen t p) s = .next (s.to (d.raise F.CV_STATUS_QREJ))) ∧
    (d.on (F.PG_JCFG_JEN p.val) = false ∨ 4 ≤ (d.page p.val).jobs.length →
      exec (.jgo t p) s = .next (s.to (d.raise (F.PG_JSTAT_JREJ p.val)))) ∧
    (d.on (F.PG_JCFG_JEN p.val) = true → (d.page p.val).jobs.length < 4 →
      exec (.jgo t p) s = .next (s.to ((d.modJobs p.val (fun l => l ++ [d.descriptor p.val])).startJobs p.val))) ∧
    exec (.pgJdone3Read t p) s = .next (s.to
      (d.setPage p.val { d.page p.val with ring := (d.page p.val).ring.drop 1 }))) ∧
  (∀ (s : State) (t : Nat) (d : Dev) (p : PageId), s.ready t d →
    ((d.page p.val).jobs.find? Job.started = none → exec (.jobComplete t p) s = .next (s.to d)) ∧
    (∀ j, (d.page p.val).jobs.find? Job.started = some j →
      (j.erased = true → exec (.jobComplete t p) s = .next (s.to ((d.finishJob p.val j jsERASED 0).startJobs p.val))) ∧
      (∀ st e, j.erased = false → (st, e) = (match d.jobResult j with
          | none => (jsTAGFAIL, (d.event 8 0 1 (ceilDiv j.dlen 16)).tagFail j.saidx none 1)
          | some out => (d.event 8 0 1 (ceilDiv j.dlen 16)).jobOutput p.val (fitTo j.outLen out)) →
        exec (.jobComplete t p) s =
          .next (s.to ((e.finishJob p.val j st (if st = jsOK then j.outLen else 0)).startJobs p.val)))))

/-- Lifecycle and OTP commands (R309 to R311, R313, R314): a writer that may not govern gets PERM, and one while a command runs
BUSY; a command whose word is not in RT_CONFIRM gets CONFIRM, one that the lifecycle state does not admit STATE, a second
OWNKEY_SET STATE and a LOCK without the owner's image NOIMG; every refusal zeroes RT_CONFIRM. Else it sets BUSY, DECOMMISSION
raising its alarm first. OTP_COMMAND_DONE programs the store where nothing cut the command, a change of lifecycle awaiting the
next reset with LCPEND, sets RES, zeroes RT_CONFIRM and clears BUSY. The identity becomes readable in RT_DEVID. -/
def Obligations.LifecycleCommandsComplete : Prop :=
  (∀ (s : State) (t : Nat) (d : Dev) (w : Writer) (op r : Nat) (c : Instr), s.ready t d →
    (op, c) ∈ [(1, Instr.ownkeySet t w), (2, .lock t w), (3, .svnCommit t w), (4, .decommission t w)] →
    r = (if d.word A.RT_CONFIRM ≠ BitVec.ofNat 32 (0x4C430000 + op) then 3
      else if d.lc ≠ 1 ∧ (d.lc ≠ 2 ∨ op ≤ 2) then 2
      else if op = 1 ∧ d.on F.RT_STATUS_OWNKEY = true then 2
      else if op = 2 ∧ d.on F.RT_STATUS_OWNIMG = false then 6 else 0) →
    (d.mayGovern w = false → exec c s = .next (s.to ((d.wr F.RT_CMD_RES 1).setWord A.RT_CONFIRM 0))) ∧
    (d.mayGovern w = true → d.root.cmd.isSome = true →
      exec c s = .next (s.to ((d.wr F.RT_CMD_RES 4).setWord A.RT_CONFIRM 0))) ∧
    (d.mayGovern w = true → d.root.cmd = none →
      (r ≠ 0 → exec c s = .next (s.to ((d.wr F.RT_CMD_RES r).setWord A.RT_CONFIRM 0))) ∧
      (∀ e, r = 0 → e = (if op = 4 then d.eraseAlarm almDECOM else d) →
        exec c s = .next (s.to { e.wr F.RT_CMD_BUSY 1 with root := { e.root with cmd := some (op, 0) } })))) ∧
  (∀ (s : State) (t op res n : Nat) (d e : Dev) (o : Otp), s.awake t d → d.root.cmd = some (op, res) → o = d.root.otp →
    n = d.rd F.RT_STATUS_IMGSVN →
    (res ≠ 0 ∧ e = d) ∨
      (res = 0 ∧ op = 1 ∧ e = ({ d with root := { d.root with otp := { o with vkhO := d.rtHash } } } : Dev).wr F.RT_STATUS_OWNKEY
        (if d.rtHash = 0 then 0 else 1)) ∨
      (res = 0 ∧ op = 2 ∧ e = ({ d with root := { d.root with otp := o.programGroup 2 } } : Dev).wr F.RT_STATUS_LCPEND 1) ∨
      (res = 0 ∧ op = 3 ∧ e = ({ d with root := { d.root with otp := { o with svnBits := raiseBits n 128 o.svnBits } } } : Dev).wr
        F.RT_STATUS_SVNCTR { o with svnBits := raiseBits n 128 o.svnBits }.svn) ∨
      (res = 0 ∧ op = 4 ∧ e = ({ d with root := { d.root with
        otp := { o with dus := BitVec.allOnes 256 }.programGroup 3 } } : Dev).wr F.RT_STATUS_LCPEND 1) →
    exec (.otpCommandDone t) s = .next (s.to
      { ((e.wr F.RT_CMD_RES res).setWord A.RT_CONFIRM 0).wr F.RT_CMD_BUSY 0 with root := { e.root with cmd := none } })) ∧
  (∀ (s : State) (t : Nat) (d g : Dev), s.awake t d → d.lc = 1 ∨ d.lc = 2 → d.root.identity = false →
    g = (List.range 4).foldl (fun (x : Dev) i => x.setWord (A.RT_DEVID i) ((d.devid >>> (96 - 32 * i)).setWidth 32)) d →
    exec (.identityReady t) s = .next (s.to { g with root := { g.root with identity := true, idSeed := g.identitySeed } }))

/-- Entropy (R317 to R319, R453): raw bits run through both tests and every failure counts. In the start-up test 4,096 bits in a
row that pass make ESTATE TRUSTED, fewer do not yet; a failure in TRUSTED makes it FAILED with ENTFAIL and a notice, and otherwise
only counts; a rerun in FAILED that fails starts the passes again, one that passes counts, and the third in a row makes it
TRUSTED. The application of an image that awaits TRUSTED goes on with it. Without TRUSTED 1 s after the start the root enters the
recovery state. The DRBG is reseeded with conditioned raw bits after 2^20 generates or 10 s. What a rerun starts from, and where a
failed window of the proportion test ends, are the model's choices (log entry 165). -/
def Obligations.EntropyCommandsComplete : Prop :=
  ∀ (s : State) (t : Nat) (d g : Dev) (bits : List Bool) (r : RawTests × Nat × Nat), s.awake t d →
    (d.estate = 0 → r = d.root.tests.bits bits → g = d.countTests bits r →
      (r.1.good < 4096 → exec (.entropyStartupPass t bits) s = .next (s.to g)) ∧
      (4096 ≤ r.1.good → exec (.entropyStartupPass t bits) s = .next (s.to g.entropyTrusted.entropyAwaited))) ∧
    (d.estate ≠ 0 → exec (.entropyStartupPass t bits) s = .next (s.to d)) ∧
    (r = d.root.tests.bits bits → g = d.countTests bits r →
      (g.estate = 1 → 0 < r.2.1 + r.2.2 → exec (.entropyFailure t bits) s = .next (s.to
        (((({ g with root := { g.root with passes := 0 } } : Dev).entropyTo 2).cause causeENTFAIL { ao := true }).notice
          { cls := 9, code := 1 }))) ∧
      (g.estate ≠ 1 ∨ r.2.1 + r.2.2 = 0 → exec (.entropyFailure t bits) s = .next (s.to g))) ∧
    (d.estate = 2 → r = ({} : RawTests).bits bits → g = d.countTests bits r →
      (0 < r.2.1 + r.2.2 → exec (.entropyRetest t bits) s = .next (s.to
        ({ g with root := { g.root with passes := 0 } } : Dev).entropyAwaited)) ∧
      (r.2.1 + r.2.2 = 0 → r.1.good < 4096 → exec (.entropyRetest t bits) s = .next (s.to g.entropyAwaited)) ∧
      (r.2.1 + r.2.2 = 0 → 4096 ≤ r.1.good → g.root.passes < 2 → exec (.entropyRetest t bits) s = .next (s.to
        ({ g with root := { g.root with passes := g.root.passes + 1 } } : Dev).entropyAwaited)) ∧
      (r.2.1 + r.2.2 = 0 → 4096 ≤ r.1.good → 2 ≤ g.root.passes →
        exec (.entropyRetest t bits) s = .next (s.to g.entropyTrusted.entropyAwaited))) ∧
    (d.estate = 0 → d.rstate = 0 → d.loader.released + 1000000000 ≤ d.now →
      exec (.entropyStartTimeout t) s = .next (s.to (d.cause causeENTFAIL { ao := true }).enterRecovery)) ∧
    (∀ x, d.estate = 1 → d.root.drbg = some x → 2 ^ 20 ≤ d.root.generates ∨ d.root.seeded + 10000000000 ≤ d.now →
      exec (.drbgReseed t) s = .next (s.to { d with root := { d.root with
        drbg := some (x.reseed (conditioned d.root.raw)), raw := [], generates := 0, seeded := d.now } }))

/-- Alarms (R14, R320 to R323, R326): a source whose enable is 0 does nothing; else its class acts: report sets its bit, counts
and sends the notice; erase cuts an OTP command, erases the keys and enters the recovery state. The voltage and temperature
monitors act once the loader has armed them. Where REFCLK_SYS goes absent mains time enters HOLDOVER from LOCKED or SLEW, and an
erasing clock alarm first switches off PD_CIPG, PD_CIPX and PD_HBM. JTAG acts in PROVISIONED while a key is held, and has no
other effect. A tamper level, and ALM_CFG as ALMLOCK leaves it, act for the inputs that become active; a locked ALM_CFG stays.
-/
def Obligations.AlarmCommandsComplete : Prop :=
  ∀ (s : State) (t : Nat) (d : Dev) (alm : Dev → Nat → Dev) (new : Dev → Dev → Dev), s.awake t d →
    alm = (fun e src => if e.almEnabled src = false then e else if e.almErases src = true then e.eraseAlarm src
      else ((e.wr ⟨A.ALM_SRC, 16 + src, 1⟩ 1).countAlarm).notice { cls := 3, code := src }) →
    new = (fun e f => (List.range 4).foldl (fun x i => if f.tampActive i = true ∧ e.tampActive i = false then alm x i else x) f) →
    (exec (.lid t) s = .next (s.to (alm d almLID))) ∧
    (d.root.armed = true → exec (.volt t) s = .next (s.to (alm d almVOLT)) ∧ exec (.temp t) s = .next (s.to (alm d almTEMP))) ∧
    (d.root.armed = false → exec (.volt t) s = .next (s.to d) ∧ exec (.temp t) s = .next (s.to d)) ∧
    (exec (.clock t false) s = .next (s.to (alm d almCLOCK))) ∧
    (∀ g h x, d.mains.refclk = true → g = { d with mains := { d.mains with refclk := false } } →
      h = (if g.mst = mtLOCKED ∨ g.mst = mtSLEW then g.mainsHold else g) →
      x = (if h.almEnabled almCLOCK = true ∧ h.almErases almCLOCK = true then
        [70, 71, 78].foldl (fun z n => if z.domOn n then z.domainOff n else z) h else h) →
      exec (.refclkSysLoss t) s = .next (s.to (alm x almCLOCK)) ∧ exec (.clock t true) s = .next (s.to (alm x almCLOCK))) ∧
    (d.mains.refclk = false → exec (.refclkSysLoss t) s = .next (s.to d) ∧ exec (.clock t true) s = .next (s.to d)) ∧
    (d.lc = 1 → d.root.keyed = true ∨ d.root.identity = true → exec (.jtag t) s = .next (s.to (d.eraseAlarm almJTAG))) ∧
    (d.lc ≠ 1 ∨ (d.root.keyed = false ∧ d.root.identity = false) → exec (.jtag t) s = .next (s.to d)) ∧
    (s.dev.mains.refclk = true → d.on F.ALM_CFG_ALMLOCK = true → exec (.almlock t) s = .next (s.to d)) ∧
    (s.dev.mains.refclk = true → d.on F.ALM_CFG_ALMLOCK = false → exec (.almlock t) s = .next (s.to (new d
      (d.setWord A.ALM_CFG ((d.word A.ALM_CFG ||| 0x80000000#32) &&& 0x80F0FFFF#32))))) ∧
    (∀ (i : Fin 4) (level : Bool), exec (.tamp t i level) s = .next (s.to (new d (d.setTamp i.val level))))

/-- Reset and the image loader (R14, R24, R308, R309, R312, R320, R328, R381 to R384, R392 to R395): RESET_N low resets the module
and keeps the OTP store; its release starts the loader, or the recovery state for a decommissioned module or one whose OTP store
fails, with the clock alarm in either case where REFCLK_SYS is absent, and does nothing to a module that runs. Discovery notes the
flash; without a mode, or without a slot to try, the root enters the recovery state; a slot whose image does not fit fails with
SUB 7 or 5 and the next is tried; else it is read. A read beyond the flash fails the slot, a complete one leads to verification. A
check of the root that fails, then SUB 5, then SUB 6 fail the slot; an image that passes is accepted and applied. Service begins
with mains time, or is given up after SVCWAIT. -/
def Obligations.StartupCommandsComplete : Prop :=
  (∀ (s : State) (t : Nat) (d g : Dev), s.awake t d → g = d.moduleReset →
    exec (.resetNAssert t) s = .next (s.to { g with inReset := true })) ∧
  (∀ (s : State) (t : Nat) (d g h : Dev), s.at_ t = d →
    (d.inReset = false → d.loading 0 = false → exec (.resetNRelease t) s = .next (s.to d)) ∧
    (d.inReset = true ∨ d.loading 0 = true →
      g = ({ d with inReset := false } : Dev).modLd (fun l => { l with released := d.now, lands := true }) →
      (g.root.otp.bad = false → g.lc ≠ 3 ∧ h = (({ g with root := { g.root with armed := true } } : Dev).wr
          F.LD_STATUS_LSTATE 1).enqueue [76] ∨ g.lc = 3 ∧ h = g.enterRecovery) →
      (g.root.otp.bad = true → h = (g.cause causePARITY { ao := true }).enterRecovery) →
      exec (.resetNRelease t) s = .next (s.to (if h.mains.refclk then h else h.alarm almCLOCK)))) ∧
  (∀ (s : State) (t : Nat) (d g h : Dev) (mode : Fin 4) (dens : Fin 64) (mhz : Fin 256) (a b : List Byte),
    s.ready t d → d.loading 1 = true →
    g = ((d.wr F.LD_FLASH_FMODE mode.val).wr F.LD_FLASH_DENS dens.val).wr F.LD_FLASH_FLMHZ (min 100 mhz.val) →
    (mode.val ≤ 1 → exec (.flashDiscoveryDone t mode dens mhz a b) s = .next (s.to
      (((g.wr F.LD_STATUS_SUB_A 7).wr F.LD_STATUS_SUB_B 7).cause causeIMGFAIL { sub := 7, ao := true }).enterRecovery)) ∧
    (1 < mode.val → h = g.modLd (fun l => { l with hdrA := some (readHeader a), hdrB := some (readHeader b) }) →
      (h.pickSlot = none → exec (.flashDiscoveryDone t mode dens mhz a b) s = .next (s.to h.enterRecovery)) ∧
      (∀ slotB hd y, h.pickSlot = some (slotB, hd) →
        y = (h.wr F.LD_STATUS_SLOT (if slotB then 1 else 0)).modLd (fun l =>
          { l with triedA := l.triedA || !slotB, triedB := l.triedB || slotB }) →
        (hd.ilen ≤ y.slotOctets →
          exec (.flashDiscoveryDone t mode dens mhz a b) s = .next (s.to (y.wr F.LD_STATUS_LSTATE 2))) ∧
        (y.slotOctets < hd.ilen → exec (.flashDiscoveryDone t mode dens mhz a b) s =
          .next (s.to ((y.imgFail (if slotB then 7 else 5) 0 0).nextSlot 2)))))) ∧
  (∀ (s : State) (t : Nat) (d : Dev), s.ready t d → d.loading 2 = true → d.domOn 76 = true →
    (exec (.slotReadDone t none) s = .next (s.to (d.slotFail 7 0 0))) ∧
    (∀ x, exec (.slotReadDone t (some x)) s = .next (s.to
      (((d.modLd (fun l => { l with image := some (readImage x) })).holdCells (ceilDiv x.length 256)).wr F.LD_STATUS_LSTATE 3)))) ∧
  (∀ (s : State) (t : Nat) (d g : Dev) (img : Image), s.ready t d → d.loading 3 = true → d.loader.image = some img →
    g = d.acceptImage img →
    exec (.imageVerify t) s = .next (s.to (match d.rootCheck img with
      | some sub => d.slotFail sub 0 0
      | none => match img.formatFails with
        | some sect => g.slotFail 5 sect 0
        | none => match img.consistFails g.root.otp with
          | some (detail, sect) => g.slotFail 6 sect detail
          | none => g.applyImage img))) ∧
  (∀ (s : State) (t : Nat) (d : Dev), s.ready t d → d.rstate = 1 → d.lstate = 6 → d.loader.serving = false →
    (d.mst = mtLOCKED ∨ d.mst = mtSLEW → exec (.serviceStart t) s =
      .next (s.to ((d.modLd (fun l => { l with serving := true })).serviceNext 256))) ∧
    (d.mst ≠ mtLOCKED → d.mst ≠ mtSLEW → d.loader.since + 1000000000 * d.loader.svcwait ≤ d.now →
      exec (.serviceWaitTimeout t) s =
        .next (s.to ((d.raise F.LD_STATUS_NOMAINS).cause causeMAINSLOST { ao := true }).loaderDone)))

/-- Register writes (R5, R62, R347, R361, R363, R420, R423, R424): a writer that is no session changes nothing; any other
discards its held upper word. A register outside its reach is denied: of a page the hedge, of the governor GVREJ and RES 2, of
RT_CMD RES PERM with RT_CONFIRM zeroed. Within its reach an address with no register and a register of a domain that is off
change nothing, and any other register takes the word by its block's own rule: a word of the HBM block its writable bits and W1C
bits, but one that the hardware sets in the same cycle stays set, MT_CFG its word with the bits that R62 protects kept and
CFGREJ where that changed one, mains time starting or stopping with EN. -/
def Obligations.RegisterWritesComplete : Prop :=
  ∀ (s : State) (t : Nat) (d : Dev) (w : Writer) (a : Nat) (v : Word32), s.ready t d →
    (d.principal w = none → exec (.registerWrite t w a v) s = .next (s.to d) ∧ exec (.mtCfgWrite t w v) s = .next (s.to d)) ∧
    (∀ p n all g, d.principal w = some (p, n, all) → g = { d with hold64 := Tab.del d.hold64 p } →
      ((all = false ∨ (p ≠ 17 ∧ g.lapseLock.holder ≠ n)) → (p ≠ 16 ∨ a ≠ A.ADMIN_LOCK) → (16 ≤ p ∨ pageReach p a true = false) →
        exec (.registerWrite t w a v) s = .next (s.to (g.denied a))) ∧
      ((all = false ∨ (p ≠ 17 ∧ g.lapseLock.holder ≠ n)) → (16 ≤ p ∨ pageReach p A.MT_CFG true = false) →
        exec (.mtCfgWrite t w v) s = .next (s.to g.hedge)) ∧
      ((all = true ∧ (p = 17 ∨ g.lapseLock.holder = n)) ∨ (p = 16 ∧ a = A.ADMIN_LOCK) ∨ (p < 16 ∧ pageReach p a true = true) →
        (rowAt a = none → exec (.registerWrite t w a v) s = .next (s.to g)) ∧
        (∀ r, rowAt a = some r →
          (g.domOn (regDomain a) = false → exec (.registerWrite t w a v) s = .next (s.to g)) ∧
          (g.domOn (regDomain a) = true → exec (.registerWrite t w a v) s = .next (s.to (g.blockWrite w p n a r v).2)) ∧
          (g.domOn (regDomain a) = true → blkHb ≤ a → a < blkRt →
            exec (.registerWrite t w a v) s = .next (s.to (g.setWord a
              (storeWord r (g.word a) v ||| (g.word a &&& BitVec.ofNat 32 r.w1c &&& g.hwSet a))))))) ∧
      (∀ (keep x new : Word32) (h : Dev), all = true → p = 17 ∨ g.lapseLock.holder = n → g.domOn 79 = true →
        keep = (if g.on F.MT_CFG_EN then BitVec.ofNat 32 (mtProtected + (if g.anyChOn then 1 else 0)) else 0) →
        x = v &&& 0xF77F#32 → new = (x &&& ~~~keep) ||| (g.word A.MT_CFG &&& keep) →
        h = (if new = x then g.setWord A.MT_CFG new else (g.setWord A.MT_CFG new).raise F.MT_STATUS_CFGREJ) →
        exec (.mtCfgWrite t w v) s = .next (s.to
          (if h.on F.MT_CFG_EN = g.on F.MT_CFG_EN then h else h.mtEnable (h.on F.MT_CFG_EN)))))

/-- Scrubbing and repair (R413 to R416): a pass zeroes the cells that two passes found in no list, with ORPHANS, and keeps the
others it found, sets SCRUBOFF by PD_HBM, takes every word that fails, and counts. The repair of a word of an entry that a COMMIT
wrote in its cycle is discarded. A failing table word stays, with SCRUBOFF, while PD_HBM is off, and while its copy is damaged;
else a sequence word is repaired from the copy, an entry's word from the copy with its live fields 0, and its counter drawn anew,
each with REPAIRS and PARITY. An uncorrectable HBM error is counted and located and acts on what its region holds: soft values of
a channel are 0, records and items are bad. Which live fields agree with the copy's shadow, and which soft values a block of
interleaver memory held, are the model's free values (log entries 27 and 110). -/
def Obligations.ScrubCommandsComplete : Prop :=
  (∀ (s : State) (t : Nat) (d e g h : Dev) (twice : List Nat), s.ready t d → d.domOn 76 = true →
    d.scrubFrom + d.scrubNs ≤ d.now → twice = d.orphans.filter d.suspects.contains →
    e = { d.zeroCells twice with suspects := d.orphans.filter (fun c => !twice.contains c) } →
    g = (if twice = [] then e else e.inc F.FT_CNT_ORPHANS twice.length) →
    h = g.badParity.foldl Dev.foundBad (g.wr F.FT_STAT_SCRUBOFF (if g.domOn 78 then 0 else 1)) →
    exec (.scrubPass t) s = .next (s.to
      { h.wr F.FT_STAT_PASSES (h.rd F.FT_STAT_PASSES + 1) with scrubFrom := h.now })) ∧
  (∀ (s : State) (t a : Nat) (d : Dev) (l : List Nat), s.ready t d → d.domOn 76 = true → 0x800000 ≤ a → a % 4 = 0 →
    l = a :: d.badParity.filter (fun b => b ≠ a) →
    (a < 0x1800000 → d.overwritten a = true → exec (.wordRepair t a) s = .next (s.to d)) ∧
    (d.overwritten a = false → (a < 0x1000000 → d.domOn 78 = true → d.copyBad.contains a = false → exec (.wordRepair t a) s = .next (s.to
      (((d.setTable a (Tab.get 0 d.copy a)).inc F.FT_CNT_REPAIRS).cause causePARITY { chan := some (d.tableChan a) }))) ∧
    (0x1000000 ≤ a → a < 0x1800000 → d.domOn 78 = true → a / 4 % 16 < 14 → d.copyBad.contains a = false →
      exec (.wordRepair t a) s = .next (s.to (((d.repairFields ((a - 0x1000000) / 64) (a / 4 % 16)).inc F.FT_CNT_REPAIRS).cause
        causePARITY { chan := some (d.tableChan a) }))) ∧
    (0x1000000 ≤ a → a < 0x1800000 → d.domOn 78 = true → 14 ≤ a / 4 % 16 →
      exec (.wordRepair t a) s = .next (s.to (((d.repairCounter ((a - 0x1000000) / 64)).inc F.FT_CNT_REPAIRS).cause causePARITY
        { chan := some (d.tableChan a) }))) ∧
    (a < 0x1800000 → d.domOn 78 = true → a < 0x1000000 ∨ a / 4 % 16 < 14 → d.copyBad.contains a = true →
      exec (.wordRepair t a) s = .next (s.to { d with badParity := l })) ∧
    (a < 0x1800000 → d.domOn 78 = false →
      exec (.wordRepair t a) s = .next (s.to { d.raise F.FT_STAT_SCRUBOFF with badParity := l })))) ∧
  (∀ (s : State) (t block i k : Nat) (w : Fin 256) (d g : Dev), s.ready t d → d.domOn 78 = true → block < 12582912 →
    g = ((d.inc F.FT_CNT2_HBMUE).wr F.HBM_ERRLOC_BLOCK block).wr F.HBM_ERRLOC_ERRV 1 → i = block - 8388608 →
    k = (i - 4096) / 3 →
    (block < 8388608 → g.ilChan block = none →
      exec (.hbmUncorrectable t block w) s = .next (s.to (g.cause causePARITY { chan := none }))) ∧
    (∀ c, block < 8388608 → g.ilChan block = some c →
      exec (.hbmUncorrectable t block w) s = .next (s.to ((g.loseSoft c).cause causePARITY { chan := some c }))) ∧
    (8388608 ≤ block → i < 4096 →
      exec (.hbmUncorrectable t block w) s = .next (s.to (g.cause causePARITY { chan := g.chanOfSa (32 * i + w.val / 8) }))) ∧
    (8388608 ≤ block → 4096 ≤ i → i < 4288 → exec (.hbmUncorrectable t block w) s =
      .next (s.to ((g.setRecord k { g.record k with bad := true }).cause causePARITY { chan := some k }))) ∧
    (∀ a, 8388608 ≤ block → 4288 ≤ i → i < 8384 → a = 0x800000 + (i - 4288) * 4096 + 16 * w.val →
      exec (.hbmUncorrectable t block w) s = .next (s.to
        (({ g with copyBad := [a, a + 4, a + 8, a + 12] ++ g.copyBad } : Dev).cause causePARITY { chan := none }))) ∧
    (∀ q, 8388608 ≤ block → 8384 ≤ i → g.ringOf i = some q → exec (.hbmUncorrectable t block w) s =
      .next (s.to ((g.poisonSector q i w.val).cause causePARITY { chan := some (g.rd (F.QD_BASE_CHAN q)) }))) ∧
    (8388608 ≤ block → 8384 ≤ i → g.ringOf i = none →
      exec (.hbmUncorrectable t block w) s = .next (s.to (g.cause causePARITY { chan := none }))))

/-- Management frames (R236, R316, R352, R354 to R366): a frame at a port that is down is lost, one over MAXFR counts in
OVERSIZE, without REFCLK_SYS it is only counted, and a port that does not accept drops it with code 1; one that breaks R354 is
dropped and one that finds 4 requests counts in MGDROP. Without its key a frame counts in KEYMISS; in the recovery state it is
dropped; a bad tag counts in AUTHFAIL. An OPEN with a good tag, while entropy is TRUSTED and fewer than 32 sessions are open,
opens a session, the oldest of two unconfirmed ones of its principal giving way, and answers OPENACK. A REQ of a session in
sequence is taken, one out of sequence, or that names no session of its principal, counts in MGREPLAY;
in version 1 it is taken while V1EN is 1 and its MSEQ exceeds V1SEQ; PRIN 31 is taken without a key. Sessions lapse and idle
out; a flash write ends with its notice; sessions send the notices that are due; a finished attestation report, or the refusal
of an abandoned one (the code is log entry 24), goes on with its request. -/
def Obligations.ManagementCommandsComplete : Prop :=
  (∀ (s : State) (t : Nat) (d : Dev) (p : PortId) (mac : BitVec 48) (f : MgmtFrame) (ok : Bool) (n : Nat), s.awake t d →
    n = mgOctets f.prin.val f.payload.length → ∀ c ∈ [Instr.openFrame t p mac f ok, .req t p mac f ok],
    (d.on (F.ETH_STATUS_UP p.val) = false → exec c s = .next (s.to d)) ∧
    (d.on (F.ETH_STATUS_UP p.val) = true → d.maxFr p.val < n → exec c s = .next (s.to (d.inc (F.ETH_CNT_OVERSIZE p.val)))) ∧
    (∀ g, d.on (F.ETH_STATUS_UP p.val) = true → n ≤ d.maxFr p.val → g = d.mgReceived p.val n →
      (g.mains.refclk = false → exec c s = .next (s.to g)) ∧
      (g.mains.refclk = true → g.accepting p.val = false → exec c s = .next (s.to (g.fwDrop 1))) ∧
      (g.mains.refclk = true → g.accepting p.val = true →
        (9120 < f.payload.length ∨ (16 < f.prin.val ∧ f.prin.val ≠ 31) ∨ f.mver = 0 ∨ 2 < f.mver →
          exec c s = .next (s.to g)) ∧
        (f.payload.length ≤ 9120 → f.prin.val ≤ 16 ∨ f.prin.val = 31 → f.mver = 1 ∨ f.mver = 2 → 4 ≤ g.engine.length →
          exec c s = .next (s.to (g.inc F.MG_CNT2_MGDROP)))))) ∧
  (∀ (s : State) (t : Nat) (d g : Dev) (p : PortId) (mac : BitVec 48) (f : MgmtFrame) (ok : Bool) (n : Nat), s.awake t d →
    n = mgOctets f.prin.val f.payload.length → d.on (F.ETH_STATUS_UP p.val) = true → n ≤ d.maxFr p.val →
    g = d.mgReceived p.val n → g.mains.refclk = true → g.accepting p.val = true → f.payload.length ≤ 9120 →
    f.mver = 1 ∨ f.mver = 2 → g.engine.length < 4 →
    (f.prin.val = 31 → exec (.req t p mac f ok) s = .next (s.to (g.engineTake p.val mac f)) ∧
      exec (.openFrame t p mac f ok) s = .next (s.to g)) ∧
    (f.prin.val ≤ 16 → f.mver ≠ 2 ∨ f.sess ≠ 0 ∨ f.payload ≠ [] → exec (.openFrame t p mac f ok) s =
      .next (s.to (if g.mgKey f.prin.val f.kph then g else g.inc F.CI_CNT2_KEYMISS))) ∧
    (f.prin.val ≤ 16 → g.mgKey f.prin.val f.kph = false → exec (.req t p mac f ok) s = .next (s.to (g.inc F.CI_CNT2_KEYMISS))) ∧
    (f.prin.val ≤ 16 → g.mgKey f.prin.val f.kph = true → g.rstate = 2 →
      exec (.req t p mac f ok) s = .next (s.to g)) ∧
    (f.prin.val ≤ 16 → f.mver = 2 → f.sess = 0 → f.payload = [] →
      (g.mgKey f.prin.val f.kph = false → exec (.openFrame t p mac f ok) s = .next (s.to (g.inc F.CI_CNT2_KEYMISS))) ∧
      (g.mgKey f.prin.val f.kph = true → g.rstate = 2 → exec (.openFrame t p mac f ok) s = .next (s.to g)) ∧
      (g.mgKey f.prin.val f.kph = true → g.rstate ≠ 2 →
        exec (.openFrame t p mac f false) s = .next (s.to ((g.inc F.MG_CNT_AUTHFAIL).mgRise 0 1)) ∧
        (g.trusted = false → exec (.openFrame t p mac f true) s = .next (s.to g)) ∧
        (∀ h, g.trusted = true → h = g.displace f.prin.val →
          (32 ≤ h.sessions.length → exec (.openFrame t p mac f true) s = .next (s.to (h.inc F.MG_CNT2_MGDROP))) ∧
          (∀ x y z u v o, h.sessions.length < 32 → h.nextSession = x → h.draw = (y, z) →
            u = { num := x, prin := f.prin.val, kph := f.kph, ssalt := sessionSalt f.mseq y f.prin.val x, opened := z.now,
                  heard := z.now, mac := mac, port := p.val } →
            v = { z.wr F.MG_STATUS_LASTSESS x with sessions := z.sessions ++ [u] } →
            o = { port := p.val, mac := mac, mver := 2, mtype := 4, prin := f.prin.val, kph := f.kph, sess := x, mseq := y,
                  payload := octetsBE 8 f.mseq.toNat } →
            exec (.openFrame t p mac f true) s = .next (s.to (v.mgSend o)))))) ∧
    (f.prin.val ≤ 16 → g.mgKey f.prin.val f.kph = true → g.rstate ≠ 2 →
      exec (.req t p mac f false) s = .next (s.to ((g.inc F.MG_CNT_AUTHFAIL).mgRise 0 1)) ∧
      (f.mver = 2 → g.session f.sess.val = none →
        exec (.req t p mac f true) s = .next (s.to ((g.inc F.MG_CNT_MGREPLAY).mgRise 1 1))) ∧
      (∀ x, f.mver = 2 → g.session f.sess.val = some x →
        (x.prin = f.prin.val → x.last < f.mseq.toNat →
          exec (.req t p mac f true) s = .next (s.to ((g.acceptReq x f.mseq.toNat).engineTake p.val mac f))) ∧
        (x.prin ≠ f.prin.val ∨ f.mseq.toNat ≤ x.last →
          exec (.req t p mac f true) s = .next (s.to ((g.inc F.MG_CNT_MGREPLAY).mgRise 1 1)))) ∧
      (f.mver = 1 → f.sess ≠ 0 ∨ g.on F.MG_CFG_V1EN = false ∨ f.mseq.toNat ≤ g.v1seq f.prin.val →
        exec (.req t p mac f true) s = .next (s.to ((g.inc F.MG_CNT_MGREPLAY).mgRise 1 1))) ∧
      (f.mver = 1 → f.sess = 0 → g.on F.MG_CFG_V1EN = true → g.v1seq f.prin.val < f.mseq.toNat →
        exec (.req t p mac f true) s = .next (s.to ((g.wr64 (F.MG_V1SEQ_LO_V1SEQ f.prin.val) (F.MG_V1SEQ_HI_V1SEQ f.prin.val)
          f.mseq.toNat).engineTake p.val mac f))))) ∧
  (∀ (s : State) (t : Nat) (d : Dev) (n : Fin 256) (x : Session), s.ready t d → d.session n.val = some x →
    (x.confirmed = false → x.opened + 1000000000 ≤ d.now →
      exec (.sessionLapse t n) s = .next (s.to (d.endSession x.num))) ∧
    (x.confirmed = true → x.heard + 1000000000 * max 1 (d.rd F.MG_CFG_IDLE) ≤ d.now →
      exec (.sessionIdleTimeout t n) s = .next (s.to (d.endSession x.num)))) ∧
  (∀ (s : State) (t : Nat) (d g : Dev) (ok : Bool) (p : Nat) (mac : BitVec 48) (mseq : BitVec 64) (n : Notice) (o : MgmtOut),
    s.ready t d →
    (d.loader.writing = none → exec (.flashWriteDone t ok) s = .next (s.to d)) ∧
    (d.loader.writing = some (p, mac, mseq) →
      n = { cls := 11, code := if ok then 0 else 7, ns := d.now,
            cyc := (d.mainsAt d.now).1 % 2 ^ 32, grn := (d.mainsAt d.now).2 } →
      g = d.dropRimg.modLd (fun l => { l with writing := none, lands := false }) →
      o = { port := p, mac := mac, mver := 2, mtype := 2, prin := 31, sess := 0, mseq := mseq, payload := n.octets } →
      exec (.flashWriteDone t ok) s = .next (s.to (g.mgSend o))) ∧
    exec (.noticeSend t) s = .next (s.to (d.sessions.foldl (fun (x : Dev) z => x.sendNotices z.num) d))) ∧
  (∀ (s : State) (t : Nat) (d e : Dev) (x l : List AttestReq) (a : AttestReq) (j : MgmtJob) (js i : List MgmtJob),
    s.ready t d → x = d.root.attest.dropWhile AttestReq.orphan →
    (x = [] ∨ d.engine = [] → exec (.attestReportReady t) s =
      .next (s.to (({ d with root := { d.root with attest := x } } : Dev).engineRun 9200))) ∧
    (x = a :: l → d.engine = j :: js → j.waits = true →
      (a.abandoned = true ∧ i = j.put (j.rest.drop 1) 7 Config.alarmRefusal.toNat 0 [] :: js ∧ e = d) ∨
        (a.abandoned = false ∧ d.root.identity = true ∧ d.trusted = false ∧ e = d ∧
          i = j.put (j.rest.drop 1) 7 0 0 (d.report a.nonce true (List.replicate 32 0)) :: js) ∨
        (a.abandoned = false ∧ d.root.identity = true ∧ d.trusted = true ∧ e = (d.random 32).2 ∧
          i = j.put (j.rest.drop 1) 7 0 0 (d.report a.nonce false (d.random 32).1) :: js) →
      exec (.attestReportReady t) s = .next (s.to
        (({ e with root := { e.root with attest := l }, engine := i } : Dev).engineRun 9200))))

/-- Frame of the commands of mains time, of palette commits and the ends of fades, and of the counters and the age of the noise
floor: in every state they leave keys, queues, table memory and the governor, loader and restore records as they were. -/
def Obligations.TimingFrame : Prop :=
  ∀ (c : Instr) (s s' : State), c.family = .timing ∨ c.family = .counters → exec c s = .next s' →
    s.dev.sameKeys s'.dev ∧ s.dev.sameQueues s'.dev ∧ s.dev.sameTables s'.dev ∧ s.dev.samePower s'.dev

/-- Frame of the queue commands: in every state they leave table memory and the governor, loader and restore records as they
were, and no time but that of their instant passes; but for the ends of sector operations, after which tenant jobs may go on
(R298), they leave keys and the root too. -/
def Obligations.QueueFrame : Prop :=
  ∀ (c : Instr) (s s' : State), c.family = .queues ∨ c.family = .sectors → exec c s = .next s' →
    s.dev.sameTables s'.dev ∧ s.dev.samePower s'.dev ∧
    s'.dev.mains = (s.at_ c.stamp).mains ∧ s'.dev.now = (s.at_ c.stamp).now ∧
    (c.family = .queues → s.dev.sameKeys s'.dev ∧ s'.dev.root = s.dev.root)

/-- Frame of the control, wait, arm, request, key-wait and note steps, of pair flags, live windows, START, STOP and CLEAR, of
palette swaps and of the synchronising commands: in every state they leave keys, the shallow queues, table memory, the root and
the governor, loader and restore records as they were, and take no cell from the free list. -/
def Obligations.StepFrame : Prop :=
  ∀ (c : Instr) (s s' : State), c.family = .steps → exec c s = .next s' →
    s.dev.sameKeys s'.dev ∧ s'.dev.shallow = s.dev.shallow ∧ s'.dev.zeroing = s.dev.zeroing ∧
    (s.dev.free.map Prod.snd).sum ≤ (s'.dev.free.map Prod.snd).sum ∧ s.dev.sameTables s'.dev ∧ s.dev.samePower s'.dev ∧ s'.dev.root = s.dev.root

/-- Frame of the record, lock and page commands: in every state they leave the deep queues, table memory, the management engine
and the governor, loader and restore records as they were. -/
def Obligations.RecordFrame : Prop :=
  ∀ (c : Instr) (s s' : State), c.family = .records → exec c s = .next s' →
    s'.dev.deep = s.dev.deep ∧ s.dev.sameTables s'.dev ∧ s.dev.samePower s'.dev ∧ s'.dev.engine = s.dev.engine

/-- Frames of the commands of the Ethernet ports but a received frame, and of the session commands: in every state both leave
keys, table memory and the governor, loader and restore records as they were; the ports' commands also the root, the lease of
ADMIN_LOCK and the management engine, the session commands also queues, the ports' frames and masking. -/
def Obligations.LinkAndSessionFrame : Prop :=
  (∀ (c : Instr) (s s' : State), c.family = .links → exec c s = .next s' →
    s.dev.sameKeys s'.dev ∧ s.dev.sameTables s'.dev ∧ s.dev.samePower s'.dev ∧ s'.dev.root = s.dev.root ∧
    s'.dev.leaseEnd = s.dev.leaseEnd ∧ s'.dev.engine = s.dev.engine) ∧
  (∀ (c : Instr) (s s' : State), c.family = .sessions → exec c s = .next s' →
    s.dev.sameKeys s'.dev ∧ s.dev.sameQueues s'.dev ∧ s.dev.sameTables s'.dev ∧ s.dev.samePower s'.dev ∧
    s'.dev.ethOut = s.dev.ethOut ∧ s'.dev.masked = s.dev.masked)

/-- Frame of reception with the noise floor and the expiry of a key wait, of the Luafen messages, of transmission and of the
return of REFCLK_SYS: in every state they leave the restore records, the loader, the shadow slots, the words that fail parity, the
lease of ADMIN_LOCK, the management engine, the frames of the ports and the reset pin alone; reception leaves the root but for the
DRBG, from which the masks of its decryptions come (R299), the governor and the repair copy too, and the messages the governor,
the key cache and the jobs of pages. -/
def Obligations.LineFrame : Prop :=
  ∀ (c : Instr) (s s' : State),
    c.family = .reception ∨ c.family = .messages ∨ c.family = .transmission → exec c s = .next s' →
    s'.dev.restore = s.dev.restore ∧ s'.dev.loader = s.dev.loader ∧ s'.dev.shadow = s.dev.shadow ∧
    s'.dev.badParity = s.dev.badParity ∧ s'.dev.leaseEnd = s.dev.leaseEnd ∧ s'.dev.engine = s.dev.engine ∧
    s'.dev.ethOut = s.dev.ethOut ∧ s'.dev.inReset = s.dev.inReset ∧
    (c.family = .reception →
      s'.dev.root = { s.dev.root with drbg := s'.dev.root.drbg, generates := s'.dev.root.generates } ∧ s'.dev.gov = s.dev.gov ∧ s'.dev.copy = s.dev.copy) ∧
    (c.family = .messages → s'.dev.gov = s.dev.gov ∧ s'.dev.cache = s.dev.cache ∧ s'.dev.pages = s.dev.pages)

/-- Register frames: while the domain of a register is on, these commands leave its word as it was, but for the registers named: a
commit SC_STATUS of its channel; the enable of a shallow queue its QS_CFG; zeroing, a decrypted sector for which no push and no
job waits, the repeat and the end of a pause and the record ring none; ACQ and REL the lock, and the key staging of administration
where its lease has run out (R301); JEN the page's PG_JCFG or the canvas status; a read of MT_NOW_CYC what it latches. -/
def Obligations.RegisterFrame : Prop :=
  ∀ (s : State) (t a : Nat), s.live → regDomain a = 79 ∨ s.dev.domOn (regDomain a) = true →
    (∀ k s', a ≠ A.SC_STATUS k.val → exec (.commitA t k) s = .next s' → s'.dev.word a = s.dev.word a) ∧
    (∀ k s', a ≠ A.SC_STATUS k.val → exec (.commitB t k) s = .next s' → s'.dev.word a = s.dev.word a) ∧
    (∀ s', exec (.zeroingDone t) s = .next s' → s'.dev.word a = s.dev.word a) ∧
    (∀ q s', s.dev.pages = [] → (∀ e ∈ s.dev.deep, e.2.waiting = []) →
      exec (.sectorDecryptDone t q) s = .next s' → s'.dev.word a = s.dev.word a) ∧
    (∀ q s', a ≠ A.QS_CFG q.val → exec (.queueEnable t (.shallow q)) s = .next s' → s'.dev.word a = s.dev.word a) ∧
    (∀ s', exec (.pfcRepeat t) s = .next s' → s'.dev.word a = s.dev.word a) ∧
    (∀ p r s', exec (.pauseExpiry t p r) s = .next s' → s'.dev.word a = s.dev.word a) ∧
    (∀ p s', exec (.pgJdone3Read t p) s = .next s' → s'.dev.word a = s.dev.word a) ∧
    (∀ n s', a ≠ A.ADMIN_LOCK → a < A.SA_KEY 16 0 ∨ A.SA_KEY 16 7 < a → exec (.acq t n) s = .next s' →
      s'.dev.word a = s.dev.word a) ∧
    (∀ n s', a ≠ A.ADMIN_LOCK → a < A.SA_KEY 16 0 ∨ A.SA_KEY 16 7 < a → exec (.rel t n) s = .next s' →
      s'.dev.word a = s.dev.word a) ∧
    (∀ p s', a ≠ A.PG_JCFG p.val → a ≠ A.CV_STATUS → exec (.jen t p) s = .next s' → s'.dev.word a = s.dev.word a) ∧
    (∀ s', a ≠ A.MT_NOW_CYC → a ≠ A.MT_NOW_GRN → a ≠ A.MT_NOW_NS_LO → a ≠ A.MT_NOW_NS_HI →
      exec (.mtNowCycRead t) s = .next s' → s'.dev.word a = s.dev.word a)
end

