-- ==== Sys2Proof/Laws/State.lean ====
section
/-! SUPPORT. One lemma per update of the device and field that it leaves alone: a later proof unfolds no record update. -/

namespace Sys2Proof.Machine

open Sys2Proof

variable (d : Dev)

@[simp] theorem Dev.setWord_now (a : Nat) (w : Word32) : (d.setWord a w).now = d.now := rfl
@[simp] theorem Dev.setWord_mains (a : Nat) (w : Word32) : (d.setWord a w).mains = d.mains := rfl
@[simp] theorem Dev.setWord_chan (a : Nat) (w : Word32) : (d.setWord a w).chan = d.chan := rfl
@[simp] theorem Dev.setWord_seq (a : Nat) (w : Word32) : (d.setWord a w).seq = d.seq := rfl
@[simp] theorem Dev.setWord_gov (a : Nat) (w : Word32) : (d.setWord a w).gov = d.gov := rfl
@[simp] theorem Dev.setWord_free (a : Nat) (w : Word32) : (d.setWord a w).free = d.free := rfl
@[simp] theorem Dev.setWord_zeroing (a : Nat) (w : Word32) : (d.setWord a w).zeroing = d.zeroing := rfl
@[simp] theorem Dev.setWord_shallow (a : Nat) (w : Word32) : (d.setWord a w).shallow = d.shallow := rfl
@[simp] theorem Dev.setWord_deep (a : Nat) (w : Word32) : (d.setWord a w).deep = d.deep := rfl
@[simp] theorem Dev.setWord_counters (a : Nat) (w : Word32) : (d.setWord a w).counters = d.counters := rfl
@[simp] theorem Dev.setWord_captures (a : Nat) (w : Word32) : (d.setWord a w).captures = d.captures := rfl
@[simp] theorem Dev.setWord_timers (a : Nat) (w : Word32) : (d.setWord a w).timers = d.timers := rfl
@[simp] theorem Dev.setWord_root (a : Nat) (w : Word32) : (d.setWord a w).root = d.root := rfl
@[simp] theorem Dev.setWord_loader (a : Nat) (w : Word32) : (d.setWord a w).loader = d.loader := rfl
@[simp] theorem Dev.setWord_sessions (a : Nat) (w : Word32) : (d.setWord a w).sessions = d.sessions := rfl
@[simp] theorem Dev.setWord_ring (a : Nat) (w : Word32) : (d.setWord a w).ring = d.ring := rfl
@[simp] theorem Dev.setWord_cache (a : Nat) (w : Word32) : (d.setWord a w).cache = d.cache := rfl
@[simp] theorem Dev.setWord_assoc (a : Nat) (w : Word32) : (d.setWord a w).assoc = d.assoc := rfl
@[simp] theorem Dev.setWord_pages (a : Nat) (w : Word32) : (d.setWord a w).pages = d.pages := rfl
@[simp] theorem Dev.setWord_engine (a : Nat) (w : Word32) : (d.setWord a w).engine = d.engine := rfl
@[simp] theorem Dev.setWord_mgtOut (a : Nat) (w : Word32) : (d.setWord a w).mgtOut = d.mgtOut := rfl
@[simp] theorem Dev.setWord_ethOut (a : Nat) (w : Word32) : (d.setWord a w).ethOut = d.ethOut := rfl
@[simp] theorem Dev.setWord_draws (a : Nat) (w : Word32) : (d.setWord a w).draws = d.draws := rfl
@[simp] theorem Dev.setWord_alarmed (a : Nat) (w : Word32) : (d.setWord a w).alarmed = d.alarmed := rfl
@[simp] theorem Dev.setWord_inReset (a : Nat) (w : Word32) : (d.setWord a w).inReset = d.inReset := rfl
@[simp] theorem Dev.setWord_hw (a : Nat) (w : Word32) : (d.setWord a w).hw = d.hw := rfl
@[simp] theorem Dev.setWord_evNow (a : Nat) (w : Word32) : (d.setWord a w).evNow = d.evNow := rfl
@[simp] theorem Dev.setWord_hbm (a : Nat) (w : Word32) : (d.setWord a w).hbm = d.hbm := rfl
@[simp] theorem Dev.setWord_fetches (a : Nat) (w : Word32) : (d.setWord a w).fetches = d.fetches := rfl
@[simp] theorem Dev.setWord_sa (a : Nat) (w : Word32) : (d.setWord a w).sa = d.sa := rfl
@[simp] theorem Dev.setWord_copy (a : Nat) (w : Word32) : (d.setWord a w).copy = d.copy := rfl
@[simp] theorem Dev.setWord_badParity (a : Nat) (w : Word32) : (d.setWord a w).badParity = d.badParity := rfl
@[simp] theorem Dev.setWord_edits (a : Nat) (w : Word32) : (d.setWord a w).edits = d.edits := rfl
@[simp] theorem Dev.setWord_shadow (a : Nat) (w : Word32) : (d.setWord a w).shadow = d.shadow := rfl
@[simp] theorem Dev.setWord_restore (a : Nat) (w : Word32) : (d.setWord a w).restore = d.restore := rfl
@[simp] theorem Dev.setWord_fresh (a : Nat) (w : Word32) : (d.setWord a w).fresh = d.fresh := rfl
@[simp] theorem Dev.setWord_pool (a : Nat) (w : Word32) : (d.setWord a w).pool = d.pool := rfl
@[simp] theorem Dev.setWord_poolBusy (a : Nat) (w : Word32) : (d.setWord a w).poolBusy = d.poolBusy := rfl
@[simp] theorem Dev.setWord_gather (a : Nat) (w : Word32) : (d.setWord a w).gather = d.gather := rfl
@[simp] theorem Dev.setWord_lastCause (a : Nat) (w : Word32) : (d.setWord a w).lastCause = d.lastCause := rfl

@[simp] theorem Dev.wr_now (f : Field) (v : Nat) : (d.wr f v).now = d.now := rfl
@[simp] theorem Dev.wr_mains (f : Field) (v : Nat) : (d.wr f v).mains = d.mains := rfl
@[simp] theorem Dev.wr_chan (f : Field) (v : Nat) : (d.wr f v).chan = d.chan := rfl
@[simp] theorem Dev.wr_seq (f : Field) (v : Nat) : (d.wr f v).seq = d.seq := rfl
@[simp] theorem Dev.wr_gov (f : Field) (v : Nat) : (d.wr f v).gov = d.gov := rfl
@[simp] theorem Dev.wr_free (f : Field) (v : Nat) : (d.wr f v).free = d.free := rfl
@[simp] theorem Dev.wr_zeroing (f : Field) (v : Nat) : (d.wr f v).zeroing = d.zeroing := rfl
@[simp] theorem Dev.wr_shallow (f : Field) (v : Nat) : (d.wr f v).shallow = d.shallow := rfl
@[simp] theorem Dev.wr_deep (f : Field) (v : Nat) : (d.wr f v).deep = d.deep := rfl
@[simp] theorem Dev.wr_counters (f : Field) (v : Nat) : (d.wr f v).counters = d.counters := rfl
@[simp] theorem Dev.wr_captures (f : Field) (v : Nat) : (d.wr f v).captures = d.captures := rfl
@[simp] theorem Dev.wr_timers (f : Field) (v : Nat) : (d.wr f v).timers = d.timers := rfl
@[simp] theorem Dev.wr_root (f : Field) (v : Nat) : (d.wr f v).root = d.root := rfl
@[simp] theorem Dev.wr_loader (f : Field) (v : Nat) : (d.wr f v).loader = d.loader := rfl
@[simp] theorem Dev.wr_sessions (f : Field) (v : Nat) : (d.wr f v).sessions = d.sessions := rfl
@[simp] theorem Dev.wr_ring (f : Field) (v : Nat) : (d.wr f v).ring = d.ring := rfl
@[simp] theorem Dev.wr_cache (f : Field) (v : Nat) : (d.wr f v).cache = d.cache := rfl
@[simp] theorem Dev.wr_assoc (f : Field) (v : Nat) : (d.wr f v).assoc = d.assoc := rfl
@[simp] theorem Dev.wr_pages (f : Field) (v : Nat) : (d.wr f v).pages = d.pages := rfl
@[simp] theorem Dev.wr_engine (f : Field) (v : Nat) : (d.wr f v).engine = d.engine := rfl
@[simp] theorem Dev.wr_mgtOut (f : Field) (v : Nat) : (d.wr f v).mgtOut = d.mgtOut := rfl
@[simp] theorem Dev.wr_ethOut (f : Field) (v : Nat) : (d.wr f v).ethOut = d.ethOut := rfl
@[simp] theorem Dev.wr_draws (f : Field) (v : Nat) : (d.wr f v).draws = d.draws := rfl
@[simp] theorem Dev.wr_alarmed (f : Field) (v : Nat) : (d.wr f v).alarmed = d.alarmed := rfl
@[simp] theorem Dev.wr_inReset (f : Field) (v : Nat) : (d.wr f v).inReset = d.inReset := rfl
@[simp] theorem Dev.wr_hw (f : Field) (v : Nat) : (d.wr f v).hw = d.hw := rfl
@[simp] theorem Dev.wr_evNow (f : Field) (v : Nat) : (d.wr f v).evNow = d.evNow := rfl
@[simp] theorem Dev.wr_hbm (f : Field) (v : Nat) : (d.wr f v).hbm = d.hbm := rfl
@[simp] theorem Dev.wr_fetches (f : Field) (v : Nat) : (d.wr f v).fetches = d.fetches := rfl
@[simp] theorem Dev.wr_sa (f : Field) (v : Nat) : (d.wr f v).sa = d.sa := rfl
@[simp] theorem Dev.wr_copy (f : Field) (v : Nat) : (d.wr f v).copy = d.copy := rfl
@[simp] theorem Dev.wr_badParity (f : Field) (v : Nat) : (d.wr f v).badParity = d.badParity := rfl
@[simp] theorem Dev.wr_edits (f : Field) (v : Nat) : (d.wr f v).edits = d.edits := rfl
@[simp] theorem Dev.wr_shadow (f : Field) (v : Nat) : (d.wr f v).shadow = d.shadow := rfl
@[simp] theorem Dev.wr_restore (f : Field) (v : Nat) : (d.wr f v).restore = d.restore := rfl
@[simp] theorem Dev.wr_fresh (f : Field) (v : Nat) : (d.wr f v).fresh = d.fresh := rfl
@[simp] theorem Dev.wr_pool (f : Field) (v : Nat) : (d.wr f v).pool = d.pool := rfl
@[simp] theorem Dev.wr_poolBusy (f : Field) (v : Nat) : (d.wr f v).poolBusy = d.poolBusy := rfl
@[simp] theorem Dev.wr_gather (f : Field) (v : Nat) : (d.wr f v).gather = d.gather := rfl
@[simp] theorem Dev.wr_lastCause (f : Field) (v : Nat) : (d.wr f v).lastCause = d.lastCause := rfl

@[simp] theorem Dev.setCh_now (k : Nat) (c : Chan) : (d.setCh k c).now = d.now := rfl
@[simp] theorem Dev.setCh_regs (k : Nat) (c : Chan) : (d.setCh k c).regs = d.regs := rfl
@[simp] theorem Dev.setCh_mains (k : Nat) (c : Chan) : (d.setCh k c).mains = d.mains := rfl
@[simp] theorem Dev.setCh_seq (k : Nat) (c : Chan) : (d.setCh k c).seq = d.seq := rfl
@[simp] theorem Dev.setCh_gov (k : Nat) (c : Chan) : (d.setCh k c).gov = d.gov := rfl
@[simp] theorem Dev.setCh_free (k : Nat) (c : Chan) : (d.setCh k c).free = d.free := rfl
@[simp] theorem Dev.setCh_zeroing (k : Nat) (c : Chan) : (d.setCh k c).zeroing = d.zeroing := rfl
@[simp] theorem Dev.setCh_shallow (k : Nat) (c : Chan) : (d.setCh k c).shallow = d.shallow := rfl
@[simp] theorem Dev.setCh_deep (k : Nat) (c : Chan) : (d.setCh k c).deep = d.deep := rfl
@[simp] theorem Dev.setCh_counters (k : Nat) (c : Chan) : (d.setCh k c).counters = d.counters := rfl
@[simp] theorem Dev.setCh_captures (k : Nat) (c : Chan) : (d.setCh k c).captures = d.captures := rfl
@[simp] theorem Dev.setCh_timers (k : Nat) (c : Chan) : (d.setCh k c).timers = d.timers := rfl
@[simp] theorem Dev.setCh_root (k : Nat) (c : Chan) : (d.setCh k c).root = d.root := rfl
@[simp] theorem Dev.setCh_loader (k : Nat) (c : Chan) : (d.setCh k c).loader = d.loader := rfl
@[simp] theorem Dev.setCh_sessions (k : Nat) (c : Chan) : (d.setCh k c).sessions = d.sessions := rfl
@[simp] theorem Dev.setCh_ring (k : Nat) (c : Chan) : (d.setCh k c).ring = d.ring := rfl
@[simp] theorem Dev.setCh_cache (k : Nat) (c : Chan) : (d.setCh k c).cache = d.cache := rfl
@[simp] theorem Dev.setCh_assoc (k : Nat) (c : Chan) : (d.setCh k c).assoc = d.assoc := rfl
@[simp] theorem Dev.setCh_pages (k : Nat) (c : Chan) : (d.setCh k c).pages = d.pages := rfl
@[simp] theorem Dev.setCh_engine (k : Nat) (c : Chan) : (d.setCh k c).engine = d.engine := rfl
@[simp] theorem Dev.setCh_mgtOut (k : Nat) (c : Chan) : (d.setCh k c).mgtOut = d.mgtOut := rfl
@[simp] theorem Dev.setCh_ethOut (k : Nat) (c : Chan) : (d.setCh k c).ethOut = d.ethOut := rfl
@[simp] theorem Dev.setCh_draws (k : Nat) (c : Chan) : (d.setCh k c).draws = d.draws := rfl
@[simp] theorem Dev.setCh_alarmed (k : Nat) (c : Chan) : (d.setCh k c).alarmed = d.alarmed := rfl
@[simp] theorem Dev.setCh_inReset (k : Nat) (c : Chan) : (d.setCh k c).inReset = d.inReset := rfl
@[simp] theorem Dev.setCh_hw (k : Nat) (c : Chan) : (d.setCh k c).hw = d.hw := rfl
@[simp] theorem Dev.setCh_evNow (k : Nat) (c : Chan) : (d.setCh k c).evNow = d.evNow := rfl
@[simp] theorem Dev.setCh_hbm (k : Nat) (c : Chan) : (d.setCh k c).hbm = d.hbm := rfl
@[simp] theorem Dev.setCh_fetches (k : Nat) (c : Chan) : (d.setCh k c).fetches = d.fetches := rfl
@[simp] theorem Dev.setCh_sa (k : Nat) (c : Chan) : (d.setCh k c).sa = d.sa := rfl
@[simp] theorem Dev.setCh_copy (k : Nat) (c : Chan) : (d.setCh k c).copy = d.copy := rfl
@[simp] theorem Dev.setCh_badParity (k : Nat) (c : Chan) : (d.setCh k c).badParity = d.badParity := rfl
@[simp] theorem Dev.setCh_edits (k : Nat) (c : Chan) : (d.setCh k c).edits = d.edits := rfl
@[simp] theorem Dev.setCh_shadow (k : Nat) (c : Chan) : (d.setCh k c).shadow = d.shadow := rfl
@[simp] theorem Dev.setCh_restore (k : Nat) (c : Chan) : (d.setCh k c).restore = d.restore := rfl
@[simp] theorem Dev.setCh_fresh (k : Nat) (c : Chan) : (d.setCh k c).fresh = d.fresh := rfl
@[simp] theorem Dev.setCh_pool (k : Nat) (c : Chan) : (d.setCh k c).pool = d.pool := rfl
@[simp] theorem Dev.setCh_poolBusy (k : Nat) (c : Chan) : (d.setCh k c).poolBusy = d.poolBusy := rfl
@[simp] theorem Dev.setCh_gather (k : Nat) (c : Chan) : (d.setCh k c).gather = d.gather := rfl
@[simp] theorem Dev.setCh_lastCause (k : Nat) (c : Chan) : (d.setCh k c).lastCause = d.lastCause := rfl

@[simp] theorem Dev.modCh_now (k : Nat) (f : Chan → Chan) : (d.modCh k f).now = d.now := rfl
@[simp] theorem Dev.modCh_regs (k : Nat) (f : Chan → Chan) : (d.modCh k f).regs = d.regs := rfl
@[simp] theorem Dev.modCh_mains (k : Nat) (f : Chan → Chan) : (d.modCh k f).mains = d.mains := rfl
@[simp] theorem Dev.modCh_seq (k : Nat) (f : Chan → Chan) : (d.modCh k f).seq = d.seq := rfl
@[simp] theorem Dev.modCh_gov (k : Nat) (f : Chan → Chan) : (d.modCh k f).gov = d.gov := rfl
@[simp] theorem Dev.modCh_free (k : Nat) (f : Chan → Chan) : (d.modCh k f).free = d.free := rfl
@[simp] theorem Dev.modCh_zeroing (k : Nat) (f : Chan → Chan) : (d.modCh k f).zeroing = d.zeroing := rfl
@[simp] theorem Dev.modCh_shallow (k : Nat) (f : Chan → Chan) : (d.modCh k f).shallow = d.shallow := rfl
@[simp] theorem Dev.modCh_deep (k : Nat) (f : Chan → Chan) : (d.modCh k f).deep = d.deep := rfl
@[simp] theorem Dev.modCh_counters (k : Nat) (f : Chan → Chan) : (d.modCh k f).counters = d.counters := rfl
@[simp] theorem Dev.modCh_captures (k : Nat) (f : Chan → Chan) : (d.modCh k f).captures = d.captures := rfl
@[simp] theorem Dev.modCh_timers (k : Nat) (f : Chan → Chan) : (d.modCh k f).timers = d.timers := rfl
@[simp] theorem Dev.modCh_root (k : Nat) (f : Chan → Chan) : (d.modCh k f).root = d.root := rfl
@[simp] theorem Dev.modCh_loader (k : Nat) (f : Chan → Chan) : (d.modCh k f).loader = d.loader := rfl
@[simp] theorem Dev.modCh_sessions (k : Nat) (f : Chan → Chan) : (d.modCh k f).sessions = d.sessions := rfl
@[simp] theorem Dev.modCh_ring (k : Nat) (f : Chan → Chan) : (d.modCh k f).ring = d.ring := rfl
@[simp] theorem Dev.modCh_cache (k : Nat) (f : Chan → Chan) : (d.modCh k f).cache = d.cache := rfl
@[simp] theorem Dev.modCh_assoc (k : Nat) (f : Chan → Chan) : (d.modCh k f).assoc = d.assoc := rfl
@[simp] theorem Dev.modCh_pages (k : Nat) (f : Chan → Chan) : (d.modCh k f).pages = d.pages := rfl
@[simp] theorem Dev.modCh_engine (k : Nat) (f : Chan → Chan) : (d.modCh k f).engine = d.engine := rfl
@[simp] theorem Dev.modCh_mgtOut (k : Nat) (f : Chan → Chan) : (d.modCh k f).mgtOut = d.mgtOut := rfl
@[simp] theorem Dev.modCh_ethOut (k : Nat) (f : Chan → Chan) : (d.modCh k f).ethOut = d.ethOut := rfl
@[simp] theorem Dev.modCh_draws (k : Nat) (f : Chan → Chan) : (d.modCh k f).draws = d.draws := rfl
@[simp] theorem Dev.modCh_alarmed (k : Nat) (f : Chan → Chan) : (d.modCh k f).alarmed = d.alarmed := rfl
@[simp] theorem Dev.modCh_inReset (k : Nat) (f : Chan → Chan) : (d.modCh k f).inReset = d.inReset := rfl
@[simp] theorem Dev.modCh_hw (k : Nat) (f : Chan → Chan) : (d.modCh k f).hw = d.hw := rfl
@[simp] theorem Dev.modCh_evNow (k : Nat) (f : Chan → Chan) : (d.modCh k f).evNow = d.evNow := rfl
@[simp] theorem Dev.modCh_hbm (k : Nat) (f : Chan → Chan) : (d.modCh k f).hbm = d.hbm := rfl
@[simp] theorem Dev.modCh_fetches (k : Nat) (f : Chan → Chan) : (d.modCh k f).fetches = d.fetches := rfl
@[simp] theorem Dev.modCh_sa (k : Nat) (f : Chan → Chan) : (d.modCh k f).sa = d.sa := rfl
@[simp] theorem Dev.modCh_copy (k : Nat) (f : Chan → Chan) : (d.modCh k f).copy = d.copy := rfl
@[simp] theorem Dev.modCh_badParity (k : Nat) (f : Chan → Chan) : (d.modCh k f).badParity = d.badParity := rfl
@[simp] theorem Dev.modCh_edits (k : Nat) (f : Chan → Chan) : (d.modCh k f).edits = d.edits := rfl
@[simp] theorem Dev.modCh_shadow (k : Nat) (f : Chan → Chan) : (d.modCh k f).shadow = d.shadow := rfl
@[simp] theorem Dev.modCh_restore (k : Nat) (f : Chan → Chan) : (d.modCh k f).restore = d.restore := rfl
@[simp] theorem Dev.modCh_fresh (k : Nat) (f : Chan → Chan) : (d.modCh k f).fresh = d.fresh := rfl
@[simp] theorem Dev.modCh_pool (k : Nat) (f : Chan → Chan) : (d.modCh k f).pool = d.pool := rfl
@[simp] theorem Dev.modCh_poolBusy (k : Nat) (f : Chan → Chan) : (d.modCh k f).poolBusy = d.poolBusy := rfl
@[simp] theorem Dev.modCh_gather (k : Nat) (f : Chan → Chan) : (d.modCh k f).gather = d.gather := rfl
@[simp] theorem Dev.modCh_lastCause (k : Nat) (f : Chan → Chan) : (d.modCh k f).lastCause = d.lastCause := rfl

@[simp] theorem Dev.setSq_now (q : Nat) (c : Seq) : (d.setSq q c).now = d.now := rfl
@[simp] theorem Dev.setSq_regs (q : Nat) (c : Seq) : (d.setSq q c).regs = d.regs := rfl
@[simp] theorem Dev.setSq_mains (q : Nat) (c : Seq) : (d.setSq q c).mains = d.mains := rfl
@[simp] theorem Dev.setSq_chan (q : Nat) (c : Seq) : (d.setSq q c).chan = d.chan := rfl
@[simp] theorem Dev.setSq_gov (q : Nat) (c : Seq) : (d.setSq q c).gov = d.gov := rfl
@[simp] theorem Dev.setSq_free (q : Nat) (c : Seq) : (d.setSq q c).free = d.free := rfl
@[simp] theorem Dev.setSq_zeroing (q : Nat) (c : Seq) : (d.setSq q c).zeroing = d.zeroing := rfl
@[simp] theorem Dev.setSq_shallow (q : Nat) (c : Seq) : (d.setSq q c).shallow = d.shallow := rfl
@[simp] theorem Dev.setSq_deep (q : Nat) (c : Seq) : (d.setSq q c).deep = d.deep := rfl
@[simp] theorem Dev.setSq_counters (q : Nat) (c : Seq) : (d.setSq q c).counters = d.counters := rfl
@[simp] theorem Dev.setSq_captures (q : Nat) (c : Seq) : (d.setSq q c).captures = d.captures := rfl
@[simp] theorem Dev.setSq_timers (q : Nat) (c : Seq) : (d.setSq q c).timers = d.timers := rfl
@[simp] theorem Dev.setSq_root (q : Nat) (c : Seq) : (d.setSq q c).root = d.root := rfl
@[simp] theorem Dev.setSq_loader (q : Nat) (c : Seq) : (d.setSq q c).loader = d.loader := rfl
@[simp] theorem Dev.setSq_sessions (q : Nat) (c : Seq) : (d.setSq q c).sessions = d.sessions := rfl
@[simp] theorem Dev.setSq_ring (q : Nat) (c : Seq) : (d.setSq q c).ring = d.ring := rfl
@[simp] theorem Dev.setSq_cache (q : Nat) (c : Seq) : (d.setSq q c).cache = d.cache := rfl
@[simp] theorem Dev.setSq_assoc (q : Nat) (c : Seq) : (d.setSq q c).assoc = d.assoc := rfl
@[simp] theorem Dev.setSq_pages (q : Nat) (c : Seq) : (d.setSq q c).pages = d.pages := rfl
@[simp] theorem Dev.setSq_engine (q : Nat) (c : Seq) : (d.setSq q c).engine = d.engine := rfl
@[simp] theorem Dev.setSq_mgtOut (q : Nat) (c : Seq) : (d.setSq q c).mgtOut = d.mgtOut := rfl
@[simp] theorem Dev.setSq_ethOut (q : Nat) (c : Seq) : (d.setSq q c).ethOut = d.ethOut := rfl
@[simp] theorem Dev.setSq_draws (q : Nat) (c : Seq) : (d.setSq q c).draws = d.draws := rfl
@[simp] theorem Dev.setSq_alarmed (q : Nat) (c : Seq) : (d.setSq q c).alarmed = d.alarmed := rfl
@[simp] theorem Dev.setSq_inReset (q : Nat) (c : Seq) : (d.setSq q c).inReset = d.inReset := rfl
@[simp] theorem Dev.setSq_hw (q : Nat) (c : Seq) : (d.setSq q c).hw = d.hw := rfl
@[simp] theorem Dev.setSq_evNow (q : Nat) (c : Seq) : (d.setSq q c).evNow = d.evNow := rfl
@[simp] theorem Dev.setSq_hbm (q : Nat) (c : Seq) : (d.setSq q c).hbm = d.hbm := rfl
@[simp] theorem Dev.setSq_fetches (q : Nat) (c : Seq) : (d.setSq q c).fetches = d.fetches := rfl
@[simp] theorem Dev.setSq_sa (q : Nat) (c : Seq) : (d.setSq q c).sa = d.sa := rfl
@[simp] theorem Dev.setSq_copy (q : Nat) (c : Seq) : (d.setSq q c).copy = d.copy := rfl
@[simp] theorem Dev.setSq_badParity (q : Nat) (c : Seq) : (d.setSq q c).badParity = d.badParity := rfl
@[simp] theorem Dev.setSq_edits (q : Nat) (c : Seq) : (d.setSq q c).edits = d.edits := rfl
@[simp] theorem Dev.setSq_shadow (q : Nat) (c : Seq) : (d.setSq q c).shadow = d.shadow := rfl
@[simp] theorem Dev.setSq_restore (q : Nat) (c : Seq) : (d.setSq q c).restore = d.restore := rfl
@[simp] theorem Dev.setSq_fresh (q : Nat) (c : Seq) : (d.setSq q c).fresh = d.fresh := rfl
@[simp] theorem Dev.setSq_pool (q : Nat) (c : Seq) : (d.setSq q c).pool = d.pool := rfl
@[simp] theorem Dev.setSq_poolBusy (q : Nat) (c : Seq) : (d.setSq q c).poolBusy = d.poolBusy := rfl
@[simp] theorem Dev.setSq_gather (q : Nat) (c : Seq) : (d.setSq q c).gather = d.gather := rfl
@[simp] theorem Dev.setSq_lastCause (q : Nat) (c : Seq) : (d.setSq q c).lastCause = d.lastCause := rfl

@[simp] theorem Dev.modSq_now (q : Nat) (f : Seq → Seq) : (d.modSq q f).now = d.now := rfl
@[simp] theorem Dev.modSq_regs (q : Nat) (f : Seq → Seq) : (d.modSq q f).regs = d.regs := rfl
@[simp] theorem Dev.modSq_mains (q : Nat) (f : Seq → Seq) : (d.modSq q f).mains = d.mains := rfl
@[simp] theorem Dev.modSq_chan (q : Nat) (f : Seq → Seq) : (d.modSq q f).chan = d.chan := rfl
@[simp] theorem Dev.modSq_gov (q : Nat) (f : Seq → Seq) : (d.modSq q f).gov = d.gov := rfl
@[simp] theorem Dev.modSq_free (q : Nat) (f : Seq → Seq) : (d.modSq q f).free = d.free := rfl
@[simp] theorem Dev.modSq_zeroing (q : Nat) (f : Seq → Seq) : (d.modSq q f).zeroing = d.zeroing := rfl
@[simp] theorem Dev.modSq_shallow (q : Nat) (f : Seq → Seq) : (d.modSq q f).shallow = d.shallow := rfl
@[simp] theorem Dev.modSq_deep (q : Nat) (f : Seq → Seq) : (d.modSq q f).deep = d.deep := rfl
@[simp] theorem Dev.modSq_counters (q : Nat) (f : Seq → Seq) : (d.modSq q f).counters = d.counters := rfl
@[simp] theorem Dev.modSq_captures (q : Nat) (f : Seq → Seq) : (d.modSq q f).captures = d.captures := rfl
@[simp] theorem Dev.modSq_timers (q : Nat) (f : Seq → Seq) : (d.modSq q f).timers = d.timers := rfl
@[simp] theorem Dev.modSq_root (q : Nat) (f : Seq → Seq) : (d.modSq q f).root = d.root := rfl
@[simp] theorem Dev.modSq_loader (q : Nat) (f : Seq → Seq) : (d.modSq q f).loader = d.loader := rfl
@[simp] theorem Dev.modSq_sessions (q : Nat) (f : Seq → Seq) : (d.modSq q f).sessions = d.sessions := rfl
@[simp] theorem Dev.modSq_ring (q : Nat) (f : Seq → Seq) : (d.modSq q f).ring = d.ring := rfl
@[simp] theorem Dev.modSq_cache (q : Nat) (f : Seq → Seq) : (d.modSq q f).cache = d.cache := rfl
@[simp] theorem Dev.modSq_assoc (q : Nat) (f : Seq → Seq) : (d.modSq q f).assoc = d.assoc := rfl
@[simp] theorem Dev.modSq_pages (q : Nat) (f : Seq → Seq) : (d.modSq q f).pages = d.pages := rfl
@[simp] theorem Dev.modSq_engine (q : Nat) (f : Seq → Seq) : (d.modSq q f).engine = d.engine := rfl
@[simp] theorem Dev.modSq_mgtOut (q : Nat) (f : Seq → Seq) : (d.modSq q f).mgtOut = d.mgtOut := rfl
@[simp] theorem Dev.modSq_ethOut (q : Nat) (f : Seq → Seq) : (d.modSq q f).ethOut = d.ethOut := rfl
@[simp] theorem Dev.modSq_draws (q : Nat) (f : Seq → Seq) : (d.modSq q f).draws = d.draws := rfl
@[simp] theorem Dev.modSq_alarmed (q : Nat) (f : Seq → Seq) : (d.modSq q f).alarmed = d.alarmed := rfl
@[simp] theorem Dev.modSq_inReset (q : Nat) (f : Seq → Seq) : (d.modSq q f).inReset = d.inReset := rfl
@[simp] theorem Dev.modSq_hw (q : Nat) (f : Seq → Seq) : (d.modSq q f).hw = d.hw := rfl
@[simp] theorem Dev.modSq_evNow (q : Nat) (f : Seq → Seq) : (d.modSq q f).evNow = d.evNow := rfl
@[simp] theorem Dev.modSq_hbm (q : Nat) (f : Seq → Seq) : (d.modSq q f).hbm = d.hbm := rfl
@[simp] theorem Dev.modSq_fetches (q : Nat) (f : Seq → Seq) : (d.modSq q f).fetches = d.fetches := rfl
@[simp] theorem Dev.modSq_sa (q : Nat) (f : Seq → Seq) : (d.modSq q f).sa = d.sa := rfl
@[simp] theorem Dev.modSq_copy (q : Nat) (f : Seq → Seq) : (d.modSq q f).copy = d.copy := rfl
@[simp] theorem Dev.modSq_badParity (q : Nat) (f : Seq → Seq) : (d.modSq q f).badParity = d.badParity := rfl
@[simp] theorem Dev.modSq_edits (q : Nat) (f : Seq → Seq) : (d.modSq q f).edits = d.edits := rfl
@[simp] theorem Dev.modSq_shadow (q : Nat) (f : Seq → Seq) : (d.modSq q f).shadow = d.shadow := rfl
@[simp] theorem Dev.modSq_restore (q : Nat) (f : Seq → Seq) : (d.modSq q f).restore = d.restore := rfl
@[simp] theorem Dev.modSq_fresh (q : Nat) (f : Seq → Seq) : (d.modSq q f).fresh = d.fresh := rfl
@[simp] theorem Dev.modSq_pool (q : Nat) (f : Seq → Seq) : (d.modSq q f).pool = d.pool := rfl
@[simp] theorem Dev.modSq_poolBusy (q : Nat) (f : Seq → Seq) : (d.modSq q f).poolBusy = d.poolBusy := rfl
@[simp] theorem Dev.modSq_gather (q : Nat) (f : Seq → Seq) : (d.modSq q f).gather = d.gather := rfl
@[simp] theorem Dev.modSq_lastCause (q : Nat) (f : Seq → Seq) : (d.modSq q f).lastCause = d.lastCause := rfl

@[simp] theorem Dev.setSh_now (q : Nat) (c : Shallow) : (d.setSh q c).now = d.now := rfl
@[simp] theorem Dev.setSh_regs (q : Nat) (c : Shallow) : (d.setSh q c).regs = d.regs := rfl
@[simp] theorem Dev.setSh_mains (q : Nat) (c : Shallow) : (d.setSh q c).mains = d.mains := rfl
@[simp] theorem Dev.setSh_chan (q : Nat) (c : Shallow) : (d.setSh q c).chan = d.chan := rfl
@[simp] theorem Dev.setSh_seq (q : Nat) (c : Shallow) : (d.setSh q c).seq = d.seq := rfl
@[simp] theorem Dev.setSh_gov (q : Nat) (c : Shallow) : (d.setSh q c).gov = d.gov := rfl
@[simp] theorem Dev.setSh_free (q : Nat) (c : Shallow) : (d.setSh q c).free = d.free := rfl
@[simp] theorem Dev.setSh_zeroing (q : Nat) (c : Shallow) : (d.setSh q c).zeroing = d.zeroing := rfl
@[simp] theorem Dev.setSh_deep (q : Nat) (c : Shallow) : (d.setSh q c).deep = d.deep := rfl
@[simp] theorem Dev.setSh_counters (q : Nat) (c : Shallow) : (d.setSh q c).counters = d.counters := rfl
@[simp] theorem Dev.setSh_captures (q : Nat) (c : Shallow) : (d.setSh q c).captures = d.captures := rfl
@[simp] theorem Dev.setSh_timers (q : Nat) (c : Shallow) : (d.setSh q c).timers = d.timers := rfl
@[simp] theorem Dev.setSh_root (q : Nat) (c : Shallow) : (d.setSh q c).root = d.root := rfl
@[simp] theorem Dev.setSh_loader (q : Nat) (c : Shallow) : (d.setSh q c).loader = d.loader := rfl
@[simp] theorem Dev.setSh_sessions (q : Nat) (c : Shallow) : (d.setSh q c).sessions = d.sessions := rfl
@[simp] theorem Dev.setSh_ring (q : Nat) (c : Shallow) : (d.setSh q c).ring = d.ring := rfl
@[simp] theorem Dev.setSh_cache (q : Nat) (c : Shallow) : (d.setSh q c).cache = d.cache := rfl
@[simp] theorem Dev.setSh_assoc (q : Nat) (c : Shallow) : (d.setSh q c).assoc = d.assoc := rfl
@[simp] theorem Dev.setSh_pages (q : Nat) (c : Shallow) : (d.setSh q c).pages = d.pages := rfl
@[simp] theorem Dev.setSh_engine (q : Nat) (c : Shallow) : (d.setSh q c).engine = d.engine := rfl
@[simp] theorem Dev.setSh_mgtOut (q : Nat) (c : Shallow) : (d.setSh q c).mgtOut = d.mgtOut := rfl
@[simp] theorem Dev.setSh_ethOut (q : Nat) (c : Shallow) : (d.setSh q c).ethOut = d.ethOut := rfl
@[simp] theorem Dev.setSh_draws (q : Nat) (c : Shallow) : (d.setSh q c).draws = d.draws := rfl
@[simp] theorem Dev.setSh_alarmed (q : Nat) (c : Shallow) : (d.setSh q c).alarmed = d.alarmed := rfl
@[simp] theorem Dev.setSh_inReset (q : Nat) (c : Shallow) : (d.setSh q c).inReset = d.inReset := rfl
@[simp] theorem Dev.setSh_hw (q : Nat) (c : Shallow) : (d.setSh q c).hw = d.hw := rfl
@[simp] theorem Dev.setSh_evNow (q : Nat) (c : Shallow) : (d.setSh q c).evNow = d.evNow := rfl
@[simp] theorem Dev.setSh_hbm (q : Nat) (c : Shallow) : (d.setSh q c).hbm = d.hbm := rfl
@[simp] theorem Dev.setSh_fetches (q : Nat) (c : Shallow) : (d.setSh q c).fetches = d.fetches := rfl
@[simp] theorem Dev.setSh_sa (q : Nat) (c : Shallow) : (d.setSh q c).sa = d.sa := rfl
@[simp] theorem Dev.setSh_copy (q : Nat) (c : Shallow) : (d.setSh q c).copy = d.copy := rfl
@[simp] theorem Dev.setSh_badParity (q : Nat) (c : Shallow) : (d.setSh q c).badParity = d.badParity := rfl
@[simp] theorem Dev.setSh_edits (q : Nat) (c : Shallow) : (d.setSh q c).edits = d.edits := rfl
@[simp] theorem Dev.setSh_shadow (q : Nat) (c : Shallow) : (d.setSh q c).shadow = d.shadow := rfl
@[simp] theorem Dev.setSh_restore (q : Nat) (c : Shallow) : (d.setSh q c).restore = d.restore := rfl
@[simp] theorem Dev.setSh_fresh (q : Nat) (c : Shallow) : (d.setSh q c).fresh = d.fresh := rfl
@[simp] theorem Dev.setSh_pool (q : Nat) (c : Shallow) : (d.setSh q c).pool = d.pool := rfl
@[simp] theorem Dev.setSh_poolBusy (q : Nat) (c : Shallow) : (d.setSh q c).poolBusy = d.poolBusy := rfl
@[simp] theorem Dev.setSh_gather (q : Nat) (c : Shallow) : (d.setSh q c).gather = d.gather := rfl
@[simp] theorem Dev.setSh_lastCause (q : Nat) (c : Shallow) : (d.setSh q c).lastCause = d.lastCause := rfl

@[simp] theorem Dev.setDq_now (q : Nat) (c : Deep) : (d.setDq q c).now = d.now := rfl
@[simp] theorem Dev.setDq_regs (q : Nat) (c : Deep) : (d.setDq q c).regs = d.regs := rfl
@[simp] theorem Dev.setDq_mains (q : Nat) (c : Deep) : (d.setDq q c).mains = d.mains := rfl
@[simp] theorem Dev.setDq_chan (q : Nat) (c : Deep) : (d.setDq q c).chan = d.chan := rfl
@[simp] theorem Dev.setDq_seq (q : Nat) (c : Deep) : (d.setDq q c).seq = d.seq := rfl
@[simp] theorem Dev.setDq_gov (q : Nat) (c : Deep) : (d.setDq q c).gov = d.gov := rfl
@[simp] theorem Dev.setDq_free (q : Nat) (c : Deep) : (d.setDq q c).free = d.free := rfl
@[simp] theorem Dev.setDq_zeroing (q : Nat) (c : Deep) : (d.setDq q c).zeroing = d.zeroing := rfl
@[simp] theorem Dev.setDq_shallow (q : Nat) (c : Deep) : (d.setDq q c).shallow = d.shallow := rfl
@[simp] theorem Dev.setDq_counters (q : Nat) (c : Deep) : (d.setDq q c).counters = d.counters := rfl
@[simp] theorem Dev.setDq_captures (q : Nat) (c : Deep) : (d.setDq q c).captures = d.captures := rfl
@[simp] theorem Dev.setDq_timers (q : Nat) (c : Deep) : (d.setDq q c).timers = d.timers := rfl
@[simp] theorem Dev.setDq_root (q : Nat) (c : Deep) : (d.setDq q c).root = d.root := rfl
@[simp] theorem Dev.setDq_loader (q : Nat) (c : Deep) : (d.setDq q c).loader = d.loader := rfl
@[simp] theorem Dev.setDq_sessions (q : Nat) (c : Deep) : (d.setDq q c).sessions = d.sessions := rfl
@[simp] theorem Dev.setDq_ring (q : Nat) (c : Deep) : (d.setDq q c).ring = d.ring := rfl
@[simp] theorem Dev.setDq_cache (q : Nat) (c : Deep) : (d.setDq q c).cache = d.cache := rfl
@[simp] theorem Dev.setDq_assoc (q : Nat) (c : Deep) : (d.setDq q c).assoc = d.assoc := rfl
@[simp] theorem Dev.setDq_pages (q : Nat) (c : Deep) : (d.setDq q c).pages = d.pages := rfl
@[simp] theorem Dev.setDq_engine (q : Nat) (c : Deep) : (d.setDq q c).engine = d.engine := rfl
@[simp] theorem Dev.setDq_mgtOut (q : Nat) (c : Deep) : (d.setDq q c).mgtOut = d.mgtOut := rfl
@[simp] theorem Dev.setDq_ethOut (q : Nat) (c : Deep) : (d.setDq q c).ethOut = d.ethOut := rfl
@[simp] theorem Dev.setDq_draws (q : Nat) (c : Deep) : (d.setDq q c).draws = d.draws := rfl
@[simp] theorem Dev.setDq_alarmed (q : Nat) (c : Deep) : (d.setDq q c).alarmed = d.alarmed := rfl
@[simp] theorem Dev.setDq_inReset (q : Nat) (c : Deep) : (d.setDq q c).inReset = d.inReset := rfl
@[simp] theorem Dev.setDq_hw (q : Nat) (c : Deep) : (d.setDq q c).hw = d.hw := rfl
@[simp] theorem Dev.setDq_evNow (q : Nat) (c : Deep) : (d.setDq q c).evNow = d.evNow := rfl
@[simp] theorem Dev.setDq_hbm (q : Nat) (c : Deep) : (d.setDq q c).hbm = d.hbm := rfl
@[simp] theorem Dev.setDq_fetches (q : Nat) (c : Deep) : (d.setDq q c).fetches = d.fetches := rfl
@[simp] theorem Dev.setDq_sa (q : Nat) (c : Deep) : (d.setDq q c).sa = d.sa := rfl
@[simp] theorem Dev.setDq_copy (q : Nat) (c : Deep) : (d.setDq q c).copy = d.copy := rfl
@[simp] theorem Dev.setDq_badParity (q : Nat) (c : Deep) : (d.setDq q c).badParity = d.badParity := rfl
@[simp] theorem Dev.setDq_edits (q : Nat) (c : Deep) : (d.setDq q c).edits = d.edits := rfl
@[simp] theorem Dev.setDq_shadow (q : Nat) (c : Deep) : (d.setDq q c).shadow = d.shadow := rfl
@[simp] theorem Dev.setDq_restore (q : Nat) (c : Deep) : (d.setDq q c).restore = d.restore := rfl
@[simp] theorem Dev.setDq_fresh (q : Nat) (c : Deep) : (d.setDq q c).fresh = d.fresh := rfl
@[simp] theorem Dev.setDq_pool (q : Nat) (c : Deep) : (d.setDq q c).pool = d.pool := rfl
@[simp] theorem Dev.setDq_poolBusy (q : Nat) (c : Deep) : (d.setDq q c).poolBusy = d.poolBusy := rfl
@[simp] theorem Dev.setDq_gather (q : Nat) (c : Deep) : (d.setDq q c).gather = d.gather := rfl
@[simp] theorem Dev.setDq_lastCause (q : Nat) (c : Deep) : (d.setDq q c).lastCause = d.lastCause := rfl

@[simp] theorem Dev.setSa_now (i : Nat) (c : Assoc) : (d.setSa i c).now = d.now := rfl
@[simp] theorem Dev.setSa_regs (i : Nat) (c : Assoc) : (d.setSa i c).regs = d.regs := rfl
@[simp] theorem Dev.setSa_mains (i : Nat) (c : Assoc) : (d.setSa i c).mains = d.mains := rfl
@[simp] theorem Dev.setSa_chan (i : Nat) (c : Assoc) : (d.setSa i c).chan = d.chan := rfl
@[simp] theorem Dev.setSa_seq (i : Nat) (c : Assoc) : (d.setSa i c).seq = d.seq := rfl
@[simp] theorem Dev.setSa_gov (i : Nat) (c : Assoc) : (d.setSa i c).gov = d.gov := rfl
@[simp] theorem Dev.setSa_free (i : Nat) (c : Assoc) : (d.setSa i c).free = d.free := rfl
@[simp] theorem Dev.setSa_zeroing (i : Nat) (c : Assoc) : (d.setSa i c).zeroing = d.zeroing := rfl
@[simp] theorem Dev.setSa_shallow (i : Nat) (c : Assoc) : (d.setSa i c).shallow = d.shallow := rfl
@[simp] theorem Dev.setSa_deep (i : Nat) (c : Assoc) : (d.setSa i c).deep = d.deep := rfl
@[simp] theorem Dev.setSa_counters (i : Nat) (c : Assoc) : (d.setSa i c).counters = d.counters := rfl
@[simp] theorem Dev.setSa_captures (i : Nat) (c : Assoc) : (d.setSa i c).captures = d.captures := rfl
@[simp] theorem Dev.setSa_timers (i : Nat) (c : Assoc) : (d.setSa i c).timers = d.timers := rfl
@[simp] theorem Dev.setSa_root (i : Nat) (c : Assoc) : (d.setSa i c).root = d.root := rfl
@[simp] theorem Dev.setSa_loader (i : Nat) (c : Assoc) : (d.setSa i c).loader = d.loader := rfl
@[simp] theorem Dev.setSa_sessions (i : Nat) (c : Assoc) : (d.setSa i c).sessions = d.sessions := rfl
@[simp] theorem Dev.setSa_ring (i : Nat) (c : Assoc) : (d.setSa i c).ring = d.ring := rfl
@[simp] theorem Dev.setSa_cache (i : Nat) (c : Assoc) : (d.setSa i c).cache = d.cache := rfl
@[simp] theorem Dev.setSa_pages (i : Nat) (c : Assoc) : (d.setSa i c).pages = d.pages := rfl
@[simp] theorem Dev.setSa_engine (i : Nat) (c : Assoc) : (d.setSa i c).engine = d.engine := rfl
@[simp] theorem Dev.setSa_mgtOut (i : Nat) (c : Assoc) : (d.setSa i c).mgtOut = d.mgtOut := rfl
@[simp] theorem Dev.setSa_ethOut (i : Nat) (c : Assoc) : (d.setSa i c).ethOut = d.ethOut := rfl
@[simp] theorem Dev.setSa_draws (i : Nat) (c : Assoc) : (d.setSa i c).draws = d.draws := rfl
@[simp] theorem Dev.setSa_alarmed (i : Nat) (c : Assoc) : (d.setSa i c).alarmed = d.alarmed := rfl
@[simp] theorem Dev.setSa_inReset (i : Nat) (c : Assoc) : (d.setSa i c).inReset = d.inReset := rfl
@[simp] theorem Dev.setSa_hw (i : Nat) (c : Assoc) : (d.setSa i c).hw = d.hw := rfl
@[simp] theorem Dev.setSa_evNow (i : Nat) (c : Assoc) : (d.setSa i c).evNow = d.evNow := rfl
@[simp] theorem Dev.setSa_fetches (i : Nat) (c : Assoc) : (d.setSa i c).fetches = d.fetches := rfl
@[simp] theorem Dev.setSa_sa (i : Nat) (c : Assoc) : (d.setSa i c).sa = d.sa := rfl
@[simp] theorem Dev.setSa_copy (i : Nat) (c : Assoc) : (d.setSa i c).copy = d.copy := rfl
@[simp] theorem Dev.setSa_badParity (i : Nat) (c : Assoc) : (d.setSa i c).badParity = d.badParity := rfl
@[simp] theorem Dev.setSa_edits (i : Nat) (c : Assoc) : (d.setSa i c).edits = d.edits := rfl
@[simp] theorem Dev.setSa_shadow (i : Nat) (c : Assoc) : (d.setSa i c).shadow = d.shadow := rfl
@[simp] theorem Dev.setSa_restore (i : Nat) (c : Assoc) : (d.setSa i c).restore = d.restore := rfl
@[simp] theorem Dev.setSa_fresh (i : Nat) (c : Assoc) : (d.setSa i c).fresh = d.fresh := rfl
@[simp] theorem Dev.setSa_pool (i : Nat) (c : Assoc) : (d.setSa i c).pool = d.pool := rfl
@[simp] theorem Dev.setSa_poolBusy (i : Nat) (c : Assoc) : (d.setSa i c).poolBusy = d.poolBusy := rfl
@[simp] theorem Dev.setSa_gather (i : Nat) (c : Assoc) : (d.setSa i c).gather = d.gather := rfl
@[simp] theorem Dev.setSa_lastCause (i : Nat) (c : Assoc) : (d.setSa i c).lastCause = d.lastCause := rfl

@[simp] theorem Dev.setPage_now (p : Nat) (c : PageJobs) : (d.setPage p c).now = d.now := rfl
@[simp] theorem Dev.setPage_regs (p : Nat) (c : PageJobs) : (d.setPage p c).regs = d.regs := rfl
@[simp] theorem Dev.setPage_mains (p : Nat) (c : PageJobs) : (d.setPage p c).mains = d.mains := rfl
@[simp] theorem Dev.setPage_chan (p : Nat) (c : PageJobs) : (d.setPage p c).chan = d.chan := rfl
@[simp] theorem Dev.setPage_seq (p : Nat) (c : PageJobs) : (d.setPage p c).seq = d.seq := rfl
@[simp] theorem Dev.setPage_gov (p : Nat) (c : PageJobs) : (d.setPage p c).gov = d.gov := rfl
@[simp] theorem Dev.setPage_free (p : Nat) (c : PageJobs) : (d.setPage p c).free = d.free := rfl
@[simp] theorem Dev.setPage_zeroing (p : Nat) (c : PageJobs) : (d.setPage p c).zeroing = d.zeroing := rfl
@[simp] theorem Dev.setPage_shallow (p : Nat) (c : PageJobs) : (d.setPage p c).shallow = d.shallow := rfl
@[simp] theorem Dev.setPage_deep (p : Nat) (c : PageJobs) : (d.setPage p c).deep = d.deep := rfl
@[simp] theorem Dev.setPage_counters (p : Nat) (c : PageJobs) : (d.setPage p c).counters = d.counters := rfl
@[simp] theorem Dev.setPage_captures (p : Nat) (c : PageJobs) : (d.setPage p c).captures = d.captures := rfl
@[simp] theorem Dev.setPage_timers (p : Nat) (c : PageJobs) : (d.setPage p c).timers = d.timers := rfl
@[simp] theorem Dev.setPage_root (p : Nat) (c : PageJobs) : (d.setPage p c).root = d.root := rfl
@[simp] theorem Dev.setPage_loader (p : Nat) (c : PageJobs) : (d.setPage p c).loader = d.loader := rfl
@[simp] theorem Dev.setPage_sessions (p : Nat) (c : PageJobs) : (d.setPage p c).sessions = d.sessions := rfl
@[simp] theorem Dev.setPage_ring (p : Nat) (c : PageJobs) : (d.setPage p c).ring = d.ring := rfl
@[simp] theorem Dev.setPage_cache (p : Nat) (c : PageJobs) : (d.setPage p c).cache = d.cache := rfl
@[simp] theorem Dev.setPage_assoc (p : Nat) (c : PageJobs) : (d.setPage p c).assoc = d.assoc := rfl
@[simp] theorem Dev.setPage_engine (p : Nat) (c : PageJobs) : (d.setPage p c).engine = d.engine := rfl
@[simp] theorem Dev.setPage_mgtOut (p : Nat) (c : PageJobs) : (d.setPage p c).mgtOut = d.mgtOut := rfl
@[simp] theorem Dev.setPage_ethOut (p : Nat) (c : PageJobs) : (d.setPage p c).ethOut = d.ethOut := rfl
@[simp] theorem Dev.setPage_draws (p : Nat) (c : PageJobs) : (d.setPage p c).draws = d.draws := rfl
@[simp] theorem Dev.setPage_alarmed (p : Nat) (c : PageJobs) : (d.setPage p c).alarmed = d.alarmed := rfl
@[simp] theorem Dev.setPage_inReset (p : Nat) (c : PageJobs) : (d.setPage p c).inReset = d.inReset := rfl
@[simp] theorem Dev.setPage_hw (p : Nat) (c : PageJobs) : (d.setPage p c).hw = d.hw := rfl
@[simp] theorem Dev.setPage_evNow (p : Nat) (c : PageJobs) : (d.setPage p c).evNow = d.evNow := rfl
@[simp] theorem Dev.setPage_hbm (p : Nat) (c : PageJobs) : (d.setPage p c).hbm = d.hbm := rfl
@[simp] theorem Dev.setPage_fetches (p : Nat) (c : PageJobs) : (d.setPage p c).fetches = d.fetches := rfl
@[simp] theorem Dev.setPage_sa (p : Nat) (c : PageJobs) : (d.setPage p c).sa = d.sa := rfl
@[simp] theorem Dev.setPage_copy (p : Nat) (c : PageJobs) : (d.setPage p c).copy = d.copy := rfl
@[simp] theorem Dev.setPage_badParity (p : Nat) (c : PageJobs) : (d.setPage p c).badParity = d.badParity := rfl
@[simp] theorem Dev.setPage_edits (p : Nat) (c : PageJobs) : (d.setPage p c).edits = d.edits := rfl
@[simp] theorem Dev.setPage_shadow (p : Nat) (c : PageJobs) : (d.setPage p c).shadow = d.shadow := rfl
@[simp] theorem Dev.setPage_restore (p : Nat) (c : PageJobs) : (d.setPage p c).restore = d.restore := rfl
@[simp] theorem Dev.setPage_fresh (p : Nat) (c : PageJobs) : (d.setPage p c).fresh = d.fresh := rfl
@[simp] theorem Dev.setPage_pool (p : Nat) (c : PageJobs) : (d.setPage p c).pool = d.pool := rfl
@[simp] theorem Dev.setPage_poolBusy (p : Nat) (c : PageJobs) : (d.setPage p c).poolBusy = d.poolBusy := rfl
@[simp] theorem Dev.setPage_gather (p : Nat) (c : PageJobs) : (d.setPage p c).gather = d.gather := rfl
@[simp] theorem Dev.setPage_lastCause (p : Nat) (c : PageJobs) : (d.setPage p c).lastCause = d.lastCause := rfl

@[simp] theorem Dev.inc_now (f : Field) (n : Nat) : (d.inc f n).now = d.now := rfl
@[simp] theorem Dev.inc_mains (f : Field) (n : Nat) : (d.inc f n).mains = d.mains := rfl
@[simp] theorem Dev.inc_chan (f : Field) (n : Nat) : (d.inc f n).chan = d.chan := rfl
@[simp] theorem Dev.inc_seq (f : Field) (n : Nat) : (d.inc f n).seq = d.seq := rfl
@[simp] theorem Dev.inc_gov (f : Field) (n : Nat) : (d.inc f n).gov = d.gov := rfl
@[simp] theorem Dev.inc_free (f : Field) (n : Nat) : (d.inc f n).free = d.free := rfl
@[simp] theorem Dev.inc_zeroing (f : Field) (n : Nat) : (d.inc f n).zeroing = d.zeroing := rfl
@[simp] theorem Dev.inc_shallow (f : Field) (n : Nat) : (d.inc f n).shallow = d.shallow := rfl
@[simp] theorem Dev.inc_deep (f : Field) (n : Nat) : (d.inc f n).deep = d.deep := rfl
@[simp] theorem Dev.inc_counters (f : Field) (n : Nat) : (d.inc f n).counters = d.counters := rfl
@[simp] theorem Dev.inc_captures (f : Field) (n : Nat) : (d.inc f n).captures = d.captures := rfl
@[simp] theorem Dev.inc_timers (f : Field) (n : Nat) : (d.inc f n).timers = d.timers := rfl
@[simp] theorem Dev.inc_root (f : Field) (n : Nat) : (d.inc f n).root = d.root := rfl
@[simp] theorem Dev.inc_loader (f : Field) (n : Nat) : (d.inc f n).loader = d.loader := rfl
@[simp] theorem Dev.inc_sessions (f : Field) (n : Nat) : (d.inc f n).sessions = d.sessions := rfl
@[simp] theorem Dev.inc_ring (f : Field) (n : Nat) : (d.inc f n).ring = d.ring := rfl
@[simp] theorem Dev.inc_cache (f : Field) (n : Nat) : (d.inc f n).cache = d.cache := rfl
@[simp] theorem Dev.inc_assoc (f : Field) (n : Nat) : (d.inc f n).assoc = d.assoc := rfl
@[simp] theorem Dev.inc_pages (f : Field) (n : Nat) : (d.inc f n).pages = d.pages := rfl
@[simp] theorem Dev.inc_engine (f : Field) (n : Nat) : (d.inc f n).engine = d.engine := rfl
@[simp] theorem Dev.inc_mgtOut (f : Field) (n : Nat) : (d.inc f n).mgtOut = d.mgtOut := rfl
@[simp] theorem Dev.inc_ethOut (f : Field) (n : Nat) : (d.inc f n).ethOut = d.ethOut := rfl
@[simp] theorem Dev.inc_draws (f : Field) (n : Nat) : (d.inc f n).draws = d.draws := rfl
@[simp] theorem Dev.inc_alarmed (f : Field) (n : Nat) : (d.inc f n).alarmed = d.alarmed := rfl
@[simp] theorem Dev.inc_inReset (f : Field) (n : Nat) : (d.inc f n).inReset = d.inReset := rfl
@[simp] theorem Dev.inc_evNow (f : Field) (n : Nat) : (d.inc f n).evNow = d.evNow := rfl
@[simp] theorem Dev.inc_hbm (f : Field) (n : Nat) : (d.inc f n).hbm = d.hbm := rfl
@[simp] theorem Dev.inc_fetches (f : Field) (n : Nat) : (d.inc f n).fetches = d.fetches := rfl
@[simp] theorem Dev.inc_sa (f : Field) (n : Nat) : (d.inc f n).sa = d.sa := rfl
@[simp] theorem Dev.inc_copy (f : Field) (n : Nat) : (d.inc f n).copy = d.copy := rfl
@[simp] theorem Dev.inc_badParity (f : Field) (n : Nat) : (d.inc f n).badParity = d.badParity := rfl
@[simp] theorem Dev.inc_edits (f : Field) (n : Nat) : (d.inc f n).edits = d.edits := rfl
@[simp] theorem Dev.inc_shadow (f : Field) (n : Nat) : (d.inc f n).shadow = d.shadow := rfl
@[simp] theorem Dev.inc_restore (f : Field) (n : Nat) : (d.inc f n).restore = d.restore := rfl
@[simp] theorem Dev.inc_fresh (f : Field) (n : Nat) : (d.inc f n).fresh = d.fresh := rfl
@[simp] theorem Dev.inc_pool (f : Field) (n : Nat) : (d.inc f n).pool = d.pool := rfl
@[simp] theorem Dev.inc_poolBusy (f : Field) (n : Nat) : (d.inc f n).poolBusy = d.poolBusy := rfl
@[simp] theorem Dev.inc_gather (f : Field) (n : Nat) : (d.inc f n).gather = d.gather := rfl
@[simp] theorem Dev.inc_lastCause (f : Field) (n : Nat) : (d.inc f n).lastCause = d.lastCause := rfl

@[simp] theorem Dev.raise_now (f : Field) : (d.raise f).now = d.now := rfl
@[simp] theorem Dev.raise_mains (f : Field) : (d.raise f).mains = d.mains := rfl
@[simp] theorem Dev.raise_chan (f : Field) : (d.raise f).chan = d.chan := rfl
@[simp] theorem Dev.raise_seq (f : Field) : (d.raise f).seq = d.seq := rfl
@[simp] theorem Dev.raise_gov (f : Field) : (d.raise f).gov = d.gov := rfl
@[simp] theorem Dev.raise_free (f : Field) : (d.raise f).free = d.free := rfl
@[simp] theorem Dev.raise_zeroing (f : Field) : (d.raise f).zeroing = d.zeroing := rfl
@[simp] theorem Dev.raise_shallow (f : Field) : (d.raise f).shallow = d.shallow := rfl
@[simp] theorem Dev.raise_deep (f : Field) : (d.raise f).deep = d.deep := rfl
@[simp] theorem Dev.raise_counters (f : Field) : (d.raise f).counters = d.counters := rfl
@[simp] theorem Dev.raise_captures (f : Field) : (d.raise f).captures = d.captures := rfl
@[simp] theorem Dev.raise_timers (f : Field) : (d.raise f).timers = d.timers := rfl
@[simp] theorem Dev.raise_root (f : Field) : (d.raise f).root = d.root := rfl
@[simp] theorem Dev.raise_loader (f : Field) : (d.raise f).loader = d.loader := rfl
@[simp] theorem Dev.raise_sessions (f : Field) : (d.raise f).sessions = d.sessions := rfl
@[simp] theorem Dev.raise_ring (f : Field) : (d.raise f).ring = d.ring := rfl
@[simp] theorem Dev.raise_cache (f : Field) : (d.raise f).cache = d.cache := rfl
@[simp] theorem Dev.raise_assoc (f : Field) : (d.raise f).assoc = d.assoc := rfl
@[simp] theorem Dev.raise_pages (f : Field) : (d.raise f).pages = d.pages := rfl
@[simp] theorem Dev.raise_engine (f : Field) : (d.raise f).engine = d.engine := rfl
@[simp] theorem Dev.raise_mgtOut (f : Field) : (d.raise f).mgtOut = d.mgtOut := rfl
@[simp] theorem Dev.raise_ethOut (f : Field) : (d.raise f).ethOut = d.ethOut := rfl
@[simp] theorem Dev.raise_draws (f : Field) : (d.raise f).draws = d.draws := rfl
@[simp] theorem Dev.raise_alarmed (f : Field) : (d.raise f).alarmed = d.alarmed := rfl
@[simp] theorem Dev.raise_inReset (f : Field) : (d.raise f).inReset = d.inReset := rfl
@[simp] theorem Dev.raise_evNow (f : Field) : (d.raise f).evNow = d.evNow := rfl
@[simp] theorem Dev.raise_hbm (f : Field) : (d.raise f).hbm = d.hbm := rfl
@[simp] theorem Dev.raise_fetches (f : Field) : (d.raise f).fetches = d.fetches := rfl
@[simp] theorem Dev.raise_sa (f : Field) : (d.raise f).sa = d.sa := rfl
@[simp] theorem Dev.raise_copy (f : Field) : (d.raise f).copy = d.copy := rfl
@[simp] theorem Dev.raise_badParity (f : Field) : (d.raise f).badParity = d.badParity := rfl
@[simp] theorem Dev.raise_edits (f : Field) : (d.raise f).edits = d.edits := rfl
@[simp] theorem Dev.raise_shadow (f : Field) : (d.raise f).shadow = d.shadow := rfl
@[simp] theorem Dev.raise_restore (f : Field) : (d.raise f).restore = d.restore := rfl
@[simp] theorem Dev.raise_fresh (f : Field) : (d.raise f).fresh = d.fresh := rfl
@[simp] theorem Dev.raise_pool (f : Field) : (d.raise f).pool = d.pool := rfl
@[simp] theorem Dev.raise_poolBusy (f : Field) : (d.raise f).poolBusy = d.poolBusy := rfl
@[simp] theorem Dev.raise_gather (f : Field) : (d.raise f).gather = d.gather := rfl
@[simp] theorem Dev.raise_lastCause (f : Field) : (d.raise f).lastCause = d.lastCause := rfl

/-- What a counter event can change: the counters and the events of the present cycle. -/
theorem Dev.count_eq (x : CountEvent) : d.count x = d ∨ ∃ cs ev, d.count x = { d with counters := cs, evNow := ev } := by
  unfold Dev.count; split
  · exact .inr ⟨_, _, rfl⟩
  · exact .inl rfl

@[simp] theorem Dev.event_now (g s i n : Nat) : (d.event g s i n).now = d.now := by
  rcases d.count_eq ⟨g, s, i, n, none⟩ with h | ⟨_, _, h⟩ <;> simp [Dev.event, h]
@[simp] theorem Dev.event_regs (g s i n : Nat) : (d.event g s i n).regs = d.regs := by
  rcases d.count_eq ⟨g, s, i, n, none⟩ with h | ⟨_, _, h⟩ <;> simp [Dev.event, h]
@[simp] theorem Dev.event_mains (g s i n : Nat) : (d.event g s i n).mains = d.mains := by
  rcases d.count_eq ⟨g, s, i, n, none⟩ with h | ⟨_, _, h⟩ <;> simp [Dev.event, h]
@[simp] theorem Dev.event_chan (g s i n : Nat) : (d.event g s i n).chan = d.chan := by
  rcases d.count_eq ⟨g, s, i, n, none⟩ with h | ⟨_, _, h⟩ <;> simp [Dev.event, h]
@[simp] theorem Dev.event_seq (g s i n : Nat) : (d.event g s i n).seq = d.seq := by
  rcases d.count_eq ⟨g, s, i, n, none⟩ with h | ⟨_, _, h⟩ <;> simp [Dev.event, h]
@[simp] theorem Dev.event_gov (g s i n : Nat) : (d.event g s i n).gov = d.gov := by
  rcases d.count_eq ⟨g, s, i, n, none⟩ with h | ⟨_, _, h⟩ <;> simp [Dev.event, h]
@[simp] theorem Dev.event_free (g s i n : Nat) : (d.event g s i n).free = d.free := by
  rcases d.count_eq ⟨g, s, i, n, none⟩ with h | ⟨_, _, h⟩ <;> simp [Dev.event, h]
@[simp] theorem Dev.event_zeroing (g s i n : Nat) : (d.event g s i n).zeroing = d.zeroing := by
  rcases d.count_eq ⟨g, s, i, n, none⟩ with h | ⟨_, _, h⟩ <;> simp [Dev.event, h]
@[simp] theorem Dev.event_shallow (g s i n : Nat) : (d.event g s i n).shallow = d.shallow := by
  rcases d.count_eq ⟨g, s, i, n, none⟩ with h | ⟨_, _, h⟩ <;> simp [Dev.event, h]
@[simp] theorem Dev.event_deep (g s i n : Nat) : (d.event g s i n).deep = d.deep := by
  rcases d.count_eq ⟨g, s, i, n, none⟩ with h | ⟨_, _, h⟩ <;> simp [Dev.event, h]
@[simp] theorem Dev.event_captures (g s i n : Nat) : (d.event g s i n).captures = d.captures := by
  rcases d.count_eq ⟨g, s, i, n, none⟩ with h | ⟨_, _, h⟩ <;> simp [Dev.event, h]
@[simp] theorem Dev.event_timers (g s i n : Nat) : (d.event g s i n).timers = d.timers := by
  rcases d.count_eq ⟨g, s, i, n, none⟩ with h | ⟨_, _, h⟩ <;> simp [Dev.event, h]
@[simp] theorem Dev.event_root (g s i n : Nat) : (d.event g s i n).root = d.root := by
  rcases d.count_eq ⟨g, s, i, n, none⟩ with h | ⟨_, _, h⟩ <;> simp [Dev.event, h]
@[simp] theorem Dev.event_loader (g s i n : Nat) : (d.event g s i n).loader = d.loader := by
  rcases d.count_eq ⟨g, s, i, n, none⟩ with h | ⟨_, _, h⟩ <;> simp [Dev.event, h]
@[simp] theorem Dev.event_sessions (g s i n : Nat) : (d.event g s i n).sessions = d.sessions := by
  rcases d.count_eq ⟨g, s, i, n, none⟩ with h | ⟨_, _, h⟩ <;> simp [Dev.event, h]
@[simp] theorem Dev.event_ring (g s i n : Nat) : (d.event g s i n).ring = d.ring := by
  rcases d.count_eq ⟨g, s, i, n, none⟩ with h | ⟨_, _, h⟩ <;> simp [Dev.event, h]
@[simp] theorem Dev.event_cache (g s i n : Nat) : (d.event g s i n).cache = d.cache := by
  rcases d.count_eq ⟨g, s, i, n, none⟩ with h | ⟨_, _, h⟩ <;> simp [Dev.event, h]
@[simp] theorem Dev.event_assoc (g s i n : Nat) : (d.event g s i n).assoc = d.assoc := by
  rcases d.count_eq ⟨g, s, i, n, none⟩ with h | ⟨_, _, h⟩ <;> simp [Dev.event, h]
@[simp] theorem Dev.event_pages (g s i n : Nat) : (d.event g s i n).pages = d.pages := by
  rcases d.count_eq ⟨g, s, i, n, none⟩ with h | ⟨_, _, h⟩ <;> simp [Dev.event, h]
@[simp] theorem Dev.event_engine (g s i n : Nat) : (d.event g s i n).engine = d.engine := by
  rcases d.count_eq ⟨g, s, i, n, none⟩ with h | ⟨_, _, h⟩ <;> simp [Dev.event, h]
@[simp] theorem Dev.event_mgtOut (g s i n : Nat) : (d.event g s i n).mgtOut = d.mgtOut := by
  rcases d.count_eq ⟨g, s, i, n, none⟩ with h | ⟨_, _, h⟩ <;> simp [Dev.event, h]
@[simp] theorem Dev.event_ethOut (g s i n : Nat) : (d.event g s i n).ethOut = d.ethOut := by
  rcases d.count_eq ⟨g, s, i, n, none⟩ with h | ⟨_, _, h⟩ <;> simp [Dev.event, h]
@[simp] theorem Dev.event_draws (g s i n : Nat) : (d.event g s i n).draws = d.draws := by
  rcases d.count_eq ⟨g, s, i, n, none⟩ with h | ⟨_, _, h⟩ <;> simp [Dev.event, h]
@[simp] theorem Dev.event_alarmed (g s i n : Nat) : (d.event g s i n).alarmed = d.alarmed := by
  rcases d.count_eq ⟨g, s, i, n, none⟩ with h | ⟨_, _, h⟩ <;> simp [Dev.event, h]
@[simp] theorem Dev.event_inReset (g s i n : Nat) : (d.event g s i n).inReset = d.inReset := by
  rcases d.count_eq ⟨g, s, i, n, none⟩ with h | ⟨_, _, h⟩ <;> simp [Dev.event, h]
@[simp] theorem Dev.event_hw (g s i n : Nat) : (d.event g s i n).hw = d.hw := by
  rcases d.count_eq ⟨g, s, i, n, none⟩ with h | ⟨_, _, h⟩ <;> simp [Dev.event, h]
@[simp] theorem Dev.event_hbm (g s i n : Nat) : (d.event g s i n).hbm = d.hbm := by
  rcases d.count_eq ⟨g, s, i, n, none⟩ with h | ⟨_, _, h⟩ <;> simp [Dev.event, h]
@[simp] theorem Dev.event_fetches (g s i n : Nat) : (d.event g s i n).fetches = d.fetches := by
  rcases d.count_eq ⟨g, s, i, n, none⟩ with h | ⟨_, _, h⟩ <;> simp [Dev.event, h]
@[simp] theorem Dev.event_sa (g s i n : Nat) : (d.event g s i n).sa = d.sa := by
  rcases d.count_eq ⟨g, s, i, n, none⟩ with h | ⟨_, _, h⟩ <;> simp [Dev.event, h]
@[simp] theorem Dev.event_copy (g s i n : Nat) : (d.event g s i n).copy = d.copy := by
  rcases d.count_eq ⟨g, s, i, n, none⟩ with h | ⟨_, _, h⟩ <;> simp [Dev.event, h]
@[simp] theorem Dev.event_badParity (g s i n : Nat) : (d.event g s i n).badParity = d.badParity := by
  rcases d.count_eq ⟨g, s, i, n, none⟩ with h | ⟨_, _, h⟩ <;> simp [Dev.event, h]
@[simp] theorem Dev.event_edits (g s i n : Nat) : (d.event g s i n).edits = d.edits := by
  rcases d.count_eq ⟨g, s, i, n, none⟩ with h | ⟨_, _, h⟩ <;> simp [Dev.event, h]
@[simp] theorem Dev.event_shadow (g s i n : Nat) : (d.event g s i n).shadow = d.shadow := by
  rcases d.count_eq ⟨g, s, i, n, none⟩ with h | ⟨_, _, h⟩ <;> simp [Dev.event, h]
@[simp] theorem Dev.event_restore (g s i n : Nat) : (d.event g s i n).restore = d.restore := by
  rcases d.count_eq ⟨g, s, i, n, none⟩ with h | ⟨_, _, h⟩ <;> simp [Dev.event, h]
@[simp] theorem Dev.event_fresh (g s i n : Nat) : (d.event g s i n).fresh = d.fresh := by
  rcases d.count_eq ⟨g, s, i, n, none⟩ with h | ⟨_, _, h⟩ <;> simp [Dev.event, h]
@[simp] theorem Dev.event_pool (g s i n : Nat) : (d.event g s i n).pool = d.pool := by
  rcases d.count_eq ⟨g, s, i, n, none⟩ with h | ⟨_, _, h⟩ <;> simp [Dev.event, h]
@[simp] theorem Dev.event_poolBusy (g s i n : Nat) : (d.event g s i n).poolBusy = d.poolBusy := by
  rcases d.count_eq ⟨g, s, i, n, none⟩ with h | ⟨_, _, h⟩ <;> simp [Dev.event, h]
@[simp] theorem Dev.event_gather (g s i n : Nat) : (d.event g s i n).gather = d.gather := by
  rcases d.count_eq ⟨g, s, i, n, none⟩ with h | ⟨_, _, h⟩ <;> simp [Dev.event, h]
@[simp] theorem Dev.event_lastCause (g s i n : Nat) : (d.event g s i n).lastCause = d.lastCause := by
  rcases d.count_eq ⟨g, s, i, n, none⟩ with h | ⟨_, _, h⟩ <;> simp [Dev.event, h]

@[simp] theorem Dev.setCh_word (k : Nat) (c : Chan) (a : Nat) : (d.setCh k c).word a = d.word a := rfl
@[simp] theorem Dev.setCh_rd (k : Nat) (c : Chan) (f : Field) : (d.setCh k c).rd f = d.rd f := rfl
@[simp] theorem Dev.setCh_on (k : Nat) (c : Chan) (f : Field) : (d.setCh k c).on f = d.on f := rfl
@[simp] theorem Dev.setCh_rdS (k : Nat) (c : Chan) (f : Field) : (d.setCh k c).rdS f = d.rdS f := rfl
@[simp] theorem Dev.setCh_domOn (k : Nat) (c : Chan) (n : Nat) : (d.setCh k c).domOn n = d.domOn n := rfl

@[simp] theorem Dev.modCh_word (k : Nat) (f : Chan → Chan) (a : Nat) : (d.modCh k f).word a = d.word a := rfl
@[simp] theorem Dev.modCh_rd (k : Nat) (f : Chan → Chan) (x : Field) : (d.modCh k f).rd x = d.rd x := rfl
@[simp] theorem Dev.modCh_on (k : Nat) (f : Chan → Chan) (x : Field) : (d.modCh k f).on x = d.on x := rfl
@[simp] theorem Dev.modCh_rdS (k : Nat) (f : Chan → Chan) (x : Field) : (d.modCh k f).rdS x = d.rdS x := rfl
@[simp] theorem Dev.modCh_domOn (k : Nat) (f : Chan → Chan) (n : Nat) : (d.modCh k f).domOn n = d.domOn n := rfl

@[simp] theorem Dev.setSq_word (q : Nat) (c : Seq) (a : Nat) : (d.setSq q c).word a = d.word a := rfl
@[simp] theorem Dev.setSq_rd (q : Nat) (c : Seq) (f : Field) : (d.setSq q c).rd f = d.rd f := rfl
@[simp] theorem Dev.setSq_on (q : Nat) (c : Seq) (f : Field) : (d.setSq q c).on f = d.on f := rfl
@[simp] theorem Dev.setSq_rdS (q : Nat) (c : Seq) (f : Field) : (d.setSq q c).rdS f = d.rdS f := rfl
@[simp] theorem Dev.setSq_domOn (q : Nat) (c : Seq) (n : Nat) : (d.setSq q c).domOn n = d.domOn n := rfl

@[simp] theorem Dev.modSq_word (q : Nat) (f : Seq → Seq) (a : Nat) : (d.modSq q f).word a = d.word a := rfl
@[simp] theorem Dev.modSq_rd (q : Nat) (f : Seq → Seq) (x : Field) : (d.modSq q f).rd x = d.rd x := rfl
@[simp] theorem Dev.modSq_on (q : Nat) (f : Seq → Seq) (x : Field) : (d.modSq q f).on x = d.on x := rfl
@[simp] theorem Dev.modSq_rdS (q : Nat) (f : Seq → Seq) (x : Field) : (d.modSq q f).rdS x = d.rdS x := rfl
@[simp] theorem Dev.modSq_domOn (q : Nat) (f : Seq → Seq) (n : Nat) : (d.modSq q f).domOn n = d.domOn n := rfl

@[simp] theorem Dev.setSh_word (q : Nat) (c : Shallow) (a : Nat) : (d.setSh q c).word a = d.word a := rfl
@[simp] theorem Dev.setSh_rd (q : Nat) (c : Shallow) (f : Field) : (d.setSh q c).rd f = d.rd f := rfl
@[simp] theorem Dev.setSh_on (q : Nat) (c : Shallow) (f : Field) : (d.setSh q c).on f = d.on f := rfl
@[simp] theorem Dev.setSh_rdS (q : Nat) (c : Shallow) (f : Field) : (d.setSh q c).rdS f = d.rdS f := rfl
@[simp] theorem Dev.setSh_domOn (q : Nat) (c : Shallow) (n : Nat) : (d.setSh q c).domOn n = d.domOn n := rfl

@[simp] theorem Dev.setDq_word (q : Nat) (c : Deep) (a : Nat) : (d.setDq q c).word a = d.word a := rfl
@[simp] theorem Dev.setDq_rd (q : Nat) (c : Deep) (f : Field) : (d.setDq q c).rd f = d.rd f := rfl
@[simp] theorem Dev.setDq_on (q : Nat) (c : Deep) (f : Field) : (d.setDq q c).on f = d.on f := rfl
@[simp] theorem Dev.setDq_rdS (q : Nat) (c : Deep) (f : Field) : (d.setDq q c).rdS f = d.rdS f := rfl
@[simp] theorem Dev.setDq_domOn (q : Nat) (c : Deep) (n : Nat) : (d.setDq q c).domOn n = d.domOn n := rfl

@[simp] theorem Dev.setSa_word (i : Nat) (c : Assoc) (a : Nat) : (d.setSa i c).word a = d.word a := rfl
@[simp] theorem Dev.setSa_rd (i : Nat) (c : Assoc) (f : Field) : (d.setSa i c).rd f = d.rd f := rfl
@[simp] theorem Dev.setSa_on (i : Nat) (c : Assoc) (f : Field) : (d.setSa i c).on f = d.on f := rfl
@[simp] theorem Dev.setSa_rdS (i : Nat) (c : Assoc) (f : Field) : (d.setSa i c).rdS f = d.rdS f := rfl
@[simp] theorem Dev.setSa_domOn (i : Nat) (c : Assoc) (n : Nat) : (d.setSa i c).domOn n = d.domOn n := rfl

@[simp] theorem Dev.setPage_word (p : Nat) (c : PageJobs) (a : Nat) : (d.setPage p c).word a = d.word a := rfl
@[simp] theorem Dev.setPage_rd (p : Nat) (c : PageJobs) (f : Field) : (d.setPage p c).rd f = d.rd f := rfl
@[simp] theorem Dev.setPage_on (p : Nat) (c : PageJobs) (f : Field) : (d.setPage p c).on f = d.on f := rfl
@[simp] theorem Dev.setPage_rdS (p : Nat) (c : PageJobs) (f : Field) : (d.setPage p c).rdS f = d.rdS f := rfl
@[simp] theorem Dev.setPage_domOn (p : Nat) (c : PageJobs) (n : Nat) : (d.setPage p c).domOn n = d.domOn n := rfl

@[simp] theorem Dev.setWord_ch (a : Nat) (w : Word32) (x : Nat) : (d.setWord a w).ch x = d.ch x := rfl
@[simp] theorem Dev.setWord_sq (a : Nat) (w : Word32) (x : Nat) : (d.setWord a w).sq x = d.sq x := rfl
@[simp] theorem Dev.setWord_sh (a : Nat) (w : Word32) (x : Nat) : (d.setWord a w).sh x = d.sh x := rfl
@[simp] theorem Dev.setWord_dq (a : Nat) (w : Word32) (x : Nat) : (d.setWord a w).dq x = d.dq x := rfl
@[simp] theorem Dev.setWord_sa_ (a : Nat) (w : Word32) (x : Nat) : (d.setWord a w).sa_ x = d.sa_ x := rfl
@[simp] theorem Dev.setWord_page (a : Nat) (w : Word32) (x : Nat) : (d.setWord a w).page x = d.page x := rfl
@[simp] theorem Dev.setWord_bring (a : Nat) (w : Word32) (x : Nat) : (d.setWord a w).bring x = d.bring x := rfl

@[simp] theorem Dev.wr_ch (f : Field) (v : Nat) (x : Nat) : (d.wr f v).ch x = d.ch x := rfl
@[simp] theorem Dev.wr_sq (f : Field) (v : Nat) (x : Nat) : (d.wr f v).sq x = d.sq x := rfl
@[simp] theorem Dev.wr_sh (f : Field) (v : Nat) (x : Nat) : (d.wr f v).sh x = d.sh x := rfl
@[simp] theorem Dev.wr_dq (f : Field) (v : Nat) (x : Nat) : (d.wr f v).dq x = d.dq x := rfl
@[simp] theorem Dev.wr_sa_ (f : Field) (v : Nat) (x : Nat) : (d.wr f v).sa_ x = d.sa_ x := rfl
@[simp] theorem Dev.wr_page (f : Field) (v : Nat) (x : Nat) : (d.wr f v).page x = d.page x := rfl
@[simp] theorem Dev.wr_bring (f : Field) (v : Nat) (x : Nat) : (d.wr f v).bring x = d.bring x := rfl

end Sys2Proof.Machine
end

