-- ==== Sys2Proof/Laws/Tab.lean ====
section
/-! SUPPORT. Laws of the sparse tables and of the register words over them: what is read after a write, and that every
operation keeps the canonical form. -/

namespace Sys2Proof.Machine

open Sys2Proof

variable {α : Type}

@[simp] theorem Tab.get_nil (dflt : α) (k : Nat) : Tab.get dflt ([] : Tab α) k = dflt := rfl

theorem Tab.get_put_ne (dflt : α) (l : Tab α) (k j : Nat) (v : α) (h : j ≠ k) :
    Tab.get dflt (Tab.put l k v) j = Tab.get dflt l j := by
  induction l with
  | nil => simp [Tab.put, Tab.get, Ne.symm h]
  | cons e l ih =>
    obtain ⟨i, w⟩ := e
    unfold Tab.put
    split
    · next hi => subst hi; simp [Tab.get, Ne.symm h]
    · split
      · simp [Tab.get, Ne.symm h]
      · simp only [Tab.get, ih]

/-- A table read after a write at the same index gives the value written. -/
theorem Tab.get_put_self (dflt : α) (l : Tab α) (k : Nat) (v : α) : Tab.get dflt (Tab.put l k v) k = v := by
  induction l with
  | nil => simp [Tab.put, Tab.get]
  | cons e l ih =>
    obtain ⟨i, w⟩ := e
    unfold Tab.put
    split
    · simp [Tab.get]
    · next hi => split <;> simp [Tab.get, hi, ih]

/-- Indices above `k` only. -/
def Tab.above (k : Nat) (l : Tab α) : Prop := ∀ e ∈ l, k < e.1

theorem Tab.sorted_cons (i : Nat) (v : α) (l : Tab α) :
    Tab.sorted ((i, v) :: l) = true ↔ Tab.above i l ∧ Tab.sorted l = true := by
  induction l generalizing i v with
  | nil => simp [Tab.sorted, Tab.above]
  | cons e l ih =>
    obtain ⟨j, w⟩ := e
    simp only [Tab.sorted, Bool.and_eq_true, decide_eq_true_eq, Tab.above, List.mem_cons, forall_eq_or_imp]
    constructor
    · rintro ⟨h, hs⟩
      have := (ih j w).1 hs
      exact ⟨⟨h, fun e he => lt_trans h (this.1 e he)⟩, hs⟩
    · rintro ⟨⟨h, _⟩, hs⟩
      exact ⟨h, hs⟩

theorem Tab.get_above (dflt : α) (k j : Nat) (l : Tab α) (h : Tab.above k l) (hj : j ≤ k) : Tab.get dflt l j = dflt := by
  induction l with
  | nil => rfl
  | cons e l ih =>
    obtain ⟨i, w⟩ := e
    have hi : k < i := h (i, w) (by simp)
    rw [Tab.get, if_neg (by omega)]
    exact ih (fun e he => h e (by simp [he]))

theorem Tab.mem_put {l : Tab α} {k : Nat} {v : α} {e : Nat × α} (h : e ∈ Tab.put l k v) : e = (k, v) ∨ e ∈ l := by
  induction l with
  | nil => simpa [Tab.put] using h
  | cons x l ih =>
    obtain ⟨i, w⟩ := x
    unfold Tab.put at h
    split at h
    · next hi => subst hi; simp at h; rcases h with h | h <;> simp [h]
    · split at h
      · simpa using h
      · simp at h
        rcases h with h | h
        · simp [h]
        · rcases ih h with h | h <;> simp [h]

theorem Tab.mem_del {l : Tab α} {k : Nat} {e : Nat × α} (h : e ∈ Tab.del l k) : e ∈ l := by
  induction l with
  | nil => simp [Tab.del] at h
  | cons x l ih =>
    obtain ⟨i, w⟩ := x
    unfold Tab.del at h
    split at h
    · simp [h]
    · split at h
      · exact h
      · simp at h
        rcases h with h | h
        · simp [h]
        · simp [ih h]

theorem Tab.sorted_put (l : Tab α) (k : Nat) (v : α) (h : Tab.sorted l = true) : Tab.sorted (Tab.put l k v) = true := by
  induction l with
  | nil => rfl
  | cons x l ih =>
    obtain ⟨i, w⟩ := x
    obtain ⟨ha, hs⟩ := (Tab.sorted_cons i w l).1 h
    unfold Tab.put
    split
    · next hi => subst hi; exact (Tab.sorted_cons ..).2 ⟨ha, hs⟩
    · next hi =>
      split
      · next hk =>
        refine (Tab.sorted_cons ..).2 ⟨?_, h⟩
        intro e he
        rcases List.mem_cons.1 he with he | he
        · simpa [he] using hk
        · exact lt_trans hk (ha e he)
      · next hk =>
        refine (Tab.sorted_cons ..).2 ⟨?_, ih hs⟩
        intro e he
        rcases Tab.mem_put he with he | he
        · simp [he]; omega
        · exact ha e he

theorem Tab.sorted_del (l : Tab α) (k : Nat) (h : Tab.sorted l = true) : Tab.sorted (Tab.del l k) = true := by
  induction l with
  | nil => rfl
  | cons x l ih =>
    obtain ⟨i, w⟩ := x
    obtain ⟨ha, hs⟩ := (Tab.sorted_cons i w l).1 h
    unfold Tab.del
    split
    · exact hs
    · split
      · exact h
      · exact (Tab.sorted_cons ..).2 ⟨fun e he => ha e (Tab.mem_del he), ih hs⟩

/-- A write keeps the canonical order. -/
theorem Tab.sorted_set [DecidableEq α] (dflt : α) (l : Tab α) (k : Nat) (v : α) (h : Tab.sorted l = true) :
    Tab.sorted (Tab.set dflt l k v) = true := by
  unfold Tab.set
  split
  · exact Tab.sorted_del l k h
  · exact Tab.sorted_put l k v h

theorem Tab.get_del_self (dflt : α) (l : Tab α) (k : Nat) (h : Tab.sorted l = true) :
    Tab.get dflt (Tab.del l k) k = dflt := by
  induction l with
  | nil => rfl
  | cons x l ih =>
    obtain ⟨i, w⟩ := x
    obtain ⟨ha, hs⟩ := (Tab.sorted_cons i w l).1 h
    unfold Tab.del
    split
    · next hi => subst hi; exact Tab.get_above dflt i i l ha le_rfl
    · next hi =>
      split
      · next hk =>
        rw [Tab.get, if_neg hi]
        exact Tab.get_above dflt i k l ha (by omega)
      · rw [Tab.get, if_neg hi]; exact ih hs

theorem Tab.get_del_ne (dflt : α) (l : Tab α) (k j : Nat) (h : j ≠ k) :
    Tab.get dflt (Tab.del l k) j = Tab.get dflt l j := by
  induction l with
  | nil => rfl
  | cons x l ih =>
    obtain ⟨i, w⟩ := x
    unfold Tab.del
    split
    · next hi => subst hi; rw [Tab.get, if_neg (Ne.symm h)]
    · split
      · rfl
      · simp only [Tab.get, ih]

/-- A write leaves every other index alone. -/
theorem Tab.get_set_ne [DecidableEq α] (dflt e : α) (l : Tab α) (k j : Nat) (v : α) (h : j ≠ k) :
    Tab.get e (Tab.set dflt l k v) j = Tab.get e l j := by
  unfold Tab.set
  split
  · exact Tab.get_del_ne e l k j h
  · exact Tab.get_put_ne e l k j v h

/-- A read after a write to the same index gives the value written. -/
theorem Tab.get_set_self [DecidableEq α] (dflt : α) (l : Tab α) (k : Nat) (v : α) (h : Tab.sorted l = true) :
    Tab.get dflt (Tab.set dflt l k v) k = v := by
  unfold Tab.set
  split
  · next hv => rw [Tab.get_del_self dflt l k h, hv]
  · exact Tab.get_put_self dflt l k v

theorem Tab.sorted_filter (p : Nat × α → Bool) (l : Tab α) (h : Tab.sorted l = true) :
    Tab.sorted (l.filter p) = true := by
  induction l with
  | nil => rfl
  | cons x l ih =>
    obtain ⟨i, w⟩ := x
    obtain ⟨ha, hs⟩ := (Tab.sorted_cons i w l).1 h
    rw [List.filter_cons]
    split
    · exact (Tab.sorted_cons ..).2 ⟨fun e he => ha e (List.mem_of_mem_filter he), ih hs⟩
    · exact ih hs

/-- A register write keeps the canonical form of the register space. -/
theorem Dev.setWord_wf (d : Dev) (a : Nat) (w : Word32) (h : Regs.wf d.regs = true) :
    Regs.wf (d.setWord a w).regs = true := by
  simp only [Regs.wf, Bool.and_eq_true, List.all_eq_true, bne_iff_ne] at h ⊢
  refine ⟨Tab.sorted_set _ _ _ _ h.1, ?_⟩
  intro e he
  simp only [Dev.setWord, Tab.set] at he
  split at he
  · exact h.2 e (Tab.mem_del he)
  · next hw =>
    rcases Tab.mem_put he with he | he
    · simpa [he] using hw
    · exact h.2 e he

/-- The word read after a write to its address. -/
theorem Dev.word_setWord (d : Dev) (a : Nat) (w : Word32) (h : Regs.wf d.regs = true) : (d.setWord a w).word a = w :=
  Tab.get_set_self _ _ _ _ (by simp only [Regs.wf, Bool.and_eq_true] at h; exact h.1)

/-- A write leaves the word at every other address alone. -/
theorem Dev.word_setWord_ne (d : Dev) (a b : Nat) (w : Word32) (h : b ≠ a) : (d.setWord a w).word b = d.word b :=
  Tab.get_set_ne _ _ _ _ _ _ h

/-- A field write leaves the word at every other address alone. -/
theorem Dev.word_wr_ne (d : Dev) (f : Field) (v b : Nat) (h : b ≠ f.addr) : (d.wr f v).word b = d.word b :=
  Dev.word_setWord_ne d f.addr b _ h

/-- A field write leaves every field of another register alone. -/
theorem Dev.rd_wr_ne (d : Dev) (f g : Field) (v : Nat) (h : g.addr ≠ f.addr) : (d.wr f v).rd g = d.rd g := by
  unfold Dev.rd; rw [Dev.word_wr_ne d f v g.addr h]

theorem Dev.on_wr_ne (d : Dev) (f g : Field) (v : Nat) (h : g.addr ≠ f.addr) : (d.wr f v).on g = d.on g := by
  unfold Dev.on; rw [Dev.rd_wr_ne d f g v h]

end Sys2Proof.Machine
end

