-- ==== Sys2Proof/Laws/Run.lean ====
section
/-! SUPPORT. What running a command does around its effect: time, RESET_N, REFCLK_SYS, and what settles at its end. -/

namespace Sys2Proof.Machine

open Sys2Proof

/-! ### Time -/

@[simp] theorem Dev.advance_inReset (d : Dev) (t : Nat) : (d.advance t).inReset = d.inReset := by
  unfold Dev.advance; split <;> rfl

@[simp] theorem Dev.advance_regs (d : Dev) (t : Nat) : (d.advance t).regs = d.regs := by
  unfold Dev.advance; split <;> rfl

@[simp] theorem Dev.advance_now (d : Dev) (t : Nat) : (d.advance t).now = max d.now t := by
  unfold Dev.advance; split <;> simp <;> omega

@[simp] theorem Mains.turn_refclk (m : Mains) (r : CycleRec) (t : Nat) : (m.turn r t).refclk = m.refclk := by
  simp only [Mains.turn]; split <;> rfl

@[simp] theorem Mains.moveTo_refclk (m : Mains) (t : Nat) : (m.moveTo t).refclk = m.refclk := by
  unfold Mains.moveTo; split
  · split <;> simp
  · simp

@[simp] theorem Dev.advance_refclk (d : Dev) (t : Nat) : (d.advance t).mains.refclk = d.mains.refclk := by
  unfold Dev.advance; split
  · rfl
  · simp only; split <;> simp

@[simp] theorem Dev.advance_word (d : Dev) (t a : Nat) : (d.advance t).word a = d.word a := by
  simp [Dev.word]

@[simp] theorem Dev.advance_rd (d : Dev) (t : Nat) (f : Field) : (d.advance t).rd f = d.rd f := by
  simp [Dev.rd]

@[simp] theorem Dev.advance_on (d : Dev) (t : Nat) (f : Field) : (d.advance t).on f = d.on f := by
  simp [Dev.on]

@[simp] theorem Dev.advance_domOn (d : Dev) (t n : Nat) : (d.advance t).domOn n = d.domOn n := by
  simp [Dev.domOn]

/-! ### Running -/

/-- A command of a live block has its effect. -/
theorem State.run_live (s : State) (t : Nat) (f : Dev → Dev) (h : s.live) : s.run t f = .next (s.after t f) := by
  simp [State.run, State.after, State.at_, h.1]

/-- The same for a command of a clock that REFCLK_SYS drives. -/
theorem State.runClk_live (s : State) (t : Nat) (f : Dev → Dev) (h : s.live) : s.runClk t f = .next (s.after t f) := by
  simp [State.runClk, State.run, State.after, State.at_, h.1, h.2]

/-- A command leaves what its effect makes of the device. -/
theorem State.run_awake {s : State} {t : Nat} {d : Dev} (f : Dev → Dev) (h : s.awake t d) :
    s.run t f = .next (s.to (f d)) := by
  obtain ⟨hl, rfl⟩ := h
  simp [State.run, State.to, State.at_, hl]

theorem State.run_ready {s : State} {t : Nat} {d : Dev} (f : Dev → Dev) (h : s.ready t d) :
    s.run t f = .next (s.to (f d)) := State.run_awake f ⟨h.1.1, h.2⟩

theorem State.runClk_ready {s : State} {t : Nat} {d : Dev} (f : Dev → Dev) (h : s.ready t d) :
    s.runClk t f = .next (s.to (f d)) := by
  obtain ⟨hl, rfl⟩ := h
  exact s.runClk_live t f hl

/-- With RESET_N low a command leaves nothing but the passing of time. -/
theorem State.run_inReset (s : State) (t : Nat) (f : Dev → Dev) (h : s.dev.inReset = true) :
    s.run t f = .next (s.after t id) := by
  simp [State.run, State.after, State.at_, h]

/-- Two effects that agree on the device at the instant give one state. -/
theorem State.after_congr (s : State) (t : Nat) (f g : Dev → Dev) (h : f (s.at_ t) = g (s.at_ t)) :
    s.after t f = s.after t g := by
  simp [State.after, h]

@[simp] theorem State.after_pending (s : State) (t : Nat) (f : Dev → Dev) : (s.after t f).pending = s.pending := rfl

/-! ### Settling -/

theorem Tab.get_filter {α : Type} (dflt : α) (p : Nat × α → Bool) (l : Tab α) (k : Nat)
    (h : ∀ v, p (k, v) = true) : Tab.get dflt (l.filter p) k = Tab.get dflt l k := by
  induction l with
  | nil => rfl
  | cons e l ih =>
    obtain ⟨i, w⟩ := e
    rw [List.filter_cons]
    by_cases hi : i = k
    · subst hi; simp [h, Tab.get]
    · split <;> simp [Tab.get, hi, ih]

/-- Settling keeps every register word of a domain that is on. -/
theorem Dev.settle_word (d : Dev) (a : Nat) (h : regDomain a = 79 ∨ d.domOn (regDomain a) = true) :
    d.settle.word a = d.word a := by
  simp only [Dev.word, Dev.settle]
  exact Tab.get_filter _ _ _ _ (fun v => by simpa using h)

end Sys2Proof.Machine
end

