-- ==== Sys2Proof/Laws/Fetch.lean ====
section
/-! SUPPORT. What the fetch of a step and its time come to, once for every class of step (R198, R200, R216). -/

namespace Sys2Proof.Machine

open Sys2Proof

/-- With no commit in the present cycle a step sees the entries that stand (R234). -/
theorem Dev.asBefore_none {d : Dev} (f : Dev → Dev) (h : d.justCommitted = []) : d.asBefore f = f d := by
  simp [Dev.asBefore, h]

/-- A step of class `c` whose condition holds is executed. -/
theorem Dev.fetch_ok {d e : Dev} {q : Nat} {st : Step} (c : StepClass) (f : Step → Dev → Dev)
    (h : d.atStep e q st) (hc : st.op.cls = c) (hk : e.cond q st.cond.toNat = true) : d.fetch q c f = f st e := by
  obtain ⟨h1, h2, h3, h5, h4⟩ := h
  unfold Dev.fetch
  rw [if_neg (by simp [h1, sqRUN]), h2, h3]
  simp only [hc, ne_eq, not_true_eq_false, if_false]
  rw [if_pos (Or.inr (by rw [← h4]; exact hk)), ← h4, Dev.asBefore_none _ h5]

/-- A BRANCH is executed whatever its condition. -/
theorem Dev.fetch_branch {d e : Dev} {q : Nat} {st : Step} (f : Step → Dev → Dev)
    (h : d.atStep e q st) (hc : st.op.cls = .branch) : d.fetch q .branch f = f st e := by
  obtain ⟨h1, h2, h3, h5, h4⟩ := h
  unfold Dev.fetch
  rw [if_neg (by simp [h1, sqRUN]), h2, h3]
  simp [hc, ← h4, Dev.asBefore_none _ h5]

/-- A step of another class than BRANCH whose condition is false is skipped (R200). -/
theorem Dev.fetch_skip {d e : Dev} {q : Nat} {st : Step} (c : StepClass) (f : Step → Dev → Dev)
    (h : d.atStep e q st) (hc : st.op.cls = c) (hb : c ≠ .branch) (hk : e.cond q st.cond.toNat = false) :
    d.fetch q c f = e.goTo q (e.sqPc q + 1) := by
  obtain ⟨h1, h2, h3, h5, h4⟩ := h
  unfold Dev.fetch
  rw [if_neg (by simp [h1, sqRUN]), h2, h3]
  simp only [hc, ne_eq, not_true_eq_false, if_false]
  rw [if_neg, ← h4]
  rw [← h4, hk]
  simp [hb]

/-- A step whose time has not passed has its effect. -/
theorem Dev.timed_ok {d e : Dev} {q x : Nat} {st : Step} (sub : Nat) (f : Nat → Dev → Dev) (h : d.takesStep e q st x) :
    e.timed q st sub 0 f = f x e := by
  obtain ⟨_, h5, h6⟩ := h
  unfold Dev.timed
  rw [h5]
  simp only [Nat.add_zero]
  rw [if_neg (by omega)]

end Sys2Proof.Machine
end

