-- ==== Sys2Proof/Laws/PerInstr.lean ====
section
/-! SUPPORT. Statements about every command as syntax, one lemma per constructor. -/

namespace Sys2Proof.Laws.Stamp

open Sys2Proof

/-- The instant of a well-formed command fits nanosecond time (R13). -/
def Statement (i : Instr) : Prop := i.wf = true → i.stamp < 2 ^ 64

/-- What every lemma below uses: the first conjunct of well-formedness. -/
theorem stamp_of_wf (i : Instr) (h : i.wf = true) : i.stamp < 2 ^ 64 := by
  unfold Instr.wf at h
  exact of_decide_eq_true ((Bool.and_eq_true _ _).mp h).1

theorem refclkSysLoss : ∀ a0, Statement (.refclkSysLoss a0) :=
  fun _ h => stamp_of_wf _ h
theorem sampleSync : ∀ a0, Statement (.sampleSync a0) :=
  fun _ h => stamp_of_wf _ h
theorem sync : ∀ a0, Statement (.sync a0) :=
  fun _ h => stamp_of_wf _ h
theorem syncReset : ∀ a0, Statement (.syncReset a0) :=
  fun _ h => stamp_of_wf _ h
theorem transmitEntry : ∀ a0 a1, Statement (.transmitEntry a0 a1) :=
  fun _ _ h => stamp_of_wf _ h
theorem transmissionEnd : ∀ a0 a1, Statement (.transmissionEnd a0 a1) :=
  fun _ _ h => stamp_of_wf _ h
theorem driverOvercurrent : ∀ a0 a1, Statement (.driverOvercurrent a0 a1) :=
  fun _ _ h => stamp_of_wf _ h
theorem vhvFeLow : ∀ a0 a1, Statement (.vhvFeLow a0 a1) :=
  fun _ _ h => stamp_of_wf _ h
theorem vhvFeRestored : ∀ a0 a1, Statement (.vhvFeRestored a0 a1) :=
  fun _ _ h => stamp_of_wf _ h
theorem zeroCrossing : ∀ a0 a1 a2, Statement (.zeroCrossing a0 a1 a2) :=
  fun _ _ _ h => stamp_of_wf _ h
theorem cycleRecordFix : ∀ a0, Statement (.cycleRecordFix a0) :=
  fun _ h => stamp_of_wf _ h
theorem missedCycles : ∀ a0, Statement (.missedCycles a0) :=
  fun _ h => stamp_of_wf _ h
theorem freerun : ∀ a0, Statement (.freerun a0) :=
  fun _ h => stamp_of_wf _ h
theorem mtCfgWrite : ∀ a0 a1 a2, Statement (.mtCfgWrite a0 a1 a2) :=
  fun _ _ _ h => stamp_of_wf _ h
theorem mtNowCycRead : ∀ a0, Statement (.mtNowCycRead a0) :=
  fun _ h => stamp_of_wf _ h
theorem deadlineMiss : ∀ a0 a1, Statement (.deadlineMiss a0 a1) :=
  fun _ _ h => stamp_of_wf _ h
theorem responseWindowCommit : ∀ a0 a1, Statement (.responseWindowCommit a0 a1) :=
  fun _ _ h => stamp_of_wf _ h
theorem commitA : ∀ a0 a1, Statement (.commitA a0 a1) :=
  fun _ _ h => stamp_of_wf _ h
theorem commitB : ∀ a0 a1, Statement (.commitB a0 a1) :=
  fun _ _ h => stamp_of_wf _ h
theorem paletteSwap : ∀ a0 a1, Statement (.paletteSwap a0 a1) :=
  fun _ _ h => stamp_of_wf _ h
theorem fadeEnd : ∀ a0 a1, Statement (.fadeEnd a0 a1) :=
  fun _ _ h => stamp_of_wf _ h
theorem windowOpen : ∀ a0 a1, Statement (.windowOpen a0 a1) :=
  fun _ _ h => stamp_of_wf _ h
theorem preambleDetection : ∀ a0 a1 a2, Statement (.preambleDetection a0 a1 a2) :=
  fun _ _ _ h => stamp_of_wf _ h
theorem trimApply : ∀ a0 a1, Statement (.trimApply a0 a1) :=
  fun _ _ h => stamp_of_wf _ h
theorem signReversal : ∀ a0 a1 a2, Statement (.signReversal a0 a1 a2) :=
  fun _ _ _ h => stamp_of_wf _ h
theorem syncReversalTimeout : ∀ a0 a1 a2, Statement (.syncReversalTimeout a0 a1 a2) :=
  fun _ _ _ h => stamp_of_wf _ h
theorem syncWordDecision : ∀ a0 a1 a2, Statement (.syncWordDecision a0 a1 a2) :=
  fun _ _ _ h => stamp_of_wf _ h
theorem headerDecode : ∀ a0 a1 a2, Statement (.headerDecode a0 a1 a2) :=
  fun _ _ _ h => stamp_of_wf _ h
theorem sentinelCandidate : ∀ a0 a1 a2, Statement (.sentinelCandidate a0 a1 a2) :=
  fun _ _ _ h => stamp_of_wf _ h
theorem payloadSymbol : ∀ a0 a1 a2, Statement (.payloadSymbol a0 a1 a2) :=
  fun _ _ _ h => stamp_of_wf _ h
theorem interleaverBlockComplete : ∀ a0 a1, Statement (.interleaverBlockComplete a0 a1) :=
  fun _ _ h => stamp_of_wf _ h
theorem codewordDecode : ∀ a0 a1, Statement (.codewordDecode a0 a1) :=
  fun _ _ h => stamp_of_wf _ h
theorem tagVerdict : ∀ a0 a1 a2, Statement (.tagVerdict a0 a1 a2) :=
  fun _ _ _ h => stamp_of_wf _ h
theorem noiseFloorMeasurement : ∀ a0 a1 a2, Statement (.noiseFloorMeasurement a0 a1 a2) :=
  fun _ _ _ h => stamp_of_wf _ h
theorem beacon : ∀ a0 a1, Statement (.beacon a0 a1) :=
  fun _ _ h => stamp_of_wf _ h
theorem poll : ∀ a0 a1, Statement (.poll a0 a1) :=
  fun _ _ h => stamp_of_wf _ h
theorem resp : ∀ a0 a1, Statement (.resp a0 a1) :=
  fun _ _ h => stamp_of_wf _ h
theorem relay : ∀ a0 a1, Statement (.relay a0 a1) :=
  fun _ _ h => stamp_of_wf _ h
theorem joinreq : ∀ a0 a1, Statement (.joinreq a0 a1) :=
  fun _ _ h => stamp_of_wf _ h
theorem joinacc : ∀ a0 a1, Statement (.joinacc a0 a1) :=
  fun _ _ h => stamp_of_wf _ h
theorem nodeLost : ∀ a0 a1, Statement (.nodeLost a0 a1) :=
  fun _ _ h => stamp_of_wf _ h
theorem joinAbandon : ∀ a0 a1, Statement (.joinAbandon a0 a1) :=
  fun _ _ h => stamp_of_wf _ h
theorem outstationLoss : ∀ a0 a1, Statement (.outstationLoss a0 a1) :=
  fun _ _ h => stamp_of_wf _ h
theorem halt : ∀ a0 a1, Statement (.halt a0 a1) :=
  fun _ _ h => stamp_of_wf _ h
theorem waitTime : ∀ a0 a1, Statement (.waitTime a0 a1) :=
  fun _ _ h => stamp_of_wf _ h
theorem waitTimeComplete : ∀ a0 a1, Statement (.waitTimeComplete a0 a1) :=
  fun _ _ h => stamp_of_wf _ h
theorem waitRxdone : ∀ a0 a1, Statement (.waitRxdone a0 a1) :=
  fun _ _ h => stamp_of_wf _ h
theorem waitTxdone : ∀ a0 a1, Statement (.waitTxdone a0 a1) :=
  fun _ _ h => stamp_of_wf _ h
theorem waitGrant : ∀ a0 a1, Statement (.waitGrant a0 a1) :=
  fun _ _ h => stamp_of_wf _ h
theorem waitKey : ∀ a0 a1, Statement (.waitKey a0 a1) :=
  fun _ _ h => stamp_of_wf _ h
theorem waitFlagSet : ∀ a0 a1, Statement (.waitFlagSet a0 a1) :=
  fun _ _ h => stamp_of_wf _ h
theorem waitFlagClear : ∀ a0 a1, Statement (.waitFlagClear a0 a1) :=
  fun _ _ h => stamp_of_wf _ h
theorem armNode : ∀ a0 a1, Statement (.armNode a0 a1) :=
  fun _ _ h => stamp_of_wf _ h
theorem armSwap : ∀ a0 a1, Statement (.armSwap a0 a1) :=
  fun _ _ h => stamp_of_wf _ h
theorem armPath : ∀ a0 a1, Statement (.armPath a0 a1) :=
  fun _ _ h => stamp_of_wf _ h
theorem armPathCommit : ∀ a0 a1, Statement (.armPathCommit a0 a1) :=
  fun _ _ h => stamp_of_wf _ h
theorem tx : ∀ a0 a1, Statement (.tx a0 a1) :=
  fun _ _ h => stamp_of_wf _ h
theorem rx : ∀ a0 a1, Statement (.rx a0 a1) :=
  fun _ _ h => stamp_of_wf _ h
theorem branch : ∀ a0 a1, Statement (.branch a0 a1) :=
  fun _ _ h => stamp_of_wf _ h
theorem loop : ∀ a0 a1, Statement (.loop a0 a1) :=
  fun _ _ h => stamp_of_wf _ h
theorem call : ∀ a0 a1, Statement (.call a0 a1) :=
  fun _ _ h => stamp_of_wf _ h
theorem ret : ∀ a0 a1, Statement (.ret a0 a1) :=
  fun _ _ h => stamp_of_wf _ h
theorem budgetTxslot : ∀ a0 a1, Statement (.budgetTxslot a0 a1) :=
  fun _ _ h => stamp_of_wf _ h
theorem budgetIter : ∀ a0 a1, Statement (.budgetIter a0 a1) :=
  fun _ _ h => stamp_of_wf _ h
theorem budgetBringup : ∀ a0 a1, Statement (.budgetBringup a0 a1) :=
  fun _ _ h => stamp_of_wf _ h
theorem keyfetch : ∀ a0 a1, Statement (.keyfetch a0 a1) :=
  fun _ _ h => stamp_of_wf _ h
theorem noteNotice : ∀ a0 a1, Statement (.noteNotice a0 a1) :=
  fun _ _ h => stamp_of_wf _ h
theorem noteEvent : ∀ a0 a1, Statement (.noteEvent a0 a1) :=
  fun _ _ h => stamp_of_wf _ h
theorem noteFlagSet : ∀ a0 a1, Statement (.noteFlagSet a0 a1) :=
  fun _ _ h => stamp_of_wf _ h
theorem noteFlagClear : ∀ a0 a1, Statement (.noteFlagClear a0 a1) :=
  fun _ _ h => stamp_of_wf _ h
theorem sequencerFault : ∀ a0 a1 a2, Statement (.sequencerFault a0 a1 a2) :=
  fun _ _ _ h => stamp_of_wf _ h
theorem seqWatchdog : ∀ a0 a1, Statement (.seqWatchdog a0 a1) :=
  fun _ _ h => stamp_of_wf _ h
theorem start : ∀ a0 a1, Statement (.start a0 a1) :=
  fun _ _ h => stamp_of_wf _ h
theorem startCheckComplete : ∀ a0 a1, Statement (.startCheckComplete a0 a1) :=
  fun _ _ h => stamp_of_wf _ h
theorem seqRunEntry : ∀ a0 a1, Statement (.seqRunEntry a0 a1) :=
  fun _ _ h => stamp_of_wf _ h
theorem stop : ∀ a0 a1, Statement (.stop a0 a1) :=
  fun _ _ h => stamp_of_wf _ h
theorem clear : ∀ a0 a1, Statement (.clear a0 a1) :=
  fun _ _ h => stamp_of_wf _ h
theorem pfset : ∀ a0 a1 a2, Statement (.pfset a0 a1 a2) :=
  fun _ _ _ h => stamp_of_wf _ h
theorem pfclr : ∀ a0 a1 a2, Statement (.pfclr a0 a1 a2) :=
  fun _ _ _ h => stamp_of_wf _ h
theorem sqLiveWrite : ∀ a0 a1 a2, Statement (.sqLiveWrite a0 a1 a2) :=
  fun _ _ _ h => stamp_of_wf _ h
theorem seqTableWrite : ∀ a0 a1 a2 a3 a4, Statement (.seqTableWrite a0 a1 a2 a3 a4) :=
  fun _ _ _ _ _ h => stamp_of_wf _ h
theorem seqAutoRestart : ∀ a0 a1, Statement (.seqAutoRestart a0 a1) :=
  fun _ _ h => stamp_of_wf _ h
theorem txslotDecision : ∀ a0 a1, Statement (.txslotDecision a0 a1) :=
  fun _ _ h => stamp_of_wf _ h
theorem iterDecision : ∀ a0 a1, Statement (.iterDecision a0 a1) :=
  fun _ _ h => stamp_of_wf _ h
theorem bringupDecision : ∀ a0 a1, Statement (.bringupDecision a0 a1) :=
  fun _ _ h => stamp_of_wf _ h
theorem governorTick : ∀ a0 a1, Statement (.governorTick a0 a1) :=
  fun _ _ h => stamp_of_wf _ h
theorem temperatureSample : ∀ a0 a1 a2, Statement (.temperatureSample a0 a1 a2) :=
  fun _ _ _ h => stamp_of_wf _ h
theorem thermalTrip : ∀ a0, Statement (.thermalTrip a0) :=
  fun _ h => stamp_of_wf _ h
theorem gvPdcmdOn : ∀ a0 a1 a2, Statement (.gvPdcmdOn a0 a1 a2) :=
  fun _ _ _ h => stamp_of_wf _ h
theorem gvPdcmdOff : ∀ a0 a1 a2, Statement (.gvPdcmdOff a0 a1 a2) :=
  fun _ _ _ h => stamp_of_wf _ h
theorem domainSwitchOnDone : ∀ a0, Statement (.domainSwitchOnDone a0) :=
  fun _ h => stamp_of_wf _ h
theorem gvChcmdOn : ∀ a0 a1 a2 a3, Statement (.gvChcmdOn a0 a1 a2 a3) :=
  fun _ _ _ _ h => stamp_of_wf _ h
theorem gvChcmdOff : ∀ a0 a1 a2, Statement (.gvChcmdOff a0 a1 a2) :=
  fun _ _ _ h => stamp_of_wf _ h
theorem gvChcmdHold : ∀ a0 a1 a2 a3, Statement (.gvChcmdHold a0 a1 a2 a3) :=
  fun _ _ _ _ h => stamp_of_wf _ h
theorem restoreDone : ∀ a0 a1, Statement (.restoreDone a0 a1) :=
  fun _ _ h => stamp_of_wf _ h
theorem calibrationDone : ∀ a0 a1 a2, Statement (.calibrationDone a0 a1 a2) :=
  fun _ _ _ h => stamp_of_wf _ h
theorem drainComplete : ∀ a0 a1, Statement (.drainComplete a0 a1) :=
  fun _ _ h => stamp_of_wf _ h
theorem drainTimeout : ∀ a0 a1, Statement (.drainTimeout a0 a1) :=
  fun _ _ h => stamp_of_wf _ h
theorem captureDone : ∀ a0 a1, Statement (.captureDone a0 a1) :=
  fun _ _ h => stamp_of_wf _ h
theorem queuePush : ∀ a0 a1 a2 a3 a4, Statement (.queuePush a0 a1 a2 a3 a4) :=
  fun _ _ _ _ _ h => stamp_of_wf _ h
theorem queuePop : ∀ a0 a1 a2 a3 a4, Statement (.queuePop a0 a1 a2 a3 a4) :=
  fun _ _ _ _ _ h => stamp_of_wf _ h
theorem prune : ∀ a0 a1, Statement (.prune a0 a1) :=
  fun _ _ h => stamp_of_wf _ h
theorem flush : ∀ a0 a1, Statement (.flush a0 a1) :=
  fun _ _ h => stamp_of_wf _ h
theorem abort : ∀ a0 a1, Statement (.abort a0 a1) :=
  fun _ _ h => stamp_of_wf _ h
theorem zeroingDone : ∀ a0, Statement (.zeroingDone a0) :=
  fun _ h => stamp_of_wf _ h
theorem sectorEncryptDone : ∀ a0 a1, Statement (.sectorEncryptDone a0 a1) :=
  fun _ _ h => stamp_of_wf _ h
theorem sectorDecryptDone : ∀ a0 a1, Statement (.sectorDecryptDone a0 a1) :=
  fun _ _ h => stamp_of_wf _ h
theorem queueEnable : ∀ a0 a1, Statement (.queueEnable a0 a1) :=
  fun _ _ h => stamp_of_wf _ h
theorem queueDisable : ∀ a0 a1, Statement (.queueDisable a0 a1) :=
  fun _ _ h => stamp_of_wf _ h
theorem half1Set : ∀ a0, Statement (.half1Set a0) :=
  fun _ h => stamp_of_wf _ h
theorem half1Clear : ∀ a0, Statement (.half1Clear a0) :=
  fun _ h => stamp_of_wf _ h
theorem frameReceive : ∀ a0 a1 a2, Statement (.frameReceive a0 a1 a2) :=
  fun _ _ _ h => stamp_of_wf _ h
theorem egressFrameStart : ∀ a0 a1, Statement (.egressFrameStart a0 a1) :=
  fun _ _ h => stamp_of_wf _ h
theorem lossOfSignal : ∀ a0 a1 a2, Statement (.lossOfSignal a0 a1 a2) :=
  fun _ _ _ h => stamp_of_wf _ h
theorem lossOfAlignment : ∀ a0 a1 a2, Statement (.lossOfAlignment a0 a1 a2) :=
  fun _ _ _ h => stamp_of_wf _ h
theorem portUp : ∀ a0 a1, Statement (.portUp a0 a1) :=
  fun _ _ h => stamp_of_wf _ h
theorem failholdExpiry : ∀ a0 a1, Statement (.failholdExpiry a0 a1) :=
  fun _ _ h => stamp_of_wf _ h
theorem revert : ∀ a0 a1, Statement (.revert a0 a1) :=
  fun _ _ h => stamp_of_wf _ h
theorem pfcFrame : ∀ a0 a1 a2 a3, Statement (.pfcFrame a0 a1 a2 a3) :=
  fun _ _ _ _ h => stamp_of_wf _ h
theorem pauseExpiry : ∀ a0 a1 a2, Statement (.pauseExpiry a0 a1 a2) :=
  fun _ _ _ h => stamp_of_wf _ h
theorem pfcRepeat : ∀ a0, Statement (.pfcRepeat a0) :=
  fun _ h => stamp_of_wf _ h
theorem load : ∀ a0 a1 a2, Statement (.load a0 a1 a2) :=
  fun _ _ _ h => stamp_of_wf _ h
theorem commit : ∀ a0 a1 a2 a3 a4, Statement (.commit a0 a1 a2 a3 a4) :=
  fun _ _ _ _ _ h => stamp_of_wf _ h
theorem keyResident : ∀ a0 a1 a2 a3, Statement (.keyResident a0 a1 a2 a3) :=
  fun _ _ _ _ h => stamp_of_wf _ h
theorem keywaitExpiry : ∀ a0 a1, Statement (.keywaitExpiry a0 a1) :=
  fun _ _ h => stamp_of_wf _ h
theorem keywr : ∀ a0 a1 a2 a3, Statement (.keywr a0 a1 a2 a3) :=
  fun _ _ _ _ h => stamp_of_wf _ h
theorem keyerase : ∀ a0 a1 a2 a3, Statement (.keyerase a0 a1 a2 a3) :=
  fun _ _ _ _ h => stamp_of_wf _ h
theorem roll : ∀ a0 a1 a2, Statement (.roll a0 a1 a2) :=
  fun _ _ _ h => stamp_of_wf _ h
theorem query : ∀ a0 a1 a2, Statement (.query a0 a1 a2) :=
  fun _ _ _ h => stamp_of_wf _ h
theorem create : ∀ a0 a1 a2 a3, Statement (.create a0 a1 a2 a3) :=
  fun _ _ _ _ h => stamp_of_wf _ h
theorem delete : ∀ a0 a1 a2, Statement (.delete a0 a1 a2) :=
  fun _ _ _ h => stamp_of_wf _ h
theorem pageerase : ∀ a0 a1, Statement (.pageerase a0 a1) :=
  fun _ _ h => stamp_of_wf _ h
theorem saCommandDone : ∀ a0 a1, Statement (.saCommandDone a0 a1) :=
  fun _ _ h => stamp_of_wf _ h
theorem acq : ∀ a0 a1, Statement (.acq a0 a1) :=
  fun _ _ h => stamp_of_wf _ h
theorem rel : ∀ a0 a1, Statement (.rel a0 a1) :=
  fun _ _ h => stamp_of_wf _ h
theorem leaseExpiry : ∀ a0, Statement (.leaseExpiry a0) :=
  fun _ h => stamp_of_wf _ h
theorem jen : ∀ a0 a1, Statement (.jen a0 a1) :=
  fun _ _ h => stamp_of_wf _ h
theorem jgo : ∀ a0 a1, Statement (.jgo a0 a1) :=
  fun _ _ h => stamp_of_wf _ h
theorem jobComplete : ∀ a0 a1, Statement (.jobComplete a0 a1) :=
  fun _ _ h => stamp_of_wf _ h
theorem pgJdone3Read : ∀ a0 a1, Statement (.pgJdone3Read a0 a1) :=
  fun _ _ h => stamp_of_wf _ h
theorem ownkeySet : ∀ a0 a1, Statement (.ownkeySet a0 a1) :=
  fun _ _ h => stamp_of_wf _ h
theorem lock : ∀ a0 a1, Statement (.lock a0 a1) :=
  fun _ _ h => stamp_of_wf _ h
theorem svnCommit : ∀ a0 a1, Statement (.svnCommit a0 a1) :=
  fun _ _ h => stamp_of_wf _ h
theorem decommission : ∀ a0 a1, Statement (.decommission a0 a1) :=
  fun _ _ h => stamp_of_wf _ h
theorem imageVerify : ∀ a0, Statement (.imageVerify a0) :=
  fun _ h => stamp_of_wf _ h
theorem identityReady : ∀ a0, Statement (.identityReady a0) :=
  fun _ h => stamp_of_wf _ h
theorem attestReportReady : ∀ a0, Statement (.attestReportReady a0) :=
  fun _ h => stamp_of_wf _ h
theorem entropyStartupPass : ∀ a0 a1, Statement (.entropyStartupPass a0 a1) :=
  fun _ _ h => stamp_of_wf _ h
theorem entropyFailure : ∀ a0 a1, Statement (.entropyFailure a0 a1) :=
  fun _ _ h => stamp_of_wf _ h
theorem entropyRetest : ∀ a0 a1, Statement (.entropyRetest a0 a1) :=
  fun _ _ h => stamp_of_wf _ h
theorem entropyStartTimeout : ∀ a0, Statement (.entropyStartTimeout a0) :=
  fun _ h => stamp_of_wf _ h
theorem drbgReseed : ∀ a0, Statement (.drbgReseed a0) :=
  fun _ h => stamp_of_wf _ h
theorem tamp : ∀ a0 a1 a2, Statement (.tamp a0 a1 a2) :=
  fun _ _ _ h => stamp_of_wf _ h
theorem lid : ∀ a0, Statement (.lid a0) :=
  fun _ h => stamp_of_wf _ h
theorem volt : ∀ a0, Statement (.volt a0) :=
  fun _ h => stamp_of_wf _ h
theorem clock : ∀ a0 a1, Statement (.clock a0 a1) :=
  fun _ _ h => stamp_of_wf _ h
theorem temp : ∀ a0, Statement (.temp a0) :=
  fun _ h => stamp_of_wf _ h
theorem jtag : ∀ a0, Statement (.jtag a0) :=
  fun _ h => stamp_of_wf _ h
theorem almlock : ∀ a0, Statement (.almlock a0) :=
  fun _ h => stamp_of_wf _ h
theorem resetNAssert : ∀ a0, Statement (.resetNAssert a0) :=
  fun _ h => stamp_of_wf _ h
theorem resetNRelease : ∀ a0, Statement (.resetNRelease a0) :=
  fun _ h => stamp_of_wf _ h
theorem flashDiscoveryDone : ∀ a0 a1 a2 a3 a4 a5, Statement (.flashDiscoveryDone a0 a1 a2 a3 a4 a5) :=
  fun _ _ _ _ _ _ h => stamp_of_wf _ h
theorem slotReadDone : ∀ a0 a1, Statement (.slotReadDone a0 a1) :=
  fun _ _ h => stamp_of_wf _ h
theorem serviceStart : ∀ a0, Statement (.serviceStart a0) :=
  fun _ h => stamp_of_wf _ h
theorem serviceWaitTimeout : ∀ a0, Statement (.serviceWaitTimeout a0) :=
  fun _ h => stamp_of_wf _ h
theorem squelchClear : ∀ a0 a1, Statement (.squelchClear a0 a1) :=
  fun _ _ h => stamp_of_wf _ h
theorem squelchSet : ∀ a0 a1, Statement (.squelchSet a0 a1) :=
  fun _ _ h => stamp_of_wf _ h
theorem openFrame : ∀ a0 a1 a2 a3 a4, Statement (.openFrame a0 a1 a2 a3 a4) :=
  fun _ _ _ _ _ h => stamp_of_wf _ h
theorem req : ∀ a0 a1 a2 a3 a4, Statement (.req a0 a1 a2 a3 a4) :=
  fun _ _ _ _ _ h => stamp_of_wf _ h
theorem flashWriteDone : ∀ a0 a1, Statement (.flashWriteDone a0 a1) :=
  fun _ _ h => stamp_of_wf _ h
theorem sessionLapse : ∀ a0 a1, Statement (.sessionLapse a0 a1) :=
  fun _ _ h => stamp_of_wf _ h
theorem sessionIdleTimeout : ∀ a0 a1, Statement (.sessionIdleTimeout a0 a1) :=
  fun _ _ h => stamp_of_wf _ h
theorem noticeSend : ∀ a0, Statement (.noticeSend a0) :=
  fun _ h => stamp_of_wf _ h
theorem windowBoundary : ∀ a0 a1, Statement (.windowBoundary a0 a1) :=
  fun _ _ h => stamp_of_wf _ h
theorem wrapclr : ∀ a0 a1, Statement (.wrapclr a0 a1) :=
  fun _ _ h => stamp_of_wf _ h
theorem cntRdRead : ∀ a0 a1 a2, Statement (.cntRdRead a0 a1 a2) :=
  fun _ _ _ h => stamp_of_wf _ h
theorem counterSettingWrite : ∀ a0 a1 a2 a3, Statement (.counterSettingWrite a0 a1 a2 a3) :=
  fun _ _ _ _ h => stamp_of_wf _ h
theorem wtCfgWrite : ∀ a0 a1 a2, Statement (.wtCfgWrite a0 a1 a2) :=
  fun _ _ _ h => stamp_of_wf _ h
theorem bwCfgWrite : ∀ a0 a1, Statement (.bwCfgWrite a0 a1) :=
  fun _ _ h => stamp_of_wf _ h
theorem scrubPass : ∀ a0, Statement (.scrubPass a0) :=
  fun _ h => stamp_of_wf _ h
theorem wordRepair : ∀ a0 a1, Statement (.wordRepair a0 a1) :=
  fun _ _ h => stamp_of_wf _ h
theorem hbmUncorrectable : ∀ a0 a1 a2, Statement (.hbmUncorrectable a0 a1 a2) :=
  fun _ _ _ h => stamp_of_wf _ h
theorem registerWrite : ∀ a0 a1 a2 a3, Statement (.registerWrite a0 a1 a2 a3) :=
  fun _ _ _ _ h => stamp_of_wf _ h
theorem refclkSysRestored : ∀ a0, Statement (.refclkSysRestored a0) :=
  fun _ h => stamp_of_wf _ h
theorem vddFeOutOfRange : ∀ a0, Statement (.vddFeOutOfRange a0) :=
  fun _ h => stamp_of_wf _ h
theorem discoveryWindowEnd : ∀ a0 a1, Statement (.discoveryWindowEnd a0 a1) :=
  fun _ _ h => stamp_of_wf _ h
theorem nfAgeExpiry : ∀ a0 a1, Statement (.nfAgeExpiry a0 a1) :=
  fun _ _ h => stamp_of_wf _ h
theorem portUpTimeout : ∀ a0 a1 a2, Statement (.portUpTimeout a0 a1 a2) :=
  fun _ _ _ h => stamp_of_wf _ h
theorem otpCommandDone : ∀ a0, Statement (.otpCommandDone a0) :=
  fun _ h => stamp_of_wf _ h

end Sys2Proof.Laws.Stamp
end

