-- ==== Sys2Proof/Tests/Slice0.lean ====
section
/-! SUPPORT. The model's own tests: a state and operands that meet the hypotheses of each clause of every obligation, the
ill-formed commands that WellFormed refuses, and worked examples of the specification. -/

open Sys2Proof Sys2Proof.Machine

namespace Sys2Proof.Tests

set_option Elab.async false

/-! ### Building a device -/

/-- A state that holds device `d` and no command. -/
def at0 (d : Dev) : State := { dev := d, pending := [] }

theorem ready0 (d : Dev) (h : d.inReset = false ∧ d.mains.refclk = true) : (at0 d).ready d.now d :=
  ⟨h, by simp [State.at_, at0, Dev.advance]⟩

theorem awake0 (d : Dev) (h : d.inReset = false) : (at0 d).awake d.now d := ⟨h, by simp [State.at_, at0, Dev.advance]⟩

/-- The bit of GV_PDSTAT of a domain, set. -/
def dom (n : Nat) : Field × Nat := (⟨A.GV_PDSTAT0 + 4 * (n / 32), n % 32, 1⟩, 1)

/-- Fields written one after the other. -/
def fill (d : Dev) (l : List (Field × Nat)) : Dev := l.foldl (fun d p => d.wr p.1 p.2) d

/-- The device after reset with the domains of channels 0 and 1, the canvas, the ports, PD_CIPG and PD_HBM on. -/
def base : Dev := fill (Dev.reset {}) ([0, 1, 64, 68, 69, 70, 76, 78].map dom)

/-- The same in LOCKED, half a millisecond into cycle 10 of 20 ms. -/
def timed : Dev :=
  { fill base [(F.MT_STATUS_STATE, 2)] with
    now := 1500000, mains := { cur := ⟨10, 1000000, 320000000⟩, p := 20971520000000 } }

theorem reset_settled : ({ State.reset with pending := [.sampleSync 0] } : State).settled := by
  refine ⟨?_, by constructor <;> decide +kernel⟩
  exact ⟨by decide +kernel, by decide +kernel, by decide +kernel⟩

def lastDev : Dev := base.wr F.MG_STATUS_LASTSESS 255

theorem last_255 : lastDev.rd F.MG_STATUS_LASTSESS = 255 := by decide +kernel

/-- Channel 0 as a head-end. -/
def headed : Dev := base.modCh 0 (fun c => { c with role := 1 })

/-- Words of both palettes of channel 0 that a commit accepts. -/
def goodPal : List (Field × Nat) :=
  [(⟨A.PAL_A_W 0 1, 0, 32⟩, 0x1070), (⟨A.PAL_A_W 0 2, 0, 32⟩, 2 ^ 24), (⟨A.PAL_A_W 0 5, 0, 32⟩, 0x10000),
   (⟨A.PAL_B_W 0 1, 0, 32⟩, 0x17075), (⟨A.PAL_B_W 0 2, 0, 32⟩, 2 ^ 25 - 1), (⟨A.PAL_B_W 0 5, 0, 32⟩, 0x10000)]

def palDev : Dev := fill base goodPal
def ringDev : Dev := fill base [(F.QD_BASE_DBASE 0, 2 ^ 21), (F.QD_CFG_DLOG 0, 21)]
def svnDev (n : Nat) : Dev := fill { base with root := { base.root with cmd := some (3, 0) } } [(F.RT_STATUS_IMGSVN, n)]
def jobDev : Dev := fill base [(F.PG_JCFG_JINQ 0, 1), (F.PG_JCFG_JOUTQ 0, 2), (F.QS_CFG_EN 1, 1), (F.QS_CFG_EN 2, 1)]
def crossDev : Dev := fill timed [(F.MSNS_CFG_EN 0, 1), (F.MT_HOLD_JUMP_TH, 100)]

/-- Mains time in state `st`, past the middle of its cycle. -/
def lateDev (st : Nat) (hits : List (Nat × Int × Int)) : Dev :=
  { fill timed [(F.MT_STATUS_STATE, st)] with
    now := 13000000,
    mains := { cur := ⟨10, 1000000, 320000000⟩, p := 20971520000000, hits := hits, held := 65535 } }

def swapDev : Dev := (fill base [(F.SC_STATUS_LOADED_B 0, 1)]).modCh 0 (fun c => { c with prmq := [⟨0, .swap false 4, 128, 0⟩] })
def fadeDev : Dev := { fill base [(F.SC_STATUS_FADING 0, 1)] with now := 1000000000 }
def syncDev : Dev := { base with syncAt := some 0 }
def cntDev : Dev := { base with counters := [(0, { sel := 0x1000000 })] }
def noClk : Dev := { base with mains := { refclk := false } }

/-- Sequencer 0 in RUN at a step of channel 0, whose time is the start of cycle 11. -/
def sqDev (st : Step) (y : Seq) (l : List (Field × Nat)) : Dev :=
  let d := fill timed ((F.SQ_STATUS_STATE 0, 2) :: l)
  ((d.setWord (seqWord 0 0 0) (st.encode.extractLsb' 0 32)).setWord (seqWord 0 0 1) (st.encode.extractLsb' 32 32)).setSq 0
    { y with btc := 11 }

/-- Step 0 of sequencer 0 with COND AL at BT. -/
def step0 (op : StepOp) : Step := ⟨0, 0, 0, 0, op⟩

/-- Start of cycle 11. -/
def startOf11 : Nat := 21000000

/-- The device of sequencer `q` as its step is fetched. -/
def fetched (d : Dev) (q : Nat) (st : Step) : Dev :=
  (d.modSq q (fun z => { z with run := z.run + 1 })).condParity q st.cond.toNat


theorem takes (d : Dev) (q : SeqId) (st : Step) (x : Nat)
    (h : (d.sqState q.val = 2 ∧ d.fetchFault q.val = none ∧ d.stepAt q.val = some st ∧ (fetched d q.val st).justCommitted = []) ∧
      (fetched d q.val st).stepTime q.val st 0 = some x ∧ (fetched d q.val st).now ≤ x) :
    d.takesStep (fetched d q.val st) q.val st x :=
  ⟨⟨h.1.1, h.1.2.1, h.1.2.2.1, h.1.2.2.2, rfl⟩, h.2⟩

theorem reads (d : Dev) (q : SeqId) (st : Step)
    (h : d.sqState q.val = 2 ∧ d.fetchFault q.val = none ∧ d.stepAt q.val = some st ∧ (fetched d q.val st).justCommitted = []) :
    d.atStep (fetched d q.val st) q.val st := ⟨h.1, h.2.1, h.2.2.1, h.2.2.2, rfl⟩

/-- The entry of address 1 in the scope of channel 0. -/
def nodeOne : List (Field × Nat) := [(F.FW_SCOPE_SIZE 0, 16), (N.ADDR 1, 1), (N.KIND 1, 1)]

def stateDev (st : Nat) (y : Seq) (l : List (Field × Nat)) : Dev := (fill timed ((F.SQ_STATUS_STATE 0, st) :: l)).setSq 0 y

def pathed (d : Dev) : Dev := { d with loader := { d.loader with paths := [(0, ⟨0, 0, 0, 0, [(0x1, 0, 0)], []⟩)] } }

/-- Sequencer 0 with a re-selection of node 1, which the head-end hears, in the rung MODE 0x100 of its ladder. -/
def pathDev (pin : Nat) : Dev :=
  let d := (fill timed (nodeOne ++ [(N.PIN 1, pin), (N.HIST 1, 0xFFFF), (N.CAPS 1, 2 ^ 24 + 8 * 2 ^ 17 + 12 * 2 ^ 13 + 1),
    (⟨A.PAL_A_W 0 0, 0, 32⟩, ftw 159), (⟨A.PAL_A_W 0 1, 0, 32⟩, 4), (⟨A.PAL_A_W 0 2, 0, 32⟩, 2 ^ 24)])).setSq 0
    { paths := [(1, startOf11, 0)] }
  { d.modLf 0 (fun l => { l with reports := [⟨0, 1, 6, 10⟩] }) with
    loader := { d.loader with paths := [(0, ⟨0, 2, 8, 3, [(0x700, 30, 1), (0x100, 2, 1), (0, 1, 1)], []⟩)] } }

/-- A transmission of channel 0. -/
def aJob (begun : Bool) : TxJob := { seq := 0, step := 0, t := 1000000, fin := 1500000, typ := 0, entry := 1, begun := begun }
def jobOn (begun : Bool) : Dev := timed.modCh 0 (fun c => { c with driverOn := true, txs := [aJob begun] })

/-- The words of band plan B30 in palette A of channel 0. -/
def planB30 : List (Field × Nat) :=
  [(⟨A.PAL_A_W 0 0, 0, 32⟩, ftw 159), (⟨A.PAL_A_W 0 1, 0, 32⟩, 4), (⟨A.PAL_A_W 0 2, 0, 32⟩, 2 ^ 24), (F.FR_ILMEM_ILMEM 0, 512)]

/-- Record 5 holds a resident key of phase 0. -/
def keyed (d : Dev) : Dev := { d.setSa 5 { kind := 1, valid0 := true } with cache := [(5, false)] }

/-- Sequencer 0 at a TX step for a beacon of channel 0, every check passed and its grant held. -/
def beaconDev : Dev :=
  keyed ((sqDev (step0 (.tx 0 0 false 0 false)) { grant := some ⟨0, 5, false, 0⟩ } ((N.SAIDX 0, 5) :: planB30)).modCh 0
    (fun c => { c with role := 1 }))

/-- Channel 0 with a role, its receiver in state `st` with window `w` and frame `l`. -/
def rxDev (role st : Nat) (w : RxWin) (l : Option RxLock) (more : List (Field × Nat)) : Dev :=
  (fill timed ((F.AQ_STATUS_STATE 0, st) :: more)).modCh 0 (fun c => { c with role := role, wins := [w], lock := l })

def aWin (opened : Bool) : RxWin :=
  { seq := 0, step := 0, opn := 1000000, close := 2000000, kh := 8, sync := 0, gains := [20], opened := opened }
def aLock : RxLock := { stamp := 1200000, opn := 1000000 }

/-- The header of a beacon in the beacon form. -/
def beaconHdr : BitVec 96 := mkHeader 1 0 0 0x1FFFF 1 0 (beaconForm 0)

/-- A frame whose key is bound and whose first counter passed. -/
def goodBody : List Byte :=
  let b : List Byte := [0, 0, 3, 0] ++ octetsBE 8 9 ++ [1, 2, 3] ++ List.replicate 16 0
  whiteBody 0 (fitTo 384 (b ++ octetsBE 4 (fcs32 b).toNat))
def goodLock : RxLock :=
  { aLock with hdr := some beaconHdr, entry := some 0, key := some (0, false), codewords := 2, decoded := 1, body := goodBody }

/-- Channel 0 with an accepted message, its role and its OSTATE. -/
def msgDev (a : Accepted) (role os : Nat) (more : List (Field × Nat)) : Dev :=
  (fill timed ((F.LF_STATUS_OSTATE 0, os) :: more)).modCh 0 (fun c => { c with role := role, accepted := some a })

def accepted (typ : Nat) (msg : List Byte) : Accepted := { typ := typ, src := 0, dst := 1, ver := 1, entry := 1, fin := 1400000, msg := msg }
def aBeacon : BeaconMsg := ⟨5, 0, 100, 8, 3, 4, 2, true⟩
def aPoll : PollMsg := ⟨0, 0, 0, 0, 10, 4095, 0, false⟩
def aRelay : RelayMsg := ⟨0, 0, 1, 1, 20, 0, 65535, 0, []⟩
def aJoinReq : JoinReqMsg := ⟨7, 3, 1, 6, 8, 14, 0, false, 8, 100, 4⟩
def aJoinAcc (status : Nat) : JoinAccMsg := ⟨0, 9, status, 1, 100, 50⟩

/-- The first RESP of node 1, which confirms its session. -/
def confirming : List Byte := List.replicate 12 0 ++ [0x80, 0, 0, 0] ++ List.replicate 8 0

def rolled (r : Nat) (d : Dev) : Dev := d.modCh 0 (fun c => { c with role := r })
def trimDev : Dev := timed.modCh 0 (fun c => { c with prmq := [⟨1500000, .trim (-5), 128, 0⟩] })
def lateWin : Dev := { rxDev 1 1 (aWin true) none [] with now := 3000000 }
def windowed : Dev := timed.modCh 0 (fun c => { c with role := 1, lf := { c.lf with window := some 4 } })

/-- Shallow queue 0 and deep queue 0 enabled. -/
def queueDev (h : Shallow) (e : Deep) (more : List (Field × Nat)) : Dev :=
  ((fill base ([(F.QS_CFG_EN 0, 1), (F.QD_CFG_EN 0, 1), (F.QD_CFG_DLOG 0, 1)] ++ more)).setSh 0 h).setDq 0 e

def anItem : Item := { words := [(1, false)], len := 8, complete := true }
def takingDev : Dev := queueDev { items := [anItem], cells := [0], fill := 2, taking := true } {} []
def zeroDev : Dev := { base with zeroing := [5] }
def upper : Dev := fill base [dom 77]
def halved : Dev := fill upper [(F.CV_CFG_HALF1, 1)]
def pausing : Dev := { fill base [(F.FW_PFC_PFCTX, 1), (F.FW_XOFF_XOFF, 1), (F.FW_XOFF_XON, 2)] with pfcOff := true, free := [(0, 31)] }

/-- The entry of index 1 in slot 16, read by a LOAD. -/
def shadowed : Dev := { fill base [(F.FW_SCOPE_SIZE 0, 16)] with shadow := [(16, (1, 0))] }
def fetching : Dev := { keyed base with cache := [], fetches := [(5, false)] }

/-- Both ports live. -/
def ports (up : List (Field × Nat)) : Dev :=
  { fill timed ([(F.ETH_CFG_SQUELCH 0, 0), (F.ETH_CFG_SQUELCH 1, 0), (F.FW_UPL_UPMODE, 2), (F.ETH_MAXFR_MAXFR 0, 1518)] ++ up) with now := 100000000000 }
def downPort (l : List (Field × Nat)) : Dev := { ports l with downSince := [(0, some 1)] }
def failed : Dev := { ports [(F.FW_UPSTAT_B_UP, 1)] with downSince := [(0, some 1)] }
def back : Dev :=
  { ports [(F.FW_UPSTAT_A_UP, 1), (F.FW_UPSTAT_B_UP, 1), (F.FW_UPL_REVERT, 1), (F.FW_CHUP_CUR 0, 1)] with upSince := [(0, some 1)] }
def upPort : Dev := ports [(F.ETH_STATUS_UP 0, 1), (F.FW_PFC_PFCRX, 1), (F.FW_CFG_MGT_ET, 0x88B6), (F.FW_CFG_SHIM_ET, 0x88B5)]

/-- A frame with an EtherType and `n` octets of zeros, its FCS behind it. -/
def framed (et : List Byte) (n : Nat) : List Byte :=
  let l := List.replicate 12 7 ++ et ++ List.replicate n 0
  l ++ ethFcs l
def frame (et : List Byte) : List Byte := framed et 46

theorem framed_good (et : List Byte) (n : Nat) : fcsGood (framed et n) = true := by
  have h : ∀ l : List Byte, fcsGood (l ++ ethFcs l) = true := fun l => by
    have e : l.length + (ethFcs l).length - 4 = l.length := by simp [ethFcs]
    simp [fcsGood, e]
  exact h _
def egressDev : Dev :=
  (ports [(F.FW_UPSTAT_A_UP, 1), (F.QS_CFG_EN 0, 1), (F.FW_SCOPE_SIZE 0, 16)]).setSh 0 { items := [anItem], cells := [0], fill := 2 }

/-- Sequencer 0 with a request, and M in the account. -/
def asking (r : BudgetReq) (m : Nat) (l : List (Field × Nat)) : Dev :=
  let d := stateDev 2 { reqs := [r] } l
  { d with gov := { d.gov with m := d.cap - m } }
def slotReq (e : Nat) : BudgetReq := { kind := .txslot, chan := 0, energy := e, deadline := startOf11, step := 0 }
def bringReq : BudgetReq := { kind := .bringup, chan := 1, energy := 5, deadline := startOf11, step := 0 }
def iterReq : BudgetReq := { kind := .iter, chan := 0, energy := 1, iter := 12, deadline := startOf11, step := 0 }
def degDev : Dev := asking (slotReq 50) 40 [(F.GV_MODE_DEG_MAX, 6)]
def fullDev : Dev := asking (slotReq 50) 0 [(F.GV_MODE_DEG_MAX, 6)]
def hotDev : Dev := { timed with gov := { timed.gov with hotFrom := some 500000 } }

/-- Channel 0 in a phase. -/
def phased (p : Nat) (b : Bring) : Dev :=
  let d := fill timed [(F.GV_CHSTAT_PHASE 0, p), (F.GV_ITER_DRAIN_MAX, 0)]
  { d with gov := { d.gov with bring := [(0, b)] } }
def switching : Dev := { timed with gov := { timed.gov with queue := [65] } }

def fullQ : Dev := { queueDev {} {} [] with free := [] }

theorem pair_of {α β : Type} {p : α × β} {a : α} (h : p.1 = a) : p = (a, p.2) := by subst h; rfl

theorem triple_eq {α β γ : Type} {p : α × β × γ} : p = (p.1, p.2.1, p.2.2) := rfl


theorem pair_eq {α β : Type} {p : α × β} : p = (p.1, p.2) := rfl
theorem at_at0 (d : Dev) : (at0 d).at_ d.now = d := by simp [State.at_, at0, Dev.advance]

/-- Record 5 of KIND 1 of administration with a key in phase 0, and commands of a page or of administration. -/
def recDev (l : List (Field × Nat)) : Dev := (keyed (fill base l)).setSa 9 { kind := 2, tenant := 3, valid0 := true }
def commanding : Dev := { base with sa := [(16, { op := 0, saidx := 5, phase := false, res := 2 })] }

/-- Session 7, of administration. -/
def admin : Session := { num := 7, prin := 16, confirmed := true, last := 4 }
def adminDev (l : List (Field × Nat)) : Dev := { fill base l with sessions := [admin] }
def leaseDev : Dev := { adminDev [(F.ADMIN_LOCK_HOLDER, 7)] with leaseEnd := some 500, now := 500 }

/-- Queues 3 and 4 of page 2, and a job that runs. -/
def pageDev (l : List (Field × Nat)) : Dev :=
  fill base ([(F.QS_CFG_EN 3, 1), (F.QS_CFG_EN 4, 1), (F.QS_OWN_TENANT 3, 2), (F.QS_OWN_TENANT 4, 2), (F.PG_JCFG_JINQ 2, 3),
    (F.PG_JCFG_JOUTQ 2, 4)] ++ l)
def aPageJob (op : Nat) (erased : Bool) : Job :=
  { id := 1, op := op, saidx := 5, phase := false, aad := 0, dlen := 4, ctr := 0, started := true, erased := erased }
def running (op : Nat) (erased : Bool) : Dev := (pageDev [(F.PG_JCFG_JEN 2, 1)]).setPage 2 { jobs := [aPageJob op erased] }
def onlyHbmOff : Dev := fill (Dev.reset {}) [dom 76]

/-- A confirmed lifecycle command. -/
def lifeDev (c : Word32) (l : List (Field × Nat)) : Dev := (fill base l).setWord A.RT_CONFIRM c
def entDev (st : Nat) (r : Root) (l : List (Field × Nat)) : Dev :=
  { fill base ((F.ENT_STATUS_ESTATE, st) :: l) with root := r, now := 10000000000 }

/-- The loader in a state. -/
def loadDev (st : Nat) (l : Loader) : Dev := { fill base [(F.LD_STATUS_LSTATE, st)] with loader := l }
def slotHd : SlotHeader := ⟨0x424C494D#32, 2, 3876, 1⟩
def slotOct : List Byte := octetsBE 4 0x424C494D ++ octetsBE 1 2 ++ octetsBE 3 1 ++ octetsBE 4 3876 ++ octetsBE 4 1
def anImage : Image := ⟨slotHd, 1, 1, 0x4064, 0, [⟨80, 0, .info⟩], true, [], []⟩
def applied (l : List (Field × Nat)) : Dev := fill timed ([(F.RT_STATUS_RSTATE, 1), (F.LD_STATUS_LSTATE, 6)] ++ l)

/-- Port 0 up with the administration key in record 5. -/
def mgDev : Dev :=
  { upPort.setSa 5 { kind := 3, valid0 := true } with sessions := [admin] }.wr F.MG_AKEY_SAIDX 5 |>.wr F.MG_AKEY_KEYV 1
def mgFrame (sess : Fin 256) (mseq : BitVec 64) (payload : List Byte) : MgmtFrame := ⟨2, 16, false, sess, mseq, payload⟩
def mgJob (waits : Bool) : MgmtJob := { port := 0, mac := 7, frame := mgFrame 7 9 [], waits := waits }
def mgFull : Dev := { mgDev with engine := List.replicate 4 (mgJob false) }
def mgRecovery : Dev := { mgDev with loader := { mgDev.loader with writing := some (0, 7, 1) } }
def attesting (abandoned identity : Bool) : Dev :=
  { mgDev with engine := [mgJob true], root := { mgDev.root with attest := [{ nonce := List.replicate 16 0, abandoned := abandoned }], identity := identity } }

theorem range_row : (rowAt (A.SC_STATUS 2)).isSome = true := by decide +kernel
theorem hbm_row : (rowAt A.HBM_ERRLOC).isSome = true := by decide +kernel

def altDev : Dev := fill crossDev [(F.MSNS_CFG_EN 1, 1), (F.MT_CFG_ALT_EN, 1), (F.MT_CFG_ALTSEL, 1)]
/-- The device in HOLDOVER at a grain past the middle, with a period above the longest. -/
def slowDev : Dev := { lateDev 4 [] with mains := { (lateDev 4 []).mains with p := 66666667 * 2 ^ 20 } }
def learntDev : Dev := fill (lateDev 2 []) [(F.MT_CFG_ALT_EN, 1), (F.MT_CFG_ALTSEL, 3), (F.MT_STATUS_ALTVALID, 1)]
def aFade : Swap := { rxAt := 100, txAt := 100, toB := true, fade := some 4 }
def fadingDev (p : Option (Bool × Nat)) : Dev := fadeDev.modCh 0 (fun c => { c with swaps := [aFade], swapPend := p })
def waitSync : Dev := { base with syncAt := some 100 }

/-- Receive gains of 1 in palette A of channel 0, and a peak whose level with them is 0 dB over full scale. -/
def unitGain : List (Field × Nat) := [(F.AQ_CFG_NDET 0, 1), (⟨A.PAL_A_W 0 8, 0, 32⟩, 1), (⟨A.PAL_A_W 0 264, 0, 32⟩, 1)]
def aPeak (last : Nat) : Peak := { start := 0, last := last * 2 ^ 24, p := 0, val := [], pow := 2 ^ 68 }

/-- Channel 0 in SEARCH with its counting windows. -/
def searching (l : List Peak) : Dev := (rxDev 1 1 (aWin true) none [(F.AQ_CFG_NDET 0, 0)]).modCh 0 (fun c => { c with search := { peaks := l }, searchOpn := 1000000 })
def syncBits : List Bool := (List.range 32).map (fun i => (base.word (A.FR_SYNCW 0)).getMsbD i)
def syncing (bits : List Bool) : RxLock := { aLock with bits := bits, corr := { peaks := [aPeak 1100000] } }

/-- The soft values of a header's symbols. -/
def hdrSofts (h : BitVec 96) : List Int := (List.range 288).map (fun p => if hdrAt h p then -127 else 127)
def hdrLock (h : BitVec 96) : RxLock := { aLock with soft := hdrSofts h }

theorem beacon_decodes : beaconHdr = decodeHeader (hdrLock beaconHdr).soft := by decide +kernel
theorem other_decodes : beaconHdr ^^^ 1 = decodeHeader (hdrLock (beaconHdr ^^^ 1)).soft := by decide +kernel

def sentinelLock (ss : Int) : RxLock := { goodLock with ss := ss, sent := { peaks := [aPeak 2000000, aPeak 2000000] } }

/-- A body of single-tine chips is complete. -/
def fullBody : RxLock := { goodLock with corr := { buf := List.replicate 256 ⟨0, [0]⟩ } }

/-- A frame in the form of one symbol for a codeword whose only block is complete. -/
def muxHdr : BitVec 96 := mkHeader 1 0 0 0x1FFFF 1 0 { mode := 0xC54 }
def blockLock : RxLock := { goodLock with hdr := some muxHdr, syms := [(0, [])], codewords := 0, decoded := 0 }

/-- The pool decodes a codeword of the frame. -/
def coding (decoded : Nat) : RxLock :=
  { goodLock with hdr := some (mkHeader 1 0 0 0x1FFFF 2 0 { mode := 0x020 }), decoded := decoded, started := [(1, [])] }
theorem triple_of {α β γ : Type} {p : α × β × γ} {b : β} (h : p.2.1 = b) : p = (p.1, b, p.2.2) := by subst h; rfl
def codingDev : Dev := rxDev 2 5 (aWin true) (some (coding 0)) []
theorem coding_ends : (decodeWord ((coding 0).form 8).rate 1 (codingDev.rd (F.AQ_CFG3_MS_OFFSET (0 : ChanId))) []).2.1 = true := by
  decide +kernel
def quietDev : Dev := timed.modCh 0 (fun c => { c with nfDue := [{ n := 4096, flagged := 0, power := 1 }] })

/-- An outstation in cycle 10 whose announced window of 3 slots began in cycle 5. -/
def waitedDev : Dev := rolled 2 (timed.modLf 0 (fun l => { l with disc := some (5, 0, 3, 2, true) }))

/-- Sequencer 0 with a request `r`, sequencer 1 with one deferred. -/
def deferring (r : BudgetReq) : Dev := (asking r 1000 []).setSq 1 { reqs := [{ slotReq 50 with deferred := true }] }

/-- 4,096 raw bits that pass both tests, and the state of the tests after `k + 1` pairs of them. -/
def goodBits : List Bool := (List.replicate 2048 [true, false]).flatten
def testsAfter (k : Nat) : RawTests :=
  { last := some false, run := 1, pos := (2 * k + 2) % 1024, sample := true, hits := k % 512 + 1, good := 2 * k + 2 }

theorem bits_append {m x y : RawTests} {a b : List Bool} (h : m.bits a = (x, 0, 0)) (k : x.bits b = (y, 0, 0)) :
    m.bits (a ++ b) = (y, 0, 0) := by
  simp only [RawTests.bits, List.foldl_append] at *
  rw [h, k]

theorem good_pair (k : Nat) : (testsAfter k).bits [true, false] = (testsAfter (k + 1), 0, 0) := by
  by_cases h : (2 * k + 2) % 1024 = 0
  · simp [RawTests.bits, RawTests.bit, testsAfter, h]; omega
  · have h3 : ¬ (2 * k + 2 + 1) % 1024 = 0 := by omega
    have h4 : ¬ 798 ≤ k % 512 := by omega
    simp [RawTests.bits, RawTests.bit, testsAfter, h, h3, h4]; omega

theorem good_bits : ({} : RawTests).bits goodBits = (testsAfter 2047, 0, 0) := by
  have h : ∀ n, ({} : RawTests).bits (List.replicate (n + 1) [true, false]).flatten = (testsAfter n, 0, 0) := by
    intro n
    induction n with
    | zero => decide +kernel
    | succ n ih => rw [List.replicate_succ', List.flatten_append]; exact bits_append ih (by simpa using good_pair n)
  exact h 2047

/-- A run of raw bits that fails the first test. -/
def stuckBits : List Bool := List.replicate 64 true

/-- Port 0 up and trusted entropy beside the administration key; four sessions of others. -/
def mgOpen : Dev := mgDev.wr F.ENT_STATUS_ESTATE 1
def mgCrowd : Dev := { mgOpen with sessions := (List.range 32).map (fun i => { admin with num := i + 1 }) }
def mgV1 : Dev := mgDev.wr F.MG_CFG_V1EN 1

/-- A frame of version 1. -/
def mgV1Frame (sess : Fin 256) (mseq : BitVec 64) : MgmtFrame := { mgFrame sess mseq [] with mver := 1 }

/-- What a held step says of a grant to return. -/
theorem held_tx {o : Option StepOp} {a b c f l} (h : o = some (.tx a b c f l)) :
    true = true ↔ ∃ a b c f l, o = some (StepOp.tx a b c f l) := ⟨fun _ => ⟨a, b, c, f, l, h⟩, fun _ => rfl⟩
theorem held_none {o : Option StepOp} (h : o = none) : false = true ↔ ∃ a b c f l, o = some (StepOp.tx a b c f l) := by simp [h]
theorem only_some {α : Type} {o : Option α} {x : α} {p : α → Prop} (h : o = some x) (k : p x) : ∀ y, o = some y → p y := by
  intro y hy
  cases h.symm.trans hy
  exact k

/-! ### The hypotheses of each statement are met -/

theorem witness_step_runs_front_command :
    (∃ (s : State) (c : Instr) (rest : List Instr), s.pending = c :: rest) ∧
    (∃ (s : State), s.pending = []) := by
  refine ⟨?_, ?_⟩
  · exact ⟨({ at0 base with pending := [.sampleSync 0, .jtag 5] }), _, _, rfl⟩
  · exact ⟨State.reset, rfl⟩

theorem witness_reset_state :
    ∃ n, n < 79 := by
  exact ⟨78, by decide +kernel⟩

theorem witness_reset_low_holds_the_module :
    ∃ (c : Instr) (s : State), s.dev.inReset = true ∧ (∀ t, c ≠ .resetNRelease t) := by
  exact ⟨(.jtag 5), (at0 { base with inReset := true }), rfl, nofun⟩

theorem witness_step_keeps_settled :
    ∃ (s : State) (s' : State), s.settled ∧ step s = .next s' := by
  exact ⟨({ State.reset with pending := [.sampleSync 0] }), _, reset_settled, rfl⟩

theorem witness_fault_pin_follows_latch :
    ∃ (c : Instr) (s : State) (s' : State), exec c s = .next s' := by
  exact ⟨(.jtag 5), (at0 timed), _, rfl⟩

theorem witness_step_word_round_trip :
    (∃ (st : Step), st.ok = true) ∧
    (∃ (w : Word64) (st : Step), Step.decode w = some st) := by
  refine ⟨?_, ?_⟩
  · exact ⟨⟨0, 1, 0, 200, .wait 0 true false 0⟩, by decide +kernel⟩
  · exact ⟨(Step.encode ⟨0, 1, 0, 200, .wait 0 true false 0⟩), ⟨0, 1, 0, 200, .wait 0 true false 0⟩, by decide +kernel⟩

theorem witness_charge_is_least :
    ∃ (e : Nat) (z : Nat), ∃ n, e < 2 ^ 16 ∧ n < chargeOf e z := by
  exact ⟨65535, 7, 29273, by decide +kernel⟩

theorem witness_replay_window :
    (∃ (a : Assoc) (c : Nat), a.passes c = true) ∧
    (∃ (a : Assoc) (c : Nat) (x : Nat), a.passes c = true ∧ a.passes x = false) ∧
    (∃ (a : Assoc) (c : Nat), a.empty = false ∧ c + 63 < a.rxhi) ∧
    (∃ (b : Nat), 1 ≤ b ∧ b < 2 ^ 64) := by
  refine ⟨?_, ?_, ?_, ?_⟩
  · exact ⟨({ empty := false, rxhi := 70, rxwin := 1 }), 7, by decide +kernel⟩
  · exact ⟨({ empty := false, rxhi := 70, rxwin := 1 }), 71, 6, by decide +kernel⟩
  · exact ⟨({ empty := false, rxhi := 70, rxwin := 1 }), 6, by decide +kernel⟩
  · exact ⟨18446744073709551615, by decide +kernel⟩

theorem witness_content_round_trips :
    (∃ (us : List Unit_) (n : Nat), (∀ u ∈ us, u.dseq < 2 ^ 16 ∧ u.cls < 4 ∧ u.content ≠ [] ∧ u.content.length < 2 ^ 14) ∧
      us.length ≤ n) ∧
    (∃ (h : Shim), h.ver < 16 ∧ h.tenant < 16 ∧ h.node < 2 ^ 17 ∧ h.cls < 4 ∧ h.seq < 2 ^ 16) := by
  refine ⟨?_, ?_⟩
  · exact ⟨[{ dseq := 65535, cls := 3, content := [1] }], 1, by decide +kernel⟩
  · exact ⟨⟨15, 15, 131071, 3, true, true, 65535⟩, by decide +kernel⟩

theorem witness_cells_come_from_the_head :
    ∃ (n : Nat) (l : List (Nat × Nat)), ∃ cs r, takeRuns n l = some (cs, r) := by
  exact ⟨3, [(7, 2), (20, 5)], [7, 8, 20], [(21, 4)], by decide +kernel⟩

theorem witness_frame_coding_round_trips :
    (∃ (rate i : Nat) (info : List Byte) (u : List (BitVec 256)), u = infoBlocks rate info ∧ rate ≤ 4 ∧ i < ldpcRows rate) ∧
    (∃ (j : Nat), j < 288) ∧
    (∃ (f : Form) (n i u tines : Nat), u = i / n ∧ tines = f.s * (15 * f.n / 16) ∧ f.mux = true ∧ 1 ≤ f.load ∧ i < n * f.bits) ∧
    (∃ (f : Form) (n i : Nat), i < n * f.bits) := by
  refine ⟨?_, ?_, ?_, ?_⟩
  · exact ⟨4, 2, [], _, rfl, by decide +kernel⟩
  · exact ⟨287, by decide +kernel⟩
  · exact ⟨(Form.mk 0xC54 0 2 9 16 0), 108, (108 * 30720 - 1), _, _, rfl, rfl, by decide +kernel⟩
  · exact ⟨(Form.mk 0x602 0 0 14 16 0), 3, 41, by decide +kernel⟩

theorem witness_control_blocks_round_trip :
    (∃ (b : BeaconMsg), b.bcyc < 2 ^ 32 ∧ b.begrn < 2 ^ 16 ∧ b.dgrn < 2 ^ 16 ∧ b.dcyc < 2 ^ 16 ∧ b.vmax < 16 ∧ b.nslot < 16 ∧
      b.boffMax < 8) ∧
    (∃ (p : PollMsg), p.acku < 2 ^ 16 ∧ p.umode < 2 ^ 12 ∧ p.ustrm < 4 ∧ p.uspan < 8 ∧ p.ulen < 2 ^ 12 ∧ p.rgap < 2 ^ 12 ∧
      -128 ≤ p.ulvl ∧ p.ulvl < 128) ∧
    (∃ (j : JoinReqMsg), j.vmax < 16 ∧ j.bands < 16 ∧ j.maxq < 8 ∧ j.mink < 16 ∧ j.maxk < 16 ∧ j.bundle < 4 ∧ j.ilmem < 2 ^ 10 ∧
      -32768 ≤ j.bq ∧ j.bq < 32768 ∧ j.rgmin < 2 ^ 12) ∧
    (∃ (j : JoinAccMsg), j.status < 4 ∧ j.ver < 16 ∧ j.rgap < 2 ^ 12 ∧ j.lostc < 2 ^ 12) := by
  refine ⟨?_, ?_, ?_, ?_⟩
  · exact ⟨⟨1, 2, 3, 65535, 15, 15, 7, true⟩, by decide +kernel⟩
  · exact ⟨⟨65535, 4095, 3, 7, 4095, 4095, -128, true⟩, by decide +kernel⟩
  · exact ⟨⟨5, 15, 15, 7, 15, 15, 3, true, 1023, -32768, 4095⟩, by decide +kernel⟩
  · exact ⟨⟨5, 6, 3, 15, 4095, 4095⟩, by decide +kernel⟩

theorem witness_session_numbers :
    ∃ (d : Dev) (n : Nat), (∀ m, d.rd F.MG_STATUS_LASTSESS < m → m ≤ 255 → (n ≤ d.rd F.MG_STATUS_LASTSESS ∨ m < n) →
      d.session m ≠ none) ∧ (n ≤ d.rd F.MG_STATUS_LASTSESS → ∀ m, 1 ≤ m → m < n → d.session m ≠ none) ∧ 1 ≤ n ∧ n ≤ 255 ∧
      d.rd F.MG_STATUS_LASTSESS ≤ 255 ∧ d.session n = none := by
  exact ⟨lastDev, 1, (last_255 ▸ fun m h₁ h₂ _ => by omega), (fun _ m h₁ h₂ => by omega), by decide +kernel⟩

theorem witness_thermal_states :
    (∃ (cur : Nat) (tj : Int) (tc : Int) (band : Int), cur ≤ 2 ∧ 0 ≤ band ∧ tc ≤ tj) ∧
    (∃ (cur : Nat) (tj : Int) (tc : Int) (band : Int), cur ≤ 2 ∧ 0 ≤ band ∧ tj < tc ∧ cur = 2 ∧ tc - 2 < tj) ∧
    (∃ (cur : Nat) (tj : Int) (tc : Int) (band : Int), cur ≤ 2 ∧ 0 ≤ band ∧ tj < tc ∧ cur < 2 ∧ tc - band ≤ tj) ∧
    (∃ (cur : Nat) (tj : Int) (tc : Int) (band : Int), cur ≤ 2 ∧ 0 ≤ band ∧ tj ≤ tc - 2 ∧ cur = 2 ∧ tc - band - 2 < tj) ∧
    (∃ (cur : Nat) (tj : Int) (tc : Int) (band : Int), cur ≤ 2 ∧ 0 ≤ band ∧ tj < tc - band ∧ cur = 1 ∧ tc - band - 2 < tj ∧
      tj < tc) ∧
    (∃ (cur : Nat) (tj : Int) (tc : Int) (band : Int), cur ≤ 2 ∧ 0 ≤ band ∧ tj < tc - band ∧ cur = 0 ∧ tj < tc) ∧
    (∃ (cur : Nat) (tj : Int) (tc : Int) (band : Int), cur ≤ 2 ∧ 0 ≤ band ∧ tj ≤ tc - band - 2 ∧ tj ≤ tc - 2) := by
  refine ⟨?_, ?_, ?_, ?_, ?_, ?_, ?_⟩
  · exact ⟨2, 95, 95, 10, by decide +kernel⟩
  · exact ⟨2, 94, 95, 10, by decide +kernel⟩
  · exact ⟨1, 85, 95, 10, by decide +kernel⟩
  · exact ⟨2, 93, 95, 10, by decide +kernel⟩
  · exact ⟨1, 84, 95, 10, by decide +kernel⟩
  · exact ⟨0, 84, 95, 10, by decide +kernel⟩
  · exact ⟨1, 83, 95, 10, by decide +kernel⟩

theorem witness_field_writes :
    (∃ (d : Dev) (f : Field) (g : Field), Regs.wf d.regs = true ∧ f.lo + f.width ≤ 32 ∧ g.addr ≠ f.addr) ∧
    (∃ (d : Dev) (f : Field) (g : Field), Regs.wf d.regs = true ∧ f.lo + f.width ≤ 32 ∧ g.addr = f.addr ∧
      (g.lo + g.width ≤ f.lo ∨ f.lo + f.width ≤ g.lo) ∧ g.lo + g.width ≤ 32) := by
  refine ⟨?_, ?_⟩
  · exact ⟨base, F.ADMIN_LOCK_HOLDER, F.MT_CFG_TC, by decide +kernel⟩
  · exact ⟨base, F.MT_CFG_TC, F.MT_CFG_REFSEL, by decide +kernel⟩

theorem witness_step_word_layout :
    ∃ (w : Word64) (st : Step), Step.decode w = some st ∧ st.tb ≠ 0 := by
  exact ⟨(Step.encode ⟨0, 1, 0, 200, .wait 0 true false 0⟩), ⟨0, 1, 0, 200, .wait 0 true false 0⟩, by decide +kernel⟩

theorem witness_unmapped_access :
    (∃ (a : Nat), a % 4 ≠ 0) ∧
    (∃ (d : Dev) (a p n : Nat) (w : Writer), rowAt a = none ∧ d.principal w = some (p, n, true) ∧
      (p = 17 ∨ d.lapseLock.holder = n)) ∧
    (∃ (d : Dev) (a p n : Nat) (w : Writer), rowAt a = none ∧ d.principal w = some (p, n, true) ∧
      (p = 17 ∨ d.lapseLock.holder = n)) ∧
    (∃ (d : Dev) (a p : Nat) (lock : Bool), rowAt a = none ∧ d.mayRead p a lock = true) ∧
    (∃ (d : Dev) (a p : Nat) (lock : Bool), rowAt a = none ∧ d.mayRead p a lock = true) := by
  refine ⟨?_, ?_, ?_, ?_, ?_⟩
  · exact ⟨3, by decide +kernel⟩
  · exact ⟨base, 0x0035071C, 17, 0, .loader, by decide +kernel⟩
  · exact ⟨base, 0x0035071C, 17, 0, .loader, by decide +kernel⟩
  · exact ⟨base, 2, 16, false, by decide +kernel⟩
  · exact ⟨base, 2, 16, true, by decide +kernel⟩

theorem witness_range_read_is_all_or_nothing :
    (∃ (d : Dev) (p a n i : Nat) (lock : Bool), i < n ∧ d.readCheck p (a + 4 * i) lock ≠ rgOK ∧
      (∀ j, j < i → d.readCheck p (a + 4 * j) lock = rgOK) ∧ d.readCheck p (a + 4 * i) lock ≠ rgPERM) ∧
    (∃ (d : Dev) (p a n i : Nat) (lock : Bool), i < n ∧ d.readCheck p (a + 4 * i) lock ≠ rgOK ∧
      (∀ j, j < i → d.readCheck p (a + 4 * j) lock = rgOK) ∧ d.readCheck p (a + 4 * i) lock = rgPERM) ∧
    (∃ (d : Dev) (p a n room : Nat) (lock : Bool), (∀ i, i < n → d.readCheck p (a + 4 * i) lock = rgOK) ∧ 4 * n ≤ room) := by
  refine ⟨?_, ?_, ?_⟩
  · exact ⟨((fill base [dom 37])), 16, 0x35070C, 6, 4, false, by decide +kernel⟩
  · exact ⟨base, 0, A.GV_PDSTAT0, 1, 0, false, by decide +kernel⟩
  · exact ⟨base, 16, A.MT_NOW_CYC, 2, 8, true, by decide +kernel⟩

theorem witness_palette_commit_rule :
    (∃ (s : State) (t : Nat) (d : Dev) (k : ChanId) (b : Bool) (c : Instr) (w : Nat → Word32), s.ready t d ∧
      (c = if b then .commitB t k else .commitA t k) ∧ (∀ n, w n = d.palWord k.val b n) ∧ d.chOn k.val = true ∧
      d.palIdle k.val b = false) ∧
    (∃ (s : State) (t : Nat) (d : Dev) (k : ChanId) (b : Bool) (c : Instr) (w : Nat → Word32), s.ready t d ∧
      (c = if b then .commitB t k else .commitA t k) ∧ (∀ n, w n = d.palWord k.val b n) ∧ d.chOn k.val = true ∧
      d.palIdle k.val b = true ∧ (5 < getBits (w 1) 0 3 ∨ getBits (w 1) 4 7 < 7 ∨ getBits (w 1) 12 3 = 0 ∨ 2 * getBits (w 1) 12
        3 < getBits (w 4) 0 4 ∨ getBits (w 1) 16 2 = 3 ∨ getBits (w 2) 0 26 < 2 ^ 24 ∨ 2 ^ 25 - 1 < getBits (w 2) 0 26 ∨
        getBits (w 5) 16 14 = 0)) ∧
    (∃ (s : State) (t : Nat) (d : Dev) (k : ChanId) (b : Bool) (c : Instr) (w : Nat → Word32), s.ready t d ∧
      (c = if b then .commitB t k else .commitA t k) ∧ (∀ n, w n = d.palWord k.val b n) ∧ d.chOn k.val = true ∧
      d.palIdle k.val b = true ∧ getBits (w 1) 0 3 ≤ 5 ∧ 7 ≤ getBits (w 1) 4 7 ∧ getBits (w 1) 12 3 ≠ 0 ∧
      getBits (w 4) 0 4 ≤ 2 * getBits (w 1) 12 3 ∧ getBits (w 1) 16 2 ≠ 3 ∧ 2 ^ 24 ≤ getBits (w 2) 0 26 ∧
      getBits (w 2) 0 26 ≤ 2 ^ 25 - 1 ∧ getBits (w 5) 16 14 ≠ 0) := by
  refine ⟨?_, ?_, ?_⟩
  · exact ⟨at0 headed, headed.now, headed, 0, false, _, (headed.palWord 0 false), ready0 headed ⟨rfl, rfl⟩, rfl, fun _ => rfl,
      by decide +kernel⟩
  · exact ⟨at0 base, base.now, base, 0, true, _, (base.palWord 0 true), ready0 base ⟨rfl, rfl⟩, rfl, fun _ => rfl,
      by decide +kernel⟩
  · exact ⟨at0 palDev, palDev.now, palDev, 0, true, _, (palDev.palWord 0 true), ready0 palDev ⟨rfl, rfl⟩, rfl, fun _ => rfl,
      by decide +kernel⟩

theorem witness_deep_enable_rule :
    (∃ (s : State) (t : Nat) (d : Dev) (q : Fin 1024) (v : Word32) (base dlog : Nat), s.ready t d ∧
      base = d.rd (F.QD_BASE_DBASE q.val) ∧ dlog = d.rd (F.QD_CFG_DLOG q.val) ∧ v = putBits (d.word (A.QD_CFG q.val)) 8 1 1 ∧
      d.domOn 76 = true ∧ d.on (F.QD_CFG_EN q.val) = false ∧ (22 < dlog ∨ 4194304 < base + 2 ^ dlog ∨
        (∃ r ∈ d.ringsBut q.val, base < r.1 + r.2 ∧ r.1 < base + 2 ^ dlog) ∨ d.domOn 78 = false ∨
        (d.ripen.free.map Prod.snd).sum < 48)) ∧
    (∃ (s : State) (t : Nat) (d : Dev) (q : Fin 1024) (v : Word32) (base dlog : Nat), ∃ cs l g, s.ready t d ∧
      base = d.rd (F.QD_BASE_DBASE q.val) ∧ dlog = d.rd (F.QD_CFG_DLOG q.val) ∧ v = putBits (d.word (A.QD_CFG q.val)) 8 1 1 ∧
      g = { d.ripen with free := l } ∧ takeRuns 48 d.ripen.free = some (cs, l) ∧ d.domOn 76 = true ∧
      d.on (F.QD_CFG_EN q.val) = false ∧ dlog ≤ 22 ∧ base + 2 ^ dlog ≤ 4194304 ∧
      (∀ r ∈ d.ringsBut q.val, r.1 + r.2 ≤ base ∨ base + 2 ^ dlog ≤ r.1) ∧ d.domOn 78 = true) := by
  refine ⟨?_, ?_⟩
  · exact ⟨at0 base, base.now, base, 0, _, _, _, ready0 base ⟨rfl, rfl⟩, rfl, rfl, rfl, by decide +kernel⟩
  · exact ⟨at0 ringDev, ringDev.now, ringDev, 0, _, _, _, _, _, _, ready0 ringDev ⟨rfl, rfl⟩, rfl, rfl, rfl, rfl, rfl,
      by decide +kernel⟩

theorem witness_svn_commit_rule :
    (∃ (s : State) (t : Nat) (d : Dev), s.awake t d ∧ d.root.cmd = some (3, 0) ∧ d.root.otp.svn < d.rd F.RT_STATUS_IMGSVN ∧
      d.rd F.RT_STATUS_IMGSVN ≤ 128) ∧
    (∃ (s : State) (t : Nat) (d : Dev) (g : Dev), s.awake t d ∧ g = { d with root := { d.root with cmd := none } } ∧
      d.root.cmd = some (3, 0) ∧ d.rd F.RT_STATUS_IMGSVN ≤ d.root.otp.svn) := by
  refine ⟨?_, ?_⟩
  · exact ⟨at0 (svnDev 1), (svnDev 1).now, (svnDev 1), awake0 (svnDev 1) rfl, by decide +kernel⟩
  · exact ⟨at0 (svnDev 0), (svnDev 0).now, (svnDev 0), _, awake0 (svnDev 0) rfl, rfl, by decide +kernel⟩

theorem witness_job_queue_rule :
    (∃ (s : State) (t : Nat) (i : Nat) (o : Nat) (d : Dev) (p : PageId), s.ready t d ∧ i = d.rd (F.PG_JCFG_JINQ p.val) ∧
      o = d.rd (F.PG_JCFG_JOUTQ p.val) ∧ d.domOn 70 = true ∧ Regs.wf d.regs = true ∧
      (d.on (F.QS_CFG_EN i) = false ∨ d.on (F.QS_CFG_EN o) = false ∨ d.rd (F.QS_OWN_TENANT i) ≠ p.val ∨ d.rd (F.QS_OWN_TENANT o)
        ≠ p.val ∨ i = o)) ∧
    (∃ (s : State) (t : Nat) (i : Nat) (o : Nat) (d : Dev) (p : PageId), ∃ a, s.ready t d ∧ i = d.rd (F.PG_JCFG_JINQ p.val) ∧
      o = d.rd (F.PG_JCFG_JOUTQ p.val) ∧ d.domOn 70 = true ∧ Regs.wf d.regs = true ∧ d.on (F.QS_CFG_EN i) = true ∧
      d.on (F.QS_CFG_EN o) = true ∧ d.rd (F.QS_OWN_TENANT i) = p.val ∧ d.rd (F.QS_OWN_TENANT o) = p.val ∧ i ≠ o ∧
      a ≠ A.PG_JCFG p.val) := by
  refine ⟨?_, ?_⟩
  · exact ⟨at0 base, base.now, _, _, base, 0, ready0 base ⟨rfl, rfl⟩, rfl, rfl, by decide +kernel⟩
  · exact ⟨at0 jobDev, jobDev.now, _, _, jobDev, 0, 0, ready0 jobDev ⟨rfl, rfl⟩, rfl, rfl, by decide +kernel⟩

theorem witness_over_budget_rule :
    (∃ (d e : Dev) (was : Bool) (rails : List Nat) (l : List (Nat × Nat)), ∃ n, l = (d.gov.power ++ [(d.now, rails.sum)]).filter
      (fun e => d.now < e.1 + 1000000 * d.winMs) ∧ e = d.takePower was rails ∧ Regs.wf d.regs = true ∧
      100000 * d.cap < (l.map Prod.snd).sum ∧ n < 80) ∧
    (∃ (d e : Dev) (was : Bool) (rails : List Nat) (l : List (Nat × Nat)), ∃ k, l = (d.gov.power ++ [(d.now, rails.sum)]).filter
      (fun e => d.now < e.1 + 1000000 * d.winMs) ∧ e = d.takePower was rails ∧ Regs.wf d.regs = true ∧
      100000 * d.cap < (l.map Prod.snd).sum ∧ k < 64) := by
  refine ⟨?_, ?_⟩
  · exact ⟨timed, _, 0, [100000 * timed.cap + 1], _, 79, rfl, rfl, by decide +kernel⟩
  · exact ⟨timed, _, 0, [100000 * timed.cap, 1], _, 63, rfl, rfl, by decide +kernel⟩

theorem witness_mains_time_commands_complete :
    (∃ (s : State) (t : Nat) (d : Dev) (m : Mains) (input : Fin 4) (falling : Bool) (z : Int) (e : Int) (r : CycleRec),
      s.awake t d ∧ z = (d.now : Int) - 180 - d.rdS (F.MT_OFS_ZC_OFFSET input) ∧ r = d.cycleOf z ∧ e = z - r.t0 ∧
      m = { d.mains with lastHit := Tab.set 0 d.mains.lastHit input d.now } ∧ d.on (F.MSNS_CFG_EN input) = true ∧
      d.edgeAdmits input falling = true ∧
      (Tab.get 0 d.mains.lastHit input = 0 ∨ Tab.get 0 d.mains.lastHit input + d.rd (F.MSNS_CFG_BLANK input) * 64000 ≤ d.now) ∧
      d.rd F.MT_STATUS_STATE = 2 ∧ d.rd F.MT_CFG_REFSEL = input.val ∧ d.refConflict = false ∧ d.on F.MT_CFG_REF_EDGE = falling ∧
      d.mains.onAlt = false ∧ (∀ h ∈ d.mains.hits, h.1 ≠ r.c) ∧ e.natAbs * 2 ^ 20 ≤ d.jumpLimit * r.l) ∧
    (∃ (s : State) (t : Nat) (d : Dev) (m : Mains) (input : Fin 4) (falling : Bool) (z : Int) (gs : List Nat), s.awake t d ∧
      z = (d.now : Int) - 180 - d.rdS (F.MT_OFS_ZC_OFFSET input) ∧ gs = (d.mains.cur.at_ z.toNat).2 :: d.mains.altGrains ∧
      m = { d.mains with lastHit := Tab.set 0 d.mains.lastHit input d.now, altGrains := gs } ∧
      d.on (F.MSNS_CFG_EN input) = true ∧ d.edgeAdmits input falling = true ∧
      (Tab.get 0 d.mains.lastHit input = 0 ∨ Tab.get 0 d.mains.lastHit input + d.rd (F.MSNS_CFG_BLANK input) * 64000 ≤ d.now) ∧
      d.rd F.MT_STATUS_STATE = 2 ∧ d.rd F.MT_CFG_REFSEL ≠ input.val ∧ d.altInput = some input.val ∧
      d.on F.MT_CFG_REF_EDGE = falling ∧ d.mains.onAlt = false ∧ (d.mains.cur.t0 : Int) ≤ z ∧ gs.length < 16) ∧
    (∃ (s : State) (t : Nat) (d e : Dev) (period : Int) (n : CycleRec), s.awake t d ∧
      period = max (15151515 * 2 ^ 20) (min d.mains.p (66666666 * 2 ^ 20)) ∧
      n = ⟨d.mains.cur.c + 1, d.mains.cur.t0 + d.mains.cur.len, (period / 65536).toNat⟩ ∧
      e = { d with mains := { d.mains with held := d.mains.held + 1, next := some n } } ∧
      (d.rd F.MT_STATUS_STATE = 4 ∨ d.rd F.MT_STATUS_STATE = 5) ∧ d.mains.next = none ∧ 32768 ≤ d.grn ∧ period = d.mains.p) ∧
    (∃ (s : State) (t : Nat) (d e : Dev) (period : Int) (n : CycleRec), s.awake t d ∧
      period = max (15151515 * 2 ^ 20) (min d.mains.p (66666666 * 2 ^ 20)) ∧
      n = ⟨d.mains.cur.c + 1, d.mains.cur.t0 + d.mains.cur.len, (period / 65536).toNat⟩ ∧
      e = { d with mains := { d.mains with held := d.mains.held + 1, next := some n } } ∧
      (d.rd F.MT_STATUS_STATE = 4 ∨ d.rd F.MT_STATUS_STATE = 5) ∧ d.mains.next = none ∧ 32768 ≤ d.grn ∧ period ≠ d.mains.p) ∧
    (∃ (s : State) (t : Nat) (d : Dev) (z : Int) (e : Int) (corr : Int) (tc : Nat) (n : CycleRec), s.awake t d ∧
      d.mains.hits = [(d.mains.cur.c, z, e)] ∧ tc = min 5 (d.rd F.MT_CFG_TC) ∧
      corr = max (-(divZero d.mains.p 64)) (min (divZero (e * 2 ^ 20) (2 ^ (tc + 1))) (divZero d.mains.p 64)) ∧
      n = ⟨d.mains.cur.c + 1, d.mains.cur.t0 + d.mains.cur.len, ((d.mains.p + corr) / 65536).toNat⟩ ∧
      d.rd F.MT_STATUS_STATE = 2 ∧ d.mains.next = none ∧ 32768 ≤ d.grn ∧ 15151515 * 2 ^ 20 ≤ d.mains.p + corr ∧
      d.mains.p + corr ≤ 66666666 * 2 ^ 20) ∧
    (∃ (s : State) (t : Nat) (d : Dev) (m : Mains), ∃ a, s.awake t d ∧
      m = { d.mains with onAlt := true, okCyc := d.overCyc a true, seek := [] } ∧
      (d.rd F.MT_STATUS_STATE = 2 ∨ d.rd F.MT_STATUS_STATE = 3) ∧ max 1 (d.rd F.MT_HOLD_HOLD_MISS) ≤ d.missedRun ∧
      d.altInput = some a ∧ d.mains.onAlt = false ∧ d.on F.MT_STATUS_ALTVALID = true) ∧
    (∃ (s : State) (t : Nat) (d : Dev) (m : Mains), s.awake t d ∧ m = { d.mains with seek := [], outs := [], held := 0 } ∧
      (d.rd F.MT_STATUS_STATE = 2 ∨ d.rd F.MT_STATUS_STATE = 3) ∧ max 1 (d.rd F.MT_HOLD_HOLD_MISS) ≤ d.missedRun ∧
      d.altInput = none) ∧
    (∃ (s : State) (t : Nat) (d : Dev), s.awake t d ∧ d.rd F.MT_STATUS_STATE = 4 ∧ d.rd F.MT_HOLD_HOLD_MAX ≤ d.mains.held) ∧
    (∃ (s : State) (t c g : Nat) (d : Dev), s.ready t d ∧ d.mainsAt d.now = (c, g)) ∧
    (∃ (s : State) (t : Nat) (d : Dev) (m : Mains), s.awake t d ∧ m = { d.mains with refclk := true } ∧ d.mains.seek = [] ∧
      (∀ e ∈ d.seq, ∀ r ∈ e.2.reqs, r.answer = none)) := by
  refine ⟨?_, ?_, ?_, ?_, ?_, ?_, ?_, ?_, ?_, ?_⟩
  · exact ⟨at0 crossDev, crossDev.now, crossDev, _, 0, false, _, _, _, awake0 crossDev rfl, rfl, rfl, rfl, rfl,
      by decide +kernel⟩
  · exact ⟨at0 altDev, altDev.now, altDev, _, 1, false, _, _, awake0 altDev rfl, rfl, rfl, rfl, by decide +kernel⟩
  · exact ⟨at0 (lateDev 5 []), (lateDev 5 []).now, (lateDev 5 []), _, _, _, awake0 (lateDev 5 []) rfl, rfl, rfl, rfl,
      by decide +kernel⟩
  · exact ⟨at0 slowDev, slowDev.now, slowDev, _, _, _, awake0 slowDev rfl, rfl, rfl, rfl, by decide +kernel⟩
  · exact ⟨at0 (lateDev 2 [(10, 1000000, 0)]), (lateDev 2 [(10, 1000000, 0)]).now, (lateDev 2 [(10, 1000000, 0)]), _, _, _, _,
      _, awake0 (lateDev 2 [(10, 1000000, 0)]) rfl, rfl, rfl, rfl, rfl, by decide +kernel⟩
  · exact ⟨at0 learntDev, learntDev.now, learntDev, _, 3, awake0 learntDev rfl, rfl, by decide +kernel⟩
  · exact ⟨at0 (lateDev 3 []), (lateDev 3 []).now, (lateDev 3 []), _, awake0 (lateDev 3 []) rfl, rfl, by decide +kernel⟩
  · exact ⟨at0 (lateDev 4 []), (lateDev 4 []).now, (lateDev 4 []), awake0 (lateDev 4 []) rfl, by decide +kernel⟩
  · exact ⟨at0 timed, timed.now, _, _, timed, ready0 timed ⟨rfl, rfl⟩, pair_eq⟩
  · exact ⟨at0 noClk, noClk.now, noClk, _, awake0 noClk rfl, rfl, by decide +kernel⟩

theorem witness_palette_commands_complete :
    (∃ (s : State) (t : Nat) (d : Dev) (k : ChanId), s.ready t d ∧ d.domOn k.val = true ∧ d.palIdle k.val false = true ∧
      d.palOk k.val false = true) ∧
    (∃ (s : State) (t : Nat) (d : Dev) (k : ChanId), s.ready t d ∧ d.domOn k.val = true ∧ d.palIdle k.val true = true ∧
      d.palOk k.val true = true) ∧
    (∃ (s : State) (t : Nat) (d : Dev) (k : ChanId), s.ready t d ∧ d.domOn k.val = true ∧ d.palIdle k.val false = false) ∧
    (∃ (s : State) (t : Nat) (d : Dev) (k : ChanId), s.ready t d ∧ d.domOn k.val = true ∧ d.palIdle k.val true = false) ∧
    (∃ (s : State) (t : Nat) (d : Dev) (k : ChanId), s.ready t d ∧ d.domOn k.val = true ∧ d.palIdle k.val false = true ∧
      d.palOk k.val false = false) ∧
    (∃ (s : State) (t : Nat) (d : Dev) (k : ChanId), s.ready t d ∧ d.domOn k.val = true ∧ d.palIdle k.val true = true ∧
      d.palOk k.val true = false) ∧
    (∃ (s : State) (t : Nat) (d d1 d2 g : Dev) (k : ChanId) (e : PrmqEntry) (f : Nat) (w : Swap), s.ready t d ∧
      d1 = d.modCh k.val (fun c => { c with prmq := c.prmq.erase e }) ∧
      w = ⟨d1.rxBoundary k.val e.at_, d1.txBoundary k.val e.at_, !d1.activeB k.val, none⟩ ∧
      g = d1.runTx k.val (ceilDiv w.txAt (2 ^ 24)) ∧ d2 = ((g.wr (F.SC_STATUS_ACTIVE k) (1 - g.rd (F.SC_STATUS_ACTIVE k))).modCh
        k.val (fun c => { c with swaps := (w :: c.swaps).take 4 })).wr (F.SC_STATUS_LASTCODE k) 1 ∧
      dueSwap (d.ch k.val).prmq d.now = some (e, false, f) ∧ d1.members k.val = [k.val] ∧ d1.on (F.SC_STATUS_FADING k) = false ∧
      d1.on (loadedField k.val (!d1.activeB k.val)) = true ∧ d1.palCompatible k.val = true ∧
      (∀ r ∈ (d1.ch k.val).prmq, r.kind ≠ .reset)) ∧
    (∃ (s : State) (t r x : Nat) (d g : Dev) (k : ChanId) (w : Swap), s.ready t d ∧ d.fadeEnds k.val w = (r, x) ∧
      g = (d.wr (F.SC_STATUS_FADING k) 0).wr (F.SC_FADE_FADE_F k) 0 ∧ d.on (F.SC_STATUS_FADING k) = true ∧
      d.lastFade k.val = some w ∧ r ≤ d.now ∧ x ≤ d.now ∧ (d.ch k.val).swapPend = none) ∧
    (∃ (s : State) (t r x : Nat) (d g : Dev) (k : ChanId) (w : Swap), ∃ fade n h, s.ready t d ∧ d.fadeEnds k.val w = (r, x) ∧
      g = (d.wr (F.SC_STATUS_FADING k) 0).wr (F.SC_FADE_FADE_F k) 0 ∧
      h = (g.wr (F.SC_STATUS_PENDING k) 0).modCh k.val (fun c => { c with swapPend := none }) ∧
      d.on (F.SC_STATUS_FADING k) = true ∧ d.lastFade k.val = some w ∧ r ≤ d.now ∧ x ≤ d.now ∧
      (d.ch k.val).swapPend = some (fade, n)) ∧
    (∃ (s : State) (t : Nat) (d d1 d2 d3 : Dev) (cmd : Bool),
      d1 = (((d.wr F.GL_SYNCST_SYNCSRC (if cmd then 1 else 0)).wr F.GL_SYNCST_SYNCV 1).wr F.GL_SYNC_NS_LO_T d.now).wr
      F.GL_SYNC_NS_HI_T (d.now / 2 ^ 32) ∧ d2 = { d1 with syncAt := some (d.now + 200) } ∧
      d3 = ((List.range 64).filter d2.chOn).foldl (fun x k => x.pushPrmq k ⟨x.now + 200, .reset, 128, 0⟩) d2 ∧
      (if cmd then s.ready t d else s.awake t d) ∧ d.syncAt = none) ∧
    (∃ (s : State) (t : Nat) (d : Dev) (cmd : Bool), ∃ x, (if cmd then s.ready t d else s.awake t d) ∧ d.syncAt = some x ∧
      d.now < x ∧ cmd = true) ∧
    (∃ (s : State) (t : Nat) (d : Dev) (x : Nat), s.ready t d ∧ d.syncAt = some x ∧ x ≤ d.now) := by
  refine ⟨?_, ?_, ?_, ?_, ?_, ?_, ?_, ?_, ?_, ?_, ?_, ?_⟩
  · exact ⟨at0 palDev, palDev.now, palDev, 0, ready0 palDev ⟨rfl, rfl⟩, by decide +kernel⟩
  · exact ⟨at0 palDev, palDev.now, palDev, 0, ready0 palDev ⟨rfl, rfl⟩, by decide +kernel⟩
  · exact ⟨at0 headed, headed.now, headed, 0, ready0 headed ⟨rfl, rfl⟩, by decide +kernel⟩
  · exact ⟨at0 (fill headed [(F.SC_STATUS_ACTIVE 0, 1)]), (fill headed [(F.SC_STATUS_ACTIVE 0, 1)]).now,
      (fill headed [(F.SC_STATUS_ACTIVE 0, 1)]), 0, ready0 (fill headed [(F.SC_STATUS_ACTIVE 0, 1)]) ⟨rfl, rfl⟩,
      by decide +kernel⟩
  · exact ⟨at0 base, base.now, base, 0, ready0 base ⟨rfl, rfl⟩, by decide +kernel⟩
  · exact ⟨at0 base, base.now, base, 0, ready0 base ⟨rfl, rfl⟩, by decide +kernel⟩
  · exact ⟨at0 swapDev, swapDev.now, swapDev, _, _, _, 0, ⟨0, .swap false 4, 128, 0⟩, 4, _, ready0 swapDev ⟨rfl, rfl⟩, rfl, rfl,
      rfl, rfl, by decide +kernel⟩
  · exact ⟨at0 (fadingDev none), (fadingDev none).now, _, _, (fadingDev none), _, 0, aFade, ready0 (fadingDev none) ⟨rfl, rfl⟩,
      pair_eq, rfl, by decide +kernel⟩
  · exact ⟨at0 ((fadingDev (some (true, 3)))), ((fadingDev (some (true, 3)))).now, _, _, ((fadingDev (some (true, 3)))), _, 0,
      aFade, true, 3, _, ready0 ((fadingDev (some (true, 3)))) ⟨rfl, rfl⟩, pair_eq, rfl, rfl, by decide +kernel⟩
  · exact ⟨at0 base, base.now, _, _, _, _, true, rfl, rfl, rfl, ready0 base ⟨rfl, rfl⟩, by decide +kernel⟩
  · exact ⟨at0 waitSync, waitSync.now, _, true, 100, ready0 waitSync ⟨rfl, rfl⟩, by decide +kernel⟩
  · exact ⟨at0 syncDev, syncDev.now, syncDev, 0, ready0 syncDev ⟨rfl, rfl⟩, by decide +kernel⟩

theorem witness_counter_commands_complete :
    (∃ (s : State) (t : Nat) (d d1 : Dev) (c : Fin 2048) (i : Fin 3) (v sel thr : Word32) (wt : Nat) (x : Counter),
      s.ready t d ∧ x = d.counter c.val ∧ sel = d1.word (A.CNT_SEL c.val) ∧ thr = d1.word (A.CNT_THR c.val) ∧
      wt = d1.rd (F.CNT_CTL_WT c.val) ∧ d1 = (match i with
          | 0 => d.setWord (A.CNT_SEL c.val) (v &&& 0x3F1F1FFF#32)
          | 1 => d.setWord (A.CNT_THR c.val) v
          | 2 => d.setWord (A.CNT_CTL c.val) (v &&& 0x1F7#32)) ∧ d.domOn 76 = true ∧
      (i = 2 → d1.rd (F.CNT_CTL_WT c.val) ≠ d.rd (F.CNT_CTL_WT c.val)) ∧ getBits x.sel 24 5 = 0) ∧
    (∃ (s : State) (t : Nat) (d d1 : Dev) (c : Fin 2048) (i : Fin 3) (v sel thr : Word32) (wt : Nat) (x : Counter),
      s.ready t d ∧ x = d.counter c.val ∧ sel = d1.word (A.CNT_SEL c.val) ∧ thr = d1.word (A.CNT_THR c.val) ∧
      wt = d1.rd (F.CNT_CTL_WT c.val) ∧ d1 = (match i with
          | 0 => d.setWord (A.CNT_SEL c.val) (v &&& 0x3F1F1FFF#32)
          | 1 => d.setWord (A.CNT_THR c.val) v
          | 2 => d.setWord (A.CNT_CTL c.val) (v &&& 0x1F7#32)) ∧ d.domOn 76 = true ∧
      (i = 2 → d1.rd (F.CNT_CTL_WT c.val) ≠ d.rd (F.CNT_CTL_WT c.val)) ∧ getBits x.sel 24 5 ≠ 0) ∧
    (∃ (s : State) (t : Nat) (d : Dev) (d1 : Dev) (c : Fin 2048) (v : Word32), s.ready t d ∧
      d1 = d.setWord (A.CNT_CTL c.val) (v &&& 0x1F7#32) ∧ d.domOn 76 = true ∧
      d1.rd (F.CNT_CTL_WT c.val) = d.rd (F.CNT_CTL_WT c.val)) ∧
    (∃ (s : State) (t : Nat) (d : Dev), s.ready t d ∧ d.domOn 76 = true) ∧
    (∃ (s : State) (t : Nat) (d : Dev) (c : Fin 2048) (x : Counter) (y : Capture), s.ready t d ∧ x = d.counter c.val ∧
      y = ⟨x.value, x.wrap, x.pend.isSome, d.now, (d.mainsAt d.now).1 % 2 ^ 32, (d.mainsAt d.now).2, c.val, true⟩ ∧
      d.domOn 76 = true ∧ eventKept x.sel = true) ∧
    (∃ (s : State) (t : Nat) (d : Dev), s.ready t d ∧ d.domOn 76 = true) ∧
    (∃ (s : State) (t : Nat) (d : Dev) (d1 : Dev) (v : Word32), s.ready t d ∧
      d1 = (d.setWord A.BW_CFG (v &&& 0xF#32)).wr F.BW_STAT_VALID 0 ∧ d.domOn 76 = true) ∧
    (∃ (s : State) (t n : Nat) (d d1 g : Dev) (j : Fin 8) (x : Timer), s.ready t d ∧ x = d.timer j.val ∧
      n = max 1 (getBits x.cfg 16 16) ∧
      d1 = { d with counters := d.counters.map (fun e => if e.2.wt = j.val then (e.1, d.takeSetting e.2) else e) } ∧
      g = d1.setTimer j.val ⟨d.word (A.WT_CFG j.val), d.now, d.cycle⟩ ∧ d.domOn 76 = true ∧
      (x.cfg.getLsbD 0 = false → x.last + 1000 * n ≤ d.now) ∧ (x.cfg.getLsbD 0 = true → d.timeRuns = true ∧
        n ≤ (d.cycle + 2 ^ 32 - x.lastCycle) % 2 ^ 32 ∧ (d.cycle + 2 ^ 32 - x.lastCycle) % 2 ^ 32 < 2 ^ 31)) ∧
    (∃ (d : Dev) (x : Counter) (sel thr : Word32) (wt : Nat), x.pend = some (sel, thr, wt) ∧ x.pendAt ≠ d.cclk + 1) := by
  refine ⟨?_, ?_, ?_, ?_, ?_, ?_, ?_, ?_, ?_⟩
  · exact ⟨at0 base, base.now, base, _, 0, 1, 7, _, _, _, _, ready0 base ⟨rfl, rfl⟩, rfl, rfl, rfl, rfl, rfl, by decide +kernel⟩
  · exact ⟨at0 cntDev, cntDev.now, cntDev, _, 0, 2, 7, _, _, _, _, ready0 cntDev ⟨rfl, rfl⟩, rfl, rfl, rfl, rfl, rfl,
      by decide +kernel⟩
  · exact ⟨at0 base, base.now, base, _, 2047, 0x10, ready0 base ⟨rfl, rfl⟩, rfl, by decide +kernel⟩
  · exact ⟨at0 base, base.now, base, ready0 base ⟨rfl, rfl⟩, by decide +kernel⟩
  · exact ⟨at0 cntDev, cntDev.now, cntDev, 0, _, _, ready0 cntDev ⟨rfl, rfl⟩, rfl, rfl, by decide +kernel⟩
  · exact ⟨at0 base, base.now, base, ready0 base ⟨rfl, rfl⟩, by decide +kernel⟩
  · exact ⟨at0 base, base.now, base, _, 1, ready0 base ⟨rfl, rfl⟩, rfl, by decide +kernel⟩
  · exact ⟨at0 ({ base with now := 1000000 }), ({ base with now := 1000000 }).now, _, ({ base with now := 1000000 }), _, _, 0,
      _, ready0 ({ base with now := 1000000 }) ⟨rfl, rfl⟩, rfl, rfl, rfl, rfl, by decide +kernel⟩
  · exact ⟨base, { pend := some (1, 2, 3) }, 1, 2, 3, by decide +kernel⟩

theorem witness_control_steps_complete :
    (∃ (s : State) (t : Nat) (d : Dev) (e : Dev) (q : SeqId) (st : Step) (x : Nat), ∃ n, s.ready t d ∧
      d.takesStep e q.val st x ∧ st.op = .halt n ∧ e.cond q.val st.cond.toNat = true) ∧
    (∃ (s : State) (t : Nat) (d : Dev) (e : Dev) (q : SeqId) (st : Step) (x : Nat), ∃ c n tg, s.ready t d ∧
      d.takesStep e q.val st x ∧ st.op = .loop c true n tg ∧ e.cond q.val st.cond.toNat = true) ∧
    (∃ (s : State) (t : Nat) (d : Dev) (e : Dev) (q : SeqId) (st : Step) (x : Nat), ∃ c n tg v, s.ready t d ∧
      d.takesStep e q.val st x ∧ st.op = .loop c false n tg ∧ e.cond q.val st.cond.toNat = true ∧
      (e.sq q.val).loops.getD c.toNat 0 = v + 2) ∧
    (∃ (s : State) (t : Nat) (d : Dev) (e : Dev) (q : SeqId) (st : Step) (x : Nat), ∃ c n tg, s.ready t d ∧
      d.takesStep e q.val st x ∧ st.op = .loop c false n tg ∧ e.cond q.val st.cond.toNat = true ∧
      (e.sq q.val).loops.getD c.toNat 0 = 1) ∧
    (∃ (s : State) (t : Nat) (d : Dev) (e : Dev) (q : SeqId) (st : Step) (x : Nat), ∃ c n tg, s.ready t d ∧
      d.takesStep e q.val st x ∧ st.op = .loop c false n tg ∧ e.cond q.val st.cond.toNat = true ∧
      (e.sq q.val).loops.getD c.toNat 0 = 0) ∧
    (∃ (s : State) (t : Nat) (d : Dev) (e : Dev) (q : SeqId) (st : Step) (x : Nat), ∃ tg, s.ready t d ∧
      d.takesStep e q.val st x ∧ st.op = .call tg ∧ e.cond q.val st.cond.toNat = true ∧ (e.sq q.val).stack.length < 8) ∧
    (∃ (s : State) (t : Nat) (d : Dev) (e : Dev) (q : SeqId) (st : Step) (x : Nat), ∃ i l, s.ready t d ∧
      d.takesStep e q.val st x ∧ st.op = .ret ∧ e.cond q.val st.cond.toNat = true ∧ (e.sq q.val).stack = i :: l) ∧
    (∃ (s : State) (t : Nat) (d : Dev) (e : Dev) (q : SeqId) (st : Step) (x : Nat), ∃ code, s.ready t d ∧
      d.takesStep e q.val st x ∧ st.op = .noteNotice code ∧ e.cond q.val st.cond.toNat = true) ∧
    (∃ (s : State) (t : Nat) (d : Dev) (e : Dev) (q : SeqId) (st : Step) (x : Nat), ∃ code, s.ready t d ∧
      d.takesStep e q.val st x ∧ st.op = .noteEvent code ∧ e.cond q.val st.cond.toNat = true) ∧
    (∃ (s : State) (t : Nat) (d : Dev) (e : Dev) (q : SeqId) (st : Step) (x : Nat), ∃ pf, s.ready t d ∧
      d.takesStep e q.val st x ∧ st.op = .noteFlag false pf ∧ e.cond q.val st.cond.toNat = true) ∧
    (∃ (s : State) (t : Nat) (d : Dev) (e : Dev) (q : SeqId) (st : Step) (x : Nat), ∃ pf, s.ready t d ∧
      d.takesStep e q.val st x ∧ st.op = .noteFlag true pf ∧ e.cond q.val st.cond.toNat = true) ∧
    (∃ (s : State) (t : Nat) (d : Dev) (e : Dev) (q : SeqId) (st : Step) (x : Nat), ∃ inv tg, s.ready t d ∧
      d.takesStep e q.val st x ∧ st.op = .branch inv tg) := by
  refine ⟨?_, ?_, ?_, ?_, ?_, ?_, ?_, ?_, ?_, ?_, ?_, ?_⟩
  · exact ⟨at0 (sqDev (step0 (.halt true)) {} []), (sqDev (step0 (.halt true)) {} []).now, (sqDev (step0 (.halt true)) {} []),
      _, 0, (step0 (.halt true)), startOf11, true, ready0 (sqDev (step0 (.halt true)) {} []) ⟨rfl, rfl⟩,
      takes _ 0 _ _ (by decide +kernel), rfl, by decide +kernel⟩
  · exact ⟨at0 (sqDev (step0 (.loop 1 true 5 3)) {} []), (sqDev (step0 (.loop 1 true 5 3)) {} []).now,
      (sqDev (step0 (.loop 1 true 5 3)) {} []), _, 0, (step0 (.loop 1 true 5 3)), startOf11, 1, 5, 3,
      ready0 (sqDev (step0 (.loop 1 true 5 3)) {} []) ⟨rfl, rfl⟩, takes _ 0 _ _ (by decide +kernel), rfl, by decide +kernel⟩
  · exact ⟨at0 (sqDev (step0 (.loop 1 false 0 3)) { loops := [0, 2, 0, 0] } []),
      (sqDev (step0 (.loop 1 false 0 3)) { loops := [0, 2, 0, 0] } []).now,
      (sqDev (step0 (.loop 1 false 0 3)) { loops := [0, 2, 0, 0] } []), _, 0, (step0 (.loop 1 false 0 3)), startOf11, 1, 0, 3,
      0, ready0 (sqDev (step0 (.loop 1 false 0 3)) { loops := [0, 2, 0, 0] } []) ⟨rfl, rfl⟩, takes _ 0 _ _ (by decide +kernel),
      rfl, by decide +kernel⟩
  · exact ⟨at0 (sqDev (step0 (.loop 1 false 0 3)) { loops := [0, 1, 0, 0] } []),
      (sqDev (step0 (.loop 1 false 0 3)) { loops := [0, 1, 0, 0] } []).now,
      (sqDev (step0 (.loop 1 false 0 3)) { loops := [0, 1, 0, 0] } []), _, 0, (step0 (.loop 1 false 0 3)), startOf11, 1, 0, 3,
      ready0 (sqDev (step0 (.loop 1 false 0 3)) { loops := [0, 1, 0, 0] } []) ⟨rfl, rfl⟩, takes _ 0 _ _ (by decide +kernel),
      rfl, by decide +kernel⟩
  · exact ⟨at0 (sqDev (step0 (.loop 1 false 0 3)) {} []), (sqDev (step0 (.loop 1 false 0 3)) {} []).now,
      (sqDev (step0 (.loop 1 false 0 3)) {} []), _, 0, (step0 (.loop 1 false 0 3)), startOf11, 1, 0, 3,
      ready0 (sqDev (step0 (.loop 1 false 0 3)) {} []) ⟨rfl, rfl⟩, takes _ 0 _ _ (by decide +kernel), rfl, by decide +kernel⟩
  · exact ⟨at0 (sqDev (step0 (.call 3)) { stack := [1, 2, 3, 4, 5, 6, 7] } []),
      (sqDev (step0 (.call 3)) { stack := [1, 2, 3, 4, 5, 6, 7] } []).now,
      (sqDev (step0 (.call 3)) { stack := [1, 2, 3, 4, 5, 6, 7] } []), _, 0, (step0 (.call 3)), startOf11, 3,
      ready0 (sqDev (step0 (.call 3)) { stack := [1, 2, 3, 4, 5, 6, 7] } []) ⟨rfl, rfl⟩, takes _ 0 _ _ (by decide +kernel), rfl,
      by decide +kernel⟩
  · exact ⟨at0 (sqDev (step0 (.ret)) { stack := [7] } []), (sqDev (step0 (.ret)) { stack := [7] } []).now,
      (sqDev (step0 (.ret)) { stack := [7] } []), _, 0, (step0 (.ret)), startOf11, 7, [],
      ready0 (sqDev (step0 (.ret)) { stack := [7] } []) ⟨rfl, rfl⟩, takes _ 0 _ _ (by decide +kernel), rfl, by decide +kernel⟩
  · exact ⟨at0 (sqDev (step0 (.noteNotice 77)) {} []), (sqDev (step0 (.noteNotice 77)) {} []).now,
      (sqDev (step0 (.noteNotice 77)) {} []), _, 0, (step0 (.noteNotice 77)), startOf11, 77,
      ready0 (sqDev (step0 (.noteNotice 77)) {} []) ⟨rfl, rfl⟩, takes _ 0 _ _ (by decide +kernel), rfl, by decide +kernel⟩
  · exact ⟨at0 (sqDev (step0 (.noteEvent 77)) {} []), (sqDev (step0 (.noteEvent 77)) {} []).now,
      (sqDev (step0 (.noteEvent 77)) {} []), _, 0, (step0 (.noteEvent 77)), startOf11, 77,
      ready0 (sqDev (step0 (.noteEvent 77)) {} []) ⟨rfl, rfl⟩, takes _ 0 _ _ (by decide +kernel), rfl, by decide +kernel⟩
  · exact ⟨at0 (sqDev (step0 (.noteFlag false 2)) {} []), (sqDev (step0 (.noteFlag false 2)) {} []).now,
      (sqDev (step0 (.noteFlag false 2)) {} []), _, 0, (step0 (.noteFlag false 2)), startOf11, 2,
      ready0 (sqDev (step0 (.noteFlag false 2)) {} []) ⟨rfl, rfl⟩, takes _ 0 _ _ (by decide +kernel), rfl, by decide +kernel⟩
  · exact ⟨at0 (sqDev (step0 (.noteFlag true 2)) {} []), (sqDev (step0 (.noteFlag true 2)) {} []).now,
      (sqDev (step0 (.noteFlag true 2)) {} []), _, 0, (step0 (.noteFlag true 2)), startOf11, 2,
      ready0 (sqDev (step0 (.noteFlag true 2)) {} []) ⟨rfl, rfl⟩, takes _ 0 _ _ (by decide +kernel), rfl, by decide +kernel⟩
  · exact ⟨at0 (sqDev (step0 (.branch true 5)) {} []), (sqDev (step0 (.branch true 5)) {} []).now,
      (sqDev (step0 (.branch true 5)) {} []), _, 0, (step0 (.branch true 5)), startOf11, true, 5,
      ready0 (sqDev (step0 (.branch true 5)) {} []) ⟨rfl, rfl⟩, takes _ 0 _ _ (by decide +kernel), rfl⟩

theorem witness_wait_steps_complete :
    (∃ (s : State) (t : Nat) (d : Dev) (e : Dev) (g : Dev) (q : SeqId) (st : Step) (x : Nat) (wk : BitVec 3) (setbt : Bool)
      (lateok : Bool) (pf : BitVec 2), s.ready t d ∧ d.takesStep e q.val st x ∧ st.op = .wait wk setbt lateok pf ∧
      (g = e.modSq q.val (fun z => { z with run := 0 })) ∧ e.cond q.val st.cond.toNat = true ∧ g.stepTime q.val st 0 = some x ∧
      g.now ≤ x ∧ wk = 0) ∧
    (∃ (s : State) (t : Nat) (d : Dev) (e : Dev) (g : Dev) (q : SeqId) (st : Step) (x : Nat) (wk : BitVec 3) (setbt : Bool)
      (lateok : Bool) (pf : BitVec 2), s.ready t d ∧ d.takesStep e q.val st x ∧ st.op = .wait wk setbt lateok pf ∧
      (g = e.modSq q.val (fun z => { z with run := 0 })) ∧ e.cond q.val st.cond.toNat = true ∧ g.stepTime q.val st 0 = some x ∧
      g.now ≤ x ∧ wk = 1) ∧
    (∃ (s : State) (t : Nat) (d : Dev) (e : Dev) (g : Dev) (q : SeqId) (st : Step) (x : Nat) (wk : BitVec 3) (setbt : Bool)
      (lateok : Bool) (pf : BitVec 2), s.ready t d ∧ d.takesStep e q.val st x ∧ st.op = .wait wk setbt lateok pf ∧
      (g = e.modSq q.val (fun z => { z with run := 0 })) ∧ e.cond q.val st.cond.toNat = true ∧ g.stepTime q.val st 0 = some x ∧
      g.now ≤ x ∧ wk = 2) ∧
    (∃ (s : State) (t : Nat) (d : Dev) (e : Dev) (g : Dev) (q : SeqId) (st : Step) (x : Nat) (wk : BitVec 3) (setbt : Bool)
      (lateok : Bool) (pf : BitVec 2), s.ready t d ∧ d.takesStep e q.val st x ∧ st.op = .wait wk setbt lateok pf ∧
      (g = e.modSq q.val (fun z => { z with run := 0 })) ∧ e.cond q.val st.cond.toNat = true ∧ g.stepTime q.val st 0 = some x ∧
      g.now ≤ x ∧ wk = 3) ∧
    (∃ (s : State) (t : Nat) (d : Dev) (e : Dev) (g : Dev) (q : SeqId) (st : Step) (x : Nat) (wk : BitVec 3) (setbt : Bool)
      (lateok : Bool) (pf : BitVec 2), s.ready t d ∧ d.takesStep e q.val st x ∧ st.op = .wait wk setbt lateok pf ∧
      (g = e.modSq q.val (fun z => { z with run := 0 })) ∧ e.cond q.val st.cond.toNat = true ∧ g.stepTime q.val st 0 = some x ∧
      g.now ≤ x ∧ wk = 4) ∧
    (∃ (s : State) (t : Nat) (d : Dev) (e : Dev) (g : Dev) (q : SeqId) (st : Step) (x : Nat) (wk : BitVec 3) (setbt : Bool)
      (lateok : Bool) (pf : BitVec 2), s.ready t d ∧ d.takesStep e q.val st x ∧ st.op = .wait wk setbt lateok pf ∧
      (g = e.modSq q.val (fun z => { z with run := 0 })) ∧ e.cond q.val st.cond.toNat = true ∧ g.stepTime q.val st 0 = some x ∧
      g.now ≤ x ∧ wk = 5) ∧
    (∃ (s : State) (t : Nat) (d : Dev) (e : Dev) (g : Dev) (q : SeqId) (st : Step) (x : Nat) (wk : BitVec 3) (setbt : Bool)
      (lateok : Bool) (pf : BitVec 2), s.ready t d ∧ d.takesStep e q.val st x ∧ st.op = .wait wk setbt lateok pf ∧
      (g = e.modSq q.val (fun z => { z with run := 0 })) ∧ e.cond q.val st.cond.toNat = true ∧ g.stepTime q.val st 0 = some x ∧
      g.now ≤ x ∧ wk = 6) ∧
    (∃ (s : State) (t : Nat) (d : Dev) (q : SeqId) (st : Step) (setbt : Bool) (lateok : Bool) (pf : BitVec 2) (b : Nat × Nat),
      s.ready t d ∧ st.op = .wait 0 setbt lateok pf ∧ b = d.waitBase q.val st (d.sq q.val).target ∧ d.sqState q.val = 3 ∧
      d.stepAt q.val = some st ∧ (d.sq q.val).target ≤ d.now) := by
  refine ⟨?_, ?_, ?_, ?_, ?_, ?_, ?_, ?_⟩
  · exact ⟨at0 (sqDev (step0 (.wait 0 false false 0)) {} []), (sqDev (step0 (.wait 0 false false 0)) {} []).now,
      (sqDev (step0 (.wait 0 false false 0)) {} []), _, _, 0, (step0 (.wait 0 false false 0)), startOf11, 0, false, false, 0,
      ready0 (sqDev (step0 (.wait 0 false false 0)) {} []) ⟨rfl, rfl⟩, takes _ 0 _ _ (by decide +kernel), rfl, rfl,
      by decide +kernel⟩
  · exact ⟨at0 (sqDev (step0 (.wait 1 false false 0)) {} []), (sqDev (step0 (.wait 1 false false 0)) {} []).now,
      (sqDev (step0 (.wait 1 false false 0)) {} []), _, _, 0, (step0 (.wait 1 false false 0)), startOf11, 1, false, false, 0,
      ready0 (sqDev (step0 (.wait 1 false false 0)) {} []) ⟨rfl, rfl⟩, takes _ 0 _ _ (by decide +kernel), rfl, rfl,
      by decide +kernel⟩
  · exact ⟨at0 (sqDev (step0 (.wait 2 false false 0)) {} []), (sqDev (step0 (.wait 2 false false 0)) {} []).now,
      (sqDev (step0 (.wait 2 false false 0)) {} []), _, _, 0, (step0 (.wait 2 false false 0)), startOf11, 2, false, false, 0,
      ready0 (sqDev (step0 (.wait 2 false false 0)) {} []) ⟨rfl, rfl⟩, takes _ 0 _ _ (by decide +kernel), rfl, rfl,
      by decide +kernel⟩
  · exact ⟨at0 (sqDev (step0 (.wait 3 false false 0)) {} []), (sqDev (step0 (.wait 3 false false 0)) {} []).now,
      (sqDev (step0 (.wait 3 false false 0)) {} []), _, _, 0, (step0 (.wait 3 false false 0)), startOf11, 3, false, false, 0,
      ready0 (sqDev (step0 (.wait 3 false false 0)) {} []) ⟨rfl, rfl⟩, takes _ 0 _ _ (by decide +kernel), rfl, rfl,
      by decide +kernel⟩
  · exact ⟨at0 (sqDev (step0 (.wait 4 false false 0)) {} []), (sqDev (step0 (.wait 4 false false 0)) {} []).now,
      (sqDev (step0 (.wait 4 false false 0)) {} []), _, _, 0, (step0 (.wait 4 false false 0)), startOf11, 4, false, false, 0,
      ready0 (sqDev (step0 (.wait 4 false false 0)) {} []) ⟨rfl, rfl⟩, takes _ 0 _ _ (by decide +kernel), rfl, rfl,
      by decide +kernel⟩
  · exact ⟨at0 (sqDev (step0 (.wait 5 false false 2)) {} []), (sqDev (step0 (.wait 5 false false 2)) {} []).now,
      (sqDev (step0 (.wait 5 false false 2)) {} []), _, _, 0, (step0 (.wait 5 false false 2)), startOf11, 5, false, false, 2,
      ready0 (sqDev (step0 (.wait 5 false false 2)) {} []) ⟨rfl, rfl⟩, takes _ 0 _ _ (by decide +kernel), rfl, rfl,
      by decide +kernel⟩
  · exact ⟨at0 (sqDev (step0 (.wait 6 false false 2)) {} []), (sqDev (step0 (.wait 6 false false 2)) {} []).now,
      (sqDev (step0 (.wait 6 false false 2)) {} []), _, _, 0, (step0 (.wait 6 false false 2)), startOf11, 6, false, false, 2,
      ready0 (sqDev (step0 (.wait 6 false false 2)) {} []) ⟨rfl, rfl⟩, takes _ 0 _ _ (by decide +kernel), rfl, rfl,
      by decide +kernel⟩
  · exact ⟨at0 (sqDev (step0 (.wait 0 true false 0)) { target := 1500000 } [(F.SQ_STATUS_STATE 0, 3)]),
      (sqDev (step0 (.wait 0 true false 0)) { target := 1500000 } [(F.SQ_STATUS_STATE 0, 3)]).now,
      (sqDev (step0 (.wait 0 true false 0)) { target := 1500000 } [(F.SQ_STATUS_STATE 0, 3)]), 0,
      (step0 (.wait 0 true false 0)), true, false, 0, _,
      ready0 (sqDev (step0 (.wait 0 true false 0)) { target := 1500000 } [(F.SQ_STATUS_STATE 0, 3)]) ⟨rfl, rfl⟩, rfl, rfl,
      by decide +kernel⟩

theorem witness_arm_and_request_steps_complete :
    (∃ (s : State) (t : Nat) (d : Dev) (e : Dev) (q : SeqId) (st : Step) (x : Nat), ∃ a i, s.ready t d ∧
      d.takesStep e q.val st x ∧ st.op = .armNode a ∧ e.cond q.val st.cond.toNat = true ∧
      e.lookup (e.tgt q.val) a.toNat = some i) ∧
    (∃ (s : State) (t : Nat) (d e : Dev) (q : SeqId) (st : Step) (x : Nat), ∃ a g, s.ready t d ∧ d.takesStep e q.val st x ∧
      g = e.modSq q.val (fun z => { z with armed := none }) ∧ e.cond q.val st.cond.toNat = true ∧ st.op = .armNode a ∧
      e.lookup (e.tgt q.val) a.toNat = none) ∧
    (∃ (s : State) (t : Nat) (d e : Dev) (q : SeqId) (st : Step) (x : Nat), ∃ f fade, s.ready t d ∧ d.takesStep e q.val st x ∧
      e.cond q.val st.cond.toNat = true ∧ st.op = .armSwap f fade ∧ (e.sq q.val).stall = none ∧
      e.prmqRoom (e.tgt q.val) 1 = true ∧ e.ownerOk q.val = true ∧ e.now + 40 ≤ x) ∧
    (∃ (s : State) (t : Nat) (d : Dev) (e : Dev) (q : SeqId) (st : Step) (x : Nat), ∃ i, s.ready t d ∧
      d.takesStep e q.val st x ∧ st.op = .armPath ∧ e.cond q.val st.cond.toNat = true ∧ (e.sq q.val).armed = some i ∧
      e.pathBusy i = false ∧ (∃ p ∈ e.loader.paths, p.1 = e.tgt q.val)) ∧
    (∃ (s : State) (t : Nat) (d e : Dev) (q : SeqId) (st : Step) (x : Nat), ∃ sel i g, s.ready t d ∧ d.takesStep e q.val st x ∧
      g = ((e.modSq q.val (fun y => y.keyfetch [⟨e.sqPc q.val, x, [], true⟩])).selPhases (e.rd (N.SAIDX i)) sel.toNat).foldl
        (fun d ph => d.fetchFor q.val (e.rd (N.SAIDX i)) ph) (e.modSq q.val (fun y => y.keyfetch [⟨e.sqPc q.val, x, [], true⟩]))
        ∧ e.cond q.val st.cond.toNat = true ∧ st.op = .keyfetch sel ∧ (e.sq q.val).armed = some i) ∧
    (∃ (s : State) (t : Nat) (d e : Dev) (q : SeqId) (st : Step) (x : Nat), ∃ k en it c, ∃ (r : BudgetReq), ∃ g, s.ready t d ∧
      d.takesStep e q.val st x ∧ k = 0 ∧ r = ⟨.txslot, e.tgt q.val, en.toNat, it.toNat, x, e.sqPc q.val, false, none⟩ ∧
      g = e.modSq q.val
        (fun z =>
        { z with reqs := z.reqs.filter (fun y => y.kind ≠ .txslot), grant := none, asked := true, slotFailed := false }) ∧
      e.cond q.val st.cond.toNat = true ∧ st.op = .budget k en it c ∧ g.govWaiting < 128) ∧
    (∃ (s : State) (t : Nat) (d e : Dev) (q : SeqId) (st : Step) (x : Nat), ∃ k en it c, ∃ (r : BudgetReq), s.ready t d ∧
      d.takesStep e q.val st x ∧ k = 1 ∧ r = ⟨.iter, e.tgt q.val, en.toNat, it.toNat, x, e.sqPc q.val, false, none⟩ ∧
      e.cond q.val st.cond.toNat = true ∧ st.op = .budget k en it c ∧ e.govWaiting < 128) ∧
    (∃ (s : State) (t : Nat) (d e : Dev) (q : SeqId) (st : Step) (x : Nat), ∃ k en it c, ∃ (r : BudgetReq), s.ready t d ∧
      d.takesStep e q.val st x ∧ k = 2 ∧ r = ⟨.bringup, c.toNat, en.toNat, it.toNat, x, e.sqPc q.val, false, none⟩ ∧
      e.cond q.val st.cond.toNat = true ∧ st.op = .budget k en it c ∧ e.govWaiting < 128) ∧
    (∃ (s : State) (t : Nat) (d : Dev) (q : SeqId) (st : Step) (f : BitVec 4) (fade : Bool) (x : Nat), s.ready t d ∧
      d.sqState q.val = 2 ∧ (d.sq q.val).stall = some x ∧ d.stepAt q.val = some st ∧ st.op = .armSwap f fade ∧ d.now + 40 ≤ x ∧
      d.prmqRoom (d.tgt q.val) 1 = true) ∧
    (∃ (s : State) (t : Nat) (d : Dev) (q : SeqId) (st : Step) (f : BitVec 4) (fade : Bool) (x : Nat), s.ready t d ∧
      d.sqState q.val = 2 ∧ (d.sq q.val).stall = some x ∧ d.stepAt q.val = some st ∧ st.op = .armSwap f fade ∧ d.now + 40 ≤ x ∧
      d.prmqRoom (d.tgt q.val) 1 = false) ∧
    (∃ (s : State) (t : Nat) (d e old : Dev) (q : SeqId) (st : Step) (x i : Nat) (a : BitVec 17) (l : List (Nat × List Word32)),
      s.ready t d ∧ e = (d.modSq q.val (fun z => { z with run := z.run + 1 })).condParity q.val st.cond.toNat ∧
      old = l.foldl (fun x y => x.putEntry y.1 y.2) e ∧ d.sqState q.val = 2 ∧ d.fetchFault q.val = none ∧
      d.stepAt q.val = some st ∧ st.op = .armNode a ∧ e.cond q.val st.cond.toNat = true ∧ e.justCommitted = l ∧ l ≠ [] ∧
      old.stepTime q.val st 0 = some x ∧ old.now ≤ x ∧ old.lookup (old.tgt q.val) a.toNat = some i) ∧
    (∃ (s : State) (t : Nat) (d g h : Dev) (q : SeqId) (p : Nat × Nat × Nat) (i : Nat) (c : PathCost), s.ready t d ∧ i = p.1 ∧
      g = d.modSq q.val (fun y => { y with paths := y.paths.erase p }) ∧ h =
        { g with adopted := (g.cclk,
                   (i, Tab.get 0 g.edits i, [c.hops.getD 0 0, c.hops.getD 1 0, c.hops.getD 2 0, c.form.toNat]) ::
                   (if g.adopted.1 = g.cclk then g.adopted.2 else []).filter (fun e => e.1 != i)) } ∧
      (d.sq q.val).paths.find? (fun p => d.now ≤ p.2.1) = some p ∧ d.reselect (d.tgt q.val) i = some c ∧
      (d.on (N.PIN i) = true ∨ (c.hops = d.espalier i ∧ c.form = d.word (nodeWord i 3) ∧ c.form = d.word (nodeWord i 4)))) ∧
    (∃ (s : State) (t : Nat) (d g h : Dev) (q : SeqId) (p : Nat × Nat × Nat) (i : Nat) (c : PathCost), s.ready t d ∧ i = p.1 ∧
      g = d.modSq q.val (fun y => { y with paths := y.paths.erase p }) ∧ h =
        { g with adopted := (g.cclk,
                   (i, Tab.get 0 g.edits i, [c.hops.getD 0 0, c.hops.getD 1 0, c.hops.getD 2 0, c.form.toNat]) ::
                   (if g.adopted.1 = g.cclk then g.adopted.2 else []).filter (fun e => e.1 != i)) } ∧
      (d.sq q.val).paths.find? (fun p => d.now ≤ p.2.1) = some p ∧ d.reselect (d.tgt q.val) i = some c ∧
      d.on (N.PIN i) = false ∧ (c.hops ≠ d.espalier i ∨ c.form ≠ d.word (nodeWord i 3) ∨ c.form ≠ d.word (nodeWord i 4))) := by
  refine ⟨?_, ?_, ?_, ?_, ?_, ?_, ?_, ?_, ?_, ?_, ?_, ?_, ?_⟩
  · exact ⟨at0 (sqDev (step0 (.armNode 1)) {} nodeOne), (sqDev (step0 (.armNode 1)) {} nodeOne).now,
      (sqDev (step0 (.armNode 1)) {} nodeOne), _, 0, (step0 (.armNode 1)), startOf11, 1, 1,
      ready0 (sqDev (step0 (.armNode 1)) {} nodeOne) ⟨rfl, rfl⟩, takes _ 0 _ _ (by decide +kernel), rfl, by decide +kernel⟩
  · exact ⟨at0 (sqDev (step0 (.armNode 2)) {} nodeOne), (sqDev (step0 (.armNode 2)) {} nodeOne).now,
      (sqDev (step0 (.armNode 2)) {} nodeOne), _, 0, (step0 (.armNode 2)), startOf11, 2, _,
      ready0 (sqDev (step0 (.armNode 2)) {} nodeOne) ⟨rfl, rfl⟩, takes _ _ _ _ (by decide +kernel), rfl, by decide +kernel⟩
  · exact ⟨at0 (rolled 1 (sqDev (step0 (.armSwap 4 true)) {} [])), (rolled 1 (sqDev (step0 (.armSwap 4 true)) {} [])).now,
      (rolled 1 (sqDev (step0 (.armSwap 4 true)) {} [])), _, 0, (step0 (.armSwap 4 true)), startOf11, 4, true,
      ready0 (rolled 1 (sqDev (step0 (.armSwap 4 true)) {} [])) ⟨rfl, rfl⟩, takes _ _ _ _ (by decide +kernel),
      by decide +kernel⟩
  · exact ⟨at0 (pathed (sqDev (step0 .armPath) { armed := some 1 } [])),
      (pathed (sqDev (step0 .armPath) { armed := some 1 } [])).now, (pathed (sqDev (step0 .armPath) { armed := some 1 } [])), _,
      0, (step0 (.armPath)), startOf11, 1, ready0 (pathed (sqDev (step0 .armPath) { armed := some 1 } [])) ⟨rfl, rfl⟩,
      takes _ 0 _ _ (by decide +kernel), rfl, by decide +kernel⟩
  · exact ⟨at0 (sqDev (step0 (.keyfetch 1)) { armed := some 1 } []), (sqDev (step0 (.keyfetch 1)) { armed := some 1 } []).now,
      (sqDev (step0 (.keyfetch 1)) { armed := some 1 } []), _, 0, (step0 (.keyfetch 1)), startOf11, 1, 1, _,
      ready0 (sqDev (step0 (.keyfetch 1)) { armed := some 1 } []) ⟨rfl, rfl⟩, takes _ _ _ _ (by decide +kernel), rfl,
      by decide +kernel⟩
  · exact ⟨at0 (sqDev (step0 (.budget 0 20 0 0)) {} []), (sqDev (step0 (.budget 0 20 0 0)) {} []).now,
      (sqDev (step0 (.budget 0 20 0 0)) {} []), _, 0, (step0 (.budget 0 20 0 0)), startOf11, _, 20, 0, 0, _, _,
      ready0 (sqDev (step0 (.budget 0 20 0 0)) {} []) ⟨rfl, rfl⟩, takes _ _ _ _ (by decide +kernel), rfl, rfl, rfl,
      by decide +kernel⟩
  · exact ⟨at0 (sqDev (step0 (.budget 1 20 12 0)) {} []), (sqDev (step0 (.budget 1 20 12 0)) {} []).now,
      (sqDev (step0 (.budget 1 20 12 0)) {} []), _, 0, (step0 (.budget 1 20 12 0)), startOf11, _, 20, 12, 0, _,
      ready0 (sqDev (step0 (.budget 1 20 12 0)) {} []) ⟨rfl, rfl⟩, takes _ _ _ _ (by decide +kernel), rfl, rfl,
      by decide +kernel⟩
  · exact ⟨at0 (sqDev (step0 (.budget 2 20 0 1)) {} []), (sqDev (step0 (.budget 2 20 0 1)) {} []).now,
      (sqDev (step0 (.budget 2 20 0 1)) {} []), _, 0, (step0 (.budget 2 20 0 1)), startOf11, _, 20, 0, 1, _,
      ready0 (sqDev (step0 (.budget 2 20 0 1)) {} []) ⟨rfl, rfl⟩, takes _ _ _ _ (by decide +kernel), rfl, rfl,
      by decide +kernel⟩
  · exact ⟨at0 (rolled 1 (sqDev (step0 (.armSwap 4 true)) { stall := some startOf11 } [])),
      (rolled 1 (sqDev (step0 (.armSwap 4 true)) { stall := some startOf11 } [])).now,
      (rolled 1 (sqDev (step0 (.armSwap 4 true)) { stall := some startOf11 } [])), 0, (step0 (.armSwap 4 true)), 4, true,
      startOf11, ready0 (rolled 1 (sqDev (step0 (.armSwap 4 true)) { stall := some startOf11 } [])) ⟨rfl, rfl⟩,
      by decide +kernel⟩
  · exact ⟨at0 ((rolled 1 (sqDev (step0 (.armSwap 4 true)) { stall := some startOf11 } [])).modCh 0
      (fun c => { c with prmq := List.replicate 64 ⟨startOf11, .trim 0, 0, 0⟩ })),
      ((rolled 1 (sqDev (step0 (.armSwap 4 true)) { stall := some startOf11 } [])).modCh 0
        (fun c => { c with prmq := List.replicate 64 ⟨startOf11, .trim 0, 0, 0⟩ })).now,
      ((rolled 1 (sqDev (step0 (.armSwap 4 true)) { stall := some startOf11 } [])).modCh 0
        (fun c => { c with prmq := List.replicate 64 ⟨startOf11, .trim 0, 0, 0⟩ })), 0, (step0 (.armSwap 4 true)), 4, true,
      startOf11, ready0 ((rolled 1 (sqDev (step0 (.armSwap 4 true)) { stall := some startOf11 } [])).modCh 0
        (fun c => { c with prmq := List.replicate 64 ⟨startOf11, .trim 0, 0, 0⟩ })) ⟨rfl, rfl⟩, by decide +kernel⟩
  · exact ⟨at0
      ({ sqDev (step0 (.armNode 1)) {} nodeOne with committed := (timed.cclk, [(1, (fill timed nodeOne).entryWords 1)]) }),
      ({ sqDev (step0 (.armNode 1)) {} nodeOne with committed := (timed.cclk, [(1, (fill timed nodeOne).entryWords 1)]) }).now,
      ({ sqDev (step0 (.armNode 1)) {} nodeOne with committed := (timed.cclk, [(1, (fill timed nodeOne).entryWords 1)]) }), _,
      _, 0, (step0 (.armNode 1)), startOf11, 1, 1, [(1, (fill timed nodeOne).entryWords 1)],
      ready0
        ({ sqDev (step0 (.armNode 1)) {} nodeOne with committed := (timed.cclk, [(1, (fill timed nodeOne).entryWords 1)]) })
        ⟨rfl, rfl⟩, rfl, rfl, by decide +kernel⟩
  · exact ⟨at0 (pathDev 1), (pathDev 1).now, (pathDev 1), _, _, 0, (1, startOf11, 0), _, ⟨[], 0x100, 378609472, 16⟩,
      ready0 (pathDev 1) ⟨rfl, rfl⟩, rfl, rfl, rfl, by decide +kernel⟩
  · exact ⟨at0 (pathDev 0), (pathDev 0).now, (pathDev 0), _, _, 0, (1, startOf11, 0), _, ⟨[], 0x100, 378609472, 16⟩,
      ready0 (pathDev 0) ⟨rfl, rfl⟩, rfl, rfl, rfl, by decide +kernel⟩

theorem witness_sequencer_commands_complete :
    (∃ (s : State) (t : Nat) (d : Dev) (q : SeqId), s.ready t d ∧ d.domOn (q.val / 2) = false) ∧
    (∃ (s : State) (t : Nat) (d : Dev) (q : SeqId), s.ready t d ∧ d.domOn (q.val / 2) = true ∧ d.timeRuns = true ∧
      d.sqState q.val = 0) ∧
    (∃ (s : State) (t : Nat) (d : Dev) (q : SeqId), s.ready t d ∧ d.domOn (q.val / 2) = true ∧
      (d.timeRuns = false ∨ d.sqState q.val ≠ 0)) ∧
    (∃ (s : State) (t : Nat) (d g : Dev) (q : SeqId) (tx : Bool), s.ready t d ∧
      g = d.modSq q.val
        (fun z =>
        { z with checking := none, restart := false, held := none, stall := none, live2 := none,
                 grant := if tx then none else z.grant }) ∧ (tx = true ↔ ∃ a b c f l, d.heldWait q.val = some (.tx a b c f l)) ∧
      d.domOn (q.val / 2) = false) ∧
    (∃ (s : State) (t : Nat) (d g : Dev) (q : SeqId) (tx : Bool), s.ready t d ∧
      g = d.modSq q.val
        (fun z =>
        { z with checking := none, restart := false, held := none, stall := none, live2 := none,
                 grant := if tx then none else z.grant }) ∧ (tx = true ↔ ∃ a b c f l, d.heldWait q.val = some (.tx a b c f l)) ∧
      d.domOn (q.val / 2) = true ∧ (d.sqState q.val = 1 ∨ d.sqState q.val = 2 ∨ d.sqState q.val = 3)) ∧
    (∃ (s : State) (t : Nat) (d g : Dev) (q : SeqId) (tx : Bool), s.ready t d ∧
      g = d.modSq q.val
        (fun z =>
        { z with checking := none, restart := false, held := none, stall := none, live2 := none,
                 grant := if tx then none else z.grant }) ∧ (tx = true ↔ ∃ a b c f l, d.heldWait q.val = some (.tx a b c f l)) ∧
      d.domOn (q.val / 2) = true ∧ d.sqState q.val ≠ 1 ∧ d.sqState q.val ≠ 2 ∧ d.sqState q.val ≠ 3) ∧
    (∃ (s : State) (t : Nat) (d g : Dev) (q : SeqId), s.ready t d ∧ g = d.modSq q.val (fun z => { z with restart := false }) ∧
      d.domOn (q.val / 2) = false) ∧
    (∃ (s : State) (t : Nat) (d g : Dev) (q : SeqId), s.ready t d ∧ g = d.modSq q.val (fun z => { z with restart := false }) ∧
      d.domOn (q.val / 2) = true ∧ (d.sqState q.val = 4 ∨ d.sqState q.val = 5)) ∧
    (∃ (s : State) (t : Nat) (d g : Dev) (q : SeqId), s.ready t d ∧ g = d.modSq q.val (fun z => { z with restart := false }) ∧
      d.domOn (q.val / 2) = true ∧ d.sqState q.val ≠ 4 ∧ d.sqState q.val ≠ 5) ∧
    (∃ (s : State) (t : Nat) (d : Dev) (k : ChanId), s.ready t d ∧ d.domOn k.val = false) ∧
    (∃ (s : State) (t : Nat) (d : Dev) (k : ChanId), s.ready t d ∧ d.domOn k.val = true) ∧
    (∃ (s : State) (t : Nat) (d : Dev) (q : SeqId) (v w : Word32), s.ready t d ∧ w = v &&& 0x1FFF1FFF#32 ∧
      d.domOn (q.val / 2) = false) ∧
    (∃ (s : State) (t : Nat) (d : Dev) (q : SeqId) (v w : Word32), s.ready t d ∧ w = v &&& 0x1FFF1FFF#32 ∧
      d.domOn (q.val / 2) = true ∧ d.sqState q.val ≠ 1 ∧ d.sqState q.val ≠ 2 ∧ d.sqState q.val ≠ 3) ∧
    (∃ (s : State) (t : Nat) (d : Dev) (q : SeqId) (v w : Word32), s.ready t d ∧ w = v &&& 0x1FFF1FFF#32 ∧
      d.domOn (q.val / 2) = true ∧ d.sqState q.val = 1 ∧ d.firstBad q.val (getBits w 0 13) (getBits w 16 13) = none) ∧
    (∃ (s : State) (t : Nat) (d : Dev) (q : SeqId) (v w : Word32), s.ready t d ∧ w = v &&& 0x1FFF1FFF#32 ∧
      d.domOn (q.val / 2) = true ∧ (d.sqState q.val = 2 ∨ d.sqState q.val = 3) ∧
      d.firstBad q.val (getBits w 0 13) (getBits w 16 13) = none) ∧
    (∃ (s : State) (t : Nat) (d : Dev) (q : SeqId) (v w : Word32), ∃ i, s.ready t d ∧ w = v &&& 0x1FFF1FFF#32 ∧
      d.domOn (q.val / 2) = true ∧ (d.sqState q.val = 1 ∨ d.sqState q.val = 2 ∨ d.sqState q.val = 3) ∧
      d.firstBad q.val (getBits w 0 13) (getBits w 16 13) = some i) ∧
    (∃ (s : State) (t : Nat) (d : Dev) (q : SeqId) (i : Fin 8192) (high : Bool) (a : Nat), s.ready t d ∧
      a = seqWord q.val i.val (if high then 1 else 0) ∧ d.domOn 76 = true ∧ (d.domOn (q.val / 2) = false ∨ d.sqState q.val = 0 ∨
        d.sqState q.val = 4 ∨ d.sqState q.val = 5 ∨ inRange (d.live q.val) i.val = false ∧ inRange (d.liveReg q.val)
        i.val = false)) ∧
    (∃ (s : State) (t : Nat) (d : Dev) (q : SeqId) (i : Fin 8192) (high : Bool) (a : Nat), s.ready t d ∧
      a = seqWord q.val i.val (if high then 1 else 0) ∧ (d.domOn 76 = false ∨ d.domOn (q.val / 2) = true ∧
        (d.sqState q.val = 1 ∨ d.sqState q.val = 2 ∨ d.sqState q.val = 3) ∧
        (inRange (d.live q.val) i.val = true ∨ inRange (d.liveReg q.val) i.val = true))) := by
  refine ⟨?_, ?_, ?_, ?_, ?_, ?_, ?_, ?_, ?_, ?_, ?_, ?_, ?_, ?_, ?_, ?_, ?_, ?_⟩
  · exact ⟨at0 timed, timed.now, timed, 4, ready0 timed ⟨rfl, rfl⟩, by decide +kernel⟩
  · exact ⟨at0 timed, timed.now, timed, 1, ready0 timed ⟨rfl, rfl⟩, by decide +kernel⟩
  · exact ⟨at0 (stateDev 2 {} []), (stateDev 2 {} []).now, (stateDev 2 {} []), 0, ready0 (stateDev 2 {} []) ⟨rfl, rfl⟩,
      by decide +kernel⟩
  · exact ⟨at0 timed, timed.now, timed, _, 4, false, ready0 timed ⟨rfl, rfl⟩, rfl,
      held_none (o := timed.heldWait 4) (by decide +kernel), by decide +kernel⟩
  · exact ⟨at0 (sqDev (step0 (.tx 1 16 false 0 false)) { held := some startOf11 } [(F.SQ_STATUS_STATE 0, 3)]),
      (sqDev (step0 (.tx 1 16 false 0 false)) { held := some startOf11 } [(F.SQ_STATUS_STATE 0, 3)]).now,
      (sqDev (step0 (.tx 1 16 false 0 false)) { held := some startOf11 } [(F.SQ_STATUS_STATE 0, 3)]), _, 0, true,
      ready0 (sqDev (step0 (.tx 1 16 false 0 false)) { held := some startOf11 } [(F.SQ_STATUS_STATE 0, 3)]) ⟨rfl, rfl⟩, rfl,
      held_tx (o := (sqDev (step0 (.tx 1 16 false 0 false)) { held := some startOf11 } [(F.SQ_STATUS_STATE 0, 3)]).heldWait 0)
        (a := 1) (b := 16) (c := false) (f := 0) (l := false) (by decide +kernel), by decide +kernel⟩
  · exact ⟨at0 (stateDev 5 { restart := true } []), (stateDev 5 { restart := true } []).now,
      (stateDev 5 { restart := true } []), _, 0, false, ready0 (stateDev 5 { restart := true } []) ⟨rfl, rfl⟩, rfl,
      held_none (o := (stateDev 5 { restart := true } []).heldWait 0) (by decide +kernel), by decide +kernel⟩
  · exact ⟨at0 timed, timed.now, timed, _, 4, ready0 timed ⟨rfl, rfl⟩, rfl, by decide +kernel⟩
  · exact ⟨at0 (stateDev 5 {} []), (stateDev 5 {} []).now, (stateDev 5 {} []), _, 0, ready0 (stateDev 5 {} []) ⟨rfl, rfl⟩, rfl,
      by decide +kernel⟩
  · exact ⟨at0 (stateDev 2 {} []), (stateDev 2 {} []).now, (stateDev 2 {} []), _, 0, ready0 (stateDev 2 {} []) ⟨rfl, rfl⟩, rfl,
      by decide +kernel⟩
  · exact ⟨at0 timed, timed.now, timed, 2, ready0 timed ⟨rfl, rfl⟩, by decide +kernel⟩
  · exact ⟨at0 base, base.now, base, 1, ready0 base ⟨rfl, rfl⟩, by decide +kernel⟩
  · exact ⟨at0 timed, timed.now, timed, 4, 0, _, ready0 timed ⟨rfl, rfl⟩, rfl, by decide +kernel⟩
  · exact ⟨at0 (stateDev 4 {} []), (stateDev 4 {} []).now, (stateDev 4 {} []), 0, 0x1FFF0003, _,
      ready0 (stateDev 4 {} []) ⟨rfl, rfl⟩, rfl, by decide +kernel⟩
  · exact ⟨at0 (stateDev 1 {} []), (stateDev 1 {} []).now, (stateDev 1 {} []), 0, 0, _, ready0 (stateDev 1 {} []) ⟨rfl, rfl⟩,
      rfl, by decide +kernel⟩
  · exact ⟨at0 (stateDev 2 {} []), (stateDev 2 {} []).now, (stateDev 2 {} []), 0, 0, _, ready0 (stateDev 2 {} []) ⟨rfl, rfl⟩,
      rfl, by decide +kernel⟩
  · exact ⟨at0 (stateDev 1 {} []), (stateDev 1 {} []).now, (stateDev 1 {} []), 0, 1, _, 1, ready0 (stateDev 1 {} []) ⟨rfl, rfl⟩,
      rfl, by decide +kernel⟩
  · exact ⟨at0 timed, timed.now, timed, 3, 8191, true, _, ready0 timed ⟨rfl, rfl⟩, rfl, by decide +kernel⟩
  · exact ⟨at0 (stateDev 2 {} [(F.SQ_LIVE_HI 0, 8191)]), (stateDev 2 {} [(F.SQ_LIVE_HI 0, 8191)]).now,
      (stateDev 2 {} [(F.SQ_LIVE_HI 0, 8191)]), 0, 8191, true, _, ready0 (stateDev 2 {} [(F.SQ_LIVE_HI 0, 8191)]) ⟨rfl, rfl⟩,
      rfl, by decide +kernel⟩

theorem witness_sequencer_events_complete :
    (∃ (s : State) (t : Nat) (d : Dev) (q : SeqId) (c : SeqCause) (code : Nat), s.ready t d ∧
      (c = .runaway ∧ code = 3 ∨ c = .outlive ∧ code = 5 ∨ c = .parity ∧ code = 1 ∧ d.stepBad q.val (d.sqPc q.val) = true) ∧
      d.sqState q.val = 2 ∧ d.fetchFault q.val = some code) ∧
    (∃ (s : State) (t : Nat) (d : Dev) (q : SeqId) (c : SeqCause), ∃ st x, s.ready t d ∧
      ((∃ tg, st.op = .call tg ∧ 8 ≤ (d.sq q.val).stack.length) ∨ (st.op = .ret ∧ (d.sq q.val).stack = [])) ∧
      d.sqState q.val = 2 ∧ c = .stack ∧ d.fetchFault q.val = none ∧ d.stepAt q.val = some st ∧
      d.cond q.val st.cond.toNat = true ∧ d.stepTime q.val st 0 = some x ∧ d.now ≤ x) ∧
    (∃ (s : State) (t : Nat) (d : Dev) (q : SeqId) (c : SeqCause) (code : Nat), s.ready t d ∧ d.sqState q.val = 2 ∧
      c ≠ .parity ∧ d.fetchFault q.val = some code ∧ ¬(c = .runaway ∧ code = 3) ∧ ¬(c = .outlive ∧ code = 5)) ∧
    (∃ (s : State) (t : Nat) (d : Dev) (q : SeqId) (c : SeqCause), s.ready t d ∧ d.sqState q.val = 2 ∧
      (c = .runaway ∨ c = .outlive) ∧ d.fetchFault q.val = none) ∧
    (∃ (s : State) (t : Nat) (d : Dev) (q : SeqId) (c : SeqCause), s.ready t d ∧
      (∀ st, d.stepAt q.val = some st → d.stackFails q.val st = false) ∧ d.sqState q.val = 2 ∧ c = .stack ∧
      d.fetchFault q.val = none) ∧
    (∃ (s : State) (t : Nat) (d : Dev) (q : SeqId) (c : SeqCause), s.ready t d ∧ d.sqState q.val = 2 ∧ c = .parity ∧
      inRange (d.live q.val) (d.sqPc q.val) = false) ∧
    (∃ (s : State) (t : Nat) (d : Dev) (q : SeqId), s.ready t d ∧ d.sqState q.val ≠ 2) ∧
    (∃ (s : State) (t : Nat) (d g : Dev) (q : SeqId) (i : Nat), s.ready t d ∧ i = d.sqPc q.val ∧
      g =
        { d with draws := d.draws + 1,
                 badParity := seqWord q.val i (if (Config.upset d.draws).getLsbD 0 then 1 else 0) :: d.badParity } ∧
      d.sqState q.val = 2 ∧ d.stepBad q.val i = false ∧ inRange (d.live q.val) i = true) ∧
    (∃ (s : State) (t : Nat) (d : Dev) (q : SeqId) (w : Nat), s.ready t d ∧ w = d.rd (F.SQ_CFG_WDOG q) ∧ d.sqLive q.val = true ∧
      w ≠ 0 ∧ 2 ^ (w + 1) ≤ (d.cycle + 2 ^ 32 - (d.sq q.val).wdog) % 2 ^ 32) ∧
    (∃ (s : State) (t : Nat) (d : Dev) (q : SeqId) (w : Nat), s.ready t d ∧ w = d.rd (F.SQ_CFG_WDOG q) ∧
      (d.sqLive q.val = false ∨ w = 0 ∨ (d.cycle + 2 ^ 32 - (d.sq q.val).wdog) % 2 ^ 32 < 2 ^ (w + 1))) ∧
    (∃ (s : State) (t : Nat) (d g : Dev) (q : SeqId), s.ready t d ∧
      g = d.modSq q.val (fun z => { z with restarts := d.cycle :: z.restarts.take 7 }) ∧
      (∀ i, (d.liveReg q.val).1 ≤ i → i ≤ (d.liveReg q.val).2 → d.stepBad q.val i = false) ∧ d.sqState q.val = 5 ∧
      (d.sq q.val).restart = true) ∧
    (∃ (s : State) (t : Nat) (d g : Dev) (q : SeqId), s.ready t d ∧
      g = d.modSq q.val (fun z => { z with restarts := d.cycle :: z.restarts.take 7 }) ∧
      (d.sqState q.val ≠ 5 ∨ (d.sq q.val).restart = false ∨
        (∃ i, (d.liveReg q.val).1 ≤ i ∧ i ≤ (d.liveReg q.val).2 ∧ d.stepBad q.val i = true))) ∧
    (∃ (s : State) (t : Nat) (d g e : Dev) (q : SeqId) (c k : Nat), s.ready t d ∧ k = e.tgt q.val ∧
      g = d.modSq q.val (fun z => { z with checking := none }) ∧ e = (g.wr (F.SQ_STATUS_STATE q) 1).modSq q.val
        (fun z => { z with startAt := if c = 0 ∨ (d.cycle + 2 ^ 32 - c) % 2 ^ 32 < 2 ^ 31 then (d.cycle + 1) % 2 ^ 32 else c })
        ∧ (d.sq q.val).checking = some c ∧ g.firstBad q.val (g.liveReg q.val).1 (g.liveReg q.val).2 = none ∧ e.phase k ≠ 6) ∧
    (∃ (s : State) (t : Nat) (d g e : Dev) (q : SeqId) (c k : Nat), s.ready t d ∧ k = e.tgt q.val ∧
      g = d.modSq q.val (fun z => { z with checking := none }) ∧ e = (g.wr (F.SQ_STATUS_STATE q) 1).modSq q.val
        (fun z => { z with startAt := if c = 0 ∨ (d.cycle + 2 ^ 32 - c) % 2 ^ 32 < 2 ^ 31 then (d.cycle + 1) % 2 ^ 32 else c })
        ∧ (d.sq q.val).checking = some c ∧ g.firstBad q.val (g.liveReg q.val).1 (g.liveReg q.val).2 = none ∧ e.phase k = 6 ∧
      ((e.sq (2 * (q.val / 2))).checking.isSome ∨ (e.sq (2 * (q.val / 2) + 1)).checking.isSome)) ∧
    (∃ (s : State) (t : Nat) (d g e : Dev) (q : SeqId) (c k : Nat), s.ready t d ∧ k = e.tgt q.val ∧
      g = d.modSq q.val (fun z => { z with checking := none }) ∧ e = (g.wr (F.SQ_STATUS_STATE q) 1).modSq q.val
        (fun z => { z with startAt := if c = 0 ∨ (d.cycle + 2 ^ 32 - c) % 2 ^ 32 < 2 ^ 31 then (d.cycle + 1) % 2 ^ 32 else c })
        ∧ (d.sq q.val).checking = some c ∧ g.firstBad q.val (g.liveReg q.val).1 (g.liveReg q.val).2 = none ∧ e.phase k = 6 ∧
      (e.sq (2 * (q.val / 2))).checking = none ∧ (e.sq (2 * (q.val / 2) + 1)).checking = none ∧ (e.bring k).abort = true) ∧
    (∃ (s : State) (t : Nat) (d g e : Dev) (q : SeqId) (c k : Nat), s.ready t d ∧ k = e.tgt q.val ∧
      g = d.modSq q.val (fun z => { z with checking := none }) ∧ e = (g.wr (F.SQ_STATUS_STATE q) 1).modSq q.val
        (fun z => { z with startAt := if c = 0 ∨ (d.cycle + 2 ^ 32 - c) % 2 ^ 32 < 2 ^ 31 then (d.cycle + 1) % 2 ^ 32 else c })
        ∧ (d.sq q.val).checking = some c ∧ g.firstBad q.val (g.liveReg q.val).1 (g.liveReg q.val).2 = none ∧ e.phase k = 6 ∧
      (e.sq (2 * (q.val / 2))).checking = none ∧ (e.sq (2 * (q.val / 2) + 1)).checking = none ∧ (e.bring k).abort = false) ∧
    (∃ (s : State) (t : Nat) (d g e : Dev) (q : SeqId) (c k : Nat), ∃ i, s.ready t d ∧ k = e.tgt q.val ∧
      g = d.modSq q.val (fun z => { z with checking := none }) ∧
      e = ((g.raise (F.SQ_STATUS_TBLBAD q)).wr (F.SQ_FAULT_FCODE q) 8).wr (F.SQ_FAULT_FSTEP q) i ∧
      (d.sq q.val).checking = some c ∧ g.firstBad q.val (g.liveReg q.val).1 (g.liveReg q.val).2 = some i ∧ e.phase k ≠ 6) ∧
    (∃ (s : State) (t : Nat) (d g e : Dev) (q : SeqId) (c k : Nat), ∃ i, s.ready t d ∧ k = e.tgt q.val ∧
      g = d.modSq q.val (fun z => { z with checking := none }) ∧
      e = ((g.raise (F.SQ_STATUS_TBLBAD q)).wr (F.SQ_FAULT_FCODE q) 8).wr (F.SQ_FAULT_FSTEP q) i ∧
      (d.sq q.val).checking = some c ∧ g.firstBad q.val (g.liveReg q.val).1 (g.liveReg q.val).2 = some i ∧ e.phase k = 6) ∧
    (∃ (s : State) (t : Nat) (d : Dev) (q : SeqId), s.ready t d ∧ (d.sq q.val).checking = none) ∧
    (∃ (s : State) (t : Nat) (d e : Dev) (q : SeqId) (k : Nat), s.ready t d ∧ k = d.tgt q.val ∧ e =
        ((((d.wr (F.SQ_STATUS_DEPTH q) 0).modSq q.val (fun z => { z with stack := [] })).wr (F.SQ_STATUS_PC q)
        (d.rd (F.SQ_CFG_ENTRY q))).wr (F.SQ_STATUS_STATE q) 2).modSq q.val
        (fun z =>
        { z with btc := d.cycle, btg := 0, loops := [0, 0, 0, 0], armed := none, held := none, run := 0, wdog := d.cycle,
                 open_ := false, keys := [], keyBad := false, fetched := z.fetched.map (fun f => { f with newest := false }) })
        ∧ d.sqState q.val = 1 ∧ d.timeRuns = true ∧ (d.cycle + 2 ^ 32 - (d.sq q.val).startAt) % 2 ^ 32 < 2 ^ 31 ∧
      d.phase k ≠ 7 ∧ e.phase k ≠ 7) ∧
    (∃ (s : State) (t : Nat) (d e : Dev) (q : SeqId) (k : Nat), s.ready t d ∧ k = d.tgt q.val ∧ e =
        ((((d.wr (F.SQ_STATUS_DEPTH q) 0).modSq q.val (fun z => { z with stack := [] })).wr (F.SQ_STATUS_PC q)
        (d.rd (F.SQ_CFG_ENTRY q))).wr (F.SQ_STATUS_STATE q) 2).modSq q.val
        (fun z =>
        { z with btc := d.cycle, btg := 0, loops := [0, 0, 0, 0], armed := none, held := none, run := 0, wdog := d.cycle,
                 open_ := false, keys := [], keyBad := false, fetched := z.fetched.map (fun f => { f with newest := false }) })
        ∧ d.sqState q.val = 1 ∧ d.timeRuns = true ∧ (d.cycle + 2 ^ 32 - (d.sq q.val).startAt) % 2 ^ 32 < 2 ^ 31 ∧
      d.phase k = 7 ∧ (d.bring k).abort = true) ∧
    (∃ (s : State) (t : Nat) (d e : Dev) (q : SeqId) (k : Nat), s.ready t d ∧ k = d.tgt q.val ∧ e =
        ((((d.wr (F.SQ_STATUS_DEPTH q) 0).modSq q.val (fun z => { z with stack := [] })).wr (F.SQ_STATUS_PC q)
        (d.rd (F.SQ_CFG_ENTRY q))).wr (F.SQ_STATUS_STATE q) 2).modSq q.val
        (fun z =>
        { z with btc := d.cycle, btg := 0, loops := [0, 0, 0, 0], armed := none, held := none, run := 0, wdog := d.cycle,
                 open_ := false, keys := [], keyBad := false, fetched := z.fetched.map (fun f => { f with newest := false }) })
        ∧ d.sqState q.val = 1 ∧ d.timeRuns = true ∧ (d.cycle + 2 ^ 32 - (d.sq q.val).startAt) % 2 ^ 32 < 2 ^ 31 ∧
      d.phase k = 7 ∧ (d.bring k).abort = false ∧ e.phase k = 7 ∧
      (e.sqState (2 * (q.val / 2)) = 1 ∨ e.sqState (2 * (q.val / 2) + 1) = 1)) ∧
    (∃ (s : State) (t : Nat) (d e : Dev) (q : SeqId) (k : Nat), s.ready t d ∧ k = d.tgt q.val ∧ e =
        ((((d.wr (F.SQ_STATUS_DEPTH q) 0).modSq q.val (fun z => { z with stack := [] })).wr (F.SQ_STATUS_PC q)
        (d.rd (F.SQ_CFG_ENTRY q))).wr (F.SQ_STATUS_STATE q) 2).modSq q.val
        (fun z =>
        { z with btc := d.cycle, btg := 0, loops := [0, 0, 0, 0], armed := none, held := none, run := 0, wdog := d.cycle,
                 open_ := false, keys := [], keyBad := false, fetched := z.fetched.map (fun f => { f with newest := false }) })
        ∧ d.sqState q.val = 1 ∧ d.timeRuns = true ∧ (d.cycle + 2 ^ 32 - (d.sq q.val).startAt) % 2 ^ 32 < 2 ^ 31 ∧
      d.phase k = 7 ∧ (d.bring k).abort = false ∧ e.phase k = 7 ∧ e.sqState (2 * (q.val / 2)) ≠ 1 ∧
      e.sqState (2 * (q.val / 2) + 1) ≠ 1) ∧
    (∃ (s : State) (t : Nat) (d : Dev) (q : SeqId), s.ready t d ∧
      (d.sqState q.val ≠ 1 ∨ d.timeRuns = false ∨ 2 ^ 31 ≤ (d.cycle + 2 ^ 32 - (d.sq q.val).startAt) % 2 ^ 32)) := by
  refine ⟨?_, ?_, ?_, ?_, ?_, ?_, ?_, ?_, ?_, ?_, ?_, ?_, ?_, ?_, ?_, ?_, ?_, ?_, ?_, ?_, ?_, ?_, ?_, ?_⟩
  · exact ⟨at0 (stateDev 2 {} [(F.SQ_STATUS_PC 0, 1), (F.SQ_LIVE_HI 0, 0)]),
      (stateDev 2 {} [(F.SQ_STATUS_PC 0, 1), (F.SQ_LIVE_HI 0, 0)]).now,
      (stateDev 2 {} [(F.SQ_STATUS_PC 0, 1), (F.SQ_LIVE_HI 0, 0)]), 0, .outlive, 5,
      ready0 (stateDev 2 {} [(F.SQ_STATUS_PC 0, 1), (F.SQ_LIVE_HI 0, 0)]) ⟨rfl, rfl⟩, .inr (.inl (by decide +kernel)),
      by decide +kernel⟩
  · exact ⟨at0 (sqDev (step0 .ret) {} []), (sqDev (step0 .ret) {} []).now, (sqDev (step0 .ret) {} []), 0, .stack, (step0 .ret),
      startOf11, ready0 (sqDev (step0 .ret) {} []) ⟨rfl, rfl⟩, .inr (by decide +kernel), by decide +kernel⟩
  · exact ⟨at0 (stateDev 2 {} [(F.SQ_STATUS_PC 0, 1), (F.SQ_LIVE_HI 0, 0)]),
      (stateDev 2 {} [(F.SQ_STATUS_PC 0, 1), (F.SQ_LIVE_HI 0, 0)]).now,
      (stateDev 2 {} [(F.SQ_STATUS_PC 0, 1), (F.SQ_LIVE_HI 0, 0)]), 0, .runaway, 5,
      ready0 (stateDev 2 {} [(F.SQ_STATUS_PC 0, 1), (F.SQ_LIVE_HI 0, 0)]) ⟨rfl, rfl⟩, by decide +kernel⟩
  · exact ⟨at0 (sqDev (step0 .ret) {} []), (sqDev (step0 .ret) {} []).now, (sqDev (step0 .ret) {} []), 0, .runaway,
      ready0 (sqDev (step0 .ret) {} []) ⟨rfl, rfl⟩, by decide +kernel⟩
  · exact ⟨at0 (sqDev (step0 (.call 5)) {} []), (sqDev (step0 (.call 5)) {} []).now, (sqDev (step0 (.call 5)) {} []), 0, .stack,
      ready0 (sqDev (step0 (.call 5)) {} []) ⟨rfl, rfl⟩,
      only_some (show (sqDev (step0 (.call 5)) {} []).stepAt 0 = some (step0 (.call 5)) by decide +kernel) (by decide +kernel),
      by decide +kernel⟩
  · exact ⟨at0 (stateDev 2 {} [(F.SQ_STATUS_PC 0, 1), (F.SQ_LIVE_HI 0, 0)]),
      (stateDev 2 {} [(F.SQ_STATUS_PC 0, 1), (F.SQ_LIVE_HI 0, 0)]).now,
      (stateDev 2 {} [(F.SQ_STATUS_PC 0, 1), (F.SQ_LIVE_HI 0, 0)]), 0, .parity,
      ready0 (stateDev 2 {} [(F.SQ_STATUS_PC 0, 1), (F.SQ_LIVE_HI 0, 0)]) ⟨rfl, rfl⟩, by decide +kernel⟩
  · exact ⟨at0 timed, timed.now, timed, 0, ready0 timed ⟨rfl, rfl⟩, by decide +kernel⟩
  · exact ⟨at0 (stateDev 2 {} [(F.SQ_LIVE_HI 0, 0)]), (stateDev 2 {} [(F.SQ_LIVE_HI 0, 0)]).now,
      (stateDev 2 {} [(F.SQ_LIVE_HI 0, 0)]), _, 0, _, ready0 (stateDev 2 {} [(F.SQ_LIVE_HI 0, 0)]) ⟨rfl, rfl⟩, rfl, rfl,
      by decide +kernel⟩
  · exact ⟨at0 (stateDev 3 {} [(F.SQ_CFG_WDOG 0, 1)]), (stateDev 3 {} [(F.SQ_CFG_WDOG 0, 1)]).now,
      (stateDev 3 {} [(F.SQ_CFG_WDOG 0, 1)]), 0, _, ready0 (stateDev 3 {} [(F.SQ_CFG_WDOG 0, 1)]) ⟨rfl, rfl⟩, rfl,
      by decide +kernel⟩
  · exact ⟨at0 (stateDev 3 {} []), (stateDev 3 {} []).now, (stateDev 3 {} []), 0, _, ready0 (stateDev 3 {} []) ⟨rfl, rfl⟩, rfl,
      by decide +kernel⟩
  · exact ⟨at0 (stateDev 5 { restart := true } []), (stateDev 5 { restart := true } []).now,
      (stateDev 5 { restart := true } []), _, 0, ready0 (stateDev 5 { restart := true } []) ⟨rfl, rfl⟩, rfl, fun _ _ _ => rfl,
      by decide +kernel⟩
  · exact ⟨at0 (stateDev 5 {} []), (stateDev 5 {} []).now, (stateDev 5 {} []), _, 0, ready0 (stateDev 5 {} []) ⟨rfl, rfl⟩, rfl,
      .inr (.inl (by decide +kernel))⟩
  · exact ⟨at0 (stateDev 0 { checking := some 0 } [(F.GV_CHSTAT_PHASE 0, 8), (F.SQ_LIVE_HI 0, 0)]),
      (stateDev 0 { checking := some 0 } [(F.GV_CHSTAT_PHASE 0, 8), (F.SQ_LIVE_HI 0, 0)]).now,
      (stateDev 0 { checking := some 0 } [(F.GV_CHSTAT_PHASE 0, 8), (F.SQ_LIVE_HI 0, 0)]), _, _, 0, 0, _,
      ready0 (stateDev 0 { checking := some 0 } [(F.GV_CHSTAT_PHASE 0, 8), (F.SQ_LIVE_HI 0, 0)]) ⟨rfl, rfl⟩, rfl, rfl, rfl,
      by decide +kernel⟩
  · exact ⟨at0 ((stateDev 0 { checking := some 0 } [(F.GV_CHSTAT_PHASE 0, 6), (F.SQ_LIVE_HI 0, 0)]).setSq 1
      { checking := some 0 }),
      ((stateDev 0 { checking := some 0 } [(F.GV_CHSTAT_PHASE 0, 6), (F.SQ_LIVE_HI 0, 0)]).setSq 1 { checking := some 0 }).now,
      ((stateDev 0 { checking := some 0 } [(F.GV_CHSTAT_PHASE 0, 6), (F.SQ_LIVE_HI 0, 0)]).setSq 1 { checking := some 0 }), _,
      _, 0, 0, _, ready0 ((stateDev 0 { checking := some 0 } [(F.GV_CHSTAT_PHASE 0, 6), (F.SQ_LIVE_HI 0, 0)]).setSq 1
        { checking := some 0 }) ⟨rfl, rfl⟩, rfl, rfl, rfl, by decide +kernel⟩
  · exact ⟨at0
      ({ stateDev 0 { checking := some 0 } [(F.GV_CHSTAT_PHASE 0, 6),
           (F.SQ_LIVE_HI 0, 0)] with gov := { timed.gov with bring := [(0, { abort := true })] } }),
      ({ stateDev 0 { checking := some 0 } [(F.GV_CHSTAT_PHASE 0, 6),
           (F.SQ_LIVE_HI 0, 0)] with gov := { timed.gov with bring := [(0, { abort := true })] } }).now,
      ({ stateDev 0 { checking := some 0 } [(F.GV_CHSTAT_PHASE 0, 6),
           (F.SQ_LIVE_HI 0, 0)] with gov := { timed.gov with bring := [(0, { abort := true })] } }), _, _, 0, 0, _,
      ready0
        ({ stateDev 0 { checking := some 0 } [(F.GV_CHSTAT_PHASE 0, 6),
             (F.SQ_LIVE_HI 0, 0)] with gov := { timed.gov with bring := [(0, { abort := true })] } }) ⟨rfl, rfl⟩, rfl, rfl, rfl,
      by decide +kernel⟩
  · exact ⟨at0
      ({ stateDev 0 { checking := some 0 } [(F.GV_CHSTAT_PHASE 0, 6),
           (F.SQ_LIVE_HI 0, 0)] with gov := { timed.gov with bring := [(0, {})] } }),
      ({ stateDev 0 { checking := some 0 } [(F.GV_CHSTAT_PHASE 0, 6),
           (F.SQ_LIVE_HI 0, 0)] with gov := { timed.gov with bring := [(0, {})] } }).now,
      ({ stateDev 0 { checking := some 0 } [(F.GV_CHSTAT_PHASE 0, 6),
           (F.SQ_LIVE_HI 0, 0)] with gov := { timed.gov with bring := [(0, {})] } }), _, _, 0, 0, _,
      ready0
        ({ stateDev 0 { checking := some 0 } [(F.GV_CHSTAT_PHASE 0, 6),
             (F.SQ_LIVE_HI 0, 0)] with gov := { timed.gov with bring := [(0, {})] } }) ⟨rfl, rfl⟩, rfl, rfl, rfl,
      by decide +kernel⟩
  · exact ⟨at0 (stateDev 0 { checking := some 0 } [(F.GV_CHSTAT_PHASE 0, 8), (F.SQ_LIVE_LO 0, 1), (F.SQ_LIVE_HI 0, 0)]),
      (stateDev 0 { checking := some 0 } [(F.GV_CHSTAT_PHASE 0, 8), (F.SQ_LIVE_LO 0, 1), (F.SQ_LIVE_HI 0, 0)]).now,
      (stateDev 0 { checking := some 0 } [(F.GV_CHSTAT_PHASE 0, 8), (F.SQ_LIVE_LO 0, 1), (F.SQ_LIVE_HI 0, 0)]), _, _, 0, 0, _,
      1, ready0 (stateDev 0 { checking := some 0 } [(F.GV_CHSTAT_PHASE 0, 8), (F.SQ_LIVE_LO 0, 1), (F.SQ_LIVE_HI 0, 0)])
        ⟨rfl, rfl⟩, rfl, rfl, rfl, by decide +kernel⟩
  · exact ⟨at0 (stateDev 0 { checking := some 0 } [(F.GV_CHSTAT_PHASE 0, 6), (F.SQ_LIVE_LO 0, 1), (F.SQ_LIVE_HI 0, 0)]),
      (stateDev 0 { checking := some 0 } [(F.GV_CHSTAT_PHASE 0, 6), (F.SQ_LIVE_LO 0, 1), (F.SQ_LIVE_HI 0, 0)]).now,
      (stateDev 0 { checking := some 0 } [(F.GV_CHSTAT_PHASE 0, 6), (F.SQ_LIVE_LO 0, 1), (F.SQ_LIVE_HI 0, 0)]), _, _, 0, 0, _,
      1, ready0 (stateDev 0 { checking := some 0 } [(F.GV_CHSTAT_PHASE 0, 6), (F.SQ_LIVE_LO 0, 1), (F.SQ_LIVE_HI 0, 0)])
        ⟨rfl, rfl⟩, rfl, rfl, rfl, by decide +kernel⟩
  · exact ⟨at0 timed, timed.now, timed, 0, ready0 timed ⟨rfl, rfl⟩, by decide +kernel⟩
  · exact ⟨at0 (stateDev 1 { startAt := 10 } [(F.GV_CHSTAT_PHASE 0, 8)]),
      (stateDev 1 { startAt := 10 } [(F.GV_CHSTAT_PHASE 0, 8)]).now, (stateDev 1 { startAt := 10 } [(F.GV_CHSTAT_PHASE 0, 8)]),
      _, 0, _, ready0 (stateDev 1 { startAt := 10 } [(F.GV_CHSTAT_PHASE 0, 8)]) ⟨rfl, rfl⟩, rfl, rfl, by decide +kernel⟩
  · exact ⟨at0
      ({ stateDev 1 { startAt := 10 } [(F.GV_CHSTAT_PHASE 0,
           7)] with gov := { timed.gov with bring := [(0, { abort := true })] } }),
      ({ stateDev 1 { startAt := 10 } [(F.GV_CHSTAT_PHASE 0,
           7)] with gov := { timed.gov with bring := [(0, { abort := true })] } }).now,
      ({ stateDev 1 { startAt := 10 } [(F.GV_CHSTAT_PHASE 0,
           7)] with gov := { timed.gov with bring := [(0, { abort := true })] } }), _, 0, _,
      ready0
        ({ stateDev 1 { startAt := 10 } [(F.GV_CHSTAT_PHASE 0,
             7)] with gov := { timed.gov with bring := [(0, { abort := true })] } }) ⟨rfl, rfl⟩, rfl, rfl, by decide +kernel⟩
  · exact ⟨at0
      ({ stateDev 1 { startAt := 10 } [(F.GV_CHSTAT_PHASE 0, 7),
           (F.SQ_STATUS_STATE 1, 1)] with gov := { timed.gov with bring := [(0, {})] } }),
      ({ stateDev 1 { startAt := 10 } [(F.GV_CHSTAT_PHASE 0, 7),
           (F.SQ_STATUS_STATE 1, 1)] with gov := { timed.gov with bring := [(0, {})] } }).now,
      ({ stateDev 1 { startAt := 10 } [(F.GV_CHSTAT_PHASE 0, 7),
           (F.SQ_STATUS_STATE 1, 1)] with gov := { timed.gov with bring := [(0, {})] } }), _, 0, _,
      ready0
        ({ stateDev 1 { startAt := 10 } [(F.GV_CHSTAT_PHASE 0, 7),
             (F.SQ_STATUS_STATE 1, 1)] with gov := { timed.gov with bring := [(0, {})] } }) ⟨rfl, rfl⟩, rfl, rfl,
      by decide +kernel⟩
  · exact ⟨at0
      ({ stateDev 1 { startAt := 10 } [(F.GV_CHSTAT_PHASE 0, 7),
           (F.SQ_STATUS_STATE 1, 2)] with gov := { timed.gov with bring := [(0, {})] } }),
      ({ stateDev 1 { startAt := 10 } [(F.GV_CHSTAT_PHASE 0, 7),
           (F.SQ_STATUS_STATE 1, 2)] with gov := { timed.gov with bring := [(0, {})] } }).now,
      ({ stateDev 1 { startAt := 10 } [(F.GV_CHSTAT_PHASE 0, 7),
           (F.SQ_STATUS_STATE 1, 2)] with gov := { timed.gov with bring := [(0, {})] } }), _, 0, _,
      ready0
        ({ stateDev 1 { startAt := 10 } [(F.GV_CHSTAT_PHASE 0, 7),
             (F.SQ_STATUS_STATE 1, 2)] with gov := { timed.gov with bring := [(0, {})] } }) ⟨rfl, rfl⟩, rfl, rfl,
      by decide +kernel⟩
  · exact ⟨at0 timed, timed.now, timed, 0, ready0 timed ⟨rfl, rfl⟩, by decide +kernel⟩

theorem witness_deadline_miss_completes :
    (∃ (s : State) (t : Nat) (d : Dev) (q : SeqId) (x : Nat) (op : StepOp), ∃ w sb lo pf, s.ready t d ∧
      (d.sq q.val).held = some x ∧ d.heldWait q.val = some op ∧ x < d.now ∧ op = .wait w sb lo pf ∧ w ≠ 0) ∧
    (∃ (s : State) (t : Nat) (d : Dev) (q : SeqId) (x : Nat) (op : StepOp), ∃ a b c e f, s.ready t d ∧
      (d.sq q.val).held = some x ∧ d.heldWait q.val = some op ∧ x < d.now ∧ op = .tx a b c e f) ∧
    (∃ (s : State) (t : Nat) (d : Dev) (q : SeqId) (x : Nat) (op : StepOp), ∃ a b c e f g, s.ready t d ∧
      (d.sq q.val).held = some x ∧ d.heldWait q.val = some op ∧ x < d.now ∧ op = .rx a b c e f g) ∧
    (∃ (s : State) (t : Nat) (d : Dev) (q : SeqId) (p : Nat × Nat × Nat), s.ready t d ∧
      (d.sq q.val).paths.find? (fun p => p.2.1 < d.now) = some p) ∧
    (∃ (s : State) (t : Nat) (d g : Dev) (q : SeqId) (f : KeyAsked), s.ready t d ∧
      g = d.modSq q.val
        (fun z =>
        { z with fetched := z.fetched.erase f, keys := if f.newest then [] else z.keys, keyBad := f.newest || z.keyBad,
                 pins := if f.newest then z.pins.filter (fun p => !f.keys.contains p) else z.pins }) ∧
      (d.sq q.val).fetched.find? (fun f => f.deadline < d.now) = some f) ∧
    (∃ (s : State) (t : Nat) (d g e : Dev) (q : SeqId) (r : BudgetReq) (last : Bool), s.ready t d ∧
      last = ((d.sq q.val).reqs.getLast? == some r) ∧ g = d.modSq q.val
        (fun z =>
        { z with reqs := z.reqs.erase r, open_ := z.open_ && !last, out := if last then some .failed else z.out,
                 slotFailed := z.slotFailed || r.kind == .txslot }) ∧ e = (if r.deferred then g.inc F.GV_CNT2_DEFERS else g) ∧
      (d.sq q.val).reqs.find? (fun r => r.deadline < d.now) = some r) ∧
    (∃ (s : State) (t : Nat) (d g : Dev) (k : ChanId) (x : TxJob), s.ready t d ∧
      g = d.modCh k.val
        (fun c =>
        { c with txs := c.txs.map (fun y => if y = x then { y with starved := true,
                                                                   starveFrom := d.nsChips k.val (d.now - (x.t + 250)) 1 } else
                   y) }) ∧ (d.ch k.val).txs.find? (fun x => x.begun && !x.starved) = some x) := by
  refine ⟨?_, ?_, ?_, ?_, ?_, ?_, ?_⟩
  · exact ⟨at0 (sqDev (step0 (.wait 1 false false 0)) { held := some 1499999 } [(F.SQ_STATUS_STATE 0, 3)]),
      (sqDev (step0 (.wait 1 false false 0)) { held := some 1499999 } [(F.SQ_STATUS_STATE 0, 3)]).now,
      (sqDev (step0 (.wait 1 false false 0)) { held := some 1499999 } [(F.SQ_STATUS_STATE 0, 3)]), 0, 1499999,
      (.wait 1 false false 0), 1, false, false, 0,
      ready0 (sqDev (step0 (.wait 1 false false 0)) { held := some 1499999 } [(F.SQ_STATUS_STATE 0, 3)]) ⟨rfl, rfl⟩,
      by decide +kernel⟩
  · exact ⟨at0 (sqDev (step0 (.tx 1 16 false 0 false)) { held := some 1499999 } [(F.SQ_STATUS_STATE 0, 3)]),
      (sqDev (step0 (.tx 1 16 false 0 false)) { held := some 1499999 } [(F.SQ_STATUS_STATE 0, 3)]).now,
      (sqDev (step0 (.tx 1 16 false 0 false)) { held := some 1499999 } [(F.SQ_STATUS_STATE 0, 3)]), 0, 1499999,
      (.tx 1 16 false 0 false), 1, 16, false, 0, false,
      ready0 (sqDev (step0 (.tx 1 16 false 0 false)) { held := some 1499999 } [(F.SQ_STATUS_STATE 0, 3)]) ⟨rfl, rfl⟩,
      by decide +kernel⟩
  · exact ⟨at0 (sqDev (step0 (.rx 100 1 2 true 6 false)) { held := some 1499999 } [(F.SQ_STATUS_STATE 0, 3)]),
      (sqDev (step0 (.rx 100 1 2 true 6 false)) { held := some 1499999 } [(F.SQ_STATUS_STATE 0, 3)]).now,
      (sqDev (step0 (.rx 100 1 2 true 6 false)) { held := some 1499999 } [(F.SQ_STATUS_STATE 0, 3)]), 0, 1499999,
      (.rx 100 1 2 true 6 false), 100, 1, 2, true, 6, false,
      ready0 (sqDev (step0 (.rx 100 1 2 true 6 false)) { held := some 1499999 } [(F.SQ_STATUS_STATE 0, 3)]) ⟨rfl, rfl⟩,
      by decide +kernel⟩
  · exact ⟨at0 (stateDev 2 { paths := [(1, 1499999, 7)] } []), (stateDev 2 { paths := [(1, 1499999, 7)] } []).now,
      (stateDev 2 { paths := [(1, 1499999, 7)] } []), 0, (1, 1499999, 7),
      ready0 (stateDev 2 { paths := [(1, 1499999, 7)] } []) ⟨rfl, rfl⟩, by decide +kernel⟩
  · exact ⟨at0 (stateDev 2 { keys := [(5, true)], fetched := [⟨3, 1499999, [(5, true)], true⟩] } []),
      (stateDev 2 { keys := [(5, true)], fetched := [⟨3, 1499999, [(5, true)], true⟩] } []).now,
      (stateDev 2 { keys := [(5, true)], fetched := [⟨3, 1499999, [(5, true)], true⟩] } []), _, 0,
      ⟨3, 1499999, [(5, true)], true⟩,
      ready0 (stateDev 2 { keys := [(5, true)], fetched := [⟨3, 1499999, [(5, true)], true⟩] } []) ⟨rfl, rfl⟩, rfl,
      by decide +kernel⟩
  · exact ⟨at0 (stateDev 2 { reqs := [{ slotReq 1 with deadline := 1499999 }] } []),
      (stateDev 2 { reqs := [{ slotReq 1 with deadline := 1499999 }] } []).now,
      (stateDev 2 { reqs := [{ slotReq 1 with deadline := 1499999 }] } []), _, _, 0, { slotReq 1 with deadline := 1499999 }, _,
      ready0 (stateDev 2 { reqs := [{ slotReq 1 with deadline := 1499999 }] } []) ⟨rfl, rfl⟩, rfl, rfl, rfl, by decide +kernel⟩
  · exact ⟨at0 (jobOn true), (jobOn true).now, (jobOn true), _, 0, (aJob true), ready0 (jobOn true) ⟨rfl, rfl⟩, rfl,
      by decide +kernel⟩

theorem witness_transmission_commands_complete :
    (∃ (s : State) (t : Nat) (d e e1 e2 : Dev) (q : SeqId) (st : Step) (x n k : Nat) (typ : BitVec 4) (fsel : BitVec 5)
      (via : Bool) (lenmax : BitVec 12) (gap : Bool) (p : TxPlan) (g : SlotGrant) (inner : List Byte) (len : Nat), s.ready t d ∧
      d.atStep e q.val st ∧ k = e.tgt q.val ∧ inner = ((e1.ch k).grant.map (fun g => g.inner)).getD [] ∧
      len = p.lenOf inner (e1.baseLen k p) ∧ e2 = (if typ.toNat = 4 ∧ (e1.joinSlot k x).isSome then e1.drawSlot k else e1) ∧
      (if gap then e.useGap k typ.toNat else some (0, e)) = some (n, e1) ∧
      (needsArmed typ.toNat fsel.toNat via = true → (e1.sq q.val).armed ≠ none) ∧
      e1.txPlan q.val k typ.toNat fsel.toNat via lenmax.toNat = some p ∧ e.cond q.val st.cond.toNat = true ∧
      st.op = .tx typ fsel via lenmax gap ∧ e.locked k = false ∧ e.stepTime q.val st n = some x ∧ e.ownerOk q.val = true ∧
      roleSends (e.role k) typ.toNat = true ∧ e1.txBad q.val k typ.toNat via = [] ∧ e1.planRefusal k p len = none ∧
      (len ≤ p.limit ∨ p.typ = 15) ∧ e2.typeReady k p.entry typ.toNat x = true ∧ e2.now + 40 ≤ x ∧ e2.prmqRoom k 1 = true ∧
      (e2.sq q.val).grant = some g ∧ (∀ y ∈ e2.txKeys p, e2.keyReady y = true ∧ e2.slotFails y = false) ∧
      e2.overlapsTx k x = false ∧ e2.fctrSpent p = false ∧ e2.locked k = false) ∧
    (∃ (s : State) (t : Nat) (d g : Dev) (k : ChanId) (x : TxJob), s.ready t d ∧
      g = d.modCh k.val
        (fun c =>
        { c with txs := c.txs.map (fun y => if y = x then { y with begun := true } else y),
                 prmq := c.prmq.filter (fun e => !(e.kind == .tx && e.at_ == x.t)) }) ∧ dueJob (d.ch k.val).txs d.now = some x) ∧
    (∃ (s : State) (t : Nat) (d : Dev) (k : ChanId) (x : TxJob), s.ready t d ∧
      (d.ch k.val).txs.find? (fun x => x.begun && decide (x.fin ≤ d.now)) = some x) ∧
    (∃ (s : State) (t : Nat) (d g h : Dev) (k : ChanId) (trips : List Nat), s.ready t d ∧
      trips = (d.cycle :: (d.ch k.val).trips).take 4 ∧
      g = (d.setCh k.val { d.ch k.val with trips := trips, driverOn := false, tripped := true }).raise (F.LIF_STATUS_DRVOC k) ∧
      h = (if tripsLock trips d.cycle then g.raise (F.LIF_STATUS_DRVLOCK k) else g) ∧ d.driverLive k.val = true ∧
      (∃ x ∈ (d.ch (d.lead k.val)).txs, x.begun = true)) ∧
    (∃ (s : State) (t : Nat) (d : Dev) (n : DieId) (g : Gov), s.awake t d ∧
      (g = { d.gov with vhvLow := insertNat n.val (d.gov.vhvLow.filter (fun m => m ≠ n.val)) })) ∧
    (∃ (s : State) (t : Nat) (d : Dev) (n : DieId) (g : Gov), s.awake t d ∧
      (g = { d.gov with vhvLow := d.gov.vhvLow.filter (fun m => m ≠ n.val) })) ∧
    (∃ (s : State) (t : Nat) (d : Dev) (g : Gov), s.awake t d ∧ g = { d.gov with vddFeLow := true }) := by
  refine ⟨?_, ?_, ?_, ?_, ?_, ?_, ?_⟩
  · exact ⟨at0 beaconDev, beaconDev.now, beaconDev, _, _, _, 0, (step0 (.tx 0 0 false 0 false)), startOf11, _, _, 0, 0, false,
      0, false, _, ⟨0, 5, false, 0⟩, _, _, ready0 beaconDev ⟨rfl, rfl⟩, reads _ _ _ (by decide +kernel), rfl, rfl, rfl, rfl,
      rfl, by decide +kernel, rfl, by decide +kernel⟩
  · exact ⟨at0 (jobOn false), (jobOn false).now, (jobOn false), _, 0, (aJob false), ready0 (jobOn false) ⟨rfl, rfl⟩, rfl,
      by decide +kernel⟩
  · exact ⟨at0 (jobOn true), (jobOn true).now, (jobOn true), 0, (aJob true), ready0 (jobOn true) ⟨rfl, rfl⟩, by decide +kernel⟩
  · exact ⟨at0 ((jobOn true).modCh 0 (fun c => { c with drvTo := 2000000 })),
      ((jobOn true).modCh 0 (fun c => { c with drvTo := 2000000 })).now,
      ((jobOn true).modCh 0 (fun c => { c with drvTo := 2000000 })), _, _, 0, _,
      ready0 ((jobOn true).modCh 0 (fun c => { c with drvTo := 2000000 })) ⟨rfl, rfl⟩, rfl, rfl, rfl, by decide +kernel⟩
  · exact ⟨at0 base, base.now, base, 15, _, awake0 base rfl, rfl⟩
  · exact ⟨at0 base, base.now, base, 15, _, awake0 base rfl, rfl⟩
  · exact ⟨at0 base, base.now, base, _, awake0 base rfl, rfl⟩

theorem witness_acquisition_commands_complete :
    (∃ (s : State) (t : Nat) (d e e1 g : Dev) (q : SeqId) (st : Step) (x k : Nat) (wlen : BitVec 16) (kh : BitVec 3)
      (sync : BitVec 2) (gsrc : Bool) (gain : BitVec 6) (gap : Bool) (p : RxPlan) (w : RxWin), s.ready t d ∧
      d.atStep e q.val st ∧ k = e.tgt q.val ∧
      e1 = (if gap then e.modCh k (fun c => { c with grant := c.grant.map (fun g => { g with winFree := false }) }) else e) ∧
      w =
        { seq := q.val, step := e1.sqPc q.val, opn := x, close := x + e1.grains p.wlen, kh := p.kh, sync := p.sync,
          gains := p.gains, relay := p.relay, entry := (e1.sq q.val).armed.getD 0 } ∧
      g = e1.modCh k
        (fun c =>
        { c with wins := c.wins ++ [w], prmq := c.prmq ++ [⟨x, .rx, q.val, w.step⟩],
                 lf := if p.relay then { c.lf with upward := none } else c.lf }) ∧
      e.rxPlan q.val k wlen.toNat kh.toNat sync.toNat gsrc gain.toNat gap = some p ∧ e.cond q.val st.cond.toNat = true ∧
      st.op = .rx wlen kh sync gsrc gain gap ∧ (e.rxGap k gap).map (e.stepTime q.val st) = some (some x) ∧
      e.ownerOk q.val = true ∧ e.role k ≠ 0 ∧ e1.rxRefusal k p.kh p.sync = none ∧ e1.now + 40 ≤ x ∧
      (∀ v ∈ (e1.ch k).wins, v.close ≤ x ∨ x + e1.grains p.wlen ≤ v.opn) ∧ e1.rxRoom k = true) ∧
    (∃ (s : State) (t : Nat) (d g h : Dev) (k : ChanId) (w : RxWin), s.ready t d ∧
      g = (((d.dropOpening k.val w.opn).members k.val).zip w.gains).foldl (fun d e => d.applyGain e.1 e.2)
        (d.dropOpening k.val w.opn) ∧ h = g.putWin k.val w { w with opened := true } ∧
      (d.ch k.val).wins.find? (fun w => !w.opened && decide (w.opn ≤ d.now) && decide (w.opn ≤ w.close)) = some w ∧
      d.blankEnd k.val w.opn ≤ w.opn) ∧
    (∃ (s : State) (t : Nat) (d g h : Dev) (k : ChanId) (w : RxWin), ∃ x, s.ready t d ∧
      g = (((d.dropOpening k.val w.opn).members k.val).zip w.gains).foldl (fun d e => d.applyGain e.1 e.2)
        (d.dropOpening k.val w.opn) ∧ h = g.putWin k.val w { w with opn := x, gains := [], want := some (w.want.getD w.opn) } ∧
      (d.ch k.val).wins.find? (fun w => !w.opened && decide (w.opn ≤ d.now) && decide (w.opn ≤ w.close)) = some w ∧
      d.blankEnd k.val w.opn = x ∧ w.opn < x) ∧
    (∃ (s : State) (t : Nat) (d0 d g : Dev) (k : ChanId) (f : Feed) (w : RxWin) (stamp : Nat) (p : Peak) (l : List Peak),
      s.ready t d0 ∧ d = d0.intake k.val f ∧ stamp = p.last / 2 ^ 24 ∧
      g = ((d.modCh k.val (fun h => { h with search := {} })).inc (F.AQ_CNT_DETCNT k)).event 2 0 k.val 1 ∧ d.aqState k.val = 1 ∧
      (d.ch k.val).search.peaks = p :: l ∧ d.ndet k.val ≤ l.length + 1 ∧ d.searchWin k.val = some w ∧ w.cut = false ∧
      stamp ≤ w.close) ∧
    (∃ (s : State) (t : Nat) (d0 d g : Dev) (k : ChanId) (f : Feed) (w : RxWin) (stamp : Nat) (p : Peak) (l : List Peak),
      s.ready t d0 ∧ d = d0.intake k.val f ∧ stamp = p.last / 2 ^ 24 ∧
      g = ((d.modCh k.val (fun h => { h with search := {} })).inc (F.AQ_CNT_DETCNT k)).event 2 0 k.val 1 ∧ d.aqState k.val = 1 ∧
      (d.ch k.val).search.peaks = p :: l ∧ d.ndet k.val ≤ l.length + 1 ∧ d.searchWin k.val = some w ∧ w.cut = false ∧
      w.close < stamp) ∧
    (∃ (s : State) (t : Nat) (d : Dev) (g : Dev) (k : ChanId) (e : PrmqEntry) (v : Int), s.ready t d ∧
      ((d.ch k.val).prmq.find? (fun e => decide (e.at_ ≤ d.now) && (match e.kind with
          | .trim _ => true
          | _ => false)) = some e) ∧ (g = d.modCh k.val (fun c => { c with prmq := c.prmq.erase e })) ∧ e.kind = .trim v) ∧
    (∃ (s : State) (t : Nat) (d0 d : Dev) (k : ChanId) (f : Feed) (l : RxLock), s.ready t d0 ∧ d = d0.intake k.val f ∧
      d.aqState k.val = 2 ∧ (d.ch k.val).lock = some l ∧ l.reversed = true) ∧
    (∃ (s : State) (t : Nat) (d0 d : Dev) (k : ChanId) (f : Feed) (w : RxWin) (l : RxLock), s.ready t d0 ∧
      d = d0.intake k.val f ∧ d.aqState k.val = 2 ∧ (d.ch k.val).lock = some l ∧ l.reversed = false ∧ 72 ≤ l.windows ∧
      d.lockWin k.val = some w ∧ d.takable k.val w = none ∧ d.refNow k.val < w.close) ∧
    (∃ (s : State) (t : Nat) (d0 d g : Dev) (k : ChanId) (f : Feed) (w : RxWin) (l : RxLock) (ss : Int), s.ready t d0 ∧
      d = d0.intake k.val f ∧ ss = d.strength k.val w.n l.corr.peaks ∧ g = (d.wrS (F.AQ_LEVEL_SS k) ss).modLock k.val
        (fun l => { l with ss := ss, ssLatched := true, corr := { skip := w.n / 16 } }) ∧ d.lockWin k.val = some w ∧
      (d.ch k.val).lock = some l ∧ d.aqState k.val = 3 ∧ 32 ≤ l.bits.length ∧
      g.syncAccepts k.val w.sync (syncWord l.bits) = true) ∧
    (∃ (s : State) (t : Nat) (d0 d g : Dev) (k : ChanId) (f : Feed) (w : RxWin) (l : RxLock) (ss : Int), s.ready t d0 ∧
      d = d0.intake k.val f ∧ ss = d.strength k.val w.n l.corr.peaks ∧ g = (d.wrS (F.AQ_LEVEL_SS k) ss).modLock k.val
        (fun l => { l with ss := ss, ssLatched := true, corr := { skip := w.n / 16 } }) ∧ d.lockWin k.val = some w ∧
      (d.ch k.val).lock = some l ∧ d.aqState k.val = 3 ∧ 32 ≤ l.bits.length ∧
      g.syncAccepts k.val w.sync (syncWord l.bits) = false) ∧
    (∃ (s : State) (t : Nat) (d0 d : Dev) (k : ChanId) (f : Feed) (w : RxWin) (l : RxLock) (hdr : BitVec 96), ∃ i g,
      s.ready t d0 ∧ d = d0.intake k.val f ∧ hdr = decodeHeader l.soft ∧
      (d.neighbourHeard k.val (hdrSrc hdr) l.ss).judgeHeader k.val w hdr = (.accept i, g) ∧ d.lockWin k.val = some w ∧
      (d.ch k.val).lock = some l ∧ d.aqState k.val = 4 ∧ 288 ≤ l.soft.length ∧ headerSymbols w.kh * w.kh ≤ l.soft.length ∧
      hcrcOk hdr = true) ∧
    (∃ (s : State) (t : Nat) (d0 d : Dev) (k : ChanId) (f : Feed) (w : RxWin) (l : RxLock) (hdr : BitVec 96), s.ready t d0 ∧
      d = d0.intake k.val f ∧ hdr = decodeHeader l.soft ∧ d.lockWin k.val = some w ∧ (d.ch k.val).lock = some l ∧
      d.aqState k.val = 4 ∧ 288 ≤ l.soft.length ∧ headerSymbols w.kh * w.kh ≤ l.soft.length ∧ hcrcOk hdr = false) ∧
    (∃ (s : State) (t : Nat) (d g : Dev) (k : ChanId) (w w' : RxWin), s.ready t d ∧
      w' = { w with outcome := some w.arrival.isSome } ∧ g = d.putWin k.val w w' ∧
      (d.ch k.val).wins.find? (fun w => w.outcome.isNone && decide (w.close + d.hns k.val ≤ d.now)) = some w ∧
      (g.ch k.val).frames.any (fun l => w.owns (some l)) = false) ∧
    (∃ (s : State) (t : Nat) (d g : Dev) (k : ChanId) (w w' : RxWin), s.ready t d ∧
      w' = { w with outcome := some w.arrival.isSome } ∧ g = d.putWin k.val w w' ∧
      (d.ch k.val).wins.find? (fun w => w.outcome.isNone && decide (w.close + d.hns k.val ≤ d.now)) = some w ∧
      (g.ch k.val).frames.any (fun l => w.owns (some l)) = true) := by
  refine ⟨?_, ?_, ?_, ?_, ?_, ?_, ?_, ?_, ?_, ?_, ?_, ?_, ?_, ?_⟩
  · exact ⟨at0 (rolled 1 (sqDev (step0 (.rx 1000 0 0 true 20 false)) {} [])),
      (rolled 1 (sqDev (step0 (.rx 1000 0 0 true 20 false)) {} [])).now,
      (rolled 1 (sqDev (step0 (.rx 1000 0 0 true 20 false)) {} [])), _, _, _, 0, (step0 (.rx 1000 0 0 true 20 false)),
      startOf11, _, 1000, 0, 0, true, 20, false, _, _,
      ready0 (rolled 1 (sqDev (step0 (.rx 1000 0 0 true 20 false)) {} [])) ⟨rfl, rfl⟩, reads _ _ _ (by decide +kernel), rfl,
      rfl, rfl, rfl, rfl, by decide +kernel⟩
  · exact ⟨at0 (rxDev 1 0 (aWin false) none []), (rxDev 1 0 (aWin false) none []).now, (rxDev 1 0 (aWin false) none []), _, _,
      0, (aWin false), ready0 (rxDev 1 0 (aWin false) none []) ⟨rfl, rfl⟩, rfl, rfl, by decide +kernel⟩
  · exact ⟨at0 ((rxDev 1 0 (aWin false) none []).modCh 0 (fun c => { c with blankUntil := 1600000 })),
      ((rxDev 1 0 (aWin false) none []).modCh 0 (fun c => { c with blankUntil := 1600000 })).now,
      ((rxDev 1 0 (aWin false) none []).modCh 0 (fun c => { c with blankUntil := 1600000 })), _, _, 0, (aWin false), 1600000,
      ready0 ((rxDev 1 0 (aWin false) none []).modCh 0 (fun c => { c with blankUntil := 1600000 })) ⟨rfl, rfl⟩, rfl, rfl,
      by decide +kernel⟩
  · exact ⟨at0 (searching [aPeak 2000000, aPeak 1900000]), (searching [aPeak 2000000, aPeak 1900000]).now,
      (searching [aPeak 2000000, aPeak 1900000]), _, _, 0, {}, (aWin true), _, (aPeak 2000000), [aPeak 1900000],
      ready0 (searching [aPeak 2000000, aPeak 1900000]) ⟨rfl, rfl⟩, rfl, rfl, rfl, by decide +kernel⟩
  · exact ⟨at0 (searching [aPeak 2000001, aPeak 1900000]), (searching [aPeak 2000001, aPeak 1900000]).now,
      (searching [aPeak 2000001, aPeak 1900000]), _, _, 0, {}, (aWin true), _, (aPeak 2000001), [aPeak 1900000],
      ready0 (searching [aPeak 2000001, aPeak 1900000]) ⟨rfl, rfl⟩, rfl, rfl, rfl, by decide +kernel⟩
  · exact ⟨at0 trimDev, trimDev.now, trimDev, _, 0, ⟨1500000, .trim (-5), 128, 0⟩, (-5), ready0 trimDev ⟨rfl, rfl⟩, rfl, rfl,
      by decide +kernel⟩
  · exact ⟨at0 (rxDev 1 2 (aWin true) (some { aLock with reversed := true }) []),
      (rxDev 1 2 (aWin true) (some { aLock with reversed := true }) []).now,
      (rxDev 1 2 (aWin true) (some { aLock with reversed := true }) []), _, 0, {}, { aLock with reversed := true },
      ready0 (rxDev 1 2 (aWin true) (some { aLock with reversed := true }) []) ⟨rfl, rfl⟩, rfl, by decide +kernel⟩
  · exact ⟨at0 (rxDev 1 2 (aWin true) (some { aLock with windows := 72 }) []),
      (rxDev 1 2 (aWin true) (some { aLock with windows := 72 }) []).now,
      (rxDev 1 2 (aWin true) (some { aLock with windows := 72 }) []), _, 0, {}, (aWin true), { aLock with windows := 72 },
      ready0 (rxDev 1 2 (aWin true) (some { aLock with windows := 72 }) []) ⟨rfl, rfl⟩, rfl, by decide +kernel⟩
  · exact ⟨at0 (rxDev 1 3 (aWin true) (some (syncing syncBits)) unitGain),
      (rxDev 1 3 (aWin true) (some (syncing syncBits)) unitGain).now,
      (rxDev 1 3 (aWin true) (some (syncing syncBits)) unitGain), _, _, 0, {}, (aWin true), (syncing syncBits), _,
      ready0 (rxDev 1 3 (aWin true) (some (syncing syncBits)) unitGain) ⟨rfl, rfl⟩, rfl, rfl, rfl, by decide +kernel⟩
  · exact ⟨at0 (rxDev 1 3 (aWin true) (some (syncing (List.replicate 32 true))) unitGain),
      (rxDev 1 3 (aWin true) (some (syncing (List.replicate 32 true))) unitGain).now,
      (rxDev 1 3 (aWin true) (some (syncing (List.replicate 32 true))) unitGain), _, _, 0, {}, (aWin true),
      (syncing (List.replicate 32 true)), _,
      ready0 (rxDev 1 3 (aWin true) (some (syncing (List.replicate 32 true))) unitGain) ⟨rfl, rfl⟩, rfl, rfl, rfl,
      by decide +kernel⟩
  · exact ⟨at0 (rxDev 2 4 (aWin true) (some (hdrLock beaconHdr)) planB30),
      (rxDev 2 4 (aWin true) (some (hdrLock beaconHdr)) planB30).now,
      (rxDev 2 4 (aWin true) (some (hdrLock beaconHdr)) planB30), _, 0, {}, (aWin true), (hdrLock beaconHdr), beaconHdr, 0, _,
      ready0 (rxDev 2 4 (aWin true) (some (hdrLock beaconHdr)) planB30) ⟨rfl, rfl⟩, rfl, beacon_decodes,
      pair_of (by decide +kernel), by decide +kernel⟩
  · exact ⟨at0 (rxDev 2 4 (aWin true) (some (hdrLock (beaconHdr ^^^ 1))) planB30),
      (rxDev 2 4 (aWin true) (some (hdrLock (beaconHdr ^^^ 1))) planB30).now,
      (rxDev 2 4 (aWin true) (some (hdrLock (beaconHdr ^^^ 1))) planB30), _, 0, {}, (aWin true), (hdrLock (beaconHdr ^^^ 1)),
      (beaconHdr ^^^ 1), ready0 (rxDev 2 4 (aWin true) (some (hdrLock (beaconHdr ^^^ 1))) planB30) ⟨rfl, rfl⟩, rfl,
      other_decodes, by decide +kernel⟩
  · exact ⟨at0 lateWin, lateWin.now, lateWin, _, 0, (aWin true), _, ready0 lateWin ⟨rfl, rfl⟩, rfl, rfl, by decide +kernel⟩
  · exact ⟨at0 ({ rxDev 1 5 (aWin true) (some aLock) [] with now := 3000000 }),
      ({ rxDev 1 5 (aWin true) (some aLock) [] with now := 3000000 }).now,
      ({ rxDev 1 5 (aWin true) (some aLock) [] with now := 3000000 }), _, 0, (aWin true), _,
      ready0 ({ rxDev 1 5 (aWin true) (some aLock) [] with now := 3000000 }) ⟨rfl, rfl⟩, rfl, rfl, by decide +kernel⟩

theorem witness_payload_commands_complete :
    (∃ (s : State) (t : Nat) (d0 d g : Dev) (k : ChanId) (f : Feed) (w : RxWin) (l : RxLock) (x : List Peak) (c : Candidate),
      s.ready t d0 ∧ d = d0.intake k.val f ∧ x = l.sent.peaks.drop (l.sent.peaks.length - d.ndet k.val) ∧
      c = { stamp := ((x.head?.map Peak.last).getD 0) / 2 ^ 24, ss := d.strength k.val w.n x } ∧
      g = ((d.raise (F.AQ_STATUS_SENTSEEN k)).inc (F.AQ_CNT2_SENTCNT k)).modCh k.val
        (fun x => { x with cand := some c, lock := x.lock.map (fun l => { l with declared := true }) }) ∧
      d.lockWin k.val = some w ∧ (d.ch k.val).lock = some l ∧ l.ended = false ∧ l.declared = false ∧
      d.ndet k.val ≤ l.sent.peaks.length ∧
      (g.on (F.AQ_CFG_CAPPOL (g.lead k.val)) = false ∨ c.ss - l.ss < 16 * (g.capDb k.val : Int) ∨ w.close < c.stamp)) ∧
    (∃ (s : State) (t : Nat) (d0 d g : Dev) (k : ChanId) (f : Feed) (w : RxWin) (l : RxLock) (x : List Peak) (c : Candidate),
      s.ready t d0 ∧ d = d0.intake k.val f ∧ x = l.sent.peaks.drop (l.sent.peaks.length - d.ndet k.val) ∧
      c = { stamp := ((x.head?.map Peak.last).getD 0) / 2 ^ 24, ss := d.strength k.val w.n x } ∧
      g = ((d.raise (F.AQ_STATUS_SENTSEEN k)).inc (F.AQ_CNT2_SENTCNT k)).modCh k.val
        (fun x => { x with cand := some c, lock := x.lock.map (fun l => { l with declared := true }) }) ∧
      d.lockWin k.val = some w ∧ (d.ch k.val).lock = some l ∧ l.ended = false ∧ l.declared = false ∧
      d.ndet k.val ≤ l.sent.peaks.length ∧ g.on (F.AQ_CFG_CAPPOL (g.lead k.val)) = true ∧
      16 * (g.capDb k.val : Int) ≤ c.ss - l.ss ∧ c.stamp ≤ w.close) ∧
    (∃ (s : State) (t : Nat) (d0 d e g : Dev) (k : ChanId) (fd : Feed) (w : RxWin) (l : RxLock) (f : Form) (cols : List Col)
      (soft : Option (List Int)) (i len : Nat) (ended : Bool), s.ready t d0 ∧ d = d0.intake k.val fd ∧ f = l.form w.kh ∧
      cols = l.corr.buf.reverse ∧ len = hdrLen (l.hdr.getD 0) ∧ i = ((d.symbolAt k.val f len (l.pos - 1)).map Prod.fst).getD 0 ∧
      ended = decide (e.payloadChips k.val f len ≤ l.pos) ∧ g = e.modLock k.val (fun l' => { l' with corr := {}, pre := 0, ended := ended, fin := if ended then ((l.corr.buf.head?.map Col.ref).getD 0) / 2 ^ 24 else l'.fin, gain := if ended then some (e.ch k.val).gain else l'.gain, syms := match soft with
          | some x => l'.syms ++ [(i, x)]
          | none => l'.syms }) ∧ (f.mux = true → d.muxSymbol k.val w.kh l cols = (e, soft.getD []) ∧ soft.isSome = true) ∧
      (f.mux = false → d.tineSymbol k.val w.kh i l cols = (e, soft)) ∧ d.lockWin k.val = some w ∧ (d.ch k.val).lock = some l ∧
      d.aqState k.val = 5 ∧ l.symbolFull w.kh = true ∧ ended = false) ∧
    (∃ (s : State) (t : Nat) (d0 d e g : Dev) (k : ChanId) (fd : Feed) (w : RxWin) (l : RxLock) (f : Form) (cols : List Col)
      (soft : Option (List Int)) (i len : Nat) (ended : Bool), s.ready t d0 ∧ d = d0.intake k.val fd ∧ f = l.form w.kh ∧
      cols = l.corr.buf.reverse ∧ len = hdrLen (l.hdr.getD 0) ∧ i = ((d.symbolAt k.val f len (l.pos - 1)).map Prod.fst).getD 0 ∧
      ended = decide (e.payloadChips k.val f len ≤ l.pos) ∧ g = e.modLock k.val (fun l' => { l' with corr := {}, pre := 0, ended := ended, fin := if ended then ((l.corr.buf.head?.map Col.ref).getD 0) / 2 ^ 24 else l'.fin, gain := if ended then some (e.ch k.val).gain else l'.gain, syms := match soft with
          | some x => l'.syms ++ [(i, x)]
          | none => l'.syms }) ∧ (f.mux = true → d.muxSymbol k.val w.kh l cols = (e, soft.getD []) ∧ soft.isSome = true) ∧
      (f.mux = false → d.tineSymbol k.val w.kh i l cols = (e, soft)) ∧ d.lockWin k.val = some w ∧ (d.ch k.val).lock = some l ∧
      d.aqState k.val = 5 ∧ l.symbolFull w.kh = true ∧ ended = true) ∧
    (∃ (d : Dev) (k kh : Nat) (l : RxLock) (cols : List Col), overErased (d.eras k) (l.flagged (l.form kh).p cols) = true) ∧
    (∃ (s : State) (t : Nat) (d g : Dev) (k : ChanId) (w : RxWin) (l : RxLock) (f : Form) (h : BitVec 96) (a b n : Nat),
      s.ready t d ∧ f = hdrForm h w.kh ∧ a = d.blockEnd k.val f (hdrLen h) (hdrAnchor h) l.blocks ∧
      b = d.blockEnd k.val f (hdrLen h) (hdrAnchor h) (l.blocks + 1) ∧ n = d.issuedCodewords k.val l ∧
      g = d.modLock k.val
        (fun l' =>
        { l' with blocks := l'.blocks + 1, codewords := n, stream := l'.stream ++ deinterleave f (l.blockSyms a b),
                  syms := l'.syms.filter (fun x => b ≤ x.1) }) ∧ (d.ch k.val).behind = [] ∧ d.lockWin k.val = some w ∧
      (d.ch k.val).lock = some l ∧ l.hdr = some h ∧ a < b ∧ b - a ≤ (l.blockSyms a b).length) ∧
    (∃ (d g : Dev) (k bits n : Nat) (l : RxLock), n = min l.codewords (ceilDiv bits 6144) - (l.decoded + l.started.length) ∧
      g = d.modLock k
        (fun l' =>
        { l' with decoded := l'.decoded + n, failed := true, stream := l'.stream.drop (6144 * n),
                  body := l'.body ++ List.replicate (n * l'.infoLen) 0 }) ∧ (d.ch k).lock = some l ∧ n ≠ 0) ∧
    (∃ (s : State) (t : Nat) (d g e : Dev) (k : ChanId) (l : RxLock) (cap it : Nat) (soft : List Int) (ok : Bool)
      (info b : List Byte), s.ready t d ∧ decodeWord (l.form 8).rate cap (d.rd (F.AQ_CFG3_MS_OFFSET k)) soft = (it, ok, info) ∧
      b = l.body ++ fitTo l.infoLen info ∧ g = ((d.event 2 9 k.val 1).event 2 10 k.val it).modLock k.val
        (fun l' =>
        { l' with started := l'.started.drop 1, decoded := l'.decoded + 1, failed := l'.failed || !ok, body := b,
                  margin := some (min (l'.margin.getD (cap - it)) (cap - it)) }) ∧
      e =
        { (if ok then g else g.inc (F.AQ_CNT3_DECFAILCNT k)) with poolBusy := (if ok then g else g.inc (F.AQ_CNT3_DECFAILCNT k)).poolBusy.erase (k.val, l.stamp) }.startPool ∧
      (d.ch k.val).behind = [] ∧ (d.ch k.val).lock = some l ∧ l.started.head? = some (cap, soft) ∧ l.entry = none) ∧
    (∃ (s : State) (t : Nat) (d g e : Dev) (k : ChanId) (l : RxLock) (cap it : Nat) (soft : List Int) (ok : Bool)
      (info b : List Byte), ∃ i, s.ready t d ∧
      decodeWord (l.form 8).rate cap (d.rd (F.AQ_CFG3_MS_OFFSET k)) soft = (it, ok, info) ∧ b = l.body ++ fitTo l.infoLen info ∧
      g = ((d.event 2 9 k.val 1).event 2 10 k.val it).modLock k.val
        (fun l' =>
        { l' with started := l'.started.drop 1, decoded := l'.decoded + 1, failed := l'.failed || !ok, body := b,
                  margin := some (min (l'.margin.getD (cap - it)) (cap - it)) }) ∧
      e =
        { (if ok then g else g.inc (F.AQ_CNT3_DECFAILCNT k)) with poolBusy := (if ok then g else g.inc (F.AQ_CNT3_DECFAILCNT k)).poolBusy.erase (k.val, l.stamp) }.startPool ∧
      (d.ch k.val).behind = [] ∧ (d.ch k.val).lock = some l ∧ l.started.head? = some (cap, soft) ∧ l.entry = some i ∧
      (l.decoded ≠ 0 ∨ ok = false)) ∧
    (∃ (s : State) (t : Nat) (d g e : Dev) (k : ChanId) (l : RxLock) (cap it : Nat) (soft : List Int) (ok : Bool)
      (info b : List Byte), ∃ i, s.ready t d ∧ b = l.body ++ fitTo l.infoLen info ∧
      g = ((d.event 2 9 k.val 1).event 2 10 k.val it).modLock k.val
        (fun l' =>
        { l' with started := l'.started.drop 1, decoded := l'.decoded + 1, failed := l'.failed || !ok, body := b,
                  margin := some (min (l'.margin.getD (cap - it)) (cap - it)) }) ∧
      e =
        { (if ok then g else g.inc (F.AQ_CNT3_DECFAILCNT k)) with poolBusy := (if ok then g else g.inc (F.AQ_CNT3_DECFAILCNT k)).poolBusy.erase (k.val, l.stamp) }.startPool ∧
      decodeWord (l.form 8).rate cap (d.rd (F.AQ_CFG3_MS_OFFSET k)) soft = (it, ok, info) ∧ (d.ch k.val).behind = [] ∧
      (d.ch k.val).lock = some l ∧ l.started.head? = some (cap, soft) ∧ l.entry = some i ∧ l.decoded = 0 ∧ ok = true) ∧
    (∃ (s : State) (t : Nat) (d : Dev) (k : ChanId) (l : RxLock) (h : BitVec 96) (b : List Byte) (n c : Nat), s.ready t d ∧
      b = whiteBody (hdrSrc h) l.body ∧ n = beNat (b.take 3) ∧ c = beNat ((b.drop 4).take 8) ∧ (d.ch k.val).behind = [] ∧
      (d.ch k.val).lock = some l ∧ l.hdr = some h ∧ hdrLen h ≤ l.decoded ∧
      (l.failed = true ∨ hdrLen h ≠ lenFor (infoOctets (hdrForm h 8).rate) n)) ∧
    (∃ (s : State) (t : Nat) (d : Dev) (k : ChanId) (l : RxLock) (h : BitVec 96) (b : List Byte) (i sa n c : Nat) (ph : Bool),
      s.ready t d ∧ b = whiteBody (hdrSrc h) l.body ∧ n = beNat (b.take 3) ∧ c = beNat ((b.drop 4).take 8) ∧
      (d.ch k.val).behind = [] ∧ (d.ch k.val).lock = some l ∧ l.hdr = some h ∧ hdrLen h ≤ l.decoded ∧ l.failed = false ∧
      hdrLen h = lenFor (infoOctets (hdrForm h 8).rate) n ∧ n + 32 ≤ b.length ∧
      (fcs32 (b.take (n + 28))).toNat = beNat ((b.drop (n + 28)).take 4) ∧ l.entry = some i ∧ l.key = some (sa, ph) ∧
      l.aborted = false ∧ (d.sa_ sa).passes c = false) ∧
    (∃ (s : State) (t : Nat) (d x g : Dev) (k : ChanId) (l : RxLock) (h : BitVec 96) (b : List Byte) (i sa n c : Nat)
      (ph poll : Bool), s.ready t d ∧ b = whiteBody (hdrSrc h) l.body ∧ n = beNat (b.take 3) ∧ c = beNat ((b.drop 4).take 8) ∧
      poll = (d.isOut k.val && (hdrType h == 1 || hdrType h == 3) && hdrDst h != 0x1FFFF) ∧
      x = d.setSa sa ((d.sa_ sa).accept c) ∧
      g = ((if x.role k.val = 4 then x else x.acceptedUnder sa ph).event 8 0 0 (ceilDiv n 16)).bwRx k.val n ∧
      (d.ch k.val).behind = [] ∧ (d.ch k.val).lock = some l ∧ l.hdr = some h ∧ hdrLen h ≤ l.decoded ∧ l.failed = false ∧
      hdrLen h = lenFor (infoOctets (hdrForm h 8).rate) n ∧ n + 32 ≤ b.length ∧
      (fcs32 (b.take (n + 28))).toNat = beNat ((b.drop (n + 28)).take 4) ∧ l.entry = some i ∧ l.key = some (sa, ph) ∧
      l.aborted = false ∧ (d.sa_ sa).passes c = true) ∧
    (∃ (s : State) (t : Nat) (d : Dev) (k : ChanId) (o : RxLock) (rest : List RxLock), s.ready t d ∧
      (d.ch k.val).behind = o :: rest) ∧
    (∃ (s : State) (t : Nat) (d : Dev) (k : ChanId) (f : List Byte), s.ready t d ∧ (d.ch k.val).lf.nested = some f ∧
      d.role k.val = 1) ∧
    (∃ (s : State) (t : Nat) (d : Dev) (k : ChanId) (x : Nat), ∃ l, s.ready t d ∧ x ≤ d.now ∧ (d.ch k.val).behind = [] ∧
      (d.ch k.val).lock = some l ∧ l.keyWait = some x) ∧
    (∃ (s : State) (t : Nat) (d : Dev) (k : ChanId) (x : Nat), s.ready t d ∧
      (∀ l, (d.ch k.val).lock = some l → l.keyWait = none) ∧ x ≤ d.now ∧ (d.ch k.val).behind = [] ∧
      (d.ch k.val).lf.nestedWait = some x) ∧
    (∃ (s : State) (t : Nat) (d0 d : Dev) (k : ChanId) (f : Feed) (r : NfRun) (l : List NfRun) (level : Int), s.ready t d0 ∧
      d = d0.intake k.val f ∧ level = d.levelOf k.val r.power (r.n - r.flagged) 0 ∧ (d.ch k.val).nfDue = r :: l ∧
      (d.ch k.val).nfValid = false) ∧
    (∃ (s : State) (t : Nat) (d : Dev) (k : ChanId), s.ready t d ∧ d.domOn k.val = true ∧ d.nfFresh k.val = false) := by
  refine ⟨?_, ?_, ?_, ?_, ?_, ?_, ?_, ?_, ?_, ?_, ?_, ?_, ?_, ?_, ?_, ?_, ?_, ?_, ?_⟩
  · exact ⟨at0 (rxDev 1 5 (aWin true) (some (sentinelLock 0)) unitGain),
      (rxDev 1 5 (aWin true) (some (sentinelLock 0)) unitGain).now, (rxDev 1 5 (aWin true) (some (sentinelLock 0)) unitGain), _,
      _, 0, {}, (aWin true), (sentinelLock 0), _, _, ready0 (rxDev 1 5 (aWin true) (some (sentinelLock 0)) unitGain) ⟨rfl, rfl⟩,
      rfl, rfl, rfl, rfl, by decide +kernel⟩
  · exact ⟨at0 (rxDev 1 5 (aWin true) (some (sentinelLock 304)) ((F.AQ_CFG_CAPPOL 0, 1) :: unitGain)),
      (rxDev 1 5 (aWin true) (some (sentinelLock 304)) ((F.AQ_CFG_CAPPOL 0, 1) :: unitGain)).now,
      (rxDev 1 5 (aWin true) (some (sentinelLock 304)) ((F.AQ_CFG_CAPPOL 0, 1) :: unitGain)), _, _, 0, {}, (aWin true),
      (sentinelLock 304), _, _,
      ready0 (rxDev 1 5 (aWin true) (some (sentinelLock 304)) ((F.AQ_CFG_CAPPOL 0, 1) :: unitGain)) ⟨rfl, rfl⟩, rfl, rfl, rfl,
      rfl, by decide +kernel⟩
  · exact ⟨at0 (rxDev 2 5 (aWin true) (some fullBody) []), (rxDev 2 5 (aWin true) (some fullBody) []).now,
      (rxDev 2 5 (aWin true) (some fullBody) []), _, _, _, 0, {}, (aWin true), fullBody, _, _, _, _, _, _,
      ready0 (rxDev 2 5 (aWin true) (some fullBody) []) ⟨rfl, rfl⟩, rfl, rfl, rfl, rfl, rfl, rfl, rfl,
      fun h => absurd h (by decide +kernel), fun _ => pair_eq, by decide +kernel⟩
  · exact ⟨at0 (rxDev 2 5 (aWin true) (some { fullBody with pos := 2 ^ 20 }) []),
      (rxDev 2 5 (aWin true) (some { fullBody with pos := 2 ^ 20 }) []).now,
      (rxDev 2 5 (aWin true) (some { fullBody with pos := 2 ^ 20 }) []), _, _, _, 0, {}, (aWin true),
      { fullBody with pos := 2 ^ 20 }, _, _, _, _, _, _,
      ready0 (rxDev 2 5 (aWin true) (some { fullBody with pos := 2 ^ 20 }) []) ⟨rfl, rfl⟩, rfl, rfl, rfl, rfl, rfl, rfl, rfl,
      fun h => absurd h (by decide +kernel), fun _ => pair_eq, by decide +kernel⟩
  · exact ⟨base, 0, 8, aLock, [⟨0, [2 ^ 40]⟩], by decide +kernel⟩
  · exact ⟨at0 (rxDev 2 5 (aWin true) (some blockLock) []), (rxDev 2 5 (aWin true) (some blockLock) []).now,
      (rxDev 2 5 (aWin true) (some blockLock) []), _, 0, (aWin true), blockLock, _, muxHdr, _, _, _,
      ready0 (rxDev 2 5 (aWin true) (some blockLock) []) ⟨rfl, rfl⟩, rfl, rfl, rfl, rfl, rfl, by decide +kernel⟩
  · exact ⟨(rxDev 2 5 (aWin true) (some goodLock) []), _, 0, 12288, _, goodLock, rfl, rfl, by decide +kernel⟩
  · exact ⟨at0 (rxDev 2 5 (aWin true) (some { coding 1 with entry := none }) []),
      (rxDev 2 5 (aWin true) (some { coding 1 with entry := none }) []).now,
      (rxDev 2 5 (aWin true) (some { coding 1 with entry := none }) []), _, _, 0, { coding 1 with entry := none }, 1, _, [], _,
      _, _, ready0 (rxDev 2 5 (aWin true) (some { coding 1 with entry := none }) []) ⟨rfl, rfl⟩, triple_eq, rfl, rfl, rfl,
      by decide +kernel⟩
  · exact ⟨at0 (rxDev 2 5 (aWin true) (some (coding 1)) []), (rxDev 2 5 (aWin true) (some (coding 1)) []).now,
      (rxDev 2 5 (aWin true) (some (coding 1)) []), _, _, 0, (coding 1), 1, _, [], _, _, _, 0,
      ready0 (rxDev 2 5 (aWin true) (some (coding 1)) []) ⟨rfl, rfl⟩, triple_eq, rfl, rfl, rfl, by decide +kernel⟩
  · exact ⟨at0 codingDev, codingDev.now, codingDev, _, _, 0, (coding 0), 1, _, [], true, _, _, 0, ready0 codingDev ⟨rfl, rfl⟩,
      rfl, rfl, rfl, triple_of coding_ends, by decide +kernel⟩
  · exact ⟨at0 (rxDev 2 5 (aWin true) (some { goodLock with failed := true }) []),
      (rxDev 2 5 (aWin true) (some { goodLock with failed := true }) []).now,
      (rxDev 2 5 (aWin true) (some { goodLock with failed := true }) []), 0, { goodLock with failed := true }, beaconHdr, _, _,
      _, ready0 (rxDev 2 5 (aWin true) (some { goodLock with failed := true }) []) ⟨rfl, rfl⟩, rfl, rfl, rfl, by decide +kernel⟩
  · exact ⟨at0 ((rxDev 2 5 (aWin true) (some goodLock) []).setSa 0 { empty := false, rxhi := 100 }),
      ((rxDev 2 5 (aWin true) (some goodLock) []).setSa 0 { empty := false, rxhi := 100 }).now,
      ((rxDev 2 5 (aWin true) (some goodLock) []).setSa 0 { empty := false, rxhi := 100 }), 0, goodLock, beaconHdr, _, 0, 0, _,
      _, false, ready0 ((rxDev 2 5 (aWin true) (some goodLock) []).setSa 0 { empty := false, rxhi := 100 }) ⟨rfl, rfl⟩, rfl,
      rfl, rfl, by decide +kernel⟩
  · exact ⟨at0 (rxDev 2 5 (aWin true) (some goodLock) []), (rxDev 2 5 (aWin true) (some goodLock) []).now,
      (rxDev 2 5 (aWin true) (some goodLock) []), _, _, 0, goodLock, beaconHdr, _, 0, 0, _, _, false, _,
      ready0 (rxDev 2 5 (aWin true) (some goodLock) []) ⟨rfl, rfl⟩, rfl, rfl, rfl, rfl, rfl, rfl, by decide +kernel⟩
  · exact ⟨at0 (timed.modCh 0 (fun c => { c with behind := [goodLock] })),
      (timed.modCh 0 (fun c => { c with behind := [goodLock] })).now,
      (timed.modCh 0 (fun c => { c with behind := [goodLock] })), 0, goodLock, [],
      ready0 (timed.modCh 0 (fun c => { c with behind := [goodLock] })) ⟨rfl, rfl⟩, by decide +kernel⟩
  · exact ⟨at0 ((rolled 1 timed).modLf 0 (fun l => { l with nested := some [1] })),
      ((rolled 1 timed).modLf 0 (fun l => { l with nested := some [1] })).now,
      ((rolled 1 timed).modLf 0 (fun l => { l with nested := some [1] })), 0, [1],
      ready0 ((rolled 1 timed).modLf 0 (fun l => { l with nested := some [1] })) ⟨rfl, rfl⟩, by decide +kernel⟩
  · exact ⟨at0 (rxDev 2 5 (aWin true) (some { goodLock with keyWait := some 1500000 }) []),
      (rxDev 2 5 (aWin true) (some { goodLock with keyWait := some 1500000 }) []).now,
      (rxDev 2 5 (aWin true) (some { goodLock with keyWait := some 1500000 }) []), 0, 1500000,
      { goodLock with keyWait := some 1500000 },
      ready0 (rxDev 2 5 (aWin true) (some { goodLock with keyWait := some 1500000 }) []) ⟨rfl, rfl⟩, by decide +kernel⟩
  · exact ⟨at0 (timed.modLf 0 (fun l => { l with nestedWait := some 1500000 })),
      (timed.modLf 0 (fun l => { l with nestedWait := some 1500000 })).now,
      (timed.modLf 0 (fun l => { l with nestedWait := some 1500000 })), 0, 1500000,
      ready0 (timed.modLf 0 (fun l => { l with nestedWait := some 1500000 })) ⟨rfl, rfl⟩,
      (fun _ h => nomatch (show (none : Option RxLock) = some _ from h)), by decide +kernel⟩
  · exact ⟨at0 quietDev, quietDev.now, quietDev, _, 0, {}, { n := 4096, flagged := 0, power := 1 }, [], _,
      ready0 quietDev ⟨rfl, rfl⟩, rfl, rfl, by decide +kernel⟩
  · exact ⟨at0 timed, timed.now, timed, 0, ready0 timed ⟨rfl, rfl⟩, by decide +kernel⟩

theorem witness_luafen_commands_complete :
    (∃ (s : State) (t : Nat) (d g h : Dev) (k : ChanId) (a : Accepted), ∃ b o, s.ready t d ∧
      g = d.modCh k.val (fun c => { c with accepted := none }) ∧
      h = (if a.msg.length < blockLen a.typ then g.raise (F.LF_STATUS_MSGBAD k) else g) ∧ o = h.impliedOffset a.fin b ∧
      (d.ch k.val).accepted = some a ∧ a.typ = 0 ∧ h.isOut k.val = true ∧
      (readBeacon a.msg = some b ∨ readBeacon a.msg = none ∧ readBeaconTime a.msg = some b) ∧
      (h.ostate k.val ≠ 2 ∨ h.on (F.LF_STATUS_HOFSV k) = false ∨ offsetJump o (h.hofs k.val) ≤ h.rd
        (F.LF_BCN_BCN_TOL (h.lead k.val)))) ∧
    (∃ (s : State) (t : Nat) (d g h : Dev) (k : ChanId) (a : Accepted), ∃ b o, s.ready t d ∧
      g = d.modCh k.val (fun c => { c with accepted := none }) ∧
      h = (if a.msg.length < blockLen a.typ then g.raise (F.LF_STATUS_MSGBAD k) else g) ∧ o = h.impliedOffset a.fin b ∧
      (d.ch k.val).accepted = some a ∧ a.typ = 0 ∧ h.isOut k.val = true ∧
      (readBeacon a.msg = some b ∨ readBeacon a.msg = none ∧ readBeaconTime a.msg = some b) ∧ h.ostate k.val = 2 ∧
      h.on (F.LF_STATUS_HOFSV k) = true ∧ h.rd (F.LF_BCN_BCN_TOL (h.lead k.val)) < offsetJump o (h.hofs k.val)) ∧
    (∃ (s : State) (t : Nat) (d g h : Dev) (k : ChanId) (a : Accepted), s.ready t d ∧
      g = d.modCh k.val (fun c => { c with accepted := none }) ∧
      h = (if a.msg.length < blockLen a.typ then g.raise (F.LF_STATUS_MSGBAD k) else g) ∧ (d.ch k.val).accepted = some a ∧
      a.typ = 1 ∧ g.isOut k.val = true ∧ g.ostate k.val = 2 ∧ a.dst = 0x1FFFF) ∧
    (∃ (s : State) (t : Nat) (d g h : Dev) (k : ChanId) (a : Accepted), ∃ p, s.ready t d ∧
      g = d.modCh k.val (fun c => { c with accepted := none }) ∧
      h = (if a.msg.length < blockLen a.typ then g.raise (F.LF_STATUS_MSGBAD k) else g) ∧ (d.ch k.val).accepted = some a ∧
      a.typ = 1 ∧ g.isOut k.val = true ∧ g.ostate k.val = 2 ∧ a.dst ≠ 0x1FFFF ∧ readPoll a.msg = some p) ∧
    (∃ (s : State) (t : Nat) (d g h : Dev) (k : ChanId) (a : Accepted), ∃ p r y, s.ready t d ∧
      g = d.modCh k.val (fun c => { c with accepted := none }) ∧
      h = (if a.msg.length < blockLen a.typ then g.raise (F.LF_STATUS_MSGBAD k) else g) ∧
      y = (g.modLf k.val (fun l => { l with lastPoll := g.cycle })).readReply k.val a ∧ (d.ch k.val).accepted = some a ∧
      a.typ = 3 ∧ g.isOut k.val = true ∧ g.ostate k.val = 2 ∧ a.dst ≠ 0x1FFFF ∧ readPoll a.msg = some p ∧
      readRelay a.msg = some r ∧ 24 + relayInlen a.msg ≤ a.msg.length ∧ y.refusesRelay k.val (relayGrant a p r) = false) ∧
    (∃ (s : State) (t : Nat) (d g h : Dev) (k : ChanId) (a : Accepted), ∃ p r y, s.ready t d ∧
      g = d.modCh k.val (fun c => { c with accepted := none }) ∧
      h = (if a.msg.length < blockLen a.typ then g.raise (F.LF_STATUS_MSGBAD k) else g) ∧
      y = (g.modLf k.val (fun l => { l with lastPoll := g.cycle })).readReply k.val a ∧ (d.ch k.val).accepted = some a ∧
      a.typ = 3 ∧ g.isOut k.val = true ∧ g.ostate k.val = 2 ∧ a.dst ≠ 0x1FFFF ∧ readPoll a.msg = some p ∧
      readRelay a.msg = some r ∧ 24 + relayInlen a.msg ≤ a.msg.length ∧ y.refusesRelay k.val (relayGrant a p r) = true) ∧
    (∃ (s : State) (t : Nat) (d g h : Dev) (k : ChanId) (a : Accepted), s.ready t d ∧
      g = d.modCh k.val (fun c => { c with accepted := none }) ∧
      h = (if a.msg.length < blockLen a.typ then g.raise (F.LF_STATUS_MSGBAD k) else g) ∧ (d.ch k.val).accepted = some a ∧
      a.typ = 2 ∧ g.role k.val = 1 ∧ g.rd (N.STATE a.entry) = 2) ∧
    (∃ (s : State) (t : Nat) (d g h : Dev) (k : ChanId) (a : Accepted), s.ready t d ∧
      g = d.modCh k.val (fun c => { c with accepted := none }) ∧
      h = (if a.msg.length < blockLen a.typ then g.raise (F.LF_STATUS_MSGBAD k) else g) ∧ (d.ch k.val).accepted = some a ∧
      a.typ = 2 ∧ g.role k.val = 1 ∧ g.rd (N.STATE a.entry) = 1 ∧ respNonce a.msg = some (g.nonceH a.entry)) ∧
    (∃ (s : State) (t : Nat) (d g h : Dev) (k : ChanId) (a : Accepted), s.ready t d ∧
      g = d.modCh k.val (fun c => { c with accepted := none }) ∧
      h = (if a.msg.length < blockLen a.typ then g.raise (F.LF_STATUS_MSGBAD k) else g) ∧ (d.ch k.val).accepted = some a ∧
      a.typ = 2 ∧ g.role k.val = 1 ∧ g.rd (N.STATE a.entry) = 1 ∧ respNonce a.msg ≠ some (g.nonceH a.entry)) ∧
    (∃ (s : State) (t : Nat) (d g h : Dev) (k : ChanId) (a : Accepted), ∃ r, s.ready t d ∧
      g = d.modCh k.val (fun c => { c with accepted := none }) ∧
      h = (if a.msg.length < blockLen a.typ then g.raise (F.LF_STATUS_MSGBAD k) else g) ∧ (d.ch k.val).accepted = some a ∧
      a.typ = 4 ∧ h.role k.val = 1 ∧ readJoinReq a.msg = some r) ∧
    (∃ (s : State) (t : Nat) (d g h : Dev) (k : ChanId) (a : Accepted), ∃ r m, s.ready t d ∧
      g = d.modCh k.val (fun c => { c with accepted := none }) ∧
      h = (if a.msg.length < blockLen a.typ then g.raise (F.LF_STATUS_MSGBAD k) else g) ∧
      m = (if a.msg.length < blockLen 5 then { r with lostc := (h.ch k.val).lf.lostc } else r) ∧
      (d.ch k.val).accepted = some a ∧ a.typ = 5 ∧ h.isOut k.val = true ∧ h.ostate k.val = 1 ∧ readJoinAcc a.msg = some r ∧
      m.nonceN = (h.ch k.val).lf.nonceN ∧ m.status = 0) ∧
    (∃ (s : State) (t : Nat) (d g h : Dev) (k : ChanId) (a : Accepted), ∃ r m, s.ready t d ∧
      g = d.modCh k.val (fun c => { c with accepted := none }) ∧
      h = (if a.msg.length < blockLen a.typ then g.raise (F.LF_STATUS_MSGBAD k) else g) ∧
      m = (if a.msg.length < blockLen 5 then { r with lostc := (h.ch k.val).lf.lostc } else r) ∧
      (d.ch k.val).accepted = some a ∧ a.typ = 5 ∧ h.isOut k.val = true ∧ h.ostate k.val = 1 ∧ readJoinAcc a.msg = some r ∧
      m.nonceN = (h.ch k.val).lf.nonceN ∧ m.status = 1) ∧
    (∃ (s : State) (t : Nat) (d g h : Dev) (k : ChanId) (a : Accepted), ∃ r m, s.ready t d ∧
      g = d.modCh k.val (fun c => { c with accepted := none }) ∧
      h = (if a.msg.length < blockLen a.typ then g.raise (F.LF_STATUS_MSGBAD k) else g) ∧
      m = (if a.msg.length < blockLen 5 then { r with lostc := (h.ch k.val).lf.lostc } else r) ∧
      (d.ch k.val).accepted = some a ∧ a.typ = 5 ∧ h.isOut k.val = true ∧ h.ostate k.val = 1 ∧ readJoinAcc a.msg = some r ∧
      m.nonceN = (h.ch k.val).lf.nonceN ∧ m.status = 2) ∧
    (∃ (s : State) (t : Nat) (d : Dev) (i : NodeAddr) (k : Nat), s.ready t d ∧ k = d.rd (N.CHAN i.toNat) ∧ d.role k = 1 ∧
      d.retryMax k ≤ d.rd (N.FAILS i.toNat) ∧ d.rd (N.STATE i.toNat) = 2) ∧
    (∃ (s : State) (t : Nat) (d : Dev) (i : NodeAddr) (k : Nat), s.ready t d ∧ k = d.rd (N.CHAN i.toNat) ∧ d.role k = 1 ∧
      d.retryMax k ≤ d.rd (N.FAILS i.toNat) ∧ d.rd (N.STATE i.toNat) = 1) ∧
    (∃ (s : State) (t : Nat) (d : Dev) (k : ChanId), s.ready t d ∧ d.isOut k.val = true ∧ d.ostate k.val = 2 ∧
      max 1 (d.ch k.val).lf.lostc ≤ (d.cycle + 2 ^ 32 - (d.ch k.val).lf.lastPoll) % 2 ^ 32) ∧
    (∃ (s : State) (t : Nat) (d : Dev) (k : ChanId) (w : Nat), s.ready t d ∧ d.role k.val = 1 ∧
      (d.ch k.val).lf.window = some w ∧ d.discWindow k.val ≠ some w) ∧
    (∃ (s : State) (t : Nat) (d g : Dev) (k : ChanId) (first grain slots boff n : Nat) (jopen : Bool), s.ready t d ∧
      n = ((d.headTime k.val d.now).1 + 2 ^ 32 - first) % 2 ^ 32 ∧ g =
        (if d.ostate k.val = 1 then d.joinFailed k.val else if (d.ch k.val).lf.sentJoin then d else d.modLf k.val
        (fun l => { l with skip := l.skip - 1 })) ∧ d.role k.val ≠ 1 ∧ d.isOut k.val = true ∧
      (d.ch k.val).lf.disc = some (first, grain, slots, boff, jopen) ∧ slots ≤ n ∧ n < 2 ^ 31) := by
  refine ⟨?_, ?_, ?_, ?_, ?_, ?_, ?_, ?_, ?_, ?_, ?_, ?_, ?_, ?_, ?_, ?_, ?_, ?_⟩
  · exact ⟨at0 (msgDev (accepted 0 aBeacon.octets) 2 0 []), (msgDev (accepted 0 aBeacon.octets) 2 0 []).now,
      (msgDev (accepted 0 aBeacon.octets) 2 0 []), _, _, 0, (accepted 0 aBeacon.octets), aBeacon, _,
      ready0 (msgDev (accepted 0 aBeacon.octets) 2 0 []) ⟨rfl, rfl⟩, rfl, rfl, rfl, by decide +kernel⟩
  · exact ⟨at0 (msgDev (accepted 0 aBeacon.octets) 2 2 [(F.LF_STATUS_HOFSV 0, 1)]),
      (msgDev (accepted 0 aBeacon.octets) 2 2 [(F.LF_STATUS_HOFSV 0, 1)]).now,
      (msgDev (accepted 0 aBeacon.octets) 2 2 [(F.LF_STATUS_HOFSV 0, 1)]), _, _, 0, (accepted 0 aBeacon.octets), aBeacon, _,
      ready0 (msgDev (accepted 0 aBeacon.octets) 2 2 [(F.LF_STATUS_HOFSV 0, 1)]) ⟨rfl, rfl⟩, rfl, rfl, rfl, by decide +kernel⟩
  · exact ⟨at0 (msgDev { accepted 1 aPoll.octets with dst := 0x1FFFF } 2 2 []),
      (msgDev { accepted 1 aPoll.octets with dst := 0x1FFFF } 2 2 []).now,
      (msgDev { accepted 1 aPoll.octets with dst := 0x1FFFF } 2 2 []), _, _, 0, { accepted 1 aPoll.octets with dst := 0x1FFFF },
      ready0 (msgDev { accepted 1 aPoll.octets with dst := 0x1FFFF } 2 2 []) ⟨rfl, rfl⟩, rfl, rfl, by decide +kernel⟩
  · exact ⟨at0 (msgDev (accepted 1 aPoll.octets) 2 2 []), (msgDev (accepted 1 aPoll.octets) 2 2 []).now,
      (msgDev (accepted 1 aPoll.octets) 2 2 []), _, _, 0, (accepted 1 aPoll.octets), aPoll,
      ready0 (msgDev (accepted 1 aPoll.octets) 2 2 []) ⟨rfl, rfl⟩, rfl, rfl, by decide +kernel⟩
  · exact ⟨at0 (msgDev (accepted 3 (aPoll.octets ++ aRelay.octets)) 3 2 [(F.LF_CFG_RELAY_EN 0, 1)]),
      (msgDev (accepted 3 (aPoll.octets ++ aRelay.octets)) 3 2 [(F.LF_CFG_RELAY_EN 0, 1)]).now,
      (msgDev (accepted 3 (aPoll.octets ++ aRelay.octets)) 3 2 [(F.LF_CFG_RELAY_EN 0, 1)]), _, _, 0,
      (accepted 3 (aPoll.octets ++ aRelay.octets)), aPoll, aRelay, _,
      ready0 (msgDev (accepted 3 (aPoll.octets ++ aRelay.octets)) 3 2 [(F.LF_CFG_RELAY_EN 0, 1)]) ⟨rfl, rfl⟩, rfl, rfl, rfl,
      by decide +kernel⟩
  · exact ⟨at0 (msgDev (accepted 3 (aPoll.octets ++ aRelay.octets)) 3 2 []),
      (msgDev (accepted 3 (aPoll.octets ++ aRelay.octets)) 3 2 []).now,
      (msgDev (accepted 3 (aPoll.octets ++ aRelay.octets)) 3 2 []), _, _, 0, (accepted 3 (aPoll.octets ++ aRelay.octets)),
      aPoll, aRelay, _, ready0 (msgDev (accepted 3 (aPoll.octets ++ aRelay.octets)) 3 2 []) ⟨rfl, rfl⟩, rfl, rfl, rfl,
      by decide +kernel⟩
  · exact ⟨at0 (msgDev (accepted 2 confirming) 1 0 [(N.STATE 1, 2)]), (msgDev (accepted 2 confirming) 1 0 [(N.STATE 1, 2)]).now,
      (msgDev (accepted 2 confirming) 1 0 [(N.STATE 1, 2)]), _, _, 0, (accepted 2 confirming),
      ready0 (msgDev (accepted 2 confirming) 1 0 [(N.STATE 1, 2)]) ⟨rfl, rfl⟩, rfl, rfl, by decide +kernel⟩
  · exact ⟨at0 (msgDev (accepted 2 confirming) 1 0 [(N.STATE 1, 1)]), (msgDev (accepted 2 confirming) 1 0 [(N.STATE 1, 1)]).now,
      (msgDev (accepted 2 confirming) 1 0 [(N.STATE 1, 1)]), _, _, 0, (accepted 2 confirming),
      ready0 (msgDev (accepted 2 confirming) 1 0 [(N.STATE 1, 1)]) ⟨rfl, rfl⟩, rfl, rfl, by decide +kernel⟩
  · exact ⟨at0 (msgDev (accepted 2 []) 1 0 [(N.STATE 1, 1)]), (msgDev (accepted 2 []) 1 0 [(N.STATE 1, 1)]).now,
      (msgDev (accepted 2 []) 1 0 [(N.STATE 1, 1)]), _, _, 0, (accepted 2 []),
      ready0 (msgDev (accepted 2 []) 1 0 [(N.STATE 1, 1)]) ⟨rfl, rfl⟩, rfl, rfl, by decide +kernel⟩
  · exact ⟨at0 (msgDev (accepted 4 aJoinReq.octets) 1 0 []), (msgDev (accepted 4 aJoinReq.octets) 1 0 []).now,
      (msgDev (accepted 4 aJoinReq.octets) 1 0 []), _, _, 0, (accepted 4 aJoinReq.octets), aJoinReq,
      ready0 (msgDev (accepted 4 aJoinReq.octets) 1 0 []) ⟨rfl, rfl⟩, rfl, rfl, by decide +kernel⟩
  · exact ⟨at0 (msgDev (accepted 5 (aJoinAcc 0).octets) 2 1 []), (msgDev (accepted 5 (aJoinAcc 0).octets) 2 1 []).now,
      (msgDev (accepted 5 (aJoinAcc 0).octets) 2 1 []), _, _, 0, (accepted 5 (aJoinAcc 0).octets), (aJoinAcc 0), _,
      ready0 (msgDev (accepted 5 (aJoinAcc 0).octets) 2 1 []) ⟨rfl, rfl⟩, rfl, rfl, rfl, by decide +kernel⟩
  · exact ⟨at0 (msgDev (accepted 5 (aJoinAcc 1).octets) 2 1 []), (msgDev (accepted 5 (aJoinAcc 1).octets) 2 1 []).now,
      (msgDev (accepted 5 (aJoinAcc 1).octets) 2 1 []), _, _, 0, (accepted 5 (aJoinAcc 1).octets), (aJoinAcc 1), _,
      ready0 (msgDev (accepted 5 (aJoinAcc 1).octets) 2 1 []) ⟨rfl, rfl⟩, rfl, rfl, rfl, by decide +kernel⟩
  · exact ⟨at0 (msgDev (accepted 5 (aJoinAcc 2).octets) 2 1 []), (msgDev (accepted 5 (aJoinAcc 2).octets) 2 1 []).now,
      (msgDev (accepted 5 (aJoinAcc 2).octets) 2 1 []), _, _, 0, (accepted 5 (aJoinAcc 2).octets), (aJoinAcc 2), _,
      ready0 (msgDev (accepted 5 (aJoinAcc 2).octets) 2 1 []) ⟨rfl, rfl⟩, rfl, rfl, rfl, by decide +kernel⟩
  · exact ⟨at0 (rolled 1 (fill timed [(N.FAILS 1, 15), (N.STATE 1, 2)])),
      (rolled 1 (fill timed [(N.FAILS 1, 15), (N.STATE 1, 2)])).now, (rolled 1 (fill timed [(N.FAILS 1, 15), (N.STATE 1, 2)])),
      1, 0, ready0 (rolled 1 (fill timed [(N.FAILS 1, 15), (N.STATE 1, 2)])) ⟨rfl, rfl⟩, by decide +kernel⟩
  · exact ⟨at0 (rolled 1 (fill timed [(N.FAILS 1, 15), (N.STATE 1, 1)])),
      (rolled 1 (fill timed [(N.FAILS 1, 15), (N.STATE 1, 1)])).now, (rolled 1 (fill timed [(N.FAILS 1, 15), (N.STATE 1, 1)])),
      1, 0, ready0 (rolled 1 (fill timed [(N.FAILS 1, 15), (N.STATE 1, 1)])) ⟨rfl, rfl⟩, by decide +kernel⟩
  · exact ⟨at0 (rolled 2 (fill timed [(F.LF_STATUS_OSTATE 0, 2)])), (rolled 2 (fill timed [(F.LF_STATUS_OSTATE 0, 2)])).now,
      (rolled 2 (fill timed [(F.LF_STATUS_OSTATE 0, 2)])), 0,
      ready0 (rolled 2 (fill timed [(F.LF_STATUS_OSTATE 0, 2)])) ⟨rfl, rfl⟩, by decide +kernel⟩
  · exact ⟨at0 windowed, windowed.now, windowed, 0, 4, ready0 windowed ⟨rfl, rfl⟩, by decide +kernel⟩
  · exact ⟨at0 waitedDev, waitedDev.now, waitedDev, _, 0, 5, 0, 3, 2, _, true, ready0 waitedDev ⟨rfl, rfl⟩, rfl, rfl,
      by decide +kernel⟩

theorem witness_queue_commands_complete :
    (∃ (s : State) (t : Nat) (d x : Dev) (q : Fin 8192) (words : List Word64) (last : Option (Fin 9)) (h : Shallow)
      (a : Bool × Grants), s.ready t d ∧ h = d.sh q.val ∧ a = d.pushes.ask d.cclk q.val words.length ∧
      x = { d with pushes := a.2 } ∧ d.domOn 76 = true ∧ words ≠ [] ∧ words.length ≤ 8 ∧ last ≠ some 0 ∧ a.1 = false) ∧
    (∃ (s : State) (t : Nat) (d x : Dev) (q : Fin 8192) (words : List Word64) (last : Option (Fin 9)) (h : Shallow)
      (a : Bool × Grants), s.ready t d ∧ h = d.sh q.val ∧ a = d.pushes.ask d.cclk q.val words.length ∧
      x = { d with pushes := a.2 } ∧ d.domOn 76 = true ∧ words ≠ [] ∧ words.length ≤ 8 ∧ last ≠ some 0 ∧ a.1 = true ∧
      d.on (F.QS_CFG_EN q.val) = false) ∧
    (∃ (s : State) (t : Nat) (d x : Dev) (q : Fin 8192) (words : List Word64) (last : Option (Fin 9)) (h : Shallow)
      (a : Bool × Grants), s.ready t d ∧ h = d.sh q.val ∧ a = d.pushes.ask d.cclk q.val words.length ∧
      x = { d with pushes := a.2 } ∧ d.domOn 76 = true ∧ words ≠ [] ∧ words.length ≤ 8 ∧ last ≠ some 0 ∧ a.1 = true ∧
      d.on (F.QS_CFG_EN q.val) = true ∧ h.discard = true) ∧
    (∃ (s : State) (t : Nat) (d x : Dev) (q : Fin 8192) (cls : Fin 4) (words : List Word64) (last : Option (Fin 9))
      (h : Shallow) (a : Bool × Grants) (need : Nat) (cs : List Nat) (free : List (Nat × Nat)) (items : List Item) (e g : Dev),
      s.ready t d ∧ h = d.sh q.val ∧ a = d.pushes.ask d.cclk q.val words.length ∧ x = { d with pushes := a.2 } ∧
      need = words.length + (if h.openTail then 0 else 1) ∧ e = x.ripen ∧
      items = pushItems h.items h.openTail cls.val (words.map (fun w => (w, false))) (last.map Fin.val) ∧
      g = { e with free := free }.setSh q.val
        { h with items := items, cells := h.cells ++ cs, fill := h.fill + need,
                 log := e.cycPush h.log words.length need last.isSome } ∧
      takeRuns (ceilDiv (h.fill + need) 32 - h.cells.length) e.free = some (cs, free) ∧ d.domOn 76 = true ∧ words ≠ [] ∧
      words.length ≤ 8 ∧ last ≠ some 0 ∧ a.1 = true ∧ d.on (F.QS_CFG_EN q.val) = true ∧ h.discard = false ∧
      need ≤ e.cycRoom h.log (e.room q.val false)) ∧
    (∃ (s : State) (t : Nat) (d x : Dev) (q : Fin 8192) (words : List Word64) (last : Option (Fin 9)) (h : Shallow)
      (a : Bool × Grants) (need : Nat) (e : Dev), s.ready t d ∧ h = d.sh q.val ∧ a = d.pushes.ask d.cclk q.val words.length ∧
      x = { d with pushes := a.2 } ∧ need = words.length + (if h.openTail then 0 else 1) ∧ e = x.ripen ∧ d.domOn 76 = true ∧
      words ≠ [] ∧ words.length ≤ 8 ∧ last ≠ some 0 ∧ a.1 = true ∧ d.on (F.QS_CFG_EN q.val) = true ∧ h.discard = false ∧
      (takeRuns (ceilDiv (h.fill + need) 32 - h.cells.length) e.free = none ∨ e.cycRoom h.log (e.room q.val false) < need)) ∧
    (∃ (s : State) (t : Nat) (d x : Dev) (q : Fin 1024) (words : List Word64) (last : Option (Fin 9)) (h : Deep)
      (a : Bool × Grants) (need : Nat), s.ready t d ∧ h = d.dq q.val ∧ a = d.pushes.ask d.cclk (8192 + q.val) words.length ∧
      x = { d with pushes := a.2 } ∧ need = words.length + (if h.openTail then 0 else 1) ∧ d.domOn 76 = true ∧ words ≠ [] ∧
      words.length ≤ 8 ∧ last ≠ some 0 ∧ a.1 = false) ∧
    (∃ (s : State) (t : Nat) (d x : Dev) (q : Fin 1024) (words : List Word64) (last : Option (Fin 9)) (h : Deep)
      (a : Bool × Grants) (need : Nat), s.ready t d ∧ h = d.dq q.val ∧ a = d.pushes.ask d.cclk (8192 + q.val) words.length ∧
      x = { d with pushes := a.2 } ∧ need = words.length + (if h.openTail then 0 else 1) ∧ d.domOn 76 = true ∧ words ≠ [] ∧
      words.length ≤ 8 ∧ last ≠ some 0 ∧ a.1 = true ∧ d.on (F.QD_CFG_EN q.val) = false) ∧
    (∃ (s : State) (t : Nat) (d x : Dev) (q : Fin 1024) (words : List Word64) (last : Option (Fin 9)) (h : Deep)
      (a : Bool × Grants) (need : Nat), s.ready t d ∧ h = d.dq q.val ∧ a = d.pushes.ask d.cclk (8192 + q.val) words.length ∧
      x = { d with pushes := a.2 } ∧ need = words.length + (if h.openTail then 0 else 1) ∧ d.domOn 76 = true ∧ words ≠ [] ∧
      words.length ≤ 8 ∧ last ≠ some 0 ∧ a.1 = true ∧ d.on (F.QD_CFG_EN q.val) = true ∧ h.discard = true) ∧
    (∃ (s : State) (t : Nat) (d x : Dev) (q : Fin 1024) (words : List Word64) (last : Option (Fin 9)) (h : Deep)
      (a : Bool × Grants) (need : Nat), s.ready t d ∧ h = d.dq q.val ∧ a = d.pushes.ask d.cclk (8192 + q.val) words.length ∧
      x = { d with pushes := a.2 } ∧ need = words.length + (if h.openTail then 0 else 1) ∧ d.domOn 76 = true ∧ words ≠ [] ∧
      words.length ≤ 8 ∧ last ≠ some 0 ∧ a.1 = true ∧ d.on (F.QD_CFG_EN q.val) = true ∧ h.discard = false ∧
      (h.waiting ≠ [] ∨ 1024 < 512 * h.full + d.dTail q.val % 512 + need ∨ 512 ≤ d.dTail q.val % 512 + need ∧ 32 ≤ d.sectorOps)) ∧
    (∃ (s : State) (t : Nat) (d x : Dev) (q : Fin 1024) (cls : Fin 4) (words : List Word64) (last : Option (Fin 9)) (h : Deep)
      (a : Bool × Grants) (need room fill span : Nat) (items : List Item) (g : Dev), s.ready t d ∧ h = d.dq q.val ∧
      a = d.pushes.ask d.cclk (8192 + q.val) words.length ∧ x = { d with pushes := a.2 } ∧
      need = words.length + (if h.openTail then 0 else 1) ∧
      room = 512 * 2 ^ d.rd (F.QD_CFG_DLOG q.val) - ringDist (d.dHead q.val) (d.dTail q.val) ∧
      fill = d.dTail q.val % 512 + need ∧
      items = pushItems h.items h.openTail cls.val (words.map (fun w => (w, false))) (last.map Fin.val) ∧
      g =
        ((x.setDq q.val
        { h with items := items, full := h.full + fill / 512, wfill := fill % 512,
                 log := d.cycPush h.log words.length need last.isSome }).wr (F.QD_TAIL_POS q.val) (d.dTail q.val + need)).event
        8 1 1 (fill / 512) ∧ span = ((g.dq q.val).items.getLast?.getD {}).span ∧ d.domOn 76 = true ∧ words ≠ [] ∧
      words.length ≤ 8 ∧ last ≠ some 0 ∧ a.1 = true ∧ d.on (F.QD_CFG_EN q.val) = true ∧ h.discard = false ∧ h.waiting = [] ∧
      512 * h.full + d.dTail q.val % 512 + need ≤ 1024 ∧ (d.dTail q.val % 512 + need < 512 ∨ d.sectorOps < 32) ∧
      need ≤ d.cycRoom h.log room) ∧
    (∃ (s : State) (t : Nat) (d : Dev) (q : Fin 8192) (n : Nat) (link : Bool) (a : Bool × Grants), s.ready t d ∧
      a = d.pops.ask d.cclk q.val n ∧ n ≠ 0 ∧ n ≤ 8 ∧ (link = false ∨ (d.sh q.val).cells = []) ∧ a.1 = false) ∧
    (∃ (s : State) (t : Nat) (d : Dev) (q : Fin 8192) (n : Nat) (link : Bool) (a : Bool × Grants), s.ready t d ∧
      a = d.pops.ask d.cclk q.val n ∧ n ≠ 0 ∧ n ≤ 8 ∧ (link = false ∨ (d.sh q.val).cells = []) ∧ a.1 = true) ∧
    (∃ (s : State) (t : Nat) (d : Dev) (q : Fin 8192) (n : Nat) (link : Bool) (a : Bool × Grants), s.ready t d ∧
      a = d.pops.ask d.cclk q.val n ∧ link = true ∧ (d.sh q.val).cells ≠ []) ∧
    (∃ (s : State) (t : Nat) (d : Dev) (q : Fin 8192) (n : Nat) (bad : Option Nat) (link : Bool) (a : Bool × Grants), ∃ b,
      s.ready t d ∧ a = d.pops.ask d.cclk q.val n ∧ bad = some b ∧ (link = false ∨ (d.sh q.val).cells = [])) ∧
    (∃ (s : State) (t : Nat) (d : Dev) (q : Fin 1024), s.ready t d ∧ d.on (F.QD_CFG_EN q.val) = true) ∧
    (∃ (s : State) (t : Nat) (d : Dev) (bad : Option Nat), ∃ b, s.ready t d ∧ bad = some b) ∧
    (∃ (s : State) (t : Nat) (d : Dev) (bad : Option Nat), s.ready t d ∧ bad = none) ∧
    (∃ (s : State) (t : Nat) (d : Dev) (g : Dev) (q : Fin 8192) (i : Item) (l : List Item) (h : Shallow), s.ready t d ∧
      g = d.ethEnd q.val true ∧ h = g.sh q.val ∧ (d.sh q.val).taking = true ∧ h.taking = true ∧ h.items = i :: l) ∧
    (∃ (s : State) (t : Nat) (d : Dev) (q : Fin 8192), s.ready t d ∧ d.queueOn (.shallow q) = true) ∧
    (∃ (s : State) (t : Nat) (d : Dev), s.ready t d ∧ d.domOn 76 = true) ∧
    (∃ (s : State) (t : Nat) (d : Dev) (q : Fin 1024), s.ready t d ∧ d.queueOn (.deep q) = true) ∧
    (∃ (s : State) (t : Nat) (d : Dev) (q : Fin 1024), s.ready t d ∧ (∀ x ∈ (d.dq q.val).waiting, x.2.1 = none)) ∧
    (∃ (s : State) (t : Nat) (d : Dev) (q : Fin 1024), ∃ a b, s.ready t d ∧ (∃ x l, a = l ++ [x] ∧ x.2.1 ≠ none) ∧
      (d.dq q.val).waiting = a ++ b ∧ (∀ x ∈ b, x.2.1 = none)) ∧
    (∃ (s : State) (t : Nat) (d : Dev) (q : Fin 1024), s.ready t d ∧ d.domOn 76 = true ∧ d.on (F.QD_CFG_EN q.val) = false) ∧
    (∃ (s : State) (t : Nat) (d g : Dev) (q : Fin 1024), ∃ n p, s.ready t d ∧
      p = (d.dTail q.val + 2 ^ 32 - (512 * (n + 1) + d.dTail q.val % 512)) % 2 ^ 32 ∧
      g = ((d.hbmWrite (d.ringBlock q.val p) (pairBlocks (d.ringWords q.val p 512))).event 8 0 1 256).setDq q.val
        { d.dq q.val with full := n, waiting := [] } ∧ (d.dq q.val).full = n + 1) ∧
    (∃ (s : State) (t : Nat) (d g : Dev) (q : Fin 1024), s.ready t d ∧ g = (d.event 8 0 1 256).setDq q.val
        { d.dq q.val with reading := false, rstage := d.hbmRead (d.ringBlock q.val (d.dRd q.val - d.dRd q.val % 512)) 256 } ∧
      (d.dq q.val).reading = true) ∧
    (∃ (s : State) (t : Nat) (d : Dev), ∃ c l, s.ready t d ∧ d.zeroing = c :: l) ∧
    (∃ (s : State) (t : Nat) (d : Dev), s.ready t d ∧ d.domOn 76 = true ∧ d.domOn 77 = true ∧ d.half1 = false) ∧
    (∃ (s : State) (t : Nat) (d : Dev), s.ready t d ∧ d.domOn 76 = true ∧ d.half1 = true) ∧
    (∃ (s : State) (t : Nat) (d : Dev), s.ready t d ∧ d.pfcTx = true ∧ d.pfcOff = true ∧ d.freeCells < 16 * d.rd F.FW_XOFF_XON ∧
      d.pfcAt + ceilDiv (d.rd F.FW_PFC_QUANTA * 64) 100 ≤ d.now) := by
  refine ⟨?_, ?_, ?_, ?_, ?_, ?_, ?_, ?_, ?_, ?_, ?_, ?_, ?_, ?_, ?_, ?_, ?_, ?_, ?_, ?_, ?_, ?_, ?_, ?_, ?_, ?_, ?_, ?_, ?_, ?_⟩
  · exact ⟨at0 ({ base with pushes := { ports := [0] } }), ({ base with pushes := { ports := [0] } }).now,
      ({ base with pushes := { ports := [0] } }), _, 0, [1, 2], (some 8), _, _,
      ready0 ({ base with pushes := { ports := [0] } }) ⟨rfl, rfl⟩, rfl, rfl, rfl, by decide +kernel⟩
  · exact ⟨at0 base, base.now, base, _, 0, [1, 2], (some 8), _, _, ready0 base ⟨rfl, rfl⟩, rfl, rfl, rfl, by decide +kernel⟩
  · exact ⟨at0 (queueDev { discard := true } {} []), (queueDev { discard := true } {} []).now,
      (queueDev { discard := true } {} []), _, 0, [1, 2], (some 8), _, _,
      ready0 (queueDev { discard := true } {} []) ⟨rfl, rfl⟩, rfl, rfl, rfl, by decide +kernel⟩
  · exact ⟨at0 (queueDev {} {} []), (queueDev {} {} []).now, (queueDev {} {} []), _, 0, 3, [1, 2], (some 8), _, _, _, _, _, _,
      _, _, ready0 (queueDev {} {} []) ⟨rfl, rfl⟩, rfl, rfl, rfl, rfl, rfl, rfl, rfl, rfl, by decide +kernel⟩
  · exact ⟨at0 fullQ, fullQ.now, fullQ, _, 0, [1], none, _, _, _, _, ready0 fullQ ⟨rfl, rfl⟩, rfl, rfl, rfl, rfl, rfl,
      by decide +kernel⟩
  · exact ⟨at0 ({ base with pushes := { ports := [8192] } }), ({ base with pushes := { ports := [8192] } }).now,
      ({ base with pushes := { ports := [8192] } }), _, 0, [1, 2], (some 8), _, _, _,
      ready0 ({ base with pushes := { ports := [8192] } }) ⟨rfl, rfl⟩, rfl, rfl, rfl, rfl, by decide +kernel⟩
  · exact ⟨at0 base, base.now, base, _, 0, [1, 2], (some 8), _, _, _, ready0 base ⟨rfl, rfl⟩, rfl, rfl, rfl, rfl,
      by decide +kernel⟩
  · exact ⟨at0 (queueDev {} { discard := true } []), (queueDev {} { discard := true } []).now,
      (queueDev {} { discard := true } []), _, 0, [1, 2], (some 8), _, _, _,
      ready0 (queueDev {} { discard := true } []) ⟨rfl, rfl⟩, rfl, rfl, rfl, rfl, by decide +kernel⟩
  · exact ⟨at0 (queueDev {} { full := 2 } []), (queueDev {} { full := 2 } []).now, (queueDev {} { full := 2 } []), _, 0, [1],
      none, _, _, _, ready0 (queueDev {} { full := 2 } []) ⟨rfl, rfl⟩, rfl, rfl, rfl, rfl, by decide +kernel⟩
  · exact ⟨at0 (queueDev {} {} []), (queueDev {} {} []).now, (queueDev {} {} []), _, 0, 3, [1, 2], (some 8), _, _, _, _, _, _,
      _, _, ready0 (queueDev {} {} []) ⟨rfl, rfl⟩, rfl, rfl, rfl, rfl, rfl, rfl, rfl, rfl, rfl, by decide +kernel⟩
  · exact ⟨at0 ({ base with pops := { words := 64 } }), ({ base with pops := { words := 64 } }).now,
      ({ base with pops := { words := 64 } }), 0, 1, false, _, ready0 ({ base with pops := { words := 64 } }) ⟨rfl, rfl⟩, rfl,
      by decide +kernel⟩
  · exact ⟨at0 takingDev, takingDev.now, takingDev, 0, 8, false, _, ready0 takingDev ⟨rfl, rfl⟩, rfl, by decide +kernel⟩
  · exact ⟨at0 takingDev, takingDev.now, takingDev, 0, 8, _, _, ready0 takingDev ⟨rfl, rfl⟩, rfl, rfl, by decide +kernel⟩
  · exact ⟨at0 takingDev, takingDev.now, takingDev, 0, 1, _, false, _, 0, ready0 takingDev ⟨rfl, rfl⟩, rfl, rfl,
      by decide +kernel⟩
  · exact ⟨at0 (queueDev {} {} []), (queueDev {} {} []).now, (queueDev {} {} []), 0, ready0 (queueDev {} {} []) ⟨rfl, rfl⟩,
      by decide +kernel⟩
  · exact ⟨at0 base, base.now, base, _, 7, ready0 base ⟨rfl, rfl⟩, rfl⟩
  · exact ⟨at0 base, base.now, base, _, ready0 base ⟨rfl, rfl⟩, rfl⟩
  · exact ⟨at0 takingDev, takingDev.now, takingDev, _, 0, anItem, [], _, ready0 takingDev ⟨rfl, rfl⟩, rfl, rfl,
      by decide +kernel⟩
  · exact ⟨at0 takingDev, takingDev.now, takingDev, 0, ready0 takingDev ⟨rfl, rfl⟩, by decide +kernel⟩
  · exact ⟨at0 base, base.now, base, ready0 base ⟨rfl, rfl⟩, by decide +kernel⟩
  · exact ⟨at0 takingDev, takingDev.now, takingDev, 0, ready0 takingDev ⟨rfl, rfl⟩, by decide +kernel⟩
  · exact ⟨at0 (queueDev {} { waiting := [([(1, false)], none, 0)] } []),
      (queueDev {} { waiting := [([(1, false)], none, 0)] } []).now, (queueDev {} { waiting := [([(1, false)], none, 0)] } []),
      0, ready0 (queueDev {} { waiting := [([(1, false)], none, 0)] } []) ⟨rfl, rfl⟩, by decide +kernel⟩
  · exact ⟨at0 (queueDev {} { waiting := [([(1, false)], some 8, 0), ([(2, false)], none, 0)] } []),
      (queueDev {} { waiting := [([(1, false)], some 8, 0), ([(2, false)], none, 0)] } []).now,
      (queueDev {} { waiting := [([(1, false)], some 8, 0), ([(2, false)], none, 0)] } []), 0, [([(1, false)], some 8, 0)],
      [([(2, false)], none, 0)],
      ready0 (queueDev {} { waiting := [([(1, false)], some 8, 0), ([(2, false)], none, 0)] } []) ⟨rfl, rfl⟩,
      ⟨([(1, false)], some 8, 0), [], rfl, by decide⟩, by decide +kernel⟩
  · exact ⟨at0 base, base.now, base, 0, ready0 base ⟨rfl, rfl⟩, by decide +kernel⟩
  · exact ⟨at0 (queueDev {} { full := 1 } []), (queueDev {} { full := 1 } []).now, (queueDev {} { full := 1 } []), _, 0, 0, _,
      ready0 (queueDev {} { full := 1 } []) ⟨rfl, rfl⟩, rfl, rfl, by decide +kernel⟩
  · exact ⟨at0 (queueDev {} { reading := true } []), (queueDev {} { reading := true } []).now,
      (queueDev {} { reading := true } []), _, 0, ready0 (queueDev {} { reading := true } []) ⟨rfl, rfl⟩, rfl,
      by decide +kernel⟩
  · exact ⟨at0 zeroDev, zeroDev.now, zeroDev, 5, [], ready0 zeroDev ⟨rfl, rfl⟩, by decide +kernel⟩
  · exact ⟨at0 upper, upper.now, upper, ready0 upper ⟨rfl, rfl⟩, by decide +kernel⟩
  · exact ⟨at0 halved, halved.now, halved, ready0 halved ⟨rfl, rfl⟩, by decide +kernel⟩
  · exact ⟨at0 ({ pausing with now := 1000000000 }), ({ pausing with now := 1000000000 }).now,
      ({ pausing with now := 1000000000 }), ready0 ({ pausing with now := 1000000000 }) ⟨rfl, rfl⟩, by decide +kernel⟩

theorem witness_shadow_and_key_commands_complete :
    (∃ (s : State) (t : Nat) (d : Dev) (g : Dev) (slot : Fin 17) (i : NodeAddr), s.ready t d ∧
      g = d.wr (F.NT_SH_CTL_INDEX slot.val) i.toNat ∧ d.domOn 76 = true ∧ (i = 0 ∨ i = 0x1FFFF)) ∧
    (∃ (s : State) (t : Nat) (d g : Dev) (slot : Fin 17) (i : NodeAddr), s.ready t d ∧
      g = d.wr (F.NT_SH_CTL_INDEX slot.val) i.toNat ∧ d.domOn 76 = true ∧ i ≠ 0 ∧ i ≠ 0x1FFFF ∧ slot.val < 16 ∧
      (g.seen i.toNat).rd (N.TENANT i.toNat) ≠ slot.val) ∧
    (∃ (s : State) (t : Nat) (d g h : Dev) (slot : Fin 17) (i : NodeAddr), s.ready t d ∧
      g = d.wr (F.NT_SH_CTL_INDEX slot.val) i.toNat ∧ h = (List.range 16).foldl
        (fun (x : Dev) w => x.setWord (A.NT_SH_W (16 * slot.val + w)) ((g.seen i.toNat).word (nodeWord i.toNat w)))
        (g.tableParity i.toNat) ∧ d.domOn 76 = true ∧ i ≠ 0 ∧ i ≠ 0x1FFFF ∧
      (slot.val = 16 ∨ (g.seen i.toNat).rd (N.TENANT i.toNat) = slot.val)) ∧
    (∃ (s : State) (t : Nat) (d g h : Dev) (slot : Fin 17) (i : NodeAddr) (r : Nat), s.ready t d ∧
      g = d.wr (F.NT_SH_CTL_INDEX slot.val) i.toNat ∧ r = (g.seen i.toNat).commitResult slot.val i.toNat ∧
      h = (if r = 1 then g else g.tableParity i.toNat).wr (F.NT_SH_CTL_RES slot.val) r ∧ d.domOn 76 = true ∧ r ≠ 0) ∧
    (∃ (s : State) (t : Nat) (d g h : Dev) (slot : Fin 17) (i : NodeAddr) (r : Nat) (a : Bool) (e x y : Dev), s.ready t d ∧
      g = d.wr (F.NT_SH_CTL_INDEX slot.val) i.toNat ∧ r = (g.seen i.toNat).commitResult slot.val i.toNat ∧
      h = (if r = 1 then g else g.tableParity i.toNat).wr (F.NT_SH_CTL_RES slot.val) r ∧
      e = (if h.tuneDiffers slot.val i.toNat then h.edited i.toNat else h) ∧
      x = { e.writeSlot slot.val i.toNat with shadow := Tab.del e.shadow slot.val } ∧
      y = (if a then (x.wr (N.STATE i.toNat) 0).dropSession i.toNat else x) ∧ d.domOn 76 = true ∧ r = 0) ∧
    (∃ (s : State) (t : Nat) (d : Dev) (i : NodeAddr) (p : Bool), s.ready t d ∧ d.fetches.contains (i.toNat, p) = false) ∧
    (∃ (s : State) (t : Nat) (d g : Dev) (i : NodeAddr) (p intact : Bool), s.ready t d ∧
      g =
        { d with fetches := d.fetches.erase (i.toNat, p),
                 sa := d.sa.map
                   (fun (e : Nat × SaCmd) =>
                   (e.1, if (e.2.saidx, e.2.phase) = (i.toNat, p) then { e.2 with old := none } else e.2)) } ∧ intact = true ∧
      d.fetches.contains (i.toNat, p) = true ∧ g.keyValid i.toNat p = true) ∧
    (∃ (s : State) (t : Nat) (d g : Dev) (i : NodeAddr) (p : Bool), s.ready t d ∧
      g =
        { d with fetches := d.fetches.erase (i.toNat, p),
                 sa := d.sa.map
                   (fun (e : Nat × SaCmd) =>
                   (e.1, if (e.2.saidx, e.2.phase) = (i.toNat, p) then { e.2 with old := none } else e.2)) } ∧
      d.fetches.contains (i.toNat, p) = true ∧ g.resident (i.toNat, p) = false ∧ g.keyValid i.toNat p = false) ∧
    (∃ (s : State) (t : Nat) (d g : Dev) (i : NodeAddr) (p intact : Bool), s.ready t d ∧
      g =
        { d with fetches := d.fetches.erase (i.toNat, p),
                 sa := d.sa.map
                   (fun (e : Nat × SaCmd) =>
                   (e.1, if (e.2.saidx, e.2.phase) = (i.toNat, p) then { e.2 with old := none } else e.2)) } ∧ intact = false ∧
      d.fetches.contains (i.toNat, p) = true ∧ g.resident (i.toNat, p) = false ∧ g.keyValid i.toNat p = true) := by
  refine ⟨?_, ?_, ?_, ?_, ?_, ?_, ?_, ?_, ?_⟩
  · exact ⟨at0 base, base.now, base, _, 16, 0x1FFFF, ready0 base ⟨rfl, rfl⟩, rfl, by decide +kernel⟩
  · exact ⟨at0 base, base.now, base, _, 1, 1, ready0 base ⟨rfl, rfl⟩, rfl, by decide +kernel⟩
  · exact ⟨at0 base, base.now, base, _, _, 16, 0x1FFFE, ready0 base ⟨rfl, rfl⟩, rfl, rfl, by decide +kernel⟩
  · exact ⟨at0 base, base.now, base, _, _, 16, 0, _, ready0 base ⟨rfl, rfl⟩, rfl, rfl, rfl, by decide +kernel⟩
  · exact ⟨at0 shadowed, shadowed.now, shadowed, _, _, 16, 1, _, true, _, _, _, ready0 shadowed ⟨rfl, rfl⟩, rfl, rfl, rfl, rfl,
      rfl, rfl, by decide +kernel⟩
  · exact ⟨at0 base, base.now, base, 5, false, ready0 base ⟨rfl, rfl⟩, by decide +kernel⟩
  · exact ⟨at0 fetching, fetching.now, fetching, _, 5, false, _, ready0 fetching ⟨rfl, rfl⟩, rfl, rfl, by decide +kernel⟩
  · exact ⟨at0 ({ base with fetches := [(5, false)] }), ({ base with fetches := [(5, false)] }).now,
      ({ base with fetches := [(5, false)] }), _, 5, false, ready0 ({ base with fetches := [(5, false)] }) ⟨rfl, rfl⟩, rfl,
      by decide +kernel⟩
  · exact ⟨at0 fetching, fetching.now, fetching, _, 5, false, _, ready0 fetching ⟨rfl, rfl⟩, rfl, rfl, by decide +kernel⟩

theorem witness_link_commands_complete :
    (∃ (s : State) (t : Nat) (d : Dev) (p : PortId), s.awake t d ∧ d.ethLive p.val = true) ∧
    (∃ (s : State) (t : Nat) (d g : Dev) (p : PortId) (any : Bool) (h x : Dev), s.awake t d ∧
      g = ((((d.wr (F.ETH_STATUS_SIGDET p.val) 0xFF).wr (F.ETH_STATUS_ALIGN p.val) 1).wr (F.ETH_STATUS_HISER p.val) 0).wr
        (F.ETH_STATUS_UP p.val) 1).wr (upField p.val) 1 ∧ h =
        { g with downSince := Tab.del g.downSince p.val, upSince := Tab.put g.upSince p.val (some g.now),
                 linkWait := Tab.del g.linkWait p.val } ∧ h.moveTo p.val (fun _ => true) = (any, x) ∧ d.ethLive p.val = true ∧
      d.on (F.ETH_STATUS_UP p.val) = false ∧ h.portUp p.val = true ∧ (h.upmode < 2 ∨ h.heldDown (1 - p.val) = false)) ∧
    (∃ (s : State) (t : Nat) (d g : Dev) (p : PortId) (any : Bool) (h x : Dev), s.awake t d ∧
      g = ((((d.wr (F.ETH_STATUS_SIGDET p.val) 0xFF).wr (F.ETH_STATUS_ALIGN p.val) 1).wr (F.ETH_STATUS_HISER p.val) 0).wr
        (F.ETH_STATUS_UP p.val) 1).wr (upField p.val) 1 ∧ h =
        { g with downSince := Tab.del g.downSince p.val, upSince := Tab.put g.upSince p.val (some g.now),
                 linkWait := Tab.del g.linkWait p.val } ∧ h.moveTo p.val (fun _ => true) = (any, x) ∧ d.ethLive p.val = true ∧
      d.on (F.ETH_STATUS_UP p.val) = false ∧ h.portUp p.val = true ∧ 2 ≤ h.upmode ∧ h.heldDown (1 - p.val) = true) ∧
    (∃ (s : State) (t : Nat) (d g : Dev) (p : PortId), ∃ x, ∃ (lanes : BitVec 8), s.awake t d ∧
      g = d.wr (F.ETH_STATUS_SIGDET p.val) lanes.toNat ∧ d.ethLive p.val = true ∧ Tab.get none d.linkWait p.val = some x ∧
      x + 50000000 ≤ d.now ∧ lanes ≠ 0xFF#8) ∧
    (∃ (s : State) (t : Nat) (d g : Dev) (p : PortId), ∃ x, ∃ (lanes : BitVec 8), s.awake t d ∧
      g = d.wr (F.ETH_STATUS_SIGDET p.val) lanes.toNat ∧ d.ethLive p.val = true ∧ Tab.get none d.linkWait p.val = some x ∧
      x + 50000000 ≤ d.now ∧ lanes = 0xFF#8) ∧
    (∃ (s : State) (t : Nat) (d : Dev) (p : PortId), s.awake t d ∧ d.ethDomOn p.val = true ∧
      d.on (F.ETH_CFG_SQUELCH p.val) = true) ∧
    (∃ (s : State) (t : Nat) (d g : Dev) (p : PortId), s.awake t d ∧
      g = ((d.wr (F.ETH_CFG_SQUELCH p.val) 1).wr (F.ETH_STATUS_SIGDET p.val) 0).wr (F.ETH_STATUS_ALIGN p.val) 0 ∧
      d.ethDomOn p.val = true ∧ d.on (F.ETH_CFG_SQUELCH p.val) = false) ∧
    (∃ (s : State) (t : Nat) (d g : Dev) (p : PortId) (x : Nat) (any : Bool), s.ready t d ∧
      d.moveTo (1 - p.val) (fun _ => true) = (any, g) ∧ 2 ≤ d.upmode ∧ d.portUp p.val = false ∧
      (Tab.get none d.downSince p.val = none ∨
        (Tab.get none d.downSince p.val = some x ∧ x + 1000 * min 150 (d.rd F.FW_UPL_FAILHOLD) ≤ d.now)) ∧
      d.portUp (1 - p.val) = true) ∧
    (∃ (s : State) (t : Nat) (d g : Dev) (p : PortId) (x : Nat) (any : Bool) (late : List Nat) (h : Dev), s.ready t d ∧
      late = (List.range 64).filter (fun k => d.rd (F.FW_CHUP_CUR k) != p.val && d.preferred k == p.val && d.sendsElsewhere k
        p.val) ∧ d.moveTo p.val (fun k => d.preferred k == p.val && !late.contains k) = (any, g) ∧
      h = { g with returning := g.returning ++ late.map (fun k => (k, p.val)) } ∧ 2 ≤ d.upmode ∧
      Tab.get none d.upSince p.val = some x ∧ d.on F.FW_UPL_REVERT = true ∧ d.portUp p.val = true ∧
      x + 1000000 * max 1 (d.rd F.FW_UPL_RESTORE) ≤ d.now) ∧
    (∃ (s : State) (t : Nat) (d g : Dev) (p : PortId) (quanta : BitVec 16) (x : Nat), s.awake t d ∧ g = d.event 7 5 p.val 1 ∧
      x = (if quanta = 0 then 0 else g.now + ceilDiv (quanta.toNat * 128) 100) ∧ d.on (F.ETH_STATUS_UP p.val) = true ∧
      g.on F.FW_PFC_PFCRX = true) ∧
    (∃ (s : State) (t : Nat) (d g : Dev) (p : PortId), s.awake t d ∧ g = d.event 7 5 p.val 1 ∧
      d.on (F.ETH_STATUS_UP p.val) = true ∧ g.on F.FW_PFC_PFCRX = false) ∧
    (∃ (s : State) (t : Nat) (d : Dev) (p : PortId) (r : Fin 8), s.awake t d ∧ Tab.get 0 d.paused (8 * p.val + r.val) ≤ d.now) := by
  refine ⟨?_, ?_, ?_, ?_, ?_, ?_, ?_, ?_, ?_, ?_, ?_, ?_⟩
  · exact ⟨at0 (ports []), (ports []).now, (ports []), 0, awake0 (ports []) rfl, by decide +kernel⟩
  · exact ⟨at0 (ports [(F.FW_UPSTAT_B_UP, 1)]), (ports [(F.FW_UPSTAT_B_UP, 1)]).now, (ports [(F.FW_UPSTAT_B_UP, 1)]), _, 0, _,
      _, _, awake0 (ports [(F.FW_UPSTAT_B_UP, 1)]) rfl, rfl, rfl, pair_eq, by decide +kernel⟩
  · exact ⟨at0 (failed.wr F.FW_UPSTAT_B_UP 0), (failed.wr F.FW_UPSTAT_B_UP 0).now, (failed.wr F.FW_UPSTAT_B_UP 0), _, 1, _, _,
      _, awake0 (failed.wr F.FW_UPSTAT_B_UP 0) rfl, rfl, rfl, pair_eq, by decide +kernel⟩
  · exact ⟨at0 ({ ports [] with linkWait := [(0, some 1)] }), ({ ports [] with linkWait := [(0, some 1)] }).now,
      ({ ports [] with linkWait := [(0, some 1)] }), _, 0, 1, 0x7F, awake0 ({ ports [] with linkWait := [(0, some 1)] }) rfl,
      rfl, by decide +kernel⟩
  · exact ⟨at0 ({ ports [] with linkWait := [(0, some 1)] }), ({ ports [] with linkWait := [(0, some 1)] }).now,
      ({ ports [] with linkWait := [(0, some 1)] }), _, 0, 1, 0xFF, awake0 ({ ports [] with linkWait := [(0, some 1)] }) rfl,
      rfl, by decide +kernel⟩
  · exact ⟨at0 base, base.now, base, 0, awake0 base rfl, by decide +kernel⟩
  · exact ⟨at0 (ports []), (ports []).now, (ports []), _, 0, awake0 (ports []) rfl, rfl, by decide +kernel⟩
  · exact ⟨at0 failed, failed.now, failed, _, 0, 1, _, ready0 failed ⟨rfl, rfl⟩, pair_eq, by decide +kernel⟩
  · exact ⟨at0 back, back.now, back, _, 0, 1, _, _, _, ready0 back ⟨rfl, rfl⟩, rfl, pair_eq, rfl, by decide +kernel⟩
  · exact ⟨at0 upPort, upPort.now, upPort, _, 0, 0xFFFF, _, awake0 upPort rfl, rfl, rfl, by decide +kernel⟩
  · exact ⟨at0 (ports [(F.ETH_STATUS_UP 0, 1)]), (ports [(F.ETH_STATUS_UP 0, 1)]).now, (ports [(F.ETH_STATUS_UP 0, 1)]), _, 0,
      awake0 (ports [(F.ETH_STATUS_UP 0, 1)]) rfl, rfl, by decide +kernel⟩
  · exact ⟨at0 upPort, upPort.now, upPort, 0, 7, awake0 upPort rfl, by decide +kernel⟩

theorem witness_frame_commands_complete :
    (∃ (s : State) (t : Nat) (d : Dev) (p : PortId), s.awake t d ∧ d.on (F.ETH_STATUS_UP p.val) = false) ∧
    (∃ (s : State) (t : Nat) (d : Dev) (p : PortId) (octets : List Byte), s.awake t d ∧ d.on (F.ETH_STATUS_UP p.val) = true ∧
      (octets.length < 64 ∨ fcsGood octets = false)) ∧
    (∃ (s : State) (t : Nat) (d : Dev) (p : PortId) (octets : List Byte), s.awake t d ∧ fcsGood octets = true ∧
      d.on (F.ETH_STATUS_UP p.val) = true ∧ 64 ≤ octets.length ∧ d.maxFr p.val < octets.length) ∧
    (∃ (s : State) (t : Nat) (d : Dev) (p : PortId) (octets : List Byte) (g h : Dev) (et : Nat) (body : List Byte)
      (b : Tab Nat), s.awake t d ∧ g = (d.event 7 0 p.val 1).event 7 1 p.val octets.length ∧
      b = Tab.set 0 g.bwSum (2 * (64 + p.val)) (Tab.get 0 g.bwSum (2 * (64 + p.val)) + octets.length) ∧
      h = { g with bwSum := b } ∧ frameBody [h.rd F.FW_CFG_SHIM_ET, h.rd F.FW_CFG_MGT_ET] octets = (et, body) ∧
      fcsGood octets = true ∧ d.on (F.ETH_STATUS_UP p.val) = true ∧ 64 ≤ octets.length ∧ octets.length ≤ d.maxFr p.val ∧
      h.mains.refclk = false) ∧
    (∃ (s : State) (t : Nat) (d : Dev) (p : PortId) (octets : List Byte) (g h : Dev) (et : Nat) (body : List Byte)
      (b : Tab Nat), s.awake t d ∧ g = (d.event 7 0 p.val 1).event 7 1 p.val octets.length ∧
      b = Tab.set 0 g.bwSum (2 * (64 + p.val)) (Tab.get 0 g.bwSum (2 * (64 + p.val)) + octets.length) ∧
      h = { g with bwSum := b } ∧ frameBody [h.rd F.FW_CFG_SHIM_ET, h.rd F.FW_CFG_MGT_ET] octets = (et, body) ∧
      fcsGood octets = true ∧ d.on (F.ETH_STATUS_UP p.val) = true ∧ 64 ≤ octets.length ∧ octets.length ≤ d.maxFr p.val ∧
      h.mains.refclk = true ∧ h.accepting p.val = false) ∧
    (∃ (s : State) (t : Nat) (d : Dev) (p : PortId) (octets : List Byte) (g h : Dev) (et : Nat) (body : List Byte)
      (b : Tab Nat), s.awake t d ∧ g = (d.event 7 0 p.val 1).event 7 1 p.val octets.length ∧
      b = Tab.set 0 g.bwSum (2 * (64 + p.val)) (Tab.get 0 g.bwSum (2 * (64 + p.val)) + octets.length) ∧
      h = { g with bwSum := b } ∧ frameBody [h.rd F.FW_CFG_SHIM_ET, h.rd F.FW_CFG_MGT_ET] octets = (et, body) ∧
      fcsGood octets = true ∧ d.on (F.ETH_STATUS_UP p.val) = true ∧ 64 ≤ octets.length ∧ octets.length ≤ d.maxFr p.val ∧
      h.mains.refclk = true ∧ h.accepting p.val = true ∧ et = h.rd F.FW_CFG_MGT_ET) ∧
    (∃ (s : State) (t : Nat) (d : Dev) (p : PortId) (octets : List Byte) (g h : Dev) (et : Nat) (body : List Byte)
      (b : Tab Nat), s.awake t d ∧ g = (d.event 7 0 p.val 1).event 7 1 p.val octets.length ∧
      b = Tab.set 0 g.bwSum (2 * (64 + p.val)) (Tab.get 0 g.bwSum (2 * (64 + p.val)) + octets.length) ∧
      h = { g with bwSum := b } ∧ frameBody [h.rd F.FW_CFG_SHIM_ET, h.rd F.FW_CFG_MGT_ET] octets = (et, body) ∧
      fcsGood octets = true ∧ d.on (F.ETH_STATUS_UP p.val) = true ∧ 64 ≤ octets.length ∧ octets.length ≤ d.maxFr p.val ∧
      h.mains.refclk = true ∧ h.accepting p.val = true ∧ et ≠ h.rd F.FW_CFG_MGT_ET ∧ et ≠ h.rd F.FW_CFG_SHIM_ET) ∧
    (∃ (s : State) (t : Nat) (d : Dev) (p : PortId) (octets : List Byte) (g h : Dev) (et : Nat) (body : List Byte) (b : Tab Nat)
      (x : Shim) (n : Nat), s.awake t d ∧ g = (d.event 7 0 p.val 1).event 7 1 p.val octets.length ∧
      b = Tab.set 0 g.bwSum (2 * (64 + p.val)) (Tab.get 0 g.bwSum (2 * (64 + p.val)) + octets.length) ∧
      h = { g with bwSum := b } ∧ frameBody [h.rd F.FW_CFG_SHIM_ET, h.rd F.FW_CFG_MGT_ET] octets = (et, body) ∧
      x = readShim body ∧ n = body.length - 8 ∧ fcsGood octets = true ∧ d.on (F.ETH_STATUS_UP p.val) = true ∧
      64 ≤ octets.length ∧ octets.length ≤ d.maxFr p.val ∧ h.mains.refclk = true ∧ h.accepting p.val = true ∧
      et ≠ h.rd F.FW_CFG_MGT_ET ∧ et = h.rd F.FW_CFG_SHIM_ET) ∧
    (∃ (s : State) (t : Nat) (d : Dev) (p : PortId), s.ready t d ∧ d.portUp p.val = true ∧
      d.ethOut.any (fun e : EthOut => e.port == p.val && !e.done) = false ∧ d.nextQueue p.val = none) ∧
    (∃ (s : State) (t : Nat) (d : Dev) (g : Dev) (p : PortId) (q : Nat) (k : Nat) (c : Nat) (it : Item) (e : EthOut)
      (z : Tab Nat), s.ready t d ∧ it = (d.sh q).items.head?.getD {} ∧
      e = { port := p.val, queue := q, head := d.egressHead p.val k c it } ∧
      z = Tab.set 0 d.shimSeq (4 * k + c) ((Tab.get 0 d.shimSeq (4 * k + c) + 1) % 65536) ∧
      g = { d with ethOut := d.ethOut ++ [e], rr := Tab.put d.rr (8 * p.val + d.pri c) q, shimSeq := z } ∧
      d.portUp p.val = true ∧ (d.ethOut.any (fun e : EthOut => e.port == p.val && !e.done) = false) ∧
      d.nextQueue p.val = some (q, k, c)) := by
  refine ⟨?_, ?_, ?_, ?_, ?_, ?_, ?_, ?_, ?_, ?_⟩
  · exact ⟨at0 base, base.now, base, 0, awake0 base rfl, by decide +kernel⟩
  · exact ⟨at0 upPort, upPort.now, upPort, 0, (List.replicate 63 0), awake0 upPort rfl, by decide +kernel⟩
  · exact ⟨at0 (upPort.wr (F.ETH_MAXFR_MAXFR 0) 64), (upPort.wr (F.ETH_MAXFR_MAXFR 0) 64).now,
      (upPort.wr (F.ETH_MAXFR_MAXFR 0) 64), 0, (framed [0x08, 0x00] 47), awake0 (upPort.wr (F.ETH_MAXFR_MAXFR 0) 64) rfl,
      framed_good _ _, by decide +kernel⟩
  · exact ⟨at0 ({ upPort with mains := { upPort.mains with refclk := false } }),
      ({ upPort with mains := { upPort.mains with refclk := false } }).now,
      ({ upPort with mains := { upPort.mains with refclk := false } }), 0, (frame [0x88, 0xB6]), _, _, _, _, _,
      awake0 ({ upPort with mains := { upPort.mains with refclk := false } }) rfl, rfl, rfl, rfl, pair_eq, framed_good _ _,
      by decide +kernel⟩
  · exact ⟨at0 (upPort.wr F.FW_UPL_UPMODE 1), (upPort.wr F.FW_UPL_UPMODE 1).now, (upPort.wr F.FW_UPL_UPMODE 1), 0,
      (frame [0x88, 0xB6]), _, _, _, _, _, awake0 (upPort.wr F.FW_UPL_UPMODE 1) rfl, rfl, rfl, rfl, pair_eq, framed_good _ _,
      by decide +kernel⟩
  · exact ⟨at0 upPort, upPort.now, upPort, 0, (frame [0x88, 0xB6]), _, _, _, _, _, awake0 upPort rfl, rfl, rfl, rfl, pair_eq,
      framed_good _ _, by decide +kernel⟩
  · exact ⟨at0 upPort, upPort.now, upPort, 0, (frame [0x08, 0x00]), _, _, _, _, _, awake0 upPort rfl, rfl, rfl, rfl, pair_eq,
      framed_good _ _, by decide +kernel⟩
  · exact ⟨at0 upPort, upPort.now, upPort, 0, (frame [0x88, 0xB5]), _, _, _, _, _, _, _, awake0 upPort rfl, rfl, rfl, rfl,
      pair_eq, rfl, rfl, framed_good _ _, by decide +kernel⟩
  · exact ⟨at0 (ports [(F.FW_UPSTAT_A_UP, 1)]), (ports [(F.FW_UPSTAT_A_UP, 1)]).now, (ports [(F.FW_UPSTAT_A_UP, 1)]), 0,
      ready0 (ports [(F.FW_UPSTAT_A_UP, 1)]) ⟨rfl, rfl⟩, by decide +kernel⟩
  · exact ⟨at0 egressDev, egressDev.now, egressDev, _, 0, 0, 0, 0, _, _, _, ready0 egressDev ⟨rfl, rfl⟩, rfl, rfl, rfl, rfl,
      by decide +kernel⟩

theorem witness_budget_decisions_complete :
    (∃ (s : State) (t : Nat) (d : Dev) (q : SeqId) (r : BudgetReq), s.awake t d ∧
      (d.sq q.val).reqs.find? (fun x => x.kind == .txslot && !x.deferred && x.answer.isNone) = some r ∧ r.deadline < d.now + 40) ∧
    (∃ (s : State) (t : Nat) (d : Dev) (q : SeqId) (r : BudgetReq), s.awake t d ∧
      (d.sq q.val).reqs.find? (fun x => x.kind == .txslot && !x.deferred && x.answer.isNone) = some r ∧
      d.now + 40 ≤ r.deadline ∧ d.anyDeferred = true) ∧
    (∃ (s : State) (t : Nat) (d : Dev) (q : SeqId) (r : BudgetReq), s.awake t d ∧
      (d.sq q.val).reqs.find? (fun x => x.kind == .iter && !x.deferred && x.answer.isNone) = some r ∧ r.deadline < d.now + 40) ∧
    (∃ (s : State) (t : Nat) (d : Dev) (q : SeqId) (r : BudgetReq), s.awake t d ∧ d.mains.refclk = true ∧
      (d.sq q.val).reqs.find? (fun x => x.kind == .bringup && !x.deferred && x.answer.isNone) = some r ∧
      r.deadline < d.now + 40) ∧
    (∃ (s : State) (t : Nat) (d : Dev) (q : SeqId) (r : BudgetReq), s.awake t d ∧ d.mains.refclk = true ∧
      (d.sq q.val).reqs.find? (fun x => x.kind == .bringup && !x.deferred && x.answer.isNone) = some r ∧
      d.now + 40 ≤ r.deadline ∧ d.anyDeferred = true) ∧
    (∃ (s : State) (t : Nat) (d : Dev) (q : SeqId) (r : BudgetReq) (e k dmin : Nat), s.awake t d ∧ e = r.energy ∧ k = r.chan ∧
      dmin = (if d.tstate = 1 then d.rd F.GV_MODE_WARM_DEG else 0) ∧
      (d.sq q.val).reqs.find? (fun x => x.kind == .txslot && !x.deferred && x.answer.isNone) = some r ∧
      d.now + 40 ≤ r.deadline ∧ d.anyDeferred = false ∧ d.cap < 4 * e) ∧
    (∃ (s : State) (t : Nat) (d : Dev) (q : SeqId) (r : BudgetReq) (e k dmin : Nat), ∃ g, s.awake t d ∧ e = r.energy ∧
      k = r.chan ∧ dmin = (if d.tstate = 1 then d.rd F.GV_MODE_WARM_DEG else 0) ∧
      g = { d.gov with floors := (d.now, k, e) :: d.gov.floors } ∧
      (d.sq q.val).reqs.find? (fun x => x.kind == .txslot && !x.deferred && x.answer.isNone) = some r ∧
      d.now + 40 ≤ r.deadline ∧ d.anyDeferred = false ∧ 4 * e ≤ d.cap ∧ e ≤ d.floorLeft k) ∧
    (∃ (s : State) (t : Nat) (d : Dev) (q : SeqId) (r : BudgetReq) (e k dmin : Nat), s.awake t d ∧ e = r.energy ∧ k = r.chan ∧
      dmin = (if d.tstate = 1 then d.rd F.GV_MODE_WARM_DEG else 0) ∧
      (d.sq q.val).reqs.find? (fun x => x.kind == .txslot && !x.deferred && x.answer.isNone) = some r ∧
      d.now + 40 ≤ r.deadline ∧ d.anyDeferred = false ∧ 4 * e ≤ d.cap ∧ d.floorLeft k < e ∧ 2 ≤ d.tstate) ∧
    (∃ (s : State) (t : Nat) (d : Dev) (q : SeqId) (r : BudgetReq) (e k dmin : Nat), s.awake t d ∧ e = r.energy ∧ k = r.chan ∧
      dmin = (if d.tstate = 1 then d.rd F.GV_MODE_WARM_DEG else 0) ∧
      (d.sq q.val).reqs.find? (fun x => x.kind == .txslot && !x.deferred && x.answer.isNone) = some r ∧
      d.now + 40 ≤ r.deadline ∧ d.anyDeferred = false ∧ 4 * e ≤ d.cap ∧ d.floorLeft k < e ∧ d.tstate < 2 ∧ dmin = 0 ∧
      (e : Int) ≤ d.headroom) ∧
    (∃ (s : State) (t : Nat) (d : Dev) (q : SeqId) (r : BudgetReq) (e k dmin : Nat), ∃ z, s.awake t d ∧ e = r.energy ∧
      k = r.chan ∧ dmin = (if d.tstate = 1 then d.rd F.GV_MODE_WARM_DEG else 0) ∧
      (∀ y, dmin ≤ y → y < z → d.headroom < (chargeOf e y : Int)) ∧
      (d.sq q.val).reqs.find? (fun x => x.kind == .txslot && !x.deferred && x.answer.isNone) = some r ∧
      d.now + 40 ≤ r.deadline ∧ d.anyDeferred = false ∧ 4 * e ≤ d.cap ∧ d.floorLeft k < e ∧ d.tstate < 2 ∧
      (dmin ≠ 0 ∨ d.headroom < (e : Int)) ∧ dmin ≤ z ∧ z ≤ d.rd F.GV_MODE_DEG_MAX ∧ (chargeOf e z : Int) ≤ d.headroom) ∧
    (∃ (s : State) (t : Nat) (d : Dev) (q : SeqId) (r : BudgetReq) (e k dmin : Nat), s.awake t d ∧ e = r.energy ∧ k = r.chan ∧
      dmin = (if d.tstate = 1 then d.rd F.GV_MODE_WARM_DEG else 0) ∧
      (∀ y, dmin ≤ y → y ≤ d.rd F.GV_MODE_DEG_MAX → d.headroom < (chargeOf e y : Int)) ∧
      (d.sq q.val).reqs.find? (fun x => x.kind == .txslot && !x.deferred && x.answer.isNone) = some r ∧
      d.now + 40 ≤ r.deadline ∧ d.anyDeferred = false ∧ 4 * e ≤ d.cap ∧ d.floorLeft k < e ∧ d.tstate < 2 ∧
      (dmin ≠ 0 ∨ d.headroom < (e : Int))) ∧
    (∃ (s : State) (t : Nat) (d g h : Dev) (q : SeqId) (r : BudgetReq) (k n x : Nat), s.awake t d ∧ k = r.chan ∧
      n = max 1 (min r.iter d.iterCeiling) ∧
      h = (g.modCh k (fun c => { c with iterCharge := ceilDiv (r.energy * x) n })).wr (F.GV_CHSTAT_ITER k) x ∧
      ((d.allowance k n r.energy = some x ∧ g = d) ∨
        (d.allowance k n r.energy = none ∧ x = d.iterMin ∧ g = d.raise F.GV_STATUS_OVERBUD)) ∧
      (d.sq q.val).reqs.find? (fun x => x.kind == .iter && !x.deferred && x.answer.isNone) = some r ∧ d.now + 40 ≤ r.deadline ∧
      d.mains.refclk = true) ∧
    (∃ (s : State) (t : Nat) (d g h : Dev) (q : SeqId) (r : BudgetReq) (k n x : Nat) (y : BudgetReq), s.awake t d ∧ k = r.chan ∧
      n = max 1 (min r.iter d.iterCeiling) ∧ y = { r with iter := x, energy := ceilDiv (r.energy * x) n } ∧
      h = g.modSq q.val (fun z => { z with reqs := z.reqs.map (fun w => if w = r then y else w) }) ∧
      ((d.allowance k n r.energy = some x ∧ g = d) ∨
        (d.allowance k n r.energy = none ∧ x = d.iterMin ∧ g = d.raise F.GV_STATUS_OVERBUD)) ∧
      (d.sq q.val).reqs.find? (fun x => x.kind == .iter && !x.deferred && x.answer.isNone) = some r ∧ d.now + 40 ≤ r.deadline ∧
      d.mains.refclk = false) ∧
    (∃ (s : State) (t : Nat) (d : Dev) (q : SeqId) (r : BudgetReq), s.ready t d ∧
      (d.sq q.val).reqs.find? (fun x => x.kind == .bringup && !x.deferred && x.answer.isNone) = some r ∧
      d.now + 40 ≤ r.deadline ∧ d.anyDeferred = false ∧ d.phase r.chan = phHELD ∧ d.envOk = true) ∧
    (∃ (s : State) (t : Nat) (d : Dev) (q : SeqId) (r : BudgetReq), s.ready t d ∧
      (d.sq q.val).reqs.find? (fun x => x.kind == .bringup && !x.deferred && x.answer.isNone) = some r ∧
      d.now + 40 ≤ r.deadline ∧ d.anyDeferred = false ∧ d.phase r.chan ≠ phHELD ∧ d.bringOk r.chan r.energy = true) ∧
    (∃ (s : State) (t : Nat) (d : Dev) (q : SeqId) (r : BudgetReq), s.ready t d ∧
      (d.sq q.val).reqs.find? (fun x => x.kind == .bringup && !x.deferred && x.answer.isNone) = some r ∧
      d.now + 40 ≤ r.deadline ∧ d.anyDeferred = false ∧
      ((d.phase r.chan = phHELD ∧ d.envOk = false) ∨ (d.phase r.chan ≠ phHELD ∧ d.bringOk r.chan r.energy = false))) := by
  refine ⟨?_, ?_, ?_, ?_, ?_, ?_, ?_, ?_, ?_, ?_, ?_, ?_, ?_, ?_, ?_, ?_⟩
  · exact ⟨at0 ((asking { slotReq 50 with deadline := 1500039 } 1000 [])),
      ((asking { slotReq 50 with deadline := 1500039 } 1000 [])).now,
      ((asking { slotReq 50 with deadline := 1500039 } 1000 [])), 0, { slotReq 50 with deadline := 1500039 },
      awake0 ((asking { slotReq 50 with deadline := 1500039 } 1000 [])) rfl, by decide +kernel⟩
  · exact ⟨at0 (deferring (slotReq 50)), (deferring (slotReq 50)).now, (deferring (slotReq 50)), 0, (slotReq 50),
      awake0 (deferring (slotReq 50)) rfl, by decide +kernel⟩
  · exact ⟨at0 ((asking { iterReq with deadline := 1500039 } 1000 [])),
      ((asking { iterReq with deadline := 1500039 } 1000 [])).now, ((asking { iterReq with deadline := 1500039 } 1000 [])), 0,
      { iterReq with deadline := 1500039 }, awake0 ((asking { iterReq with deadline := 1500039 } 1000 [])) rfl,
      by decide +kernel⟩
  · exact ⟨at0 ((asking { bringReq with deadline := 1500039 } 1000 [])),
      ((asking { bringReq with deadline := 1500039 } 1000 [])).now, ((asking { bringReq with deadline := 1500039 } 1000 [])), 0,
      { bringReq with deadline := 1500039 }, awake0 ((asking { bringReq with deadline := 1500039 } 1000 [])) rfl,
      by decide +kernel⟩
  · exact ⟨at0 (deferring bringReq), (deferring bringReq).now, (deferring bringReq), 0, bringReq,
      awake0 (deferring bringReq) rfl, by decide +kernel⟩
  · exact ⟨at0 (asking (slotReq 1000000000) 1000 []), (asking (slotReq 1000000000) 1000 []).now,
      (asking (slotReq 1000000000) 1000 []), 0, (slotReq 1000000000), _, _, _, awake0 (asking (slotReq 1000000000) 1000 []) rfl,
      rfl, rfl, rfl, by decide +kernel⟩
  · exact ⟨at0 (asking (slotReq 50) 1000 [(F.GV_FLOOR_FLOOR 0, 50)]), (asking (slotReq 50) 1000 [(F.GV_FLOOR_FLOOR 0, 50)]).now,
      (asking (slotReq 50) 1000 [(F.GV_FLOOR_FLOOR 0, 50)]), 0, (slotReq 50), _, _, _, _,
      awake0 (asking (slotReq 50) 1000 [(F.GV_FLOOR_FLOOR 0, 50)]) rfl, rfl, rfl, rfl, rfl, by decide +kernel⟩
  · exact ⟨at0 (asking (slotReq 50) 1000 [(F.GV_STATUS_TSTATE, 2)]), (asking (slotReq 50) 1000 [(F.GV_STATUS_TSTATE, 2)]).now,
      (asking (slotReq 50) 1000 [(F.GV_STATUS_TSTATE, 2)]), 0, (slotReq 50), _, _, _,
      awake0 (asking (slotReq 50) 1000 [(F.GV_STATUS_TSTATE, 2)]) rfl, rfl, rfl, rfl, by decide +kernel⟩
  · exact ⟨at0 (asking (slotReq 50) 50 []), (asking (slotReq 50) 50 []).now, (asking (slotReq 50) 50 []), 0, (slotReq 50), _, _,
      _, awake0 (asking (slotReq 50) 50 []) rfl, rfl, rfl, rfl, by decide +kernel⟩
  · exact ⟨at0 degDev, degDev.now, degDev, 0, (slotReq 50), _, _, _, 2, awake0 degDev rfl, rfl, rfl, rfl,
      (fun y _ h => (by decide +kernel : ∀ y, y < 2 → degDev.headroom < (chargeOf 50 y : Int)) y h), by decide +kernel⟩
  · exact ⟨at0 fullDev, fullDev.now, fullDev, 0, (slotReq 50), _, _, _, awake0 fullDev rfl, rfl, rfl, rfl,
      (fun y _ h => (by decide +kernel : ∀ y, y ≤ fullDev.rd F.GV_MODE_DEG_MAX → fullDev.headroom < (chargeOf 50 y : Int)) y h),
      by decide +kernel⟩
  · exact ⟨at0 (asking iterReq 1000 []), (asking iterReq 1000 []).now, (asking iterReq 1000 []), _, _, 0, iterReq, _, _, 10,
      awake0 (asking iterReq 1000 []) rfl, rfl, rfl, rfl, .inl ⟨by decide +kernel, rfl⟩, by decide +kernel⟩
  · exact ⟨at0 ({ asking iterReq 1000 [] with mains := { (asking iterReq 1000 []).mains with refclk := false } }),
      ({ asking iterReq 1000 [] with mains := { (asking iterReq 1000 []).mains with refclk := false } }).now,
      ({ asking iterReq 1000 [] with mains := { (asking iterReq 1000 []).mains with refclk := false } }), _, _, 0, iterReq, _,
      _, 10, _, awake0 ({ asking iterReq 1000 [] with mains := { (asking iterReq 1000 []).mains with refclk := false } }) rfl,
      rfl, rfl, rfl, rfl, .inl ⟨by decide +kernel, rfl⟩, by decide +kernel⟩
  · exact ⟨at0 ((asking bringReq 1000 []).wr (F.GV_CHSTAT_PHASE 1) phHELD),
      ((asking bringReq 1000 []).wr (F.GV_CHSTAT_PHASE 1) phHELD).now,
      ((asking bringReq 1000 []).wr (F.GV_CHSTAT_PHASE 1) phHELD), 0, bringReq,
      ready0 ((asking bringReq 1000 []).wr (F.GV_CHSTAT_PHASE 1) phHELD) ⟨rfl, rfl⟩, by decide +kernel⟩
  · exact ⟨at0 (asking bringReq 1000 []), (asking bringReq 1000 []).now, (asking bringReq 1000 []), 0, bringReq,
      ready0 (asking bringReq 1000 []) ⟨rfl, rfl⟩, by decide +kernel⟩
  · exact ⟨at0 (asking bringReq 1000 [(F.GV_STATUS_TSTATE, 2)]), (asking bringReq 1000 [(F.GV_STATUS_TSTATE, 2)]).now,
      (asking bringReq 1000 [(F.GV_STATUS_TSTATE, 2)]), 0, bringReq,
      ready0 (asking bringReq 1000 [(F.GV_STATUS_TSTATE, 2)]) ⟨rfl, rfl⟩, by decide +kernel⟩

theorem witness_governor_tick_completes :
    (∃ (s : State) (t : Nat) (rails : List Nat) (d e g h x y : Dev) (c : Word32) (n m nj : Nat) (live : List (Nat × Nat))
      (f : List (Nat × Nat × Nat)), s.awake t d ∧ n = d.rd F.GV_MODE_MODE ∧ c = d.word A.GV_CUSTOM ∧ e =
        (if n = d.gov.mode ∧ c = d.gov.custom then d else if modeB n c * d.winMs * 10 < 2 * d.floorSum then
        ((d.wr F.GV_MODE_MODE d.gov.mode).setWord A.GV_CUSTOM d.gov.custom).raise F.GV_STATUS_GVREJ else
        ({ d with gov := { d.gov with mode := n, custom := c } } : Dev).thermal) ∧
      live = (e.gov.power ++ [(e.now, rails.sum)]).filter (fun p => decide (e.now < p.1 + 1000000 * e.winMs)) ∧
      nj = (live.map Prod.snd).sum ∧ m = (roundQuotient nj 100000).toNat ∧
      g = { e with gov := { e.gov with power := live, m := m } } ∧
      h = g.wr F.GV_PWR_PWR (min 65535 (roundQuotient m g.winMs).toNat) ∧ x =
        (if nj ≤ 100000 * h.cap then h else if 100000 * d.cap < (d.gov.power.map Prod.snd).sum then h.raise
        F.GV_STATUS_OVERBUD else (h.raise F.GV_STATUS_OVERBUD).notice { cls := 8, code := 0 }) ∧
      y = x.wrS F.GV_HEAD_H x.headroom ∧ f = y.gov.floors.filter (fun f => decide (y.now < f.1 + 1000000 * y.winMs))) ∧
    (∃ (s : State) (t : Nat) (d g : Dev) (c tj : Int) (n : Fin 24) (i : Nat) (l : Tab Int) (u v : Gov), s.awake t d ∧
      l = Tab.put d.gov.temps n.val c ∧
      g = (({ d with gov := { d.gov with temps := l } } : Dev).wrS F.GV_PWR_TJ tj).wr F.GV_PWR_HOTS i ∧
      u = { g.gov with tj := tj, hotFrom := if tj < 110 then none else some (g.gov.hotFrom.getD g.now) } ∧
      v = { u with barred := u.barred && !decide (tj < ({ g with gov := u } : Dev).tc - 10) } ∧ hottest l = (tj, i)) ∧
    (∃ (s : State) (t : Nat) (d : Dev) (g : Dev) (x : Nat), s.awake t d ∧ g = (d.wr F.GV_STATUS_TSTATE 3).dropChannels ∧
      d.gov.hotFrom = some x ∧ x + 1000000 ≤ d.now ∧ d.tstate ≠ 3) := by
  refine ⟨?_, ?_, ?_⟩
  · exact ⟨at0 timed, timed.now, [300000, 200000], timed, _, _, _, _, _, _, _, _, _, _, _, awake0 timed rfl, rfl, rfl, rfl, rfl,
      rfl, rfl, rfl, rfl, rfl, rfl, rfl⟩
  · exact ⟨at0 timed, timed.now, timed, _, 40, _, 3, _, _, _, _, awake0 timed rfl, rfl, rfl, rfl, rfl, pair_eq⟩
  · exact ⟨at0 hotDev, hotDev.now, hotDev, _, 500000, awake0 hotDev rfl, rfl, by decide +kernel⟩

theorem witness_power_commands_complete :
    (∃ (s : State) (t : Nat) (d : Dev) (w : Writer), s.ready t d ∧ d.mayGovern w = false) ∧
    (∃ (s : State) (t : Nat) (d g : Dev) (w : Writer) (n : Fin 128), s.ready t d ∧ g = d.wr F.GV_PDCMD_DOM n.val ∧
      d.mayGovern w = true ∧ (n.val < 64 ∨ n.val = 76 ∨ 79 ≤ n.val)) ∧
    (∃ (s : State) (t : Nat) (d g : Dev) (w : Writer) (n : Fin 128), s.ready t d ∧ g = d.wr F.GV_PDCMD_DOM n.val ∧
      d.mayGovern w = true ∧ 64 ≤ n.val ∧ n.val ≠ 76 ∧ n.val < 79) ∧
    (∃ (s : State) (t : Nat) (d : Dev) (w : Writer), s.ready t d ∧ d.mayGovern w = false) ∧
    (∃ (s : State) (t : Nat) (d : Dev) (w : Writer) (k : ChanId) (r : Option (Fin 8)) (g x y : Dev) (b c : Nat), s.ready t d ∧
      b = (if r.isSome then 1 else 0) ∧ c = (r.map Fin.val).getD 0 ∧
      g = ((d.wr F.GV_CHCMD_CHAN k.val).wr F.GV_CHCMD_ROLESET b).wr F.GV_CHCMD_ROLE c ∧
      x = (g.wr F.GV_CHCMD_RES 0).setService k.val (r.map Fin.val) ∧
      y = ((g.wr F.GV_CHCMD_RES 3).switchDeny (some k.val)).chsvc k.val lrDENIED ∧ d.mayGovern w = true) ∧
    (∃ (s : State) (t : Nat) (d : Dev) (w : Writer) (k : ChanId) (g : Dev) (p : Nat), s.ready t d ∧
      g = ((d.wr F.GV_CHCMD_CHAN k.val).wr F.GV_CHCMD_ROLESET 0).wr F.GV_CHCMD_ROLE 0 ∧ p = g.phase k.val ∧
      d.mayGovern w = true) ∧
    (∃ (s : State) (t : Nat) (d : Dev) (k : ChanId), s.ready t d ∧ d.phase k.val = phRESTORE ∧ (d.record k.val).bad = true) ∧
    (∃ (s : State) (t : Nat) (d g : Dev) (k : ChanId), s.ready t d ∧
      g = (d.replay k.val).modBring k.val (fun b => { b with restored := true }) ∧ d.phase k.val = phRESTORE ∧
      (d.record k.val).bad = false) ∧
    (∃ (s : State) (t : Nat) (d : Dev) (k : ChanId), s.ready t d ∧ d.phase k.val = phCAL ∧ (d.bring k.val).abort = true) ∧
    (∃ (s : State) (t : Nat) (d g : Dev) (k : ChanId), s.ready t d ∧
      g = d.modBring k.val (fun b => { b with calibrated := true }) ∧ d.phase k.val = phCAL ∧ (d.bring k.val).abort = false) ∧
    (∃ (s : State) (t : Nat) (d : Dev) (k : ChanId), s.ready t d ∧ d.phase k.val = phDRAIN ∧ d.drained k.val = true) ∧
    (∃ (s : State) (t : Nat) (d g : Dev) (k : ChanId), ∃ l, s.ready t d ∧
      l = (d.group k.val).filter (fun m => d.phase m == phCAPTURE) ∧ g = l.foldl (fun x m => x.capture m (x.record m).role) d ∧
      d.phase k.val = phCAPTURE) ∧
    (∃ (s : State) (t : Nat) (d : Dev) (k : ChanId), s.ready t d ∧ d.phase k.val = phDRAIN ∧
      Tab.get d.now d.gov.drain k.val + 1000000 * d.rd F.GV_ITER_DRAIN_MAX ≤ d.now) ∧
    (∃ (s : State) (t n : Nat) (l : List Nat) (d : Dev), s.awake t d ∧ d.gov.queue = n :: l ∧ d.requiresOk n = false) ∧
    (∃ (s : State) (t n : Nat) (l : List Nat) (d g h : Dev), s.awake t d ∧
      g = ({ d with gov := { d.gov with queue := l } } : Dev).domainOn n ∧
      h = (if 64 ≤ n then g else if (g.bring n).abort then g.abortBring n else g.setPhase n phRESTORE) ∧ d.gov.queue = n :: l ∧
      d.requiresOk n = true) := by
  refine ⟨?_, ?_, ?_, ?_, ?_, ?_, ?_, ?_, ?_, ?_, ?_, ?_, ?_, ?_, ?_⟩
  · exact ⟨at0 timed, timed.now, timed, (.v1 3), ready0 timed ⟨rfl, rfl⟩, by decide +kernel⟩
  · exact ⟨at0 timed, timed.now, timed, _, .loader, 79, ready0 timed ⟨rfl, rfl⟩, rfl, by decide +kernel⟩
  · exact ⟨at0 timed, timed.now, timed, _, .loader, 65, ready0 timed ⟨rfl, rfl⟩, rfl, by decide +kernel⟩
  · exact ⟨at0 timed, timed.now, timed, (.v1 3), ready0 timed ⟨rfl, rfl⟩, by decide +kernel⟩
  · exact ⟨at0 timed, timed.now, timed, .loader, 1, (some 2), _, _, _, _, _, ready0 timed ⟨rfl, rfl⟩, rfl, rfl, rfl, rfl, rfl,
      by decide +kernel⟩
  · exact ⟨at0 (phased 8 {}), (phased 8 {}).now, (phased 8 {}), .loader, 0, _, _, ready0 (phased 8 {}) ⟨rfl, rfl⟩, rfl, rfl,
      by decide +kernel⟩
  · exact ⟨at0 ({ phased 4 {} with restore := [(0, { bad := true })] }),
      ({ phased 4 {} with restore := [(0, { bad := true })] }).now, ({ phased 4 {} with restore := [(0, { bad := true })] }), 0,
      ready0 ({ phased 4 {} with restore := [(0, { bad := true })] }) ⟨rfl, rfl⟩, by decide +kernel⟩
  · exact ⟨at0 (phased 4 {}), (phased 4 {}).now, (phased 4 {}), _, 0, ready0 (phased 4 {}) ⟨rfl, rfl⟩, rfl, by decide +kernel⟩
  · exact ⟨at0 (phased 5 { abort := true }), (phased 5 { abort := true }).now, (phased 5 { abort := true }), 0,
      ready0 (phased 5 { abort := true }) ⟨rfl, rfl⟩, by decide +kernel⟩
  · exact ⟨at0 (phased 5 { hold := true }), (phased 5 { hold := true }).now, (phased 5 { hold := true }), _, 0,
      ready0 (phased 5 { hold := true }) ⟨rfl, rfl⟩, rfl, by decide +kernel⟩
  · exact ⟨at0 (phased 9 {}), (phased 9 {}).now, (phased 9 {}), 0, ready0 (phased 9 {}) ⟨rfl, rfl⟩, by decide +kernel⟩
  · exact ⟨at0 (phased phCAPTURE {}), (phased phCAPTURE {}).now, (phased phCAPTURE {}), _, 0, _,
      ready0 (phased phCAPTURE {}) ⟨rfl, rfl⟩, rfl, rfl, by decide +kernel⟩
  · exact ⟨at0 (phased phDRAIN {}), (phased phDRAIN {}).now, (phased phDRAIN {}), 0, ready0 (phased phDRAIN {}) ⟨rfl, rfl⟩,
      by decide +kernel⟩
  · exact ⟨at0 ({ Dev.reset {} with gov := { (Dev.reset {}).gov with queue := [64] } }),
      ({ Dev.reset {} with gov := { (Dev.reset {}).gov with queue := [64] } }).now, 64, [],
      ({ Dev.reset {} with gov := { (Dev.reset {}).gov with queue := [64] } }),
      awake0 ({ Dev.reset {} with gov := { (Dev.reset {}).gov with queue := [64] } }) rfl, by decide +kernel⟩
  · exact ⟨at0 switching, switching.now, 65, [], switching, _, _, awake0 switching rfl, rfl, rfl, by decide +kernel⟩

theorem witness_record_commands_complete :
    (∃ (s : State) (t : Nat) (d : Dev) (src : Fin 17) (i : NodeAddr) (ph : Bool) (kind : Fin 4), ∃ c, s.ready t d ∧
      c ∈ [Instr.keywr t src i ph, .keyerase t src i ph, .roll t src i, .query t src i, .create t src i kind, .delete t src i,
        .pageerase t src] ∧ (d.domOn 70 = false ∨ d.rstate = 2)) ∧
    (∃ (s : State) (t : Nat) (d : Dev) (src : Fin 17) (i : NodeAddr) (ph : Bool) (kind : Fin 4), ∃ c, s.ready t d ∧
      c ∈ [Instr.keywr t src i ph, .keyerase t src i ph, .roll t src i, .query t src i, .create t src i kind, .delete t src i,
        .pageerase t src] ∧ d.domOn 70 = true ∧ d.rstate ≠ 2 ∧ d.on (F.SA_CMD_BUSYST src.val) = true) ∧
    (∃ (s : State) (t : Nat) (d : Dev) (src : Fin 17) (i : NodeAddr) (k0 : Nat) (p0 : Bool) (g : Bool → Nat → Nat → Dev)
      (chk : Dev → Nat × Dev → Nat × Dev) (put : SaCmd → Nat × Dev → State), ∃ ph e old, s.ready t d ∧
      k0 = d.rd (F.SA_CMD_KIND src.val) ∧ p0 = d.on (F.SA_CMD_PH src.val) ∧ g =
        (fun p sa k => ((d.wr (F.SA_CMD_PH src.val) (if p then 1 else 0)).wr (F.SA_CMD_SAIDX src.val) sa).wr
        (F.SA_CMD_KIND src.val) k) ∧ chk = (fun e x => if (e.sa_ i.toNat).kind = 0 then (2, e) else if src.val ≠ 16 ∧
        (e.sa_ i.toNat).tenant ≠ src.val then (1, e.hedge) else x) ∧
      put = (fun c x => s.to { x.2.wr (F.SA_CMD_BUSYST src.val) 1 with sa := Tab.put x.2.sa src.val { c with res := x.1 } }) ∧
      e = g ph i.toNat k0 ∧ old = (if e.resident (i.toNat, ph) then some (e.startKey (i.toNat, ph)) else none) ∧
      d.domOn 70 = true ∧ d.rstate ≠ 2 ∧ d.on (F.SA_CMD_BUSYST src.val) = false) ∧
    (∃ (s : State) (t : Nat) (d : Dev) (src : Fin 17) (i : NodeAddr) (k0 : Nat) (p0 : Bool) (g : Bool → Nat → Nat → Dev)
      (chk : Dev → Nat × Dev → Nat × Dev) (put : SaCmd → Nat × Dev → State), ∃ e, s.ready t d ∧
      k0 = d.rd (F.SA_CMD_KIND src.val) ∧ p0 = d.on (F.SA_CMD_PH src.val) ∧ g =
        (fun p sa k => ((d.wr (F.SA_CMD_PH src.val) (if p then 1 else 0)).wr (F.SA_CMD_SAIDX src.val) sa).wr
        (F.SA_CMD_KIND src.val) k) ∧ chk = (fun e x => if (e.sa_ i.toNat).kind = 0 then (2, e) else if src.val ≠ 16 ∧
        (e.sa_ i.toNat).tenant ≠ src.val then (1, e.hedge) else x) ∧
      put = (fun c x => s.to { x.2.wr (F.SA_CMD_BUSYST src.val) 1 with sa := Tab.put x.2.sa src.val { c with res := x.1 } }) ∧
      e = g p0 i.toNat k0 ∧ d.domOn 70 = true ∧ d.rstate ≠ 2 ∧ d.on (F.SA_CMD_BUSYST src.val) = false) ∧
    (∃ (s : State) (t : Nat) (d : Dev) (src : Fin 17) (i : NodeAddr) (k0 : Nat) (p0 : Bool) (g : Bool → Nat → Nat → Dev)
      (chk : Dev → Nat × Dev → Nat × Dev) (put : SaCmd → Nat × Dev → State) (kind : Fin 4), ∃ e, s.ready t d ∧
      k0 = d.rd (F.SA_CMD_KIND src.val) ∧ p0 = d.on (F.SA_CMD_PH src.val) ∧ g =
        (fun p sa k => ((d.wr (F.SA_CMD_PH src.val) (if p then 1 else 0)).wr (F.SA_CMD_SAIDX src.val) sa).wr
        (F.SA_CMD_KIND src.val) k) ∧ chk = (fun e x => if (e.sa_ i.toNat).kind = 0 then (2, e) else if src.val ≠ 16 ∧
        (e.sa_ i.toNat).tenant ≠ src.val then (1, e.hedge) else x) ∧
      put = (fun c x => s.to { x.2.wr (F.SA_CMD_BUSYST src.val) 1 with sa := Tab.put x.2.sa src.val { c with res := x.1 } }) ∧
      e = g p0 i.toNat kind.val ∧ d.domOn 70 = true ∧ d.rstate ≠ 2 ∧ d.on (F.SA_CMD_BUSYST src.val) = false) ∧
    (∃ (s : State) (t : Nat) (d : Dev) (src : Fin 17) (i : NodeAddr) (k0 : Nat) (p0 : Bool) (g : Bool → Nat → Nat → Dev)
      (chk : Dev → Nat × Dev → Nat × Dev) (put : SaCmd → Nat × Dev → State), ∃ e, s.ready t d ∧
      k0 = d.rd (F.SA_CMD_KIND src.val) ∧ p0 = d.on (F.SA_CMD_PH src.val) ∧ g =
        (fun p sa k => ((d.wr (F.SA_CMD_PH src.val) (if p then 1 else 0)).wr (F.SA_CMD_SAIDX src.val) sa).wr
        (F.SA_CMD_KIND src.val) k) ∧ chk = (fun e x => if (e.sa_ i.toNat).kind = 0 then (2, e) else if src.val ≠ 16 ∧
        (e.sa_ i.toNat).tenant ≠ src.val then (1, e.hedge) else x) ∧
      put = (fun c x => s.to { x.2.wr (F.SA_CMD_BUSYST src.val) 1 with sa := Tab.put x.2.sa src.val { c with res := x.1 } }) ∧
      e = g p0 (d.rd (F.SA_CMD_SAIDX src.val)) k0 ∧ d.domOn 70 = true ∧ d.rstate ≠ 2 ∧ d.on (F.SA_CMD_BUSYST src.val) = false) ∧
    (∃ (s : State) (t : Nat) (d g h : Dev) (src : Fin 17) (e : Nat × SaCmd), s.ready t d ∧
      g = (match e.2.old with | some w => d.noteRewrite (e.2.saidx, e.2.phase) w | none => d) ∧
      h = ((g.wr (F.SA_CMD_RES src.val) e.2.res).wr (F.SA_CMD_BUSYST src.val) 0).zeroStaging src.val ∧
      d.sa.find? (fun e : Nat × SaCmd => e.1 == src.val) = some e) := by
  refine ⟨?_, ?_, ?_, ?_, ?_, ?_, ?_⟩
  · exact ⟨at0 onlyHbmOff, onlyHbmOff.now, onlyHbmOff, 16, 5, false, 1, _, ready0 onlyHbmOff ⟨rfl, rfl⟩, .head _,
      by decide +kernel⟩
  · exact ⟨at0 (recDev [(F.SA_CMD_BUSYST 16, 1)]), (recDev [(F.SA_CMD_BUSYST 16, 1)]).now, (recDev [(F.SA_CMD_BUSYST 16, 1)]),
      16, 5, false, 1, _, ready0 (recDev [(F.SA_CMD_BUSYST 16, 1)]) ⟨rfl, rfl⟩, .tail _ (.head _), by decide +kernel⟩
  · exact ⟨at0 (recDev [(F.SA_CMD_KIND 16, 1)]), (recDev [(F.SA_CMD_KIND 16, 1)]).now, (recDev [(F.SA_CMD_KIND 16, 1)]), 16, 5,
      _, _, _, _, _, false, _, _, ready0 (recDev [(F.SA_CMD_KIND 16, 1)]) ⟨rfl, rfl⟩, rfl, rfl, rfl, rfl, rfl, rfl, rfl,
      by decide +kernel⟩
  · exact ⟨at0 (recDev [(F.SA_CMD_KIND 16, 1)]), (recDev [(F.SA_CMD_KIND 16, 1)]).now, (recDev [(F.SA_CMD_KIND 16, 1)]), 16, 5,
      _, _, _, _, _, _, ready0 (recDev [(F.SA_CMD_KIND 16, 1)]) ⟨rfl, rfl⟩, rfl, rfl, rfl, rfl, rfl, rfl, by decide +kernel⟩
  · exact ⟨at0 (recDev [(F.SA_CMD_KIND 16, 1)]), (recDev [(F.SA_CMD_KIND 16, 1)]).now, (recDev [(F.SA_CMD_KIND 16, 1)]), 16, 5,
      _, _, _, _, _, 1, _, ready0 (recDev [(F.SA_CMD_KIND 16, 1)]) ⟨rfl, rfl⟩, rfl, rfl, rfl, rfl, rfl, rfl, by decide +kernel⟩
  · exact ⟨at0 (recDev [(F.SA_CMD_KIND 16, 1)]), (recDev [(F.SA_CMD_KIND 16, 1)]).now, (recDev [(F.SA_CMD_KIND 16, 1)]), 16, 5,
      _, _, _, _, _, _, ready0 (recDev [(F.SA_CMD_KIND 16, 1)]) ⟨rfl, rfl⟩, rfl, rfl, rfl, rfl, rfl, rfl, by decide +kernel⟩
  · exact ⟨at0 commanding, commanding.now, commanding, _, _, 16, (16, { op := 0, saidx := 5, phase := false, res := 2 }),
      ready0 commanding ⟨rfl, rfl⟩, rfl, rfl, by decide +kernel⟩

theorem witness_lock_and_job_commands_complete :
    (∃ (s : State) (t : Nat) (d : Dev) (n : Fin 256), s.ready t d ∧ d.adminSession n.val = false) ∧
    (∃ (s : State) (t : Nat) (d g : Dev) (n : Fin 256), s.ready t d ∧ g = d.lapseLock ∧ d.adminSession n.val = true ∧ n ≠ 0 ∧
      (g.holder = 0 ∨ g.holder = n.val)) ∧
    (∃ (s : State) (t : Nat) (d g : Dev) (n : Fin 256), s.ready t d ∧ g = d.lapseLock ∧ d.adminSession n.val = true ∧ n ≠ 0 ∧
      g.holder ≠ 0 ∧ g.holder ≠ n.val) ∧
    (∃ (s : State) (t : Nat) (d g : Dev) (n : Fin 256), s.ready t d ∧ g = d.lapseLock ∧ d.adminSession n.val = true ∧ n ≠ 0 ∧
      g.holder = n.val) ∧
    (∃ (s : State) (t : Nat) (d g : Dev) (n : Fin 256), s.ready t d ∧ g = d.lapseLock ∧ d.adminSession n.val = true ∧ n ≠ 0 ∧
      g.holder ≠ n.val) ∧
    (∃ (s : State) (t : Nat) (x : Nat) (d : Dev), s.awake t d ∧ d.leaseEnd = some x ∧ x ≤ d.now) ∧
    (∃ (s : State) (t x : Nat) (d : Dev), s.awake t d ∧ d.leaseEnd = some x ∧ d.now < x) ∧
    (∃ (s : State) (t : Nat) (d : Dev) (p : PageId) (v : Word32), s.ready t d ∧ v = d.word (A.PG_JCFG p.val) ||| 0x2000#32 ∧
      d.domOn 70 = true ∧ d.jenOk p.val v = true) ∧
    (∃ (s : State) (t : Nat) (d : Dev) (p : PageId) (v : Word32), s.ready t d ∧ v = d.word (A.PG_JCFG p.val) ||| 0x2000#32 ∧
      d.domOn 70 = true ∧ d.jenOk p.val v = false) ∧
    (∃ (s : State) (t : Nat) (d : Dev) (p : PageId) (v : Word32), s.ready t d ∧ v = d.word (A.PG_JCFG p.val) ||| 0x2000#32 ∧
      d.domOn 70 = true ∧ (d.on (F.PG_JCFG_JEN p.val) = false ∨ 4 ≤ (d.page p.val).jobs.length)) ∧
    (∃ (s : State) (t : Nat) (d : Dev) (p : PageId) (v : Word32), s.ready t d ∧ v = d.word (A.PG_JCFG p.val) ||| 0x2000#32 ∧
      d.domOn 70 = true ∧ d.on (F.PG_JCFG_JEN p.val) = true ∧ (d.page p.val).jobs.length < 4) ∧
    (∃ (s : State) (t : Nat) (d : Dev) (p : PageId), s.ready t d ∧ (d.page p.val).jobs.find? Job.started = none) ∧
    (∃ (s : State) (t : Nat) (d : Dev) (p : PageId) (j : Job), s.ready t d ∧ (d.page p.val).jobs.find? Job.started = some j ∧
      j.erased = true) ∧
    (∃ (s : State) (t : Nat) (d : Dev) (p : PageId), ∃ j st e, s.ready t d ∧
      (st, e) = (match d.jobResult j with
          | none => (jsTAGFAIL, (d.event 8 0 1 (ceilDiv j.dlen 16)).tagFail j.saidx none 1)
          | some out => (d.event 8 0 1 (ceilDiv j.dlen 16)).jobOutput p.val (fitTo j.outLen out)) ∧
      (d.page p.val).jobs.find? Job.started = some j ∧ j.erased = false) := by
  refine ⟨?_, ?_, ?_, ?_, ?_, ?_, ?_, ?_, ?_, ?_, ?_, ?_, ?_, ?_⟩
  · exact ⟨at0 (adminDev []), (adminDev []).now, (adminDev []), 9, ready0 (adminDev []) ⟨rfl, rfl⟩, by decide +kernel⟩
  · exact ⟨at0 (adminDev []), (adminDev []).now, (adminDev []), _, 7, ready0 (adminDev []) ⟨rfl, rfl⟩, rfl, by decide +kernel⟩
  · exact ⟨at0 (adminDev [(F.ADMIN_LOCK_HOLDER, 255)]), (adminDev [(F.ADMIN_LOCK_HOLDER, 255)]).now,
      (adminDev [(F.ADMIN_LOCK_HOLDER, 255)]), _, 7, ready0 (adminDev [(F.ADMIN_LOCK_HOLDER, 255)]) ⟨rfl, rfl⟩, rfl,
      by decide +kernel⟩
  · exact ⟨at0 (adminDev [(F.ADMIN_LOCK_HOLDER, 7)]), (adminDev [(F.ADMIN_LOCK_HOLDER, 7)]).now,
      (adminDev [(F.ADMIN_LOCK_HOLDER, 7)]), _, 7, ready0 (adminDev [(F.ADMIN_LOCK_HOLDER, 7)]) ⟨rfl, rfl⟩, rfl,
      by decide +kernel⟩
  · exact ⟨at0 (adminDev []), (adminDev []).now, (adminDev []), _, 7, ready0 (adminDev []) ⟨rfl, rfl⟩, rfl, by decide +kernel⟩
  · exact ⟨at0 leaseDev, leaseDev.now, 500, leaseDev, awake0 leaseDev rfl, by decide +kernel⟩
  · exact ⟨at0 ({ leaseDev with leaseEnd := some 501 }), ({ leaseDev with leaseEnd := some 501 }).now, 501,
      ({ leaseDev with leaseEnd := some 501 }), awake0 ({ leaseDev with leaseEnd := some 501 }) rfl, by decide +kernel⟩
  · exact ⟨at0 (pageDev []), (pageDev []).now, (pageDev []), 2, _, ready0 (pageDev []) ⟨rfl, rfl⟩, rfl, by decide +kernel⟩
  · exact ⟨at0 base, base.now, base, 2, _, ready0 base ⟨rfl, rfl⟩, rfl, by decide +kernel⟩
  · exact ⟨at0 (pageDev []), (pageDev []).now, (pageDev []), 2, _, ready0 (pageDev []) ⟨rfl, rfl⟩, rfl, by decide +kernel⟩
  · exact ⟨at0 (pageDev [(F.PG_JCFG_JEN 2, 1)]), (pageDev [(F.PG_JCFG_JEN 2, 1)]).now, (pageDev [(F.PG_JCFG_JEN 2, 1)]), 2, _,
      ready0 (pageDev [(F.PG_JCFG_JEN 2, 1)]) ⟨rfl, rfl⟩, rfl, by decide +kernel⟩
  · exact ⟨at0 base, base.now, base, 2, ready0 base ⟨rfl, rfl⟩, by decide +kernel⟩
  · exact ⟨at0 (running 1 true), (running 1 true).now, (running 1 true), 2, (aPageJob 1 true),
      ready0 (running 1 true) ⟨rfl, rfl⟩, by decide +kernel⟩
  · exact ⟨at0 (running 0 false), (running 0 false).now, (running 0 false), 2, (aPageJob 0 false), _, _,
      ready0 (running 0 false) ⟨rfl, rfl⟩, rfl, by decide +kernel⟩

theorem witness_lifecycle_commands_complete :
    (∃ (s : State) (t : Nat) (d : Dev) (w : Writer) (op r : Nat) (c : Instr), s.ready t d ∧
      r = (if d.word A.RT_CONFIRM ≠ BitVec.ofNat 32 (0x4C430000 + op) then 3 else if d.lc ≠ 1 ∧ (d.lc ≠ 2 ∨ op ≤ 2) then 2 else
        if op = 1 ∧ d.on F.RT_STATUS_OWNKEY = true then 2 else if op = 2 ∧ d.on F.RT_STATUS_OWNIMG = false then 6 else 0) ∧
      (op, c) ∈ [(1, Instr.ownkeySet t w), (2, .lock t w), (3, .svnCommit t w), (4, .decommission t w)] ∧ d.mayGovern w = false) ∧
    (∃ (s : State) (t : Nat) (d : Dev) (w : Writer) (op r : Nat) (c : Instr), s.ready t d ∧
      r = (if d.word A.RT_CONFIRM ≠ BitVec.ofNat 32 (0x4C430000 + op) then 3 else if d.lc ≠ 1 ∧ (d.lc ≠ 2 ∨ op ≤ 2) then 2 else
        if op = 1 ∧ d.on F.RT_STATUS_OWNKEY = true then 2 else if op = 2 ∧ d.on F.RT_STATUS_OWNIMG = false then 6 else 0) ∧
      (op, c) ∈ [(1, Instr.ownkeySet t w), (2, .lock t w), (3, .svnCommit t w), (4, .decommission t w)] ∧ d.mayGovern w = true ∧
      d.root.cmd.isSome = true) ∧
    (∃ (s : State) (t : Nat) (d : Dev) (w : Writer) (op r : Nat) (c : Instr), s.ready t d ∧
      r = (if d.word A.RT_CONFIRM ≠ BitVec.ofNat 32 (0x4C430000 + op) then 3 else if d.lc ≠ 1 ∧ (d.lc ≠ 2 ∨ op ≤ 2) then 2 else
        if op = 1 ∧ d.on F.RT_STATUS_OWNKEY = true then 2 else if op = 2 ∧ d.on F.RT_STATUS_OWNIMG = false then 6 else 0) ∧
      (op, c) ∈ [(1, Instr.ownkeySet t w), (2, .lock t w), (3, .svnCommit t w), (4, .decommission t w)] ∧ d.mayGovern w = true ∧
      d.root.cmd = none ∧ r ≠ 0) ∧
    (∃ (s : State) (t : Nat) (d : Dev) (w : Writer) (op r : Nat) (c : Instr), ∃ e, s.ready t d ∧
      r = (if d.word A.RT_CONFIRM ≠ BitVec.ofNat 32 (0x4C430000 + op) then 3 else if d.lc ≠ 1 ∧ (d.lc ≠ 2 ∨ op ≤ 2) then 2 else
        if op = 1 ∧ d.on F.RT_STATUS_OWNKEY = true then 2 else if op = 2 ∧ d.on F.RT_STATUS_OWNIMG = false then 6 else 0) ∧
      e = (if op = 4 then d.eraseAlarm almDECOM else d) ∧
      (op, c) ∈ [(1, Instr.ownkeySet t w), (2, .lock t w), (3, .svnCommit t w), (4, .decommission t w)] ∧ d.mayGovern w = true ∧
      d.root.cmd = none ∧ r = 0) ∧
    (∃ (s : State) (t op res n : Nat) (d e : Dev) (o : Otp), s.awake t d ∧ o = d.root.otp ∧ n = d.rd F.RT_STATUS_IMGSVN ∧ ((res
        ≠ 0 ∧ e = d) ∨ (res = 0 ∧ op = 1 ∧ e = ({ d with root := { d.root with otp := { o with vkhO := d.rtHash } } } : Dev).wr
        F.RT_STATUS_OWNKEY (if d.rtHash = 0 then 0 else 1)) ∨
        (res = 0 ∧ op = 2 ∧ e = ({ d with root := { d.root with otp := o.programGroup 2 } } : Dev).wr F.RT_STATUS_LCPEND 1) ∨
        (res = 0 ∧ op = 3 ∧
        e = ({ d with root := { d.root with otp := { o with svnBits := raiseBits n 128 o.svnBits } } } : Dev).wr
        F.RT_STATUS_SVNCTR { o with svnBits := raiseBits n 128 o.svnBits }.svn) ∨
        (res = 0 ∧ op = 4 ∧ e = ({ d with root := { d.root with otp := { o with dus := BitVec.allOnes 256 }.programGroup 3 } } :
        Dev).wr F.RT_STATUS_LCPEND 1)) ∧ d.root.cmd = some (op, res)) ∧
    (∃ (s : State) (t : Nat) (d : Dev) (g : Dev), s.awake t d ∧
      (g = (List.range 4).foldl (fun (x : Dev) i => x.setWord (A.RT_DEVID i) ((d.devid >>> (96 - 32 * i)).setWidth 32)) d) ∧
      (d.lc = 1 ∨ d.lc = 2) ∧ d.root.identity = false) := by
  refine ⟨?_, ?_, ?_, ?_, ?_, ?_⟩
  · exact ⟨at0 base, base.now, base, (.v1 3), _, _, _, ready0 base ⟨rfl, rfl⟩, rfl, .head _, by decide +kernel⟩
  · exact ⟨at0 ({ base with root := { cmd := some (1, 0) } }), ({ base with root := { cmd := some (1, 0) } }).now,
      ({ base with root := { cmd := some (1, 0) } }), .loader, _, _, _,
      ready0 ({ base with root := { cmd := some (1, 0) } }) ⟨rfl, rfl⟩, rfl, .tail _ (.head _), by decide +kernel⟩
  · exact ⟨at0 (lifeDev 0x4C430002#32 []), (lifeDev 0x4C430002#32 []).now, (lifeDev 0x4C430002#32 []), .loader, _, _, _,
      ready0 (lifeDev 0x4C430002#32 []) ⟨rfl, rfl⟩, rfl, .tail _ (.head _), by decide +kernel⟩
  · exact ⟨at0 (lifeDev 0x4C430004#32 [(F.RT_STATUS_LC, 2)]), (lifeDev 0x4C430004#32 [(F.RT_STATUS_LC, 2)]).now,
      (lifeDev 0x4C430004#32 [(F.RT_STATUS_LC, 2)]), .loader, _, _, _, _,
      ready0 (lifeDev 0x4C430004#32 [(F.RT_STATUS_LC, 2)]) ⟨rfl, rfl⟩, rfl, rfl, .tail _ (.tail _ (.tail _ (.head _))),
      by decide +kernel⟩
  · exact ⟨at0 ({ base with root := { cmd := some (1, 0) } }), ({ base with root := { cmd := some (1, 0) } }).now, 1, 0, _,
      ({ base with root := { cmd := some (1, 0) } }), _, _, awake0 ({ base with root := { cmd := some (1, 0) } }) rfl, rfl, rfl,
      .inr (.inl ⟨rfl, rfl, rfl⟩), by decide +kernel⟩
  · exact ⟨at0 base, base.now, base, _, awake0 base rfl, rfl, by decide +kernel⟩

theorem witness_entropy_commands_complete :
    (∃ (s : State) (t : Nat) (d g : Dev) (bits : List Bool) (r : RawTests × Nat × Nat), s.awake t d ∧
      r = d.root.tests.bits bits ∧ g = d.countTests bits r ∧ d.estate = 0 ∧ r.1.good < 4096) ∧
    (∃ (s : State) (t : Nat) (d g : Dev) (bits : List Bool) (r : RawTests × Nat × Nat), s.awake t d ∧ g = d.countTests bits r ∧
      r = d.root.tests.bits bits ∧ d.estate = 0 ∧ 4096 ≤ r.1.good) ∧
    (∃ (s : State) (t : Nat) (d : Dev), s.awake t d ∧ d.estate ≠ 0) ∧
    (∃ (s : State) (t : Nat) (d g : Dev) (bits : List Bool) (r : RawTests × Nat × Nat), s.awake t d ∧
      r = d.root.tests.bits bits ∧ g = d.countTests bits r ∧ g.estate = 1 ∧ 0 < r.2.1 + r.2.2) ∧
    (∃ (s : State) (t : Nat) (d g : Dev) (bits : List Bool) (r : RawTests × Nat × Nat), s.awake t d ∧
      r = d.root.tests.bits bits ∧ g = d.countTests bits r ∧ (g.estate ≠ 1 ∨ r.2.1 + r.2.2 = 0)) ∧
    (∃ (s : State) (t : Nat) (d g : Dev) (bits : List Bool) (r : RawTests × Nat × Nat), s.awake t d ∧
      r = ({} : RawTests).bits bits ∧ g = d.countTests bits r ∧ d.estate = 2 ∧ 0 < r.2.1 + r.2.2) ∧
    (∃ (s : State) (t : Nat) (d g : Dev) (bits : List Bool) (r : RawTests × Nat × Nat), s.awake t d ∧
      r = ({} : RawTests).bits bits ∧ g = d.countTests bits r ∧ d.estate = 2 ∧ r.2.1 + r.2.2 = 0 ∧ r.1.good < 4096) ∧
    (∃ (s : State) (t : Nat) (d g : Dev) (bits : List Bool) (r : RawTests × Nat × Nat), s.awake t d ∧ g = d.countTests bits r ∧
      r = ({} : RawTests).bits bits ∧ g.root.passes < 2 ∧ d.estate = 2 ∧ r.2.1 + r.2.2 = 0 ∧ 4096 ≤ r.1.good) ∧
    (∃ (s : State) (t : Nat) (d g : Dev) (bits : List Bool) (r : RawTests × Nat × Nat), s.awake t d ∧ g = d.countTests bits r ∧
      r = ({} : RawTests).bits bits ∧ 2 ≤ g.root.passes ∧ d.estate = 2 ∧ r.2.1 + r.2.2 = 0 ∧ 4096 ≤ r.1.good) ∧
    (∃ (s : State) (t : Nat) (d : Dev), s.awake t d ∧ d.estate = 0 ∧ d.rstate = 0 ∧ d.loader.released + 1000000000 ≤ d.now) ∧
    (∃ (s : State) (t : Nat) (d : Dev), ∃ x, s.awake t d ∧ d.estate = 1 ∧ d.root.drbg = some x ∧
      (2 ^ 20 ≤ d.root.generates ∨ d.root.seeded + 10000000000 ≤ d.now)) := by
  refine ⟨?_, ?_, ?_, ?_, ?_, ?_, ?_, ?_, ?_, ?_, ?_⟩
  · exact ⟨at0 (entDev 0 {} []), (entDev 0 {} []).now, (entDev 0 {} []), _, stuckBits, _, awake0 (entDev 0 {} []) rfl, rfl, rfl,
      by decide +kernel⟩
  · exact ⟨at0 (entDev 0 {} []), (entDev 0 {} []).now, (entDev 0 {} []), _, goodBits, (testsAfter 2047, 0, 0),
      awake0 (entDev 0 {} []) rfl, rfl, good_bits.symm, by decide +kernel⟩
  · exact ⟨at0 (entDev 1 {} []), (entDev 1 {} []).now, (entDev 1 {} []), awake0 (entDev 1 {} []) rfl, by decide +kernel⟩
  · exact ⟨at0 (entDev 1 {} []), (entDev 1 {} []).now, (entDev 1 {} []), _, stuckBits, _, awake0 (entDev 1 {} []) rfl, rfl, rfl,
      by decide +kernel⟩
  · exact ⟨at0 (entDev 1 {} []), (entDev 1 {} []).now, (entDev 1 {} []), _, [true, false], _, awake0 (entDev 1 {} []) rfl, rfl,
      rfl, by decide +kernel⟩
  · exact ⟨at0 (entDev 2 {} []), (entDev 2 {} []).now, (entDev 2 {} []), _, stuckBits, _, awake0 (entDev 2 {} []) rfl, rfl, rfl,
      by decide +kernel⟩
  · exact ⟨at0 (entDev 2 {} []), (entDev 2 {} []).now, (entDev 2 {} []), _, [true, false], _, awake0 (entDev 2 {} []) rfl, rfl,
      rfl, by decide +kernel⟩
  · exact ⟨at0 (entDev 2 {} []), (entDev 2 {} []).now, (entDev 2 {} []), _, goodBits, (testsAfter 2047, 0, 0),
      awake0 (entDev 2 {} []) rfl, rfl, good_bits.symm, (by decide +kernel : (entDev 2 {} []).root.passes < 2),
      by decide +kernel⟩
  · exact ⟨at0 (entDev 2 { passes := 2 } []), (entDev 2 { passes := 2 } []).now, (entDev 2 { passes := 2 } []), _, goodBits,
      (testsAfter 2047, 0, 0), awake0 (entDev 2 { passes := 2 } []) rfl, rfl, good_bits.symm,
      (by decide +kernel : 2 ≤ (entDev 2 { passes := 2 } []).root.passes), by decide +kernel⟩
  · exact ⟨at0 (entDev 0 {} []), (entDev 0 {} []).now, (entDev 0 {} []), awake0 (entDev 0 {} []) rfl, by decide +kernel⟩
  · exact ⟨at0 (entDev 1 { drbg := some {} } []), (entDev 1 { drbg := some {} } []).now, (entDev 1 { drbg := some {} } []), {},
      awake0 (entDev 1 { drbg := some {} } []) rfl, by decide +kernel⟩

theorem witness_alarm_commands_complete :
    (∃ (s : State) (t : Nat) (d : Dev) (alm : Dev → Nat → Dev) (new : Dev → Dev → Dev), s.awake t d ∧
      alm = (fun e src => if e.almEnabled src = false then e else if e.almErases src = true then e.eraseAlarm src else
        ((e.wr ⟨A.ALM_SRC, 16 + src, 1⟩ 1).countAlarm).notice { cls := 3, code := src }) ∧
      new = (fun e f => (List.range 4).foldl (fun x i => if f.tampActive i = true ∧ e.tampActive i = false then alm x i else x)
        f) ∧ d.root.armed = true) ∧
    (∃ (s : State) (t : Nat) (d : Dev) (alm : Dev → Nat → Dev) (new : Dev → Dev → Dev), s.awake t d ∧
      alm = (fun e src => if e.almEnabled src = false then e else if e.almErases src = true then e.eraseAlarm src else
        ((e.wr ⟨A.ALM_SRC, 16 + src, 1⟩ 1).countAlarm).notice { cls := 3, code := src }) ∧
      new = (fun e f => (List.range 4).foldl (fun x i => if f.tampActive i = true ∧ e.tampActive i = false then alm x i else x)
        f) ∧ d.root.armed = false) ∧
    (∃ (s : State) (t : Nat) (d : Dev) (alm : Dev → Nat → Dev) (new : Dev → Dev → Dev), ∃ g h x, s.awake t d ∧
      alm = (fun e src => if e.almEnabled src = false then e else if e.almErases src = true then e.eraseAlarm src else
        ((e.wr ⟨A.ALM_SRC, 16 + src, 1⟩ 1).countAlarm).notice { cls := 3, code := src }) ∧
      new = (fun e f => (List.range 4).foldl (fun x i => if f.tampActive i = true ∧ e.tampActive i = false then alm x i else x)
        f) ∧ g = { d with mains := { d.mains with refclk := false } } ∧
      h = (if g.mst = mtLOCKED ∨ g.mst = mtSLEW then g.mainsHold else g) ∧ x =
        (if h.almEnabled almCLOCK = true ∧ h.almErases almCLOCK = true then [70, 71, 78].foldl
        (fun z n => if z.domOn n then z.domainOff n else z) h else h) ∧ d.mains.refclk = true) ∧
    (∃ (s : State) (t : Nat) (d : Dev) (alm : Dev → Nat → Dev) (new : Dev → Dev → Dev), s.awake t d ∧
      alm = (fun e src => if e.almEnabled src = false then e else if e.almErases src = true then e.eraseAlarm src else
        ((e.wr ⟨A.ALM_SRC, 16 + src, 1⟩ 1).countAlarm).notice { cls := 3, code := src }) ∧
      new = (fun e f => (List.range 4).foldl (fun x i => if f.tampActive i = true ∧ e.tampActive i = false then alm x i else x)
        f) ∧ d.mains.refclk = false) ∧
    (∃ (s : State) (t : Nat) (d : Dev) (alm : Dev → Nat → Dev) (new : Dev → Dev → Dev), s.awake t d ∧
      alm = (fun e src => if e.almEnabled src = false then e else if e.almErases src = true then e.eraseAlarm src else
        ((e.wr ⟨A.ALM_SRC, 16 + src, 1⟩ 1).countAlarm).notice { cls := 3, code := src }) ∧
      new = (fun e f => (List.range 4).foldl (fun x i => if f.tampActive i = true ∧ e.tampActive i = false then alm x i else x)
        f) ∧ d.lc = 1 ∧ (d.root.keyed = true ∨ d.root.identity = true)) ∧
    (∃ (s : State) (t : Nat) (d : Dev) (alm : Dev → Nat → Dev) (new : Dev → Dev → Dev), s.awake t d ∧
      alm = (fun e src => if e.almEnabled src = false then e else if e.almErases src = true then e.eraseAlarm src else
        ((e.wr ⟨A.ALM_SRC, 16 + src, 1⟩ 1).countAlarm).notice { cls := 3, code := src }) ∧
      new = (fun e f => (List.range 4).foldl (fun x i => if f.tampActive i = true ∧ e.tampActive i = false then alm x i else x)
        f) ∧ (d.lc ≠ 1 ∨ (d.root.keyed = false ∧ d.root.identity = false))) ∧
    (∃ (s : State) (t : Nat) (d : Dev) (alm : Dev → Nat → Dev) (new : Dev → Dev → Dev), s.awake t d ∧
      alm = (fun e src => if e.almEnabled src = false then e else if e.almErases src = true then e.eraseAlarm src else
        ((e.wr ⟨A.ALM_SRC, 16 + src, 1⟩ 1).countAlarm).notice { cls := 3, code := src }) ∧
      new = (fun e f => (List.range 4).foldl (fun x i => if f.tampActive i = true ∧ e.tampActive i = false then alm x i else x)
        f) ∧ s.dev.mains.refclk = true ∧ d.on F.ALM_CFG_ALMLOCK = true) ∧
    (∃ (s : State) (t : Nat) (d : Dev) (alm : Dev → Nat → Dev) (new : Dev → Dev → Dev), s.awake t d ∧
      alm = (fun e src => if e.almEnabled src = false then e else if e.almErases src = true then e.eraseAlarm src else
        ((e.wr ⟨A.ALM_SRC, 16 + src, 1⟩ 1).countAlarm).notice { cls := 3, code := src }) ∧
      new = (fun e f => (List.range 4).foldl (fun x i => if f.tampActive i = true ∧ e.tampActive i = false then alm x i else x)
        f) ∧ s.dev.mains.refclk = true ∧ d.on F.ALM_CFG_ALMLOCK = false) ∧
    (∃ (s : State) (t : Nat) (d : Dev) (alm : Dev → Nat → Dev) (new : Dev → Dev → Dev), s.awake t d ∧
      alm = (fun e src => if e.almEnabled src = false then e else if e.almErases src = true then e.eraseAlarm src else
        ((e.wr ⟨A.ALM_SRC, 16 + src, 1⟩ 1).countAlarm).notice { cls := 3, code := src }) ∧
      new = (fun e f => (List.range 4).foldl (fun x i => if f.tampActive i = true ∧ e.tampActive i = false then alm x i else x)
        f)) := by
  refine ⟨?_, ?_, ?_, ?_, ?_, ?_, ?_, ?_, ?_⟩
  · exact ⟨at0 ({ base with root := { armed := true } }), ({ base with root := { armed := true } }).now,
      ({ base with root := { armed := true } }), _, _, awake0 ({ base with root := { armed := true } }) rfl, rfl, rfl,
      by decide +kernel⟩
  · exact ⟨at0 base, base.now, base, _, _, awake0 base rfl, rfl, rfl, by decide +kernel⟩
  · exact ⟨at0 timed, timed.now, timed, _, _, _, _, _, awake0 timed rfl, rfl, rfl, rfl, rfl, rfl, by decide +kernel⟩
  · exact ⟨at0 noClk, noClk.now, noClk, _, _, awake0 noClk rfl, rfl, rfl, by decide +kernel⟩
  · exact ⟨at0 ({ base with root := { keyed := true } }), ({ base with root := { keyed := true } }).now,
      ({ base with root := { keyed := true } }), _, _, awake0 ({ base with root := { keyed := true } }) rfl, rfl, rfl,
      by decide +kernel⟩
  · exact ⟨at0 (fill base [(F.RT_STATUS_LC, 2)]), (fill base [(F.RT_STATUS_LC, 2)]).now, (fill base [(F.RT_STATUS_LC, 2)]), _,
      _, awake0 (fill base [(F.RT_STATUS_LC, 2)]) rfl, rfl, rfl, by decide +kernel⟩
  · exact ⟨at0 (fill base [(F.ALM_CFG_ALMLOCK, 1)]), (fill base [(F.ALM_CFG_ALMLOCK, 1)]).now,
      (fill base [(F.ALM_CFG_ALMLOCK, 1)]), _, _, awake0 (fill base [(F.ALM_CFG_ALMLOCK, 1)]) rfl, rfl, rfl, by decide +kernel⟩
  · exact ⟨at0 base, base.now, base, _, _, awake0 base rfl, rfl, rfl, by decide +kernel⟩
  · exact ⟨at0 base, base.now, base, _, _, awake0 base rfl, rfl, rfl⟩

theorem witness_startup_commands_complete :
    (∃ (s : State) (t : Nat) (d : Dev) (g : Dev), s.awake t d ∧ g = d.moduleReset) ∧
    (∃ (s : State) (t : Nat) (d : Dev), s.at_ t = d ∧ d.inReset = false ∧ d.loading 0 = false) ∧
    (∃ (s : State) (t : Nat) (d g h : Dev), g = ({ d with inReset := false } : Dev).modLd
      (fun l => { l with released := d.now, lands := true }) ∧ s.at_ t = d ∧
      (g.root.otp.bad = false → g.lc ≠ 3 ∧
        h = (({ g with root := { g.root with armed := true } } : Dev).wr F.LD_STATUS_LSTATE 1).enqueue [76] ∨ g.lc = 3 ∧
        h = g.enterRecovery) ∧ (g.root.otp.bad = true → h = (g.cause causePARITY { ao := true }).enterRecovery) ∧
      (d.inReset = true ∨ d.loading 0 = true)) ∧
    (∃ (s : State) (t : Nat) (d : Dev) (g : Dev) (mode : Fin 4) (dens : Fin 64) (mhz : Fin 256), s.ready t d ∧
      g = ((d.wr F.LD_FLASH_FMODE mode.val).wr F.LD_FLASH_DENS dens.val).wr F.LD_FLASH_FLMHZ (min 100 mhz.val) ∧
      d.loading 1 = true ∧ mode.val ≤ 1) ∧
    (∃ (s : State) (t : Nat) (d g h : Dev) (mode : Fin 4) (dens : Fin 64) (mhz : Fin 256) (a b : List Byte), s.ready t d ∧
      g = ((d.wr F.LD_FLASH_FMODE mode.val).wr F.LD_FLASH_DENS dens.val).wr F.LD_FLASH_FLMHZ (min 100 mhz.val) ∧
      h = g.modLd (fun l => { l with hdrA := some (readHeader a), hdrB := some (readHeader b) }) ∧ d.loading 1 = true ∧
      1 < mode.val ∧ h.pickSlot = none) ∧
    (∃ (s : State) (t : Nat) (d g h : Dev) (mode : Fin 4) (dens : Fin 64) (mhz : Fin 256) (a b : List Byte), ∃ slotB hd y,
      s.ready t d ∧ g = ((d.wr F.LD_FLASH_FMODE mode.val).wr F.LD_FLASH_DENS dens.val).wr F.LD_FLASH_FLMHZ (min 100 mhz.val) ∧
      h = g.modLd (fun l => { l with hdrA := some (readHeader a), hdrB := some (readHeader b) }) ∧
      y = (h.wr F.LD_STATUS_SLOT (if slotB then 1 else 0)).modLd
        (fun l => { l with triedA := l.triedA || !slotB, triedB := l.triedB || slotB }) ∧ d.loading 1 = true ∧ 1 < mode.val ∧
      h.pickSlot = some (slotB, hd) ∧ hd.ilen ≤ y.slotOctets) ∧
    (∃ (s : State) (t : Nat) (d g h : Dev) (mode : Fin 4) (dens : Fin 64) (mhz : Fin 256) (a b : List Byte), ∃ slotB hd y,
      s.ready t d ∧ g = ((d.wr F.LD_FLASH_FMODE mode.val).wr F.LD_FLASH_DENS dens.val).wr F.LD_FLASH_FLMHZ (min 100 mhz.val) ∧
      h = g.modLd (fun l => { l with hdrA := some (readHeader a), hdrB := some (readHeader b) }) ∧
      y = (h.wr F.LD_STATUS_SLOT (if slotB then 1 else 0)).modLd
        (fun l => { l with triedA := l.triedA || !slotB, triedB := l.triedB || slotB }) ∧ d.loading 1 = true ∧ 1 < mode.val ∧
      h.pickSlot = some (slotB, hd) ∧ y.slotOctets < hd.ilen) ∧
    (∃ (s : State) (t : Nat) (d : Dev), s.ready t d ∧ d.loading 2 = true ∧ d.domOn 76 = true) ∧
    (∃ (s : State) (t : Nat) (d : Dev), s.ready t d ∧ d.loading 2 = true ∧ d.domOn 76 = true) ∧
    (∃ (s : State) (t : Nat) (d g : Dev) (img : Image), s.ready t d ∧ g = d.acceptImage img ∧ d.loading 3 = true ∧
      d.loader.image = some img) ∧
    (∃ (s : State) (t : Nat) (d : Dev), s.ready t d ∧ d.rstate = 1 ∧ d.lstate = 6 ∧ d.loader.serving = false ∧
      (d.mst = mtLOCKED ∨ d.mst = mtSLEW)) ∧
    (∃ (s : State) (t : Nat) (d : Dev), s.ready t d ∧ d.rstate = 1 ∧ d.lstate = 6 ∧ d.loader.serving = false ∧
      d.mst ≠ mtLOCKED ∧ d.mst ≠ mtSLEW ∧ d.loader.since + 1000000000 * d.loader.svcwait ≤ d.now) := by
  refine ⟨?_, ?_, ?_, ?_, ?_, ?_, ?_, ?_, ?_, ?_, ?_, ?_⟩
  · exact ⟨at0 timed, timed.now, timed, _, awake0 timed rfl, rfl⟩
  · exact ⟨at0 (loadDev 1 {}), (loadDev 1 {}).now, (loadDev 1 {}), at_at0 _, by decide +kernel⟩
  · exact ⟨at0 ({ base with inReset := true }), ({ base with inReset := true }).now, ({ base with inReset := true }), _, _, rfl,
      at_at0 _, (fun _ => .inl ⟨by decide +kernel, rfl⟩), (fun h => nomatch h), by decide +kernel⟩
  · exact ⟨at0 (loadDev 1 {}), (loadDev 1 {}).now, (loadDev 1 {}), _, 1, 20, 255, ready0 (loadDev 1 {}) ⟨rfl, rfl⟩, rfl,
      by decide +kernel⟩
  · exact ⟨at0 (loadDev 1 {}), (loadDev 1 {}).now, (loadDev 1 {}), _, _, 2, 20, 255, [], [], ready0 (loadDev 1 {}) ⟨rfl, rfl⟩,
      rfl, rfl, by decide +kernel⟩
  · exact ⟨at0 (loadDev 1 {}), (loadDev 1 {}).now, (loadDev 1 {}), _, _, 2, 20, 255, slotOct, [], false, slotHd, _,
      ready0 (loadDev 1 {}) ⟨rfl, rfl⟩, rfl, rfl, rfl, by decide +kernel⟩
  · exact ⟨at0 (loadDev 1 {}), (loadDev 1 {}).now, (loadDev 1 {}), _, _, 2, 8, 255, slotOct, [], false, slotHd, _,
      ready0 (loadDev 1 {}) ⟨rfl, rfl⟩, rfl, rfl, rfl, by decide +kernel⟩
  · exact ⟨at0 (loadDev 2 {}), (loadDev 2 {}).now, (loadDev 2 {}), ready0 (loadDev 2 {}) ⟨rfl, rfl⟩, by decide +kernel⟩
  · exact ⟨at0 (loadDev 2 {}), (loadDev 2 {}).now, (loadDev 2 {}), ready0 (loadDev 2 {}) ⟨rfl, rfl⟩, by decide +kernel⟩
  · exact ⟨at0 (loadDev 3 { image := some anImage }), (loadDev 3 { image := some anImage }).now,
      (loadDev 3 { image := some anImage }), _, anImage, ready0 (loadDev 3 { image := some anImage }) ⟨rfl, rfl⟩, rfl,
      by decide +kernel⟩
  · exact ⟨at0 (applied []), (applied []).now, (applied []), ready0 (applied []) ⟨rfl, rfl⟩, by decide +kernel⟩
  · exact ⟨at0 { applied [(F.MT_STATUS_STATE, 1)] with now := 1000000000 },
      { applied [(F.MT_STATUS_STATE, 1)] with now := 1000000000 }.now,
      { applied [(F.MT_STATUS_STATE, 1)] with now := 1000000000 },
      ready0 { applied [(F.MT_STATUS_STATE, 1)] with now := 1000000000 } ⟨rfl, rfl⟩, by decide +kernel⟩

theorem witness_register_writes_complete :
    (∃ (s : State) (t : Nat) (d : Dev) (w : Writer), s.ready t d ∧ d.principal w = none) ∧
    (∃ (s : State) (t : Nat) (d : Dev) (w : Writer) (a : Nat), ∃ p n all g, s.ready t d ∧
      g = { d with hold64 := Tab.del d.hold64 p } ∧ d.principal w = some (p, n, all) ∧
      (all = false ∨ (p ≠ 17 ∧ g.lapseLock.holder ≠ n)) ∧ (p ≠ 16 ∨ a ≠ A.ADMIN_LOCK) ∧ (16 ≤ p ∨ pageReach p a true = false)) ∧
    (∃ (s : State) (t : Nat) (d : Dev) (w : Writer), ∃ p n all g, s.ready t d ∧ g = { d with hold64 := Tab.del d.hold64 p } ∧
      d.principal w = some (p, n, all) ∧ (all = false ∨ (p ≠ 17 ∧ g.lapseLock.holder ≠ n)) ∧
      (16 ≤ p ∨ pageReach p A.MT_CFG true = false)) ∧
    (∃ (s : State) (t : Nat) (d : Dev) (w : Writer) (a : Nat), ∃ p n all g, s.ready t d ∧
      g = { d with hold64 := Tab.del d.hold64 p } ∧ d.principal w = some (p, n, all) ∧
      ((all = true ∧ (p = 17 ∨ g.lapseLock.holder = n)) ∨ (p = 16 ∧ a = A.ADMIN_LOCK) ∨ (p < 16 ∧ pageReach p a true = true)) ∧
      rowAt a = none) ∧
    (∃ (s : State) (t : Nat) (d : Dev) (w : Writer) (a : Nat), ∃ p n all g r, s.ready t d ∧
      g = { d with hold64 := Tab.del d.hold64 p } ∧ d.principal w = some (p, n, all) ∧
      ((all = true ∧ (p = 17 ∨ g.lapseLock.holder = n)) ∨ (p = 16 ∧ a = A.ADMIN_LOCK) ∨ (p < 16 ∧ pageReach p a true = true)) ∧
      rowAt a = some r ∧ g.domOn (regDomain a) = false) ∧
    (∃ (s : State) (t : Nat) (d : Dev) (w : Writer) (a : Nat), ∃ p n all g r, s.ready t d ∧
      g = { d with hold64 := Tab.del d.hold64 p } ∧ d.principal w = some (p, n, all) ∧
      ((all = true ∧ (p = 17 ∨ g.lapseLock.holder = n)) ∨ (p = 16 ∧ a = A.ADMIN_LOCK) ∨ (p < 16 ∧ pageReach p a true = true)) ∧
      rowAt a = some r ∧ g.domOn (regDomain a) = true ∧ blkHb ≤ a ∧ a < blkRt) ∧
    (∃ (s : State) (t : Nat) (d : Dev) (w : Writer) (v : Word32), ∃ p n all g, ∃ (keep x new : Word32) (h : Dev), s.ready t d ∧
      g = { d with hold64 := Tab.del d.hold64 p } ∧ all = true ∧
      keep = (if g.on F.MT_CFG_EN then BitVec.ofNat 32 (mtProtected + (if g.anyChOn then 1 else 0)) else 0) ∧
      x = v &&& 0xF77F#32 ∧ new = (x &&& ~~~keep) ||| (g.word A.MT_CFG &&& keep) ∧
      h = (if new = x then g.setWord A.MT_CFG new else (g.setWord A.MT_CFG new).raise F.MT_STATUS_CFGREJ) ∧
      d.principal w = some (p, n, all) ∧ (p = 17 ∨ g.lapseLock.holder = n) ∧ g.domOn 79 = true) := by
  refine ⟨?_, ?_, ?_, ?_, ?_, ?_, ?_⟩
  · exact ⟨at0 base, base.now, base, (.session 9), ready0 base ⟨rfl, rfl⟩, by decide +kernel⟩
  · exact ⟨at0 base, base.now, base, (.v1 16), A.MT_CFG, 16, 0, false, _, ready0 base ⟨rfl, rfl⟩, rfl, by decide +kernel⟩
  · exact ⟨at0 base, base.now, base, (.v1 3), 3, 0, false, _, ready0 base ⟨rfl, rfl⟩, rfl, by decide +kernel⟩
  · exact ⟨at0 base, base.now, base, .loader, 0x0035071C, 17, 0, true, _, ready0 base ⟨rfl, rfl⟩, rfl, by decide +kernel⟩
  · exact ⟨at0 base, base.now, base, .loader, (A.SC_STATUS 2), 17, 0, true, _, ((rowAt (A.SC_STATUS 2)).get range_row),
      ready0 base ⟨rfl, rfl⟩, rfl, by decide +kernel⟩
  · exact ⟨at0 base, base.now, base, .loader, A.HBM_ERRLOC, 17, 0, true, _, ((rowAt A.HBM_ERRLOC).get hbm_row),
      ready0 base ⟨rfl, rfl⟩, rfl, by decide +kernel⟩
  · exact ⟨at0 base, base.now, base, .loader, 0xFFFFFFFF, 17, 0, _, _, _, _, _, _, ready0 base ⟨rfl, rfl⟩, rfl, rfl, rfl, rfl,
      rfl, rfl, by decide +kernel⟩

theorem witness_scrub_commands_complete :
    (∃ (s : State) (t : Nat) (d e g h : Dev) (twice : List Nat), s.ready t d ∧ twice = d.orphans.filter d.suspects.contains ∧
      e = { d.zeroCells twice with suspects := d.orphans.filter (fun c => !twice.contains c) } ∧
      g = (if twice = [] then e else e.inc F.FT_CNT_ORPHANS twice.length) ∧
      h = g.badParity.foldl Dev.foundBad (g.wr F.FT_STAT_SCRUBOFF (if g.domOn 78 then 0 else 1)) ∧ d.domOn 76 = true ∧
      d.scrubFrom + d.scrubNs ≤ d.now) ∧
    (∃ (s : State) (t a : Nat) (d : Dev) (l : List Nat), s.ready t d ∧ l = a :: d.badParity.filter (fun b => b ≠ a) ∧
      d.domOn 76 = true ∧ 0x800000 ≤ a ∧ a % 4 = 0 ∧ a < 0x1800000 ∧ d.overwritten a = true) ∧
    (∃ (s : State) (t a : Nat) (d : Dev) (l : List Nat), s.ready t d ∧ l = a :: d.badParity.filter (fun b => b ≠ a) ∧
      d.domOn 76 = true ∧ 0x800000 ≤ a ∧ a % 4 = 0 ∧ d.overwritten a = false ∧ a < 0x1000000 ∧ d.domOn 78 = true ∧
      d.copyBad.contains a = false) ∧
    (∃ (s : State) (t a : Nat) (d : Dev) (l : List Nat), s.ready t d ∧ l = a :: d.badParity.filter (fun b => b ≠ a) ∧
      d.domOn 76 = true ∧ 0x800000 ≤ a ∧ a % 4 = 0 ∧ d.overwritten a = false ∧ 0x1000000 ≤ a ∧ a < 0x1800000 ∧
      d.domOn 78 = true ∧ a / 4 % 16 < 14 ∧ d.copyBad.contains a = false) ∧
    (∃ (s : State) (t a : Nat) (d : Dev) (l : List Nat), s.ready t d ∧ l = a :: d.badParity.filter (fun b => b ≠ a) ∧
      d.domOn 76 = true ∧ 0x800000 ≤ a ∧ a % 4 = 0 ∧ d.overwritten a = false ∧ 0x1000000 ≤ a ∧ a < 0x1800000 ∧
      d.domOn 78 = true ∧ 14 ≤ a / 4 % 16) ∧
    (∃ (s : State) (t a : Nat) (d : Dev) (l : List Nat), s.ready t d ∧ l = a :: d.badParity.filter (fun b => b ≠ a) ∧
      d.domOn 76 = true ∧ 0x800000 ≤ a ∧ a % 4 = 0 ∧ d.overwritten a = false ∧ a < 0x1800000 ∧ d.domOn 78 = true ∧
      (a < 0x1000000 ∨ a / 4 % 16 < 14) ∧ d.copyBad.contains a = true) ∧
    (∃ (s : State) (t a : Nat) (d : Dev) (l : List Nat), s.ready t d ∧ l = a :: d.badParity.filter (fun b => b ≠ a) ∧
      d.domOn 76 = true ∧ 0x800000 ≤ a ∧ a % 4 = 0 ∧ d.overwritten a = false ∧ a < 0x1800000 ∧ d.domOn 78 = false) ∧
    (∃ (s : State) (t block i k : Nat) (d g : Dev), s.ready t d ∧
      g = ((d.inc F.FT_CNT2_HBMUE).wr F.HBM_ERRLOC_BLOCK block).wr F.HBM_ERRLOC_ERRV 1 ∧ i = block - 8388608 ∧
      k = (i - 4096) / 3 ∧ d.domOn 78 = true ∧ block < 12582912 ∧ block < 8388608 ∧ g.ilChan block = none) ∧
    (∃ (s : State) (t block i k : Nat) (d g : Dev), ∃ c, s.ready t d ∧
      g = ((d.inc F.FT_CNT2_HBMUE).wr F.HBM_ERRLOC_BLOCK block).wr F.HBM_ERRLOC_ERRV 1 ∧ i = block - 8388608 ∧
      k = (i - 4096) / 3 ∧ d.domOn 78 = true ∧ block < 12582912 ∧ block < 8388608 ∧ g.ilChan block = some c) ∧
    (∃ (s : State) (t block i k : Nat) (d g : Dev), s.ready t d ∧
      g = ((d.inc F.FT_CNT2_HBMUE).wr F.HBM_ERRLOC_BLOCK block).wr F.HBM_ERRLOC_ERRV 1 ∧ i = block - 8388608 ∧
      k = (i - 4096) / 3 ∧ d.domOn 78 = true ∧ block < 12582912 ∧ 8388608 ≤ block ∧ i < 4096) ∧
    (∃ (s : State) (t block i k : Nat) (d g : Dev), s.ready t d ∧
      g = ((d.inc F.FT_CNT2_HBMUE).wr F.HBM_ERRLOC_BLOCK block).wr F.HBM_ERRLOC_ERRV 1 ∧ i = block - 8388608 ∧
      k = (i - 4096) / 3 ∧ d.domOn 78 = true ∧ block < 12582912 ∧ 8388608 ≤ block ∧ 4096 ≤ i ∧ i < 4288) ∧
    (∃ (s : State) (t block i k : Nat) (w : Fin 256) (d g : Dev), ∃ a, s.ready t d ∧
      g = ((d.inc F.FT_CNT2_HBMUE).wr F.HBM_ERRLOC_BLOCK block).wr F.HBM_ERRLOC_ERRV 1 ∧ i = block - 8388608 ∧
      k = (i - 4096) / 3 ∧ a = 0x800000 + (i - 4288) * 4096 + 16 * w.val ∧ d.domOn 78 = true ∧ block < 12582912 ∧
      8388608 ≤ block ∧ 4288 ≤ i ∧ i < 8384) ∧
    (∃ (s : State) (t block i k : Nat) (d g : Dev), ∃ q, s.ready t d ∧
      g = ((d.inc F.FT_CNT2_HBMUE).wr F.HBM_ERRLOC_BLOCK block).wr F.HBM_ERRLOC_ERRV 1 ∧ i = block - 8388608 ∧
      k = (i - 4096) / 3 ∧ d.domOn 78 = true ∧ block < 12582912 ∧ 8388608 ≤ block ∧ 8384 ≤ i ∧ g.ringOf i = some q) ∧
    (∃ (s : State) (t block i k : Nat) (d g : Dev), s.ready t d ∧
      g = ((d.inc F.FT_CNT2_HBMUE).wr F.HBM_ERRLOC_BLOCK block).wr F.HBM_ERRLOC_ERRV 1 ∧ i = block - 8388608 ∧
      k = (i - 4096) / 3 ∧ d.domOn 78 = true ∧ block < 12582912 ∧ 8388608 ≤ block ∧ 8384 ≤ i ∧ g.ringOf i = none) := by
  refine ⟨?_, ?_, ?_, ?_, ?_, ?_, ?_, ?_, ?_, ?_, ?_, ?_, ?_, ?_⟩
  · exact ⟨at0 ({ base with now := 100000000000, badParity := [0x800000] }),
      ({ base with now := 100000000000, badParity := [0x800000] }).now,
      ({ base with now := 100000000000, badParity := [0x800000] }), _, _, _, _,
      ready0 ({ base with now := 100000000000, badParity := [0x800000] }) ⟨rfl, rfl⟩, rfl, rfl, rfl, rfl, by decide +kernel⟩
  · exact ⟨at0 ({ base with committed := (base.cclk, [(0, [])]) }), ({ base with committed := (base.cclk, [(0, [])]) }).now,
      0x100003C, ({ base with committed := (base.cclk, [(0, [])]) }), _,
      ready0 ({ base with committed := (base.cclk, [(0, [])]) }) ⟨rfl, rfl⟩, rfl, by decide +kernel⟩
  · exact ⟨at0 base, base.now, 0xFFFFFC, base, _, ready0 base ⟨rfl, rfl⟩, rfl, by decide +kernel⟩
  · exact ⟨at0 base, base.now, 0x1000034, base, _, ready0 base ⟨rfl, rfl⟩, rfl, by decide +kernel⟩
  · exact ⟨at0 base, base.now, 0x17FFFFC, base, _, ready0 base ⟨rfl, rfl⟩, rfl, by decide +kernel⟩
  · exact ⟨at0 ({ base with copyBad := [0x800000] }), ({ base with copyBad := [0x800000] }).now, 0x800000,
      ({ base with copyBad := [0x800000] }), _, ready0 ({ base with copyBad := [0x800000] }) ⟨rfl, rfl⟩, rfl, by decide +kernel⟩
  · exact ⟨at0 onlyHbmOff, onlyHbmOff.now, 0x17FFFFC, onlyHbmOff, _, ready0 onlyHbmOff ⟨rfl, rfl⟩, rfl, by decide +kernel⟩
  · exact ⟨at0 base, base.now, 8388607, _, _, base, _, ready0 base ⟨rfl, rfl⟩, rfl, rfl, rfl, by decide +kernel⟩
  · exact ⟨at0 ((headed.wr (F.FR_ILBASE_ILBASE 0) 2).wr (F.FR_ILMEM_ILMEM 0) 1),
      ((headed.wr (F.FR_ILBASE_ILBASE 0) 2).wr (F.FR_ILMEM_ILMEM 0) 1).now, 767, _, _,
      ((headed.wr (F.FR_ILBASE_ILBASE 0) 2).wr (F.FR_ILMEM_ILMEM 0) 1), _, 0,
      ready0 ((headed.wr (F.FR_ILBASE_ILBASE 0) 2).wr (F.FR_ILMEM_ILMEM 0) 1) ⟨rfl, rfl⟩, rfl, rfl, rfl, by decide +kernel⟩
  · exact ⟨at0 base, base.now, 8388608, _, _, base, _, ready0 base ⟨rfl, rfl⟩, rfl, rfl, rfl, by decide +kernel⟩
  · exact ⟨at0 base, base.now, 8392704, _, _, base, _, ready0 base ⟨rfl, rfl⟩, rfl, rfl, rfl, by decide +kernel⟩
  · exact ⟨at0 base, base.now, 8396991, _, _, 3, base, _, _, ready0 base ⟨rfl, rfl⟩, rfl, rfl, rfl, rfl, by decide +kernel⟩
  · exact ⟨at0 (queueDev {} { full := 2 } [(F.QD_BASE_DBASE 0, 8384)]),
      (queueDev {} { full := 2 } [(F.QD_BASE_DBASE 0, 8384)]).now, 8396992, _, _,
      (queueDev {} { full := 2 } [(F.QD_BASE_DBASE 0, 8384)]), _, 0,
      ready0 (queueDev {} { full := 2 } [(F.QD_BASE_DBASE 0, 8384)]) ⟨rfl, rfl⟩, rfl, rfl, rfl, by decide +kernel⟩
  · exact ⟨at0 base, base.now, 12582911, _, _, base, _, ready0 base ⟨rfl, rfl⟩, rfl, rfl, rfl, by decide +kernel⟩

theorem witness_management_commands_complete :
    (∃ (s : State) (t : Nat) (d : Dev) (p : PortId) (mac : BitVec 48) (f : MgmtFrame) (ok : Bool) (n : Nat), ∃ c, s.awake t d ∧
      n = mgOctets f.prin.val f.payload.length ∧ c ∈ [Instr.openFrame t p mac f ok, .req t p mac f ok] ∧
      d.on (F.ETH_STATUS_UP p.val) = false) ∧
    (∃ (s : State) (t : Nat) (d : Dev) (p : PortId) (mac : BitVec 48) (f : MgmtFrame) (ok : Bool) (n : Nat), ∃ c, s.awake t d ∧
      n = mgOctets f.prin.val f.payload.length ∧ c ∈ [Instr.openFrame t p mac f ok, .req t p mac f ok] ∧
      d.on (F.ETH_STATUS_UP p.val) = true ∧ d.maxFr p.val < n) ∧
    (∃ (s : State) (t : Nat) (d : Dev) (p : PortId) (mac : BitVec 48) (f : MgmtFrame) (ok : Bool) (n : Nat), ∃ c g,
      s.awake t d ∧ n = mgOctets f.prin.val f.payload.length ∧ g = d.mgReceived p.val n ∧
      c ∈ [Instr.openFrame t p mac f ok, .req t p mac f ok] ∧ d.on (F.ETH_STATUS_UP p.val) = true ∧ n ≤ d.maxFr p.val ∧
      g.mains.refclk = false) ∧
    (∃ (s : State) (t : Nat) (d : Dev) (p : PortId) (mac : BitVec 48) (f : MgmtFrame) (ok : Bool) (n : Nat), ∃ c g,
      s.awake t d ∧ n = mgOctets f.prin.val f.payload.length ∧ g = d.mgReceived p.val n ∧
      c ∈ [Instr.openFrame t p mac f ok, .req t p mac f ok] ∧ d.on (F.ETH_STATUS_UP p.val) = true ∧ n ≤ d.maxFr p.val ∧
      g.mains.refclk = true ∧ g.accepting p.val = false) ∧
    (∃ (s : State) (t : Nat) (d : Dev) (p : PortId) (mac : BitVec 48) (f : MgmtFrame) (ok : Bool) (n : Nat), ∃ c g,
      s.awake t d ∧ n = mgOctets f.prin.val f.payload.length ∧ g = d.mgReceived p.val n ∧
      c ∈ [Instr.openFrame t p mac f ok, .req t p mac f ok] ∧ d.on (F.ETH_STATUS_UP p.val) = true ∧ n ≤ d.maxFr p.val ∧
      g.mains.refclk = true ∧ g.accepting p.val = true ∧
      (9120 < f.payload.length ∨ (16 < f.prin.val ∧ f.prin.val ≠ 31) ∨ f.mver = 0 ∨ 2 < f.mver)) ∧
    (∃ (s : State) (t : Nat) (d : Dev) (p : PortId) (mac : BitVec 48) (f : MgmtFrame) (ok : Bool) (n : Nat), ∃ c g,
      s.awake t d ∧ n = mgOctets f.prin.val f.payload.length ∧ g = d.mgReceived p.val n ∧
      c ∈ [Instr.openFrame t p mac f ok, .req t p mac f ok] ∧ d.on (F.ETH_STATUS_UP p.val) = true ∧ n ≤ d.maxFr p.val ∧
      g.mains.refclk = true ∧ g.accepting p.val = true ∧ f.payload.length ≤ 9120 ∧ (f.prin.val ≤ 16 ∨ f.prin.val = 31) ∧
      (f.mver = 1 ∨ f.mver = 2) ∧ 4 ≤ g.engine.length) ∧
    (∃ (s : State) (t : Nat) (d g : Dev) (p : PortId) (f : MgmtFrame) (n : Nat), s.awake t d ∧
      n = mgOctets f.prin.val f.payload.length ∧ g = d.mgReceived p.val n ∧ d.on (F.ETH_STATUS_UP p.val) = true ∧
      n ≤ d.maxFr p.val ∧ g.mains.refclk = true ∧ g.accepting p.val = true ∧ f.payload.length ≤ 9120 ∧
      (f.mver = 1 ∨ f.mver = 2) ∧ g.engine.length < 4 ∧ f.prin.val = 31) ∧
    (∃ (s : State) (t : Nat) (d g : Dev) (p : PortId) (f : MgmtFrame) (n : Nat), s.awake t d ∧
      n = mgOctets f.prin.val f.payload.length ∧ g = d.mgReceived p.val n ∧ d.on (F.ETH_STATUS_UP p.val) = true ∧
      n ≤ d.maxFr p.val ∧ g.mains.refclk = true ∧ g.accepting p.val = true ∧ f.payload.length ≤ 9120 ∧
      (f.mver = 1 ∨ f.mver = 2) ∧ g.engine.length < 4 ∧ f.prin.val ≤ 16 ∧ (f.mver ≠ 2 ∨ f.sess ≠ 0 ∨ f.payload ≠ [])) ∧
    (∃ (s : State) (t : Nat) (d : Dev) (p : PortId) (f : MgmtFrame), ∃ n g, s.awake t d ∧
      n = mgOctets f.prin.val f.payload.length ∧ g = d.mgReceived p.val n ∧ d.on (F.ETH_STATUS_UP p.val) = true ∧
      n ≤ d.maxFr p.val ∧ g.mains.refclk = true ∧ g.accepting p.val = true ∧ f.payload.length ≤ 9120 ∧ f.prin.val ≤ 16 ∧
      (f.mver = 1 ∨ f.mver = 2) ∧ g.engine.length < 4 ∧ g.mgKey f.prin.val f.kph = false) ∧
    (∃ (s : State) (t : Nat) (d g : Dev) (p : PortId) (f : MgmtFrame) (n : Nat), s.awake t d ∧
      n = mgOctets f.prin.val f.payload.length ∧ g = d.mgReceived p.val n ∧ d.on (F.ETH_STATUS_UP p.val) = true ∧
      n ≤ d.maxFr p.val ∧ g.mains.refclk = true ∧ g.accepting p.val = true ∧ f.payload.length ≤ 9120 ∧
      (f.mver = 1 ∨ f.mver = 2) ∧ g.engine.length < 4 ∧ f.prin.val ≤ 16 ∧ g.mgKey f.prin.val f.kph = true ∧ g.rstate = 2) ∧
    (∃ (s : State) (t : Nat) (d g : Dev) (p : PortId) (f : MgmtFrame) (n : Nat), s.awake t d ∧
      n = mgOctets f.prin.val f.payload.length ∧ g = d.mgReceived p.val n ∧ d.on (F.ETH_STATUS_UP p.val) = true ∧
      n ≤ d.maxFr p.val ∧ g.mains.refclk = true ∧ g.accepting p.val = true ∧ f.payload.length ≤ 9120 ∧
      (f.mver = 1 ∨ f.mver = 2) ∧ g.engine.length < 4 ∧ f.prin.val ≤ 16 ∧ f.mver = 2 ∧ f.sess = 0 ∧ f.payload = [] ∧
      g.mgKey f.prin.val f.kph = false) ∧
    (∃ (s : State) (t : Nat) (d g : Dev) (p : PortId) (f : MgmtFrame) (n : Nat), s.awake t d ∧
      n = mgOctets f.prin.val f.payload.length ∧ g = d.mgReceived p.val n ∧ d.on (F.ETH_STATUS_UP p.val) = true ∧
      n ≤ d.maxFr p.val ∧ g.mains.refclk = true ∧ g.accepting p.val = true ∧ f.payload.length ≤ 9120 ∧
      (f.mver = 1 ∨ f.mver = 2) ∧ g.engine.length < 4 ∧ f.prin.val ≤ 16 ∧ f.mver = 2 ∧ f.sess = 0 ∧ f.payload = [] ∧
      g.mgKey f.prin.val f.kph = true ∧ g.rstate = 2) ∧
    (∃ (s : State) (t : Nat) (d g : Dev) (p : PortId) (f : MgmtFrame) (n : Nat), s.awake t d ∧
      n = mgOctets f.prin.val f.payload.length ∧ g = d.mgReceived p.val n ∧ d.on (F.ETH_STATUS_UP p.val) = true ∧
      n ≤ d.maxFr p.val ∧ g.mains.refclk = true ∧ g.accepting p.val = true ∧ f.payload.length ≤ 9120 ∧
      (f.mver = 1 ∨ f.mver = 2) ∧ g.engine.length < 4 ∧ f.prin.val ≤ 16 ∧ f.mver = 2 ∧ f.sess = 0 ∧ f.payload = [] ∧
      g.mgKey f.prin.val f.kph = true ∧ g.rstate ≠ 2 ∧ g.trusted = false) ∧
    (∃ (s : State) (t : Nat) (d g : Dev) (p : PortId) (f : MgmtFrame) (n : Nat), ∃ h, s.awake t d ∧
      n = mgOctets f.prin.val f.payload.length ∧ g = d.mgReceived p.val n ∧ h = g.displace f.prin.val ∧
      d.on (F.ETH_STATUS_UP p.val) = true ∧ n ≤ d.maxFr p.val ∧ g.mains.refclk = true ∧ g.accepting p.val = true ∧
      f.payload.length ≤ 9120 ∧ (f.mver = 1 ∨ f.mver = 2) ∧ g.engine.length < 4 ∧ f.prin.val ≤ 16 ∧ f.mver = 2 ∧ f.sess = 0 ∧
      f.payload = [] ∧ g.mgKey f.prin.val f.kph = true ∧ g.rstate ≠ 2 ∧ g.trusted = true ∧ 32 ≤ h.sessions.length) ∧
    (∃ (s : State) (t : Nat) (d g : Dev) (p : PortId) (mac : BitVec 48) (f : MgmtFrame) (n : Nat) (h : Dev) (x : Nat)
      (y : BitVec 64) (z : Dev) (u : Session) (v : Dev) (o : MgmtOut), s.awake t d ∧ n = mgOctets f.prin.val f.payload.length ∧
      g = d.mgReceived p.val n ∧ h = g.displace f.prin.val ∧ u =
        { num := x, prin := f.prin.val, kph := f.kph, ssalt := sessionSalt f.mseq y f.prin.val x, opened := z.now,
          heard := z.now, mac := mac, port := p.val } ∧ v = { z.wr F.MG_STATUS_LASTSESS x with sessions := z.sessions ++ [u] } ∧
      o =
        { port := p.val, mac := mac, mver := 2, mtype := 4, prin := f.prin.val, kph := f.kph, sess := x, mseq := y,
          payload := octetsBE 8 f.mseq.toNat } ∧ h.nextSession = x ∧ h.draw = (y, z) ∧ d.on (F.ETH_STATUS_UP p.val) = true ∧
      n ≤ d.maxFr p.val ∧ g.mains.refclk = true ∧ g.accepting p.val = true ∧ f.payload.length ≤ 9120 ∧
      (f.mver = 1 ∨ f.mver = 2) ∧ g.engine.length < 4 ∧ f.prin.val ≤ 16 ∧ f.mver = 2 ∧ f.sess = 0 ∧ f.payload = [] ∧
      g.mgKey f.prin.val f.kph = true ∧ g.rstate ≠ 2 ∧ g.trusted = true ∧ h.sessions.length < 32) ∧
    (∃ (s : State) (t : Nat) (d g : Dev) (p : PortId) (f : MgmtFrame) (n : Nat), s.awake t d ∧
      n = mgOctets f.prin.val f.payload.length ∧ g = d.mgReceived p.val n ∧ d.on (F.ETH_STATUS_UP p.val) = true ∧
      n ≤ d.maxFr p.val ∧ g.mains.refclk = true ∧ g.accepting p.val = true ∧ f.payload.length ≤ 9120 ∧
      (f.mver = 1 ∨ f.mver = 2) ∧ g.engine.length < 4 ∧ f.prin.val ≤ 16 ∧ g.mgKey f.prin.val f.kph = true ∧ g.rstate ≠ 2 ∧
      f.mver = 2 ∧ g.session f.sess.val = none) ∧
    (∃ (s : State) (t : Nat) (d g : Dev) (p : PortId) (f : MgmtFrame) (n : Nat), ∃ x, s.awake t d ∧
      n = mgOctets f.prin.val f.payload.length ∧ g = d.mgReceived p.val n ∧ d.on (F.ETH_STATUS_UP p.val) = true ∧
      n ≤ d.maxFr p.val ∧ g.mains.refclk = true ∧ g.accepting p.val = true ∧ f.payload.length ≤ 9120 ∧
      (f.mver = 1 ∨ f.mver = 2) ∧ g.engine.length < 4 ∧ f.prin.val ≤ 16 ∧ g.mgKey f.prin.val f.kph = true ∧ g.rstate ≠ 2 ∧
      f.mver = 2 ∧ g.session f.sess.val = some x ∧ x.prin = f.prin.val ∧ x.last < f.mseq.toNat) ∧
    (∃ (s : State) (t : Nat) (d g : Dev) (p : PortId) (f : MgmtFrame) (n : Nat), ∃ x, s.awake t d ∧
      n = mgOctets f.prin.val f.payload.length ∧ g = d.mgReceived p.val n ∧ d.on (F.ETH_STATUS_UP p.val) = true ∧
      n ≤ d.maxFr p.val ∧ g.mains.refclk = true ∧ g.accepting p.val = true ∧ f.payload.length ≤ 9120 ∧
      (f.mver = 1 ∨ f.mver = 2) ∧ g.engine.length < 4 ∧ f.prin.val ≤ 16 ∧ g.mgKey f.prin.val f.kph = true ∧ g.rstate ≠ 2 ∧
      f.mver = 2 ∧ g.session f.sess.val = some x ∧ (x.prin ≠ f.prin.val ∨ f.mseq.toNat ≤ x.last)) ∧
    (∃ (s : State) (t : Nat) (d g : Dev) (p : PortId) (f : MgmtFrame) (n : Nat), s.awake t d ∧
      n = mgOctets f.prin.val f.payload.length ∧ g = d.mgReceived p.val n ∧ d.on (F.ETH_STATUS_UP p.val) = true ∧
      n ≤ d.maxFr p.val ∧ g.mains.refclk = true ∧ g.accepting p.val = true ∧ f.payload.length ≤ 9120 ∧
      (f.mver = 1 ∨ f.mver = 2) ∧ g.engine.length < 4 ∧ f.prin.val ≤ 16 ∧ g.mgKey f.prin.val f.kph = true ∧ g.rstate ≠ 2 ∧
      f.mver = 1 ∧ (f.sess ≠ 0 ∨ g.on F.MG_CFG_V1EN = false ∨ f.mseq.toNat ≤ g.v1seq f.prin.val)) ∧
    (∃ (s : State) (t : Nat) (d g : Dev) (p : PortId) (f : MgmtFrame) (n : Nat), s.awake t d ∧
      n = mgOctets f.prin.val f.payload.length ∧ g = d.mgReceived p.val n ∧ d.on (F.ETH_STATUS_UP p.val) = true ∧
      n ≤ d.maxFr p.val ∧ g.mains.refclk = true ∧ g.accepting p.val = true ∧ f.payload.length ≤ 9120 ∧
      (f.mver = 1 ∨ f.mver = 2) ∧ g.engine.length < 4 ∧ f.prin.val ≤ 16 ∧ g.mgKey f.prin.val f.kph = true ∧ g.rstate ≠ 2 ∧
      f.mver = 1 ∧ f.sess = 0 ∧ g.on F.MG_CFG_V1EN = true ∧ g.v1seq f.prin.val < f.mseq.toNat) ∧
    (∃ (s : State) (t : Nat) (d : Dev) (n : Fin 256) (x : Session), s.ready t d ∧ d.session n.val = some x ∧
      x.confirmed = false ∧ x.opened + 1000000000 ≤ d.now) ∧
    (∃ (s : State) (t : Nat) (d : Dev) (n : Fin 256) (x : Session), s.ready t d ∧ d.session n.val = some x ∧
      x.confirmed = true ∧ x.heard + 1000000000 * max 1 (d.rd F.MG_CFG_IDLE) ≤ d.now) ∧
    (∃ (s : State) (t : Nat) (d : Dev), s.ready t d ∧ d.loader.writing = none) ∧
    (∃ (s : State) (t : Nat) (d g : Dev) (ok : Bool) (p : Nat) (mac : BitVec 48) (mseq : BitVec 64) (n : Notice) (o : MgmtOut),
      s.ready t d ∧ n =
        { cls := 11, code := if ok then 0 else 7, ns := d.now, cyc := (d.mainsAt d.now).1 % 2 ^ 32, grn := (d.mainsAt d.now).2 }
        ∧ g = d.dropRimg.modLd (fun l => { l with writing := none, lands := false }) ∧
      o = { port := p, mac := mac, mver := 2, mtype := 2, prin := 31, sess := 0, mseq := mseq, payload := n.octets } ∧
      d.loader.writing = some (p, mac, mseq)) ∧
    (∃ (s : State) (t : Nat) (d : Dev) (x : List AttestReq), s.ready t d ∧ x = d.root.attest.dropWhile AttestReq.orphan ∧
      (x = [] ∨ d.engine = [])) ∧
    (∃ (s : State) (t : Nat) (d e : Dev) (x l : List AttestReq) (a : AttestReq) (j : MgmtJob) (js i : List MgmtJob),
      s.ready t d ∧ x = d.root.attest.dropWhile AttestReq.orphan ∧ ((a.abandoned = true ∧ i = j.put (j.rest.drop 1) 7
        Config.alarmRefusal.toNat 0 [] :: js ∧ e = d) ∨
        (a.abandoned = false ∧ d.root.identity = true ∧ d.trusted = false ∧ e = d ∧ i = j.put (j.rest.drop 1) 7 0 0
        (d.report a.nonce true (List.replicate 32 0)) :: js) ∨
        (a.abandoned = false ∧ d.root.identity = true ∧ d.trusted = true ∧ e = (d.random 32).2 ∧ i = j.put (j.rest.drop 1) 7 0 0
        (d.report a.nonce false (d.random 32).1) :: js)) ∧ x = a :: l ∧ d.engine = j :: js ∧ j.waits = true) := by
  refine ⟨?_, ?_, ?_, ?_, ?_, ?_, ?_, ?_, ?_, ?_, ?_, ?_, ?_, ?_, ?_, ?_, ?_, ?_, ?_, ?_, ?_, ?_, ?_, ?_, ?_, ?_⟩
  · exact ⟨at0 base, base.now, base, 0, 0, (mgFrame 7 9 []), false, _, _, awake0 base rfl, rfl, .tail _ (.head _),
      by decide +kernel⟩
  · exact ⟨at0 (upPort.wr (F.ETH_MAXFR_MAXFR 0) 64), (upPort.wr (F.ETH_MAXFR_MAXFR 0) 64).now,
      (upPort.wr (F.ETH_MAXFR_MAXFR 0) 64), 0, 0, (mgFrame 7 9 (List.replicate 100 0)), false, _, _,
      awake0 (upPort.wr (F.ETH_MAXFR_MAXFR 0) 64) rfl, rfl, .tail _ (.head _), by decide +kernel⟩
  · exact ⟨at0 ({ mgDev with mains := { mgDev.mains with refclk := false } }),
      ({ mgDev with mains := { mgDev.mains with refclk := false } }).now,
      ({ mgDev with mains := { mgDev.mains with refclk := false } }), 0, 0, (mgFrame 7 9 []), false, _, _, _,
      awake0 ({ mgDev with mains := { mgDev.mains with refclk := false } }) rfl, rfl, rfl, .tail _ (.head _), by decide +kernel⟩
  · exact ⟨at0 (mgDev.wr F.FW_UPL_UPMODE 1), (mgDev.wr F.FW_UPL_UPMODE 1).now, (mgDev.wr F.FW_UPL_UPMODE 1), 0, 0,
      (mgFrame 7 9 []), false, _, _, _, awake0 (mgDev.wr F.FW_UPL_UPMODE 1) rfl, rfl, rfl, .tail _ (.head _), by decide +kernel⟩
  · exact ⟨at0 mgDev, mgDev.now, mgDev, 0, 0, { mgFrame 7 9 [] with prin := 17 }, false, _, _, _, awake0 mgDev rfl, rfl, rfl,
      .tail _ (.head _), by decide +kernel⟩
  · exact ⟨at0 mgFull, mgFull.now, mgFull, 0, 0, (mgFrame 7 9 []), false, _, _, _, awake0 mgFull rfl, rfl, rfl,
      .tail _ (.head _), by decide +kernel⟩
  · exact ⟨at0 mgDev, mgDev.now, mgDev, _, 0, { mgFrame 7 9 [] with prin := 31 }, _, awake0 mgDev rfl, rfl, rfl,
      by decide +kernel⟩
  · exact ⟨at0 mgDev, mgDev.now, mgDev, _, 0, (mgFrame 7 9 []), _, awake0 mgDev rfl, rfl, rfl, by decide +kernel⟩
  · exact ⟨at0 upPort, upPort.now, upPort, 0, (mgFrame 7 9 []), _, _, awake0 upPort rfl, rfl, rfl, by decide +kernel⟩
  · exact ⟨at0 (mgOpen.wr F.RT_STATUS_RSTATE 2), (mgOpen.wr F.RT_STATUS_RSTATE 2).now, (mgOpen.wr F.RT_STATUS_RSTATE 2), _, 0,
      (mgFrame 7 9 []), _, awake0 (mgOpen.wr F.RT_STATUS_RSTATE 2) rfl, rfl, rfl, by decide +kernel⟩
  · exact ⟨at0 upPort, upPort.now, upPort, _, 0, (mgFrame 0 9 []), _, awake0 upPort rfl, rfl, rfl, by decide +kernel⟩
  · exact ⟨at0 (mgOpen.wr F.RT_STATUS_RSTATE 2), (mgOpen.wr F.RT_STATUS_RSTATE 2).now, (mgOpen.wr F.RT_STATUS_RSTATE 2), _, 0,
      (mgFrame 0 9 []), _, awake0 (mgOpen.wr F.RT_STATUS_RSTATE 2) rfl, rfl, rfl, by decide +kernel⟩
  · exact ⟨at0 mgDev, mgDev.now, mgDev, _, 0, (mgFrame 0 9 []), _, awake0 mgDev rfl, rfl, rfl, by decide +kernel⟩
  · exact ⟨at0 mgCrowd, mgCrowd.now, mgCrowd, _, 0, (mgFrame 0 9 []), _, _, awake0 mgCrowd rfl, rfl, rfl, rfl,
      by decide +kernel⟩
  · exact ⟨at0 mgOpen, mgOpen.now, mgOpen, _, 0, 0, (mgFrame 0 9 []), _, _, _, _, _, _, _, _, awake0 mgOpen rfl, rfl, rfl, rfl,
      rfl, rfl, rfl, rfl, pair_eq, by decide +kernel⟩
  · exact ⟨at0 mgDev, mgDev.now, mgDev, _, 0, (mgFrame 0 9 []), _, awake0 mgDev rfl, rfl, rfl, by decide +kernel⟩
  · exact ⟨at0 mgDev, mgDev.now, mgDev, _, 0, (mgFrame 7 9 []), _, admin, awake0 mgDev rfl, rfl, rfl, by decide +kernel⟩
  · exact ⟨at0 mgDev, mgDev.now, mgDev, _, 0, (mgFrame 7 4 [0]), _, admin, awake0 mgDev rfl, rfl, rfl, by decide +kernel⟩
  · exact ⟨at0 mgDev, mgDev.now, mgDev, _, 0, (mgV1Frame 0 9), _, awake0 mgDev rfl, rfl, rfl, by decide +kernel⟩
  · exact ⟨at0 mgV1, mgV1.now, mgV1, _, 0, (mgV1Frame 0 9), _, awake0 mgV1 rfl, rfl, rfl, by decide +kernel⟩
  · exact ⟨at0 ({ base with sessions := [{ num := 1, prin := 3 }], now := 1000000000 }),
      ({ base with sessions := [{ num := 1, prin := 3 }], now := 1000000000 }).now,
      ({ base with sessions := [{ num := 1, prin := 3 }], now := 1000000000 }), 1, { num := 1, prin := 3 },
      ready0 ({ base with sessions := [{ num := 1, prin := 3 }], now := 1000000000 }) ⟨rfl, rfl⟩, by decide +kernel⟩
  · exact ⟨at0 ({ adminDev [] with now := 1000000000000 }), ({ adminDev [] with now := 1000000000000 }).now,
      ({ adminDev [] with now := 1000000000000 }), 7, admin, ready0 ({ adminDev [] with now := 1000000000000 }) ⟨rfl, rfl⟩,
      by decide +kernel⟩
  · exact ⟨at0 base, base.now, base, ready0 base ⟨rfl, rfl⟩, by decide +kernel⟩
  · exact ⟨at0 mgRecovery, mgRecovery.now, mgRecovery, _, true, 0, 7, 1, _, _, ready0 mgRecovery ⟨rfl, rfl⟩, rfl, rfl, rfl,
      by decide +kernel⟩
  · exact ⟨at0 base, base.now, base, _, ready0 base ⟨rfl, rfl⟩, rfl, by decide +kernel⟩
  · exact ⟨at0 (attesting false true), (attesting false true).now, (attesting false true), _, _, [],
      ⟨List.replicate 16 0, false, false⟩, (mgJob true), [], _, ready0 (attesting false true) ⟨rfl, rfl⟩, rfl,
      .inr (.inl ⟨rfl, rfl, by decide +kernel, rfl, rfl⟩), by decide +kernel⟩

theorem witness_timing_frame :
    ∃ (c : Instr) (s s' : State), exec c s = .next s' ∧ (c.family = .timing ∨ c.family = .counters) := by
  exact ⟨(.mtNowCycRead 0), (at0 timed), _, rfl, by decide +kernel⟩

theorem witness_queue_frame :
    ∃ (c : Instr) (s s' : State), exec c s = .next s' ∧ (c.family = .queues ∨ c.family = .sectors) ∧ c.family = .queues := by
  exact ⟨(.zeroingDone 0), (at0 timed), _, rfl, by decide +kernel⟩

theorem witness_step_frame :
    ∃ (c : Instr) (s : State) (s' : State), exec c s = .next s' ∧ c.family = .steps := by
  exact ⟨(.halt 0 0), at0 timed, _, rfl, by decide +kernel⟩

theorem witness_record_frame :
    ∃ (c : Instr) (s : State) (s' : State), exec c s = .next s' ∧ c.family = .records := by
  exact ⟨(.jen 0 2), at0 timed, _, rfl, by decide +kernel⟩

theorem witness_link_and_session_frame :
    (∃ (c : Instr) (s s' : State), exec c s = .next s' ∧ c.family = .links) ∧
    (∃ (c : Instr) (s s' : State), exec c s = .next s' ∧ c.family = .sessions) := by
  refine ⟨?_, ?_⟩
  · exact ⟨(.pauseExpiry 0 0 7), (at0 timed), _, rfl, by decide +kernel⟩
  · exact ⟨(.noticeSend 0), (at0 timed), _, rfl, by decide +kernel⟩

theorem witness_line_frame :
    (∃ (c : Instr) (s : State) (s' : State), exec c s = .next s' ∧
      (c.family = .reception ∨ c.family = .messages ∨ c.family = .transmission) ∧ c.family = .reception) ∧
    (∃ (c : Instr) (s : State) (s' : State), exec c s = .next s' ∧
      (c.family = .reception ∨ c.family = .messages ∨ c.family = .transmission) ∧ c.family = .messages) := by
  refine ⟨?_, ?_⟩
  · exact ⟨(.trimApply 0 0), at0 timed, _, rfl, by decide +kernel⟩
  · exact ⟨(.beacon 0 0), at0 timed, _, rfl, by decide +kernel⟩

theorem witness_register_frame :
    (∃ (s : State) (t : Nat) (a : Nat), ∃ k s', s.live ∧ exec (.commitA t k) s = .next s' ∧
      (regDomain a = 79 ∨ s.dev.domOn (regDomain a) = true) ∧ a ≠ A.SC_STATUS k.val) ∧
    (∃ (s : State) (t : Nat) (a : Nat), ∃ k s', s.live ∧ exec (.commitB t k) s = .next s' ∧
      (regDomain a = 79 ∨ s.dev.domOn (regDomain a) = true) ∧ a ≠ A.SC_STATUS k.val) ∧
    (∃ (s : State) (t : Nat) (a : Nat), ∃ s', s.live ∧ exec (.zeroingDone t) s = .next s' ∧
      (regDomain a = 79 ∨ s.dev.domOn (regDomain a) = true)) ∧
    (∃ (s : State) (t a : Nat), ∃ q s', s.live ∧ exec (.sectorDecryptDone t q) s = .next s' ∧
      (regDomain a = 79 ∨ s.dev.domOn (regDomain a) = true) ∧ s.dev.pages = [] ∧ (∀ e ∈ s.dev.deep, e.2.waiting = [])) ∧
    (∃ (s : State) (t : Nat) (a : Nat), ∃ q s', s.live ∧ exec (.queueEnable t (.shallow q)) s = .next s' ∧
      (regDomain a = 79 ∨ s.dev.domOn (regDomain a) = true) ∧ a ≠ A.QS_CFG q.val) ∧
    (∃ (s : State) (t : Nat) (a : Nat), ∃ s', s.live ∧ exec (.pfcRepeat t) s = .next s' ∧
      (regDomain a = 79 ∨ s.dev.domOn (regDomain a) = true)) ∧
    (∃ (s : State) (t : Nat) (a : Nat), ∃ p r s', s.live ∧ exec (.pauseExpiry t p r) s = .next s' ∧
      (regDomain a = 79 ∨ s.dev.domOn (regDomain a) = true)) ∧
    (∃ (s : State) (t : Nat) (a : Nat), ∃ p s', s.live ∧ exec (.pgJdone3Read t p) s = .next s' ∧
      (regDomain a = 79 ∨ s.dev.domOn (regDomain a) = true)) ∧
    (∃ (s : State) (t a : Nat), ∃ n s', s.live ∧ exec (.acq t n) s = .next s' ∧
      (regDomain a = 79 ∨ s.dev.domOn (regDomain a) = true) ∧ a ≠ A.ADMIN_LOCK ∧ (a < A.SA_KEY 16 0 ∨ A.SA_KEY 16 7 < a)) ∧
    (∃ (s : State) (t a : Nat), ∃ n s', s.live ∧ exec (.rel t n) s = .next s' ∧
      (regDomain a = 79 ∨ s.dev.domOn (regDomain a) = true) ∧ a ≠ A.ADMIN_LOCK ∧ (a < A.SA_KEY 16 0 ∨ A.SA_KEY 16 7 < a)) ∧
    (∃ (s : State) (t : Nat) (a : Nat), ∃ p s', s.live ∧ exec (.jen t p) s = .next s' ∧
      (regDomain a = 79 ∨ s.dev.domOn (regDomain a) = true) ∧ a ≠ A.PG_JCFG p.val ∧ a ≠ A.CV_STATUS) ∧
    (∃ (s : State) (t : Nat) (a : Nat), ∃ s', s.live ∧ exec (.mtNowCycRead t) s = .next s' ∧
      (regDomain a = 79 ∨ s.dev.domOn (regDomain a) = true) ∧ a ≠ A.MT_NOW_CYC ∧ a ≠ A.MT_NOW_GRN ∧ a ≠ A.MT_NOW_NS_LO ∧
      a ≠ A.MT_NOW_NS_HI) := by
  refine ⟨?_, ?_, ?_, ?_, ?_, ?_, ?_, ?_, ?_, ?_, ?_, ?_⟩
  · exact ⟨at0 base, 0, A.MT_CFG, 0, _, ⟨rfl, rfl⟩, rfl, by decide +kernel⟩
  · exact ⟨at0 base, 0, A.MT_CFG, 0, _, ⟨rfl, rfl⟩, rfl, by decide +kernel⟩
  · exact ⟨at0 base, 0, A.MT_CFG, _, ⟨rfl, rfl⟩, rfl, by decide +kernel⟩
  · exact ⟨(at0 base), 0, A.MT_CFG, 0, _, ⟨rfl, rfl⟩, rfl, by decide +kernel⟩
  · exact ⟨at0 base, 0, A.MT_CFG, 0, _, ⟨rfl, rfl⟩, rfl, by decide +kernel⟩
  · exact ⟨at0 base, 0, A.MT_CFG, _, ⟨rfl, rfl⟩, rfl, by decide +kernel⟩
  · exact ⟨at0 base, 0, A.MT_CFG, 0, 7, _, ⟨rfl, rfl⟩, rfl, by decide +kernel⟩
  · exact ⟨at0 base, 0, A.MT_CFG, 0, _, ⟨rfl, rfl⟩, rfl, by decide +kernel⟩
  · exact ⟨(at0 base), 0, A.MT_CFG, 7, _, ⟨rfl, rfl⟩, rfl, by decide +kernel⟩
  · exact ⟨(at0 base), 0, A.MT_CFG, 7, _, ⟨rfl, rfl⟩, rfl, by decide +kernel⟩
  · exact ⟨at0 base, 0, A.MT_CFG, 0, _, ⟨rfl, rfl⟩, rfl, by decide +kernel⟩
  · exact ⟨at0 base, 0, A.MT_CFG, _, ⟨rfl, rfl⟩, rfl, by decide +kernel⟩

/-! ### The commands that WellFormed refuses, one for each check -/

theorem test_wf_instant : (Instr.jtag (2 ^ 64)).wf = false ∧ (Instr.jtag (2 ^ 64 - 1)).wf = true := by decide +kernel
theorem test_wf_samples :
    (Instr.payloadSymbol 0 0 { codes := [[8192]] }).wf = false ∧ (Instr.payloadSymbol 0 0 { codes := [[8191, -8192]] }).wf = true ∧
    (Instr.payloadSymbol 0 0 { codes := List.replicate 5 [] }).wf = false := by decide +kernel
theorem test_wf_head_entry : (Instr.nodeLost 0 0).wf = false ∧ (Instr.nodeLost 0 1).wf = true := by decide +kernel
theorem test_wf_push :
    (Instr.queuePush 0 (.shallow 0) 0 [] none).wf = false ∧ (Instr.queuePush 0 (.shallow 0) 0 (List.replicate 9 0) none).wf = false ∧
    (Instr.queuePush 0 (.shallow 0) 0 [0] (some 0)).wf = false := by decide +kernel
theorem test_wf_pop : (Instr.queuePop 0 (.shallow 0) 0 none false).wf = false ∧ (Instr.queuePop 0 (.shallow 0) 9 none false).wf = false := by decide +kernel
theorem test_wf_frame : (Instr.frameReceive 0 0 (List.replicate 17 0)).wf = false := by decide +kernel
theorem test_wf_payload :
    (Instr.openFrame 0 0 0 (mgFrame 0 0 (List.replicate 9121 0)) true).wf = false ∧
    (Instr.req 0 0 0 (mgFrame 0 0 (List.replicate 9121 0)) true).wf = false := by decide +kernel
theorem test_wf_repair :
    (Instr.wordRepair 0 0x800002).wf = false ∧ (Instr.wordRepair 0 0x7FFFFC).wf = false ∧ (Instr.wordRepair 0 0x1800000).wf = false := by
  decide +kernel
theorem test_wf_hbm : (Instr.hbmUncorrectable 0 12582912 0).wf = false := by decide +kernel
theorem test_wf_address : (Instr.registerWrite 0 .loader (2 ^ 32) 0).wf = false := by decide +kernel

/-! ### No word spells a command: the table gives its rows no bits -/

theorem test_table_word : decodeTableWord 32 5 = none ∧ State.reset.withFetchWord 32 5 = State.reset := by decide +kernel

/-! ### Worked examples of the specification -/

/-- Deadlines: the instant of a window's close from the record of its cycle. -/
theorem test_close_instant : (CycleRec.mk 8400 168031250000 319872000).grain 13107 = 168035248338 := by decide +kernel

/-- Framing: codewords of the units of one poll cycle, at rate 3/4, and the largest LEN of the peak form. -/
theorem test_codewords :
    [4530, 1522, 1042, 1110, 16, 76].map (lenFor (infoOctets 2)) = [8, 3, 2, 2, 1, 1] ∧ roomOf (infoOctets 4) 4095 = 2751808 := by decide +kernel

/-- Chips before the payload, and payload symbols: a B86 frame of 370,938 ns at 8 ns a chip, and the peak form. -/
theorem test_lengths :
    250 + 8 * ((Form.mk 0xC54 0 0 9 16 0).leadChips + 4352) = 370938 ∧ (Form.mk 0xC54 0 0 9 16 0).symbols 8 = 2 ∧
    (Form.mk 0xC66 0 0 11 16 0).leadChips = 48 * 2048 + 27 * 2176 ∧ (Form.mk 0xC66 0 0 11 16 0).symbols 4095 = 546 := by decide +kernel

/-- Whitening: the first octet for SRC 1,234 and a counter that ends in 0x2B. -/
theorem test_whitening : (whiteOctet (whiteSeed 1234 0x2B)).1 = 0x2D#8 := by decide +kernel

/-- LDPC: the shift of entry (2, 5) at rate 3/4, and FCS over the octets "123456789". -/
theorem test_shift : ldpcShift 2 2 5 = some 200 := by decide +kernel
theorem test_fcs : fcs32 ((List.range 9).map (fun i => BitVec.ofNat 8 (0x31 + i))) = 0xFC891918#32 := by decide +kernel

/-- Interleaving: bit 1,000,003 of the first block of 108 symbols is b_5 of data tine 1,579 in symbol 31, which is tine 1,707. -/
theorem test_interleaved_bit :
    muxPlace (Form.mk 0xC54 0 2 9 16 0) 0 108 31 1579 5 = 1000003 ∧ (Form.mk 0xC54 0 2 9 16 0).dataTine 1579 = 1707 := by
  decide +kernel

/-- Waveform: a 16-QAM point, and one chip of tine 3 of order 256 at full amplitude. -/
theorem test_qam_point : qamPoint 2 [true, false, true, true] = { re := 1, im := -1, num := 1, den := 10 } := by decide +kernel
theorem test_chip : bodyChip 0 256 0 (oneTine 256 3) = (-32568, -3612) := by decide +kernel

/-- Sample chains: the transmit step of a custom chip rate of 100 Mchip/s. -/
theorem test_transmit_step : txRsStep 20971520 = 13421773 := by decide +kernel

/-- Sequencers: the words of one POLL slot. -/
theorem test_arm_word : Step.decode 0x2000181F00000011#64 = some ⟨0, 0, 0, 24700, .armNode 17⟩ := by decide +kernel
theorem test_branch_word : (Step.decode 0x5AC000000000202D#64).map Step.op = some (.branch true 45) := by decide +kernel
theorem test_keyfetch_word : Step.decode 0x7000185100000000#64 = some ⟨0, 0, 0, 24900, .keyfetch 0⟩ := by decide +kernel
theorem test_budget_word : Step.decode 0x6000185D80014000#64 = some ⟨0, 0, 0, 24950, .budget 0 20 0 0⟩ := by decide +kernel
theorem test_tx_word : Step.decode 0x3000186706000000#64 = some ⟨0, 0, 0, 24988, .tx 1 16 false 0 false⟩ := by decide +kernel
theorem test_wait_word : (Step.decode 0x100019C810000000#64).map (fun s => (s.dlo, s.op.cls)) = some (26400, .waitTxdone) := by decide +kernel
theorem test_rx_word :
    (Step.decode 0x4580008000640800#64).map (fun s => (s.tb, s.dlo, s.op)) = some (2, 512, .rx 400 1 0 false 0 false) := by decide +kernel

/-- Cipher engine: AAD and salt word of a POLL and of its answer. -/
theorem test_poll_aad :
    frameAad (mkHeader 2 1 0 17 8 5 { mode := 0xC54, span := 3 }) 4530 false =
      [0x21, 0x00, 0x00, 0x00, 0x04, 0x71, 0x50, 0x02, 0x06, 0x00, 0x00, 0x11, 0xB2, 0x00] := by decide +kernel
theorem test_salt_word :
    ((Dev.reset {}).setSa 5 { sess := true, ssalt := 0x2A5C91E3 }).saltWord 5 0 false = 0x2A5C91E3#32 ∧
    ((Dev.reset {}).setSa 5 { sess := true, ssalt := 0x2A5C91E3 }).saltWord 5 17 false = 0xAA5C91E3#32 := by decide +kernel

/-- Power budget: the charges of a degraded slot. -/
theorem test_degraded_slot : chargeOf 40 6 = 21 ∧ chargeOf 40 7 = 18 := by decide +kernel

/-- Forwarding: a shim on the uplink. -/
theorem test_shim :
    (Shim.mk 1 3 1234 2 true false 258).octets = [0x13, 0x02, 0x69, 0x50, 0x01, 0x02, 0x00, 0x00] := by decide +kernel

/-- Management: a REGWR of ACQ to ADMIN_LOCK, and the length of its frame. -/
theorem test_acq_address : A.ADMIN_LOCK = 0x02000020 := by decide +kernel
theorem test_acq_octets : mgOctets 16 12 = 64 := by decide +kernel

/-- Management: the salt words of that request and of its response, and the first octet of the response. -/
theorem test_management_salt : mgSalt 0 0x1A2B3C4D = 0x1A2B3C4D#32 ∧ mgSalt 1 0x1A2B3C4D = 0x5A2B3C4D#32 := by decide +kernel
theorem test_response_octet :
    ({ port := 0, mac := 7, mver := 2, mtype := 1, prin := 16, sess := 5, mseq := 1, payload := [2, 0, 0, 0] } : MgmtOut).header.head? =
      some 0x21#8 := by decide +kernel

/-- A header, one entry of the section table and its records, as R386 and R387 lay them out: SERVICE names channels 5 and 6 in
[31:24] of its records, and LATE registers stand in a REGS section with STAGE 1. -/
def imageOct (entry records : List Byte) : List Byte := slotOct ++ List.replicate 48 0 ++ entry ++ records

theorem test_service_section :
    (readImage (imageOct [8#8, 0, 0, 0, 0, 0, 0, 80, 0, 0, 0, 8, 0, 0, 0, 0] [5#8, 0, 0, 0, 6, 0, 0, 0])).sections =
      [⟨80, 8, .service [5, 6]⟩] := by decide +kernel

theorem test_late_section :
    (readImage (imageOct [1#8, 1, 0, 0, 0, 0, 0, 80, 0, 0, 0, 8, 0, 0, 0, 0] [0#8, 0x35, 0, 4, 1, 2, 3, 4])).sections =
      [⟨80, 8, .regs true [(0x350004, 0x01020304#32)]⟩] := by decide +kernel

theorem test_reserved_section_octet :
    (readImage (imageOct [8#8, 0, 0, 1, 0, 0, 0, 80, 0, 0, 0, 4, 0, 0, 0, 0] [5#8, 0, 0, 0])).sections =
      [⟨80, 4, .broken⟩] := by decide +kernel

/-- The register map: places in the block of a sequencer, of its table and of a hole. -/
theorem test_places :
    A.SQ_STATUS 75 = 0x0035070C ∧ A.SQ_FAULT 75 = 0x00350710 ∧ A.SQ_STARTC 75 = 0x00350714 ∧ A.SQ_CNT 75 = 0x00350718 ∧
    seqWord 75 200 0 = 0x00CB0640 := by decide +kernel
theorem test_hole : rowAt 0x0035071C = none := by decide +kernel

/-! ### One command on a small state -/

/-- The device that a command leaves. -/
def after (c : Instr) (s : State) : Option Dev := match exec c s with | .next s' => some s'.dev | _ => none

/-- R320, R321: an enabled TAMP of class erase zeroes every page key. -/
theorem test_tamp_erases :
    ((after (.tamp base.now 2 false) (at0 { fill base [(F.ALM_CFG_TEN, 4), (F.ALM_CFG_TCLS, 4)] with
      root := { armed := true, keyed := true, pwk := [(3, 9)] } })).map (fun d => d.root.pwk)) = some [] := by decide +kernel

/-- R301: ACQ of a free lock by an administration session names it as the holder. -/
theorem test_acq_holds : ((after (.acq 0 7) (at0 (adminDev []))).map Dev.holder) = some 7 := by decide +kernel

/-- R420: a write to a hole leaves the registers. -/
theorem test_hole_write : ((after (.registerWrite 0 .loader 0x0035071C 5) (at0 base)).map Dev.regs) = some base.regs := by decide +kernel

end Sys2Proof.Tests
end

section
/-! PROOFS. When a commit of a palette fails, and what it leaves (R80, R81). -/

namespace Sys2Proof.Machine

open Sys2Proof

/-! ### The commands -/

theorem exec_commitA (t : Nat) (k : ChanId) (s : State) :
    exec (.commitA t k) s = s.runClk t (fun d => if d.chOn k.val then d.commitPalette k.val false else d) := rfl

theorem exec_commitB (t : Nat) (k : ChanId) (s : State) :
    exec (.commitB t k) s = s.runClk t (fun d => if d.chOn k.val then d.commitPalette k.val true else d) := rfl

/-- On a channel that is on, COMMIT_A and COMMIT_B commit palette A and palette B (R80). -/
theorem exec_commit_ready {s : State} {t : Nat} {d : Dev} {k : ChanId} (b : Bool) (h : s.ready t d)
    (hon : d.chOn k.val = true) :
    exec (if b then .commitB t k else .commitA t k) s = .next (s.to (d.commitPalette k.val b)) := by
  cases b with
  | false => simp [exec_commitA, State.runClk_ready _ h, hon]
  | true => simp [exec_commitB, State.runClk_ready _ h, hon]

/-! ### The three ends of a commit -/

theorem Dev.commitPalette_busy {d : Dev} {k : Nat} {b : Bool} (hi : d.palIdle k b = false) :
    d.commitPalette k b = d.raise (F.SC_STATUS_PALBUSY k) := by
  simp [Dev.commitPalette, hi]

theorem Dev.commitPalette_passes {d : Dev} {k : Nat} {b : Bool} (hi : d.palIdle k b = true) (ho : d.palOk k b = true) :
    d.commitPalette k b = d.wr (loadedField k b) 1 := by
  simp [Dev.commitPalette, hi, ho]

theorem Dev.commitPalette_fails {d : Dev} {k : Nat} {b : Bool} (hi : d.palIdle k b = true) (ho : d.palOk k b = false) :
    d.commitPalette k b = (d.wr (loadedField k b) 0).raise (F.SC_STATUS_PALBAD k) := by
  simp [Dev.commitPalette, hi, ho]

/-! ### The checks -/

/-- The words `w` of a palette pass every check of R81: CIC_LOG2R, FIR_LEN, RANK_HW, RANK_SEL, RANK_MODE, RS_STEP at both
ends, PK_LIM. -/
def PalPasses (w : Nat → Word32) : Prop :=
  getBits (w 1) 0 3 ≤ 5 ∧ 7 ≤ getBits (w 1) 4 7 ∧ getBits (w 1) 12 3 ≠ 0 ∧
  getBits (w 4) 0 4 ≤ 2 * getBits (w 1) 12 3 ∧ getBits (w 1) 16 2 ≠ 3 ∧ 2 ^ 24 ≤ getBits (w 2) 0 26 ∧
  getBits (w 2) 0 26 ≤ 2 ^ 25 - 1 ∧ getBits (w 5) 16 14 ≠ 0

theorem Dev.palOk_iff (d : Dev) (k : Nat) (b : Bool) : d.palOk k b = true ↔ PalPasses (d.palWord k b) := by
  simp only [Dev.palOk, PalPasses, Bool.and_eq_true, decide_eq_true_eq, bne_iff_ne, and_assoc]

/-- A palette fails when one of the seven cases of R81 holds; RS_STEP lies outside its range below or above. -/
theorem not_palPasses_iff (w : Nat → Word32) :
    ¬ PalPasses w ↔ 5 < getBits (w 1) 0 3 ∨ getBits (w 1) 4 7 < 7 ∨ getBits (w 1) 12 3 = 0 ∨
      2 * getBits (w 1) 12 3 < getBits (w 4) 0 4 ∨ getBits (w 1) 16 2 = 3 ∨ getBits (w 2) 0 26 < 2 ^ 24 ∨
      2 ^ 25 - 1 < getBits (w 2) 0 26 ∨ getBits (w 5) 16 14 = 0 := by
  simp only [PalPasses, Classical.not_and_iff_not_or_not, not_le, ne_eq, not_not]

/-- Settles O20: the command ends in one of the three ends of a commit, and its checks are those of R81. -/
theorem paletteCommitRule : Obligations.PaletteCommitRule := by
  rintro s t d k b c w hr hon rfl hw
  obtain rfl : w = d.palWord k.val b := funext hw
  rw [exec_commit_ready b hr hon]
  refine ⟨fun hbusy => ?_, fun hidle => ⟨fun hbad => ?_, fun h1 h2 h3 h4 h5 h6 h7 h8 => ?_⟩⟩
  · rw [Dev.commitPalette_busy hbusy]
  · have hfails : d.palOk k.val b = false :=
      Bool.eq_false_iff.mpr (mt (d.palOk_iff k.val b).mp ((not_palPasses_iff _).mpr hbad))
    rw [Dev.commitPalette_fails hidle hfails]
  · have hpasses : d.palOk k.val b = true := (d.palOk_iff k.val b).mpr ⟨h1, h2, h3, h4, h5, h6, h7, h8⟩
    rw [Dev.commitPalette_passes hidle hpasses]

end Sys2Proof.Machine
end

section
/-! PROOFS. Where the fields of a step word lie (R197), and which words decode (R217). -/

namespace Sys2Proof.Machine

open Sys2Proof

/-! ### The fields of an encoded step

`Step.encode` appends its fields from the highest bits to the lowest. A field is read by passing over the fields below it, one
`extractLsb'_append_eq_of_le` for each, and is then the lowest field that is left. -/

namespace Step

open BitVec (extractLsb'_append_eq_of_le extractLsb'_append_eq_right)

variable (st : Step)

/-- Above OPS, a step word is the word of its other fields. -/
theorem extractLsb'_encode_of_le {start len : Nat} (h : 30 ≤ start) :
    st.encode.extractLsb' start len = (st.op.opc ++ st.cond ++ st.tb ++ st.dlc ++ st.dlo).extractLsb' (start - 30) len :=
  extractLsb'_append_eq_of_le h

theorem encode_opc : st.encode.extractLsb' 60 4 = st.op.opc := by
  simp only [extractLsb'_encode_of_le, extractLsb'_append_eq_of_le, Nat.reduceLeDiff, Nat.reduceSub, BitVec.extractLsb'_eq_self]

theorem encode_cond : st.encode.extractLsb' 56 4 = st.cond := by
  simp only [extractLsb'_encode_of_le, extractLsb'_append_eq_of_le, extractLsb'_append_eq_right, Nat.reduceLeDiff, Nat.reduceSub]

theorem encode_tb : st.encode.extractLsb' 54 2 = st.tb := by
  simp only [extractLsb'_encode_of_le, extractLsb'_append_eq_of_le, extractLsb'_append_eq_right, Nat.reduceLeDiff, Nat.reduceSub]

theorem encode_dlc : st.encode.extractLsb' 46 8 = st.dlc := by
  simp only [extractLsb'_encode_of_le, extractLsb'_append_eq_of_le, extractLsb'_append_eq_right, Nat.reduceLeDiff, Nat.reduceSub]

theorem encode_dlo : st.encode.extractLsb' 30 16 = st.dlo := by
  simp only [extractLsb'_encode_of_le, extractLsb'_append_eq_right, le_refl, Nat.reduceSub]

theorem encode_ops : st.encode.extractLsb' 0 30 = st.op.ops :=
  extractLsb'_append_eq_right

end Step

/-! ### The checks of the decoder -/

/-- The decoder answers only a step that passes the checks and whose word is the one it was given: no bit is dropped. -/
theorem Step.ok_and_encode_of_decode {w : Word64} {st : Step} (h : Step.decode w = some st) :
    st.ok = true ∧ st.encode = w := by
  unfold Step.decode at h
  split at h
  case h_1 s _ =>
    obtain ⟨hchecks, hsame⟩ := Option.ite_none_right_eq_some.mp h
    obtain rfl := Option.some.inj hsame
    exact hchecks
  case h_2 => contradiction

theorem Step.dlc_eq_zero_of_ok {st : Step} (hok : st.ok = true) (htb : st.tb ≠ 0) : st.dlc = 0 := by
  simp only [Step.ok, Bool.and_eq_true, Bool.or_eq_true, beq_iff_eq] at hok
  exact hok.2.resolve_left htb

/-- Settles O17: the fields of an encoded step, and for a word that decodes the fields of the step that encodes to it. -/
theorem stepWordLayout : Obligations.StepWordLayout := by
  refine ⟨fun st => ⟨st.encode_opc, st.encode_cond, st.encode_tb, st.encode_dlc, st.encode_dlo, st.encode_ops⟩,
    fun w st hdecode => ?_⟩
  obtain ⟨hok, rfl⟩ := Step.ok_and_encode_of_decode hdecode
  exact ⟨st.encode_opc, st.encode_cond, st.encode_tb, st.encode_dlc, st.encode_dlo, st.encode_ops,
    Step.dlc_eq_zero_of_ok hok⟩

end Sys2Proof.Machine
end

section
/-! PROOFS. Accesses to unmapped addresses, and the range read that checks them all first (R420 to R422). -/

namespace Sys2Proof.Machine

open Sys2Proof

/-! ### Discarding a held upper word -/

@[simp] theorem Dev.dropHold_regs (d : Dev) (p : Nat) : (d.dropHold p).regs = d.regs := rfl

@[simp] theorem Dev.dropHold_word (d : Dev) (p x : Nat) : (d.dropHold p).word x = d.word x := rfl

/-- Whether a lease has run out, and so who holds ADMIN_LOCK, does not depend on the held upper words. -/
theorem Dev.lapseLock_dropHold (d : Dev) (p : Nat) : (d.dropHold p).lapseLock = d.lapseLock.dropHold p := by
  have hend : (d.dropHold p).leaseEnd = d.leaseEnd := rfl
  unfold Dev.lapseLock
  rw [hend]
  cases d.leaseEnd with
  | none => rfl
  | some x =>
    have hexpire : (d.dropHold p).expireLock = d.expireLock.dropHold p := rfl
    simp only [hexpire]
    exact (apply_ite (Dev.dropHold · p) ..).symm

@[simp] theorem Dev.lapseLock_dropHold_holder (d : Dev) (p : Nat) : (d.dropHold p).lapseLock.holder = d.lapseLock.holder := by
  rw [Dev.lapseLock_dropHold]
  rfl

/-! ### Where no register is -/

theorem rowAt_of_not_aligned {a : Nat} (h : a % 4 ≠ 0) : rowAt a = none := if_pos h

/-- The loader, and the session that holds ADMIN_LOCK, get BADADDR for a write where no register is (R420). -/
theorem Dev.regWrite_unmapped {d : Dev} {w : Writer} {a p n : Nat} (v : Word32) (hrow : rowAt a = none)
    (hw : d.principal w = some (p, n, true)) (hall : p = 17 ∨ d.lapseLock.holder = n) :
    d.regWrite w a v = (rgBADADDR, d.dropHold p) := by
  obtain rfl | hholds := hall
  · simp [Dev.regWrite, hw, hrow]
  · simp [Dev.regWrite, hw, hholds, hrow]

theorem Dev.readCheck_unmapped {d : Dev} {a p : Nat} {lock : Bool} (hrow : rowAt a = none) :
    d.readCheck p a lock = if d.mayRead p a lock then rgBADADDR else rgPERM := by
  cases hmay : d.mayRead p a lock <;> simp [Dev.readCheck, hrow, hmay]

/-- A read where no register is gives 0: with BADADDR to a principal that may reach the address (R420), with PERM and the
hedge to any other (R302). -/
theorem Dev.regRead_unmapped {d : Dev} {a p : Nat} {lock : Bool} (hrow : rowAt a = none) :
    d.regRead p a lock =
      if d.mayRead p a lock then (rgBADADDR, 0, d.dropHold p) else (rgPERM, 0, (d.dropHold p).hedge) := by
  cases hmay : d.mayRead p a lock <;>
    simp [Dev.regRead, Dev.readCheck_unmapped hrow, hmay, rgBADADDR, rgPERM, rgOK]

/-- Settles O18: nothing but the principal's held upper word goes, and the value is 0 with either result. -/
theorem unmappedAccess : Obligations.UnmappedAccess := by
  refine ⟨fun a => rowAt_of_not_aligned, fun d a p n w v hrow hw hall => ?_, fun d a p lock hrow hmay => ?_,
    fun d a p lock hrow => ?_⟩
  · rw [Dev.regWrite_unmapped v hrow hw hall]
    exact ⟨rfl, d.dropHold_regs p, d.dropHold_word p⟩
  · rw [Dev.regRead_unmapped hrow, if_pos hmay]
    exact ⟨rfl, rfl, d.dropHold_word p⟩
  · rw [Dev.regRead_unmapped hrow]
    split <;> rfl

/-! ### REGRDN -/

/-- A range with an address that fails gives the result of the first that does, and no data; PERM leaves the hedge. -/
theorem Dev.cmdReadN_of_first_fails {d : Dev} {p a n i : Nat} {lock : Bool} (room : Nat) (hi : i < n)
    (hfails : d.readCheck p (a + 4 * i) lock ≠ rgOK) (hbelow : ∀ j, j < i → d.readCheck p (a + 4 * j) lock = rgOK) :
    d.cmdReadN p a n room lock =
      (if d.readCheck p (a + 4 * i) lock = rgPERM then d.hedge else d).answer (d.readCheck p (a + 4 * i) lock) := by
  have hfirst : ((List.range n).map (a + 4 * ·)).find? (fun x => d.readCheck p x lock != rgOK) = some (a + 4 * i) := by
    have hindex : (List.range n).find? ((fun x => d.readCheck p x lock != rgOK) ∘ (a + 4 * ·)) = some i :=
      List.find?_range_eq_some.mpr ⟨by simpa using hfails, List.mem_range.mpr hi, fun j hj => by simpa using hbelow j hj⟩
    rw [List.find?_map, hindex, Option.map_some]
  simp only [Dev.cmdReadN, hfirst]

/-- The device after the first `i` reads of the range from address `a`. -/
def Dev.afterReads (d : Dev) (p a : Nat) (lock : Bool) (i : Nat) : Dev :=
  (List.range i).foldl (fun x j => (x.regRead p (a + 4 * j) lock).2.2) d

theorem Dev.afterReads_succ (d : Dev) (p a : Nat) (lock : Bool) (i : Nat) :
    d.afterReads p a lock (i + 1) = ((d.afterReads p a lock i).regRead p (a + 4 * i) lock).2.2 := by
  simp [Dev.afterReads, List.range_succ]

/-- One read of REGRDN: its four octets go behind those before. -/
def readOnto (p : Nat) (lock : Bool) (acc : List Byte × Dev) (x : Nat) : List Byte × Dev :=
  (acc.1 ++ octetsBE 4 (acc.2.regRead p x lock).2.1.toNat, (acc.2.regRead p x lock).2.2)

/-- Read number `i` of a range finds the device that the reads before it left. -/
theorem foldl_readOnto (d : Dev) (p a : Nat) (lock : Bool) (n : Nat) :
    ((List.range n).map (a + 4 * ·)).foldl (readOnto p lock) ([], d) =
      ((List.range n).flatMap (fun i => octetsBE 4 ((d.afterReads p a lock i).regRead p (a + 4 * i) lock).2.1.toNat),
        d.afterReads p a lock n) := by
  induction n with
  | zero => rfl
  | succ n ih => simp [List.range_succ, ih, readOnto, Dev.afterReads_succ]

/-- A range whose addresses all pass, and whose data fits, is read from its first address to its last. -/
theorem Dev.cmdReadN_of_all_pass {d : Dev} {p a n room : Nat} {lock : Bool}
    (hpass : ∀ i, i < n → d.readCheck p (a + 4 * i) lock = rgOK) (hroom : 4 * n ≤ room) :
    d.cmdReadN p a n room lock =
      { res := rgOK
        data := (List.range n).flatMap
          (fun i => octetsBE 4 ((d.afterReads p a lock i).regRead p (a + 4 * i) lock).2.1.toNat)
        dev := d.afterReads p a lock n } := by
  have hnone : ((List.range n).map (a + 4 * ·)).find? (fun x => d.readCheck p x lock != rgOK) = none := by
    simpa using hpass
  simp only [Dev.cmdReadN, hnone, if_neg (not_lt.mpr hroom)]
  exact congrArg (fun r : List Byte × Dev => ({ res := rgOK, data := r.1, dev := r.2 } : CmdOut)) (foldl_readOnto d p a lock n)

/-- Settles O19: REGRDN ends at its first failing address, or with `Dev.afterReads` of its whole range. -/
theorem rangeReadIsAllOrNothing : Obligations.RangeReadIsAllOrNothing := by
  refine ⟨fun d p a n room i lock hi hfails hbelow => ?_, fun d p a n room lock hpass hroom => ?_⟩
  · rw [Dev.cmdReadN_of_first_fails room hi hfails hbelow]
    exact ⟨rfl, rfl, fun hreach => if_neg hreach, fun hperm => if_pos hperm⟩
  · rw [Dev.cmdReadN_of_all_pass hpass hroom]
    exact ⟨rfl, rfl, rfl⟩

end Sys2Proof.Machine
end

section
/-! PROOFS. What every command leaves: an answer, settled outputs, and the module held while RESET_N is low (R367, R368, R381). -/

namespace Sys2Proof.Machine

open Sys2Proof

/-! ### Every command is one run -/

/-- An outcome is that of one effect on the device at instant `t`, held back by RESET_N. -/
def IsRun (o : Host.Outcome State Fault Refusal) (s : State) (t : Nat) : Prop := ∃ f, o = s.run t f

theorem isRun_run (s : State) (t : Nat) (f : Dev → Dev) : IsRun (s.run t f) s t := ⟨f, rfl⟩

theorem isRun_runSvc (s : State) (t : Nat) (f : Dev → Dev) : IsRun (s.runSvc t f) s t := ⟨_, rfl⟩

/-- Every command but RESET_N_RELEASE runs one effect on the device at its instant. -/
theorem exec_isRun (c : Instr) (s : State) (h : ∀ t, c ≠ .resetNRelease t) : IsRun (exec c s) s c.stamp := by
  cases c
  case resetNRelease t => exact absurd rfl (h t)
  case thermalTrip t => dsimp only [exec]; exact isRun_runSvc s t _
  case domainSwitchOnDone t => dsimp only [exec]; exact isRun_runSvc s t _
  all_goals
    dsimp only [exec]
    exact isRun_run s _ _

/-- RESET_N_RELEASE starts a module that is held or just reset, and leaves any other as it is. -/
theorem exec_resetNRelease (t : Nat) (s : State) :
    exec (.resetNRelease t) s = .next (s.to (if (s.at_ t).inReset || (s.at_ t).loading 0 then
      { s.at_ t with inReset := false }.startUp else s.at_ t)) := rfl

/-- Settles O2: every command is a run or the release of RESET_N. -/
theorem everyCommandIsAnswered : Obligations.EveryCommandIsAnswered := by
  intro c s
  by_cases h : ∃ t, c = .resetNRelease t
  · obtain ⟨t, rfl⟩ := h
    exact ⟨_, exec_resetNRelease t s⟩
  · obtain ⟨f, hf⟩ := exec_isRun c s (fun t ht => h ⟨t, ht⟩)
    exact ⟨_, hf⟩

/-- Settles O4: a run has no effect while RESET_N is low. -/
theorem resetLowHoldsTheModule : Obligations.ResetLowHoldsTheModule := by
  intro c s hlow hc
  obtain ⟨f, hf⟩ := exec_isRun c s hc
  rw [hf, s.run_inReset c.stamp f hlow]
  rfl

/-- Settles O1: by the definition of a step on an empty queue and on one that is not. -/
theorem stepRunsFrontCommand : Obligations.StepRunsFrontCommand :=
  ⟨fun s c rest h => by simp [step, h], fun s h => by simp [step, h]⟩

/-! ### Settling -/

theorem regDomain_le (a : Nat) : regDomain a ≤ 79 := by
  unfold regDomain
  have : blkEth = 0x3100000 := rfl
  split_ifs <;> omega

/-- The words that say which domains are on stay in a domain that is always on. -/
theorem regDomain_pdstat {n : Nat} (h : n ≤ 79) : regDomain (A.GV_PDSTAT0 + 4 * (n / 32)) = 79 := by
  have : A.GV_PDSTAT0 + 4 * (n / 32) < 0x100000 := by simp only [A.GV_PDSTAT0, blkGv]; omega
  rw [regDomain, if_pos this]

theorem Dev.settle_domOn (d : Dev) {n : Nat} (h : n ≤ 79) : d.settle.domOn n = d.domOn n := by
  unfold Dev.domOn
  rw [d.settle_word _ (.inl (regDomain_pdstat h))]

theorem Dev.settle_rstate (d : Dev) : d.settle.rstate = d.rstate := by
  unfold Dev.rstate Dev.rd
  rw [d.settle_word _ (.inl (by decide))]

theorem Dev.settle_faultPending (d : Dev) : d.settle.faultPending = d.faultPending := by
  unfold Dev.faultPending
  rw [d.settle_word A.FLT_LATCH (.inl (by decide)), d.settle_word A.FLT_MASK (.inl (by decide))]

theorem Dev.settle_pinsFollow (d : Dev) : d.settle.pinsFollow := by
  refine ⟨?_, rfl⟩
  unfold Dev.faultOut
  rw [d.settle_rstate, d.settle_faultPending]
  rfl

theorem Dev.settle_offIsEmpty (d : Dev) : d.settle.offIsEmpty := by
  refine ⟨fun e he => ?_, fun e he hlt => ?_, fun e he hlt => ?_⟩
  · have := (List.mem_filter.1 he).2
    rw [d.settle_domOn (regDomain_le _)]
    simpa using this
  · rw [d.settle_domOn (by omega)]
    exact (List.mem_filter.1 he).2
  · rw [d.settle_domOn (by omega)]
    exact (List.mem_filter.1 he).2

/-- Whatever a command makes of the device, the state it leaves is settled. -/
theorem State.to_settled (s : State) (d : Dev) : (s.to d).settled := ⟨d.settle_offIsEmpty, d.settle_pinsFollow⟩

theorem exec_settled {c : Instr} {s s' : State} (h : exec c s = .next s') : s'.settled := by
  obtain ⟨d, hd⟩ := everyCommandIsAnswered c s
  obtain rfl : s.to d = s' := Host.Outcome.next.inj (hd.symm.trans h)
  exact s.to_settled d

/-- Settles O5: a step is idle or ends in settling. -/
theorem stepKeepsSettled : Obligations.StepKeepsSettled := by
  intro s s' hs hstep
  cases hp : s.pending with
  | nil => exact Host.Outcome.next.inj ((stepRunsFrontCommand.2 s hp).symm.trans hstep) ▸ hs
  | cons c rest => exact exec_settled ((stepRunsFrontCommand.1 s c rest hp).symm.trans hstep)

/-- Settles O6: the pin stands as settling leaves it. -/
theorem faultPinFollowsLatch : Obligations.FaultPinFollowsLatch := by
  intro c s s' h
  obtain ⟨-, hpin, -⟩ := exec_settled h
  rw [hpin]
  simp [Dev.faultOut, Dev.faultPending]

/-! ### After reset -/

theorem reset_word_pdstat0 : State.reset.dev.word A.GV_PDSTAT0 = 0 := by decide +kernel

theorem reset_domOn : ∀ n, n < 79 → State.reset.dev.domOn n = false := by decide +kernel

/-- Settles O3: the reset state, whose registers hold their reset words and whose tables are empty. -/
theorem resetState : Obligations.ResetState := by
  refine ⟨reset_domOn, by decide +kernel, by decide +kernel, rfl, rfl, rfl, rfl, by decide +kernel, by decide +kernel,
    by decide +kernel, ⟨by decide +kernel, by decide +kernel, by decide +kernel⟩, by decide +kernel, rfl⟩
end Sys2Proof.Machine
end

section
/-! PROOFS. Step words and steps correspond (R197, R202, R217). -/

namespace Sys2Proof.Machine

open Sys2Proof

section

open BitVec (extractLsb' extractLsb'_append_eq_of_le extractLsb'_append_eq_right extractLsb'_eq_self getLsbD_append)

/-! ### The classes whose OPC holds several forms, told apart by OPS[29:27] -/

theorem readOps_arm_node {o : BitVec 30} (h : extractLsb' 27 3 o = 0#3) :
    readOps 2 o = some (.armNode (extractLsb' 0 17 o)) := by simp only [readOps, h]; rfl

theorem readOps_arm_swap {o : BitVec 30} (h : extractLsb' 27 3 o = 1#3) :
    readOps 2 o = some (.armSwap (extractLsb' 1 4 o) (o.getLsbD 0)) := by simp only [readOps, h]; rfl

theorem readOps_note_notice {o : BitVec 30} (h : extractLsb' 27 3 o = 0#3) :
    readOps 8 o = some (.noteNotice (extractLsb' 0 16 o)) := by simp only [readOps, h]; rfl

theorem readOps_note_flagSet {o : BitVec 30} (h : extractLsb' 27 3 o = 1#3) :
    readOps 8 o = some (.noteFlag false (extractLsb' 0 2 o)) := by simp only [readOps, h]; rfl

theorem readOps_note_flagClear {o : BitVec 30} (h : extractLsb' 27 3 o = 2#3) :
    readOps 8 o = some (.noteFlag true (extractLsb' 0 2 o)) := by simp only [readOps, h]; rfl

theorem readOps_note_event {o : BitVec 30} (h : extractLsb' 27 3 o = 3#3) :
    readOps 8 o = some (.noteEvent (extractLsb' 0 16 o)) := by simp only [readOps, h]; rfl

/-! ### The operands read back -/

theorem getLsbD_zero_bit1 (b : Bool) : (bit1 b).getLsbD 0 = b := by cases b <;> rfl

/-- A field that lies above the two lower parts of a word. -/
theorem extractLsb'_top (u v w : Nat) (x : BitVec u) (y : BitVec v) (z : BitVec w) :
    extractLsb' (v + w) u (x ++ y ++ z) = x := by
  rw [extractLsb'_append_eq_of_le (Nat.le_add_left w v), Nat.add_sub_cancel, extractLsb'_append_eq_of_le le_rfl, Nat.sub_self,
    extractLsb'_eq_self]

/-- The operands read back from their own OPC and OPS. Where a class has several fields, OPS is written by the parts of R202; a field
is then read by passing over the parts below it. -/
theorem readOps_ops (op : StepOp) : readOps op.opc op.ops = some op := by
  cases op
  case armNode a => exact (readOps_arm_node (extractLsb'_top 3 10 17 _ _ a)).trans (by rw [extractLsb'_append_eq_right])
  case noteNotice c => exact (readOps_note_notice (extractLsb'_top 3 11 16 _ _ c)).trans (by rw [extractLsb'_append_eq_right])
  case noteEvent c => exact (readOps_note_event (extractLsb'_top 3 11 16 _ _ c)).trans (by rw [extractLsb'_append_eq_right])
  case noteFlag cl pf =>
    cases cl with
    | false => exact (readOps_note_flagSet (extractLsb'_top 3 25 2 _ _ pf)).trans (by rw [extractLsb'_append_eq_right])
    | true => exact (readOps_note_flagClear (extractLsb'_top 3 25 2 _ _ pf)).trans (by rw [extractLsb'_append_eq_right])
  case armSwap f h =>
    let o := 1#3 ++ 0#22 ++ f ++ bit1 h
    have hsel : extractLsb' 27 3 o = 1#3 := by
      simp only [o, extractLsb'_append_eq_of_le, extractLsb'_eq_self, Nat.reduceLeDiff, Nat.reduceSub]
    refine (readOps_arm_swap hsel).trans ?_
    simp only [o, extractLsb'_append_eq_of_le, extractLsb'_append_eq_right, getLsbD_append, getLsbD_zero_bit1,
      Nat.reduceLeDiff, Nat.reduceSub, Nat.reduceLT, if_true]
  case armPath => rfl
  case ret => rfl
  case' halt n => show some (StepOp.halt ((0#29 ++ bit1 n).getLsbD 0)) = _
  case' wait wk s l pf =>
    show (let o := wk ++ bit1 s ++ bit1 l ++ 0#23 ++ pf
      some (StepOp.wait (extractLsb' 27 3 o) (o.getLsbD 26) (o.getLsbD 25) (extractLsb' 0 2 o))) = _
  case' tx t f v l g =>
    show (let o := t ++ f ++ bit1 v ++ l ++ bit1 g ++ 0#7
      some (StepOp.tx (extractLsb' 26 4 o) (extractLsb' 21 5 o) (o.getLsbD 20) (extractLsb' 8 12 o) (o.getLsbD 7))) = _
  case' rx w k s gs g gap =>
    show (let o := w ++ k ++ s ++ bit1 gs ++ g ++ bit1 gap ++ 0#1
      some (StepOp.rx (extractLsb' 14 16 o) (extractLsb' 11 3 o) (extractLsb' 9 2 o) (o.getLsbD 8) (extractLsb' 2 6 o) (o.getLsbD 1))) = _
  case' branch i t =>
    show (let o := 0#16 ++ bit1 i ++ t; some (StepOp.branch (o.getLsbD 13) (extractLsb' 0 13 o))) = _
  case' budget k e i c =>
    show (let o := k ++ e ++ i ++ c
      some (StepOp.budget (extractLsb' 28 2 o) (extractLsb' 12 16 o) (extractLsb' 6 6 o) (extractLsb' 0 6 o))) = _
  case' keyfetch s => show some (StepOp.keyfetch (extractLsb' 28 2 (s ++ 0#28))) = _
  case' loop c l n t =>
    show (let o := c ++ bit1 l ++ n ++ t
      some (StepOp.loop (extractLsb' 28 2 o) (o.getLsbD 27) (extractLsb' 13 14 o) (extractLsb' 0 13 o))) = _
  case' call t => show some (StepOp.call (extractLsb' 0 13 (0#17 ++ t))) = _
  all_goals
    simp only [extractLsb'_append_eq_of_le, extractLsb'_append_eq_right, extractLsb'_eq_self, getLsbD_append, getLsbD_zero_bit1,
      Nat.reduceLeDiff, Nat.reduceSub, Nat.reduceLT, if_true, if_false]

end

/-! ### Words and steps -/

theorem Step.fields_encode (st : Step) : Step.fields st.encode = some st := by
  unfold Step.fields
  rw [st.encode_opc, st.encode_cond, st.encode_tb, st.encode_dlc, st.encode_dlo, st.encode_ops, readOps_ops]
  rfl

theorem Step.decode_encode {st : Step} (h : st.ok = true) : Step.decode st.encode = some st := by
  simp [Step.decode, Step.fields_encode, h]

/-- Settles O7: a step is read back from its fields, and a word decodes only to a step whose word it is. -/
theorem stepWordRoundTrip : Obligations.StepWordRoundTrip :=
  ⟨fun _ => Step.decode_encode, fun _ _ h => (Step.ok_and_encode_of_decode h).symm⟩

end Sys2Proof.Machine
end

section
/-! PROOFS. Small functions: the reduced energy (R336), the receive window (R277), the free list (R247), session numbers (R357),
thermal states (R334), register fields (R6). -/

namespace Sys2Proof.Machine

open Sys2Proof

/-! ### The reduced energy (R336) -/

/-- `n` units are enough for energy `e` after `z` steps of 0.5 dB. -/
def Enough (e z n : Nat) : Prop := e ^ 20 ≤ n ^ 20 * 10 ^ z

theorem Enough.mono {e z m n : Nat} (h : Enough e z m) (hmn : m ≤ n) : Enough e z n :=
  le_trans h (Nat.mul_le_mul_right _ (Nat.pow_le_pow_left hmn 20))

theorem enough_self (e z : Nat) : Enough e z e := Nat.le_mul_of_pos_right _ (by positivity)

/-- Halving finds the least number of units between `lo` and `hi`, where `hi` is enough, none below `lo` is, and the fuel halves
the span away. -/
theorem leastCharge_isLeast (e z fuel lo hi : Nat) (hle : lo ≤ hi) (hspan : hi - lo < 2 ^ fuel) (hhi : Enough e z hi)
    (hlo : ∀ n, n < lo → ¬ Enough e z n) :
    Enough e z (leastCharge e z fuel lo hi) ∧ ∀ n, n < leastCharge e z fuel lo hi → ¬ Enough e z n := by
  induction fuel generalizing lo hi with
  | zero =>
    obtain rfl : lo = hi := by omega
    exact ⟨hhi, hlo⟩
  | succ fuel ih =>
    unfold leastCharge
    split
    next hdone =>
      obtain rfl : lo = hi := by omega
      exact ⟨hhi, hlo⟩
    next hopen =>
      rw [pow_succ] at hspan
      dsimp only
      split
      next hm => exact ih lo _ (by omega) (by omega) hm hlo
      next hm => exact ih _ hi (by omega) (by omega) hhi (fun n hn hen => hm (hen.mono (by omega)))

/-- Settles O8: the halving from 0 to the energy itself. -/
theorem chargeIsLeast : Obligations.ChargeIsLeast := by
  intro e z he
  obtain ⟨hen, hleast⟩ := leastCharge_isLeast e z 20 0 e (Nat.zero_le e) (by omega) (enough_self e z) (by omega)
  exact ⟨hen, fun n hn => not_le.mp (hleast n hn)⟩

/-! ### The receive window (R277) -/

theorem Assoc.passes_eq_false_iff (a : Assoc) (c : Nat) :
    a.passes c = false ↔ a.empty = false ∧ c ≤ a.rxhi ∧ (c + 63 < a.rxhi ∨ a.rxwin.getLsbD (a.rxhi - c) = true) := by
  simp only [Assoc.passes, Bool.or_eq_false_iff, Bool.and_eq_false_iff, decide_eq_false_iff_not, Bool.not_eq_false']
  constructor
  · rintro ⟨⟨hempty, hc⟩, hseen⟩
    exact ⟨hempty, by omega, hseen.imp_left (by omega)⟩
  · rintro ⟨hempty, hc, hseen⟩
    exact ⟨⟨hempty, by omega⟩, hseen.imp_left (by omega)⟩

theorem Assoc.accept_passes_self {a : Assoc} {c : Nat} (h : a.passes c = true) : (a.accept c).passes c = false := by
  rw [Assoc.passes_eq_false_iff]
  unfold Assoc.accept
  split
  next => simp
  next hempty =>
    split
    next => simpa using hempty
    next hle =>
      have hnear : ¬ c + 63 < a.rxhi := fun hfar => by
        simp [(a.passes_eq_false_iff c).2 ⟨by simpa using hempty, by omega, .inl hfar⟩] at h
      exact ⟨by simpa using hempty, by simpa using hle, .inr (by simp; omega)⟩

theorem Assoc.accept_passes_other {a : Assoc} {x : Nat} (c : Nat) (hx : a.passes x = false) :
    (a.accept c).passes x = false := by
  obtain ⟨hempty, hle, hseen⟩ := (a.passes_eq_false_iff x).1 hx
  rw [Assoc.passes_eq_false_iff]
  unfold Assoc.accept
  rw [if_neg (by simp [hempty])]
  split
  next hc =>
    refine ⟨hempty, by simp only; omega, ?_⟩
    by_cases hfar : x + 63 < c
    · exact .inl hfar
    · have hbit := hseen.resolve_left (by omega)
      have hshift : c - x - (c - a.rxhi) = a.rxhi - x := by omega
      right
      simp [hshift, hbit]
      omega
  next => exact ⟨hempty, hle, hseen.imp_right (fun hbit => by simp [hbit])⟩

theorem Assoc.setBase_passes (a : Assoc) {b c : Nat} (hb : 1 ≤ b) (hb' : b < 2 ^ 64) : (a.setBase b).passes c = true ↔ b ≤ c := by
  rw [← Bool.not_eq_false, Assoc.passes_eq_false_iff]
  have hhi : (b + 2 ^ 64 - 1) % 2 ^ 64 = b - 1 := by omega
  simp only [Assoc.setBase, hhi, BitVec.getLsbD_allOnes, decide_eq_true_eq, true_and]
  omega

/-- Settles O9: what passes is what the window has not seen, and accepting only adds to what it has seen. -/
theorem replayWindow : Obligations.ReplayWindow :=
  ⟨fun _ _ => Assoc.accept_passes_self, fun _ c _ _ => Assoc.accept_passes_other c,
    fun a c hempty hfar => (a.passes_eq_false_iff c).2 ⟨hempty, by omega, .inl hfar⟩, fun a _ _ => a.setBase_passes⟩

/-! ### The free list (R247) -/

/-- The cells of a free list, head first. -/
def cellsOf (l : List (Nat × Nat)) : List Nat := l.flatMap (fun x => List.range' x.1 x.2)

theorem length_cellsOf (l : List (Nat × Nat)) : (cellsOf l).length = (l.map Prod.snd).sum := by
  simp [cellsOf, List.length_flatMap]

theorem headCell_eq_none_iff (l : List (Nat × Nat)) : headCell l = none ↔ cellsOf l = [] := by
  induction l with
  | nil => simp [headCell, cellsOf]
  | cons r l ih =>
    obtain ⟨s, n⟩ := r
    cases n with
    | zero => simpa [headCell, cellsOf] using ih
    | succ m => simp [headCell, cellsOf, List.range'_succ]

theorem cellsOf_of_headCell {l r : List (Nat × Nat)} {c : Nat} (h : headCell l = some (c, r)) : cellsOf l = c :: cellsOf r := by
  induction l with
  | nil => simp [headCell] at h
  | cons x l ih =>
    obtain ⟨s, n⟩ := x
    cases n with
    | zero => simpa [cellsOf] using ih (by simpa [headCell] using h)
    | succ m =>
      simp only [headCell, Option.some.injEq, Prod.mk.injEq] at h
      obtain ⟨rfl, rfl⟩ := h
      cases m <;> simp [cellsOf, List.range'_succ]

theorem cellsOf_of_takeRuns {n : Nat} {l r : List (Nat × Nat)} {cs : List Nat} (h : takeRuns n l = some (cs, r)) :
    cs ++ cellsOf r = cellsOf l ∧ cs.length = n := by
  induction n generalizing l cs with
  | zero =>
    obtain ⟨rfl, rfl⟩ : [] = cs ∧ l = r := by simpa [takeRuns] using h
    exact ⟨rfl, rfl⟩
  | succ n ih =>
    rw [takeRuns] at h
    cases hhead : headCell l with
    | none => simp [hhead] at h
    | some p =>
      obtain ⟨c, l'⟩ := p
      simp only [hhead, Option.map_eq_some_iff, Prod.mk.injEq] at h
      obtain ⟨⟨cs', r'⟩, hrest, rfl, rfl⟩ := h
      obtain ⟨hcells, hlen⟩ := ih hrest
      simp [cellsOf_of_headCell hhead, hcells, hlen]

theorem takeRuns_eq_none_iff (n : Nat) (l : List (Nat × Nat)) : takeRuns n l = none ↔ (cellsOf l).length < n := by
  induction n generalizing l with
  | zero => simp [takeRuns]
  | succ n ih =>
    rw [takeRuns]
    cases hhead : headCell l with
    | none => simp [(headCell_eq_none_iff l).1 hhead]
    | some p => simp [ih, cellsOf_of_headCell hhead]

/-- Settles O11: by induction on the number of cells asked for. -/
theorem cellsComeFromTheHead : Obligations.CellsComeFromTheHead :=
  fun n l => ⟨fun _ _ => cellsOf_of_takeRuns, by rw [takeRuns_eq_none_iff, length_cellsOf]⟩

/-! ### Session numbers (R357) -/

/-- Settles O14: the search goes up from the last number to 255, and then from 1. -/
theorem sessionNumbers : Obligations.SessionNumbers := by
  intro d n h1 h255 hlast hfree habove hbelow
  have hfound : (((List.range 255).map (fun i => (d.rd F.MG_STATUS_LASTSESS + i) % 255 + 1)).find?
      (fun n => (d.session n).isNone)) = some n := by
    rw [List.find?_eq_some_iff_getElem]
    refine ⟨by simp [hfree], (n + 254 - d.rd F.MG_STATUS_LASTSESS) % 255, by simp; omega, by simp; omega, fun j hj => ?_⟩
    simp only [List.getElem_map, List.getElem_range, Bool.not_eq_true', Option.isNone_eq_false_iff]
    rw [← Option.ne_none_iff_isSome]
    by_cases hup : d.rd F.MG_STATUS_LASTSESS + j < 255
    · exact habove _ (by omega) (by omega) (by omega)
    · exact hbelow (by omega) _ (by omega) (by omega)
  simp [Dev.nextSession, hfound]

/-! ### Thermal states (R334) -/

/-- Settles O15: the states from COOL, WARM and HOT by their thresholds. -/
theorem thermalStates : Obligations.ThermalStates := by
  intro cur tj tc band hcur hband
  have hnext : thermalNext cur tj tc band = if tc ≤ tj ∨ (cur = 2 ∧ tc - 2 < tj) then 2
      else if tc - band ≤ tj ∨ (1 ≤ cur ∧ tc - band - 2 < tj) then 1 else 0 := by
    unfold thermalNext
    simp only [if_neg (show cur ≠ 3 by omega)]
  rw [hnext]
  split_ifs <;> omega

/-! ### Register fields (R6) -/

/-- The parts of a number at a field of `n` bits from bit `lo`: what lies above, the field, what lies below. -/
theorem split_field (x lo n : Nat) : x = 2 ^ lo * (2 ^ n * (x / 2 ^ (lo + n)) + x / 2 ^ lo % 2 ^ n) + x % 2 ^ lo := by
  rw [pow_add, ← Nat.div_div_eq_div_mul, Nat.div_add_mod, Nat.div_add_mod]

theorem putBits_toNat (w : Word32) {lo n : Nat} (v : Nat) (h : lo + n ≤ 32) :
    (putBits w lo n v).toNat = 2 ^ lo * (2 ^ n * (w.toNat / 2 ^ (lo + n)) + v % 2 ^ n) + w.toNat % 2 ^ lo := by
  have hw := split_field w.toNat lo n
  have hlow : w.toNat % 2 ^ lo < 2 ^ lo := Nat.mod_lt _ (by positivity)
  have hv : v % 2 ^ n < 2 ^ n := Nat.mod_lt _ (by positivity)
  have hhigh : w.toNat / 2 ^ (lo + n) < 2 ^ (32 - (lo + n)) := by
    rw [Nat.div_lt_iff_lt_mul (by positivity), ← pow_add, Nat.sub_add_cancel h]
    exact w.isLt
  have hall : 2 ^ lo * (2 ^ n * 2 ^ (32 - (lo + n))) = 2 ^ 32 := by rw [← mul_assoc, ← pow_add, ← pow_add]; congr 1; omega
  have hfit : 2 ^ lo * (2 ^ n * (w.toNat / 2 ^ (lo + n)) + v % 2 ^ n) + w.toNat % 2 ^ lo < 2 ^ 32 := by
    generalize w.toNat / 2 ^ (lo + n) = a at hhigh ⊢
    rw [← hall]
    calc _ < 2 ^ lo * (2 ^ n * a + v % 2 ^ n + 1) := by rw [Nat.mul_succ]; omega
      _ ≤ 2 ^ lo * (2 ^ n * (a + 1)) := Nat.mul_le_mul_left _ (by rw [Nat.mul_succ]; omega)
      _ ≤ _ := Nat.mul_le_mul_left _ (Nat.mul_le_mul_left _ hhigh)
  have hsub : w.toNat - getBits w lo n * 2 ^ lo + v % 2 ^ n * 2 ^ lo =
      2 ^ lo * (2 ^ n * (w.toNat / 2 ^ (lo + n)) + v % 2 ^ n) + w.toNat % 2 ^ lo := by
    unfold getBits
    rw [mul_add] at hw ⊢
    rw [Nat.mul_comm (w.toNat / 2 ^ lo % 2 ^ n), Nat.mul_comm (v % 2 ^ n)]
    omega
  rw [putBits, BitVec.toNat_ofNat, hsub, Nat.mod_eq_of_lt hfit]

theorem getBits_putBits_same (w : Word32) {lo n : Nat} (v : Nat) (h : lo + n ≤ 32) :
    getBits (putBits w lo n v) lo n = v % 2 ^ n := by
  rw [getBits, putBits_toNat w v h, Nat.mul_add_div (by positivity), Nat.div_eq_of_lt (Nat.mod_lt _ (by positivity)), add_zero,
    Nat.mul_add_mod, Nat.mod_mod]

theorem getBits_putBits_below (w : Word32) {lo n lo' n' : Nat} (v : Nat) (h : lo + n ≤ 32) (hbelow : lo' + n' ≤ lo) :
    getBits (putBits w lo n v) lo' n' = getBits w lo' n' := by
  have hmod : (putBits w lo n v).toNat % 2 ^ lo = w.toNat % 2 ^ lo := by
    rw [putBits_toNat w v h, Nat.mul_add_mod, Nat.mod_mod]
  have hlow (x : Nat) : x / 2 ^ lo' % 2 ^ n' = x % 2 ^ lo / 2 ^ lo' % 2 ^ n' := by
    obtain ⟨k, rfl⟩ := Nat.exists_eq_add_of_le hbelow
    rw [Nat.add_assoc, pow_add 2 lo', Nat.mod_mul_right_div_self, pow_add 2 n', Nat.mod_mul_right_mod]
  rw [getBits, getBits, hlow, hmod, ← hlow]

theorem getBits_putBits_above (w : Word32) {lo n lo' n' : Nat} (v : Nat) (h : lo + n ≤ 32) (habove : lo + n ≤ lo') :
    getBits (putBits w lo n v) lo' n' = getBits w lo' n' := by
  have hdiv : (putBits w lo n v).toNat / 2 ^ (lo + n) = w.toNat / 2 ^ (lo + n) := by
    rw [putBits_toNat w v h, pow_add, ← Nat.div_div_eq_div_mul, Nat.mul_add_div (by positivity),
      Nat.div_eq_of_lt (Nat.mod_lt _ (by positivity)), add_zero, Nat.mul_add_div (by positivity),
      Nat.div_eq_of_lt (Nat.mod_lt _ (by positivity)), add_zero]
  obtain ⟨k, rfl⟩ := Nat.exists_eq_add_of_le habove
  rw [getBits, getBits, pow_add _ (lo + n), ← Nat.div_div_eq_div_mul, hdiv, Nat.div_div_eq_div_mul]

theorem Dev.rd_wr_same (d : Dev) (f : Field) (v : Nat) (hwf : Regs.wf d.regs = true) (hf : f.lo + f.width ≤ 32) :
    (d.wr f v).rd f = v % 2 ^ f.width := by
  rw [Dev.rd, Dev.wr, d.word_setWord _ _ hwf, getBits_putBits_same _ v hf]

theorem Dev.rd_wr_apart (d : Dev) (f g : Field) (v : Nat) (hwf : Regs.wf d.regs = true) (hf : f.lo + f.width ≤ 32)
    (haddr : g.addr = f.addr) (hapart : g.lo + g.width ≤ f.lo ∨ f.lo + f.width ≤ g.lo) : (d.wr f v).rd g = d.rd g := by
  rw [Dev.rd, Dev.rd, Dev.wr, haddr, d.word_setWord _ _ hwf]
  rcases hapart with hbelow | habove
  · exact getBits_putBits_below _ v hf hbelow
  · exact getBits_putBits_above _ v hf habove

theorem Dev.rd_inc_same (d : Dev) (f : Field) (n : Nat) (hwf : Regs.wf d.regs = true) (hf : f.lo + f.width ≤ 32) :
    (d.inc f n).rd f = min (d.rd f + n) (2 ^ f.width - 1) := by
  have hpos : 0 < 2 ^ f.width := by positivity
  rw [Dev.inc, Dev.rd_wr_same (d.hwNote f n) f _ hwf hf, Nat.mod_eq_of_lt (by omega)]

/-- Settles O16: a write moves the bits of its field alone. -/
theorem fieldWrites : Obligations.FieldWrites := fun d f g n hwf hf =>
  ⟨d.rd_wr_same f n hwf hf, d.rd_wr_ne f g n, fun haddr hapart _ => d.rd_wr_apart f g n hwf hf haddr hapart,
    d.rd_inc_same f n hwf hf⟩

end Sys2Proof.Machine
end

section
/-! PROOFS. Octets, fields and the layouts made of them: item contents (R250), data units (R171), the shim (R235) and the control
blocks of Luafen messages (R167 to R170). -/

namespace Sys2Proof.Machine

open Sys2Proof

/-! ### Octets of a number -/

@[simp] theorem length_octetsBE (n v : Nat) : (octetsBE n v).length = n := by
  induction n generalizing v with
  | zero => rfl
  | succ n ih => simp [octetsBE, ih]

theorem beNat_append (a b : List Byte) : beNat (a ++ b) = beNat a * 256 ^ b.length + beNat b := by
  induction b using List.reverseRecOn with
  | nil => simp [beNat]
  | append_singleton b x ih =>
    simp only [beNat, ← List.append_assoc, List.foldl_append, List.foldl_cons, List.foldl_nil] at ih ⊢
    rw [ih, List.length_append, List.length_singleton, pow_succ]
    ring

theorem beNat_octetsBE (n v : Nat) : beNat (octetsBE n v) = v % 256 ^ n := by
  induction n generalizing v with
  | zero => simp [octetsBE, beNat, Nat.mod_one]
  | succ n ih =>
    have hlast : beNat [BitVec.ofNat 8 v] = v % 256 := by simp [beNat]
    rw [octetsBE, beNat_append, ih, hlast, List.length_singleton, pow_one, pow_succ, Nat.mul_comm (256 ^ n), Nat.mod_mul,
      Nat.mul_comm 256, Nat.add_comm]

theorem octetsBE_add (a b v : Nat) : octetsBE (a + b) v = octetsBE a (v / 256 ^ b) ++ octetsBE b v := by
  induction b generalizing v with
  | zero => simp [octetsBE]
  | succ b ih => rw [← Nat.add_assoc, octetsBE, ih, octetsBE, ← List.append_assoc, Nat.div_div_eq_div_mul, pow_succ']

/-- Octets from `i` on, as a number. -/
theorem takeBE_octetsBE_append {m i n : Nat} (v : Nat) (rest : List Byte) (h : i + n ≤ m) :
    takeBE (octetsBE m v ++ rest) i n = some (v / 256 ^ (m - i - n) % 256 ^ n) := by
  obtain ⟨k, rfl⟩ := Nat.exists_eq_add_of_le h
  have hk : i + n + k - i - n = k := by omega
  rw [takeBE, if_pos (by simp; omega), hk, octetsBE_add (i + n), octetsBE_add i n]
  simp [beNat_octetsBE]

/-! ### Packed fields -/

/-- The bits of a list of fields. -/
def widthOf (l : List (Nat × Nat)) : Nat := (l.map Prod.fst).sum

@[simp] theorem widthOf_nil : widthOf [] = 0 := rfl
@[simp] theorem widthOf_cons (f : Nat × Nat) (l : List (Nat × Nat)) : widthOf (f :: l) = f.1 + widthOf l := by simp [widthOf]

theorem pack_foldl (l : List (Nat × Nat)) (n : Nat) :
    l.foldl (fun n f => n * 2 ^ f.1 + f.2 % 2 ^ f.1) n = n * 2 ^ widthOf l + pack l := by
  induction l generalizing n with
  | nil => simp [pack]
  | cons f l ih =>
    rw [pack, List.foldl_cons, List.foldl_cons, ih, ih (0 * _ + _), widthOf_cons, pow_add]
    ring

theorem pack_cons (w v : Nat) (l : List (Nat × Nat)) : pack ((w, v) :: l) = v % 2 ^ w * 2 ^ widthOf l + pack l := by
  rw [pack, List.foldl_cons, pack_foldl]
  simp

theorem pack_lt (l : List (Nat × Nat)) : pack l < 2 ^ widthOf l := by
  induction l with
  | nil => simp [pack]
  | cons f l ih =>
    obtain ⟨w, v⟩ := f
    have hv : v % 2 ^ w < 2 ^ w := Nat.mod_lt _ (by positivity)
    rw [pack_cons, widthOf_cons, pow_add]
    calc _ < (v % 2 ^ w + 1) * 2 ^ widthOf l := by rw [Nat.succ_mul]; omega
      _ ≤ _ := Nat.mul_le_mul_right _ hv

/-- The first field is read above the others. -/
theorem pack_head {w m v : Nat} {l : List (Nat × Nat)} (h : widthOf l = m) : pack ((w, v) :: l) / 2 ^ m % 2 ^ w = v % 2 ^ w := by
  subst h
  rw [pack_cons, Nat.mul_comm, Nat.mul_add_div (by positivity), Nat.div_eq_of_lt (pack_lt l), add_zero, Nat.mod_mod]

/-- A field of the rest is read as if the first field were not there. -/
theorem pack_tail {w v m n : Nat} {l : List (Nat × Nat)} (h : m + n ≤ widthOf l) :
    pack ((w, v) :: l) / 2 ^ m % 2 ^ n = pack l / 2 ^ m % 2 ^ n := by
  obtain ⟨k, hk⟩ := Nat.exists_eq_add_of_le h
  have hsplit : v % 2 ^ w * 2 ^ widthOf l = 2 ^ m * (2 ^ n * (2 ^ k * (v % 2 ^ w))) := by rw [hk]; ring
  rw [pack_cons, hsplit, Nat.mul_add_div (by positivity), Nat.mul_add_mod]

/-- A 32-bit word of a packed block. -/
theorem msgWord_packOctets {m i : Nat} (l : List (Nat × Nat)) (h : 4 * i + 4 ≤ m) :
    msgWord (packOctets m l) i = some (BitVec.ofNat 32 (pack l / 2 ^ (8 * (m - 4 * i - 4)))) := by
  have htake := takeBE_octetsBE_append (pack l) [] h
  rw [List.append_nil] at htake
  rw [msgWord, packOctets, htake, Option.map_some, Option.some.injEq, pow_mul]
  apply BitVec.eq_of_toNat_eq
  simp

theorem takeBE_packOctets {m i n : Nat} (l : List (Nat × Nat)) (h : i + n ≤ m) :
    takeBE (packOctets m l) i n = some (pack l / 2 ^ (8 * (m - i - n)) % 2 ^ (8 * n)) := by
  have htake := takeBE_octetsBE_append (pack l) [] h
  rw [List.append_nil] at htake
  rw [packOctets, htake, pow_mul, pow_mul]
  norm_num

/-- A field of a 32-bit word of a number. -/
theorem getBits_ofNat_div {x m lo n : Nat} (h : lo + n ≤ 32) :
    getBits (BitVec.ofNat 32 (x / 2 ^ m)) lo n = x / 2 ^ (m + lo) % 2 ^ n := by
  obtain ⟨k, hk⟩ := Nat.exists_eq_add_of_le h
  rw [getBits, BitVec.toNat_ofNat, hk, Nat.add_assoc lo, pow_add 2 lo, Nat.mod_mul_right_div_self, pow_add 2 n,
    Nat.mod_mul_right_mod, Nat.div_div_eq_div_mul, ← pow_add]

theorem getLsbD_ofNat_div {x m i : Nat} (h : i < 32) :
    (BitVec.ofNat 32 (x / 2 ^ m)).getLsbD i = decide (x / 2 ^ (m + i) % 2 ^ 1 = 1) := by
  rw [BitVec.getLsbD_ofNat, decide_eq_true h, Bool.true_and, Nat.testBit_eq_decide_div_mod_eq, Nat.div_div_eq_div_mul, ← pow_add,
    pow_one]

theorem toNat_ofNat_div (x m : Nat) : (BitVec.ofNat 32 (x / 2 ^ m)).toNat = x / 2 ^ m % 2 ^ 32 := BitVec.toNat_ofNat ..

theorem toSigned_ofSigned {w : Nat} {i : Int} (hw : 1 ≤ w) (hlo : -(2 ^ (w - 1)) ≤ i) (hhi : i < 2 ^ (w - 1)) :
    toSigned w (ofSigned w i % 2 ^ w) = i := by
  obtain ⟨k, rfl⟩ := Nat.exists_eq_add_of_le' hw
  obtain ⟨m, hm⟩ : ∃ m : Nat, 2 ^ k = m := ⟨_, rfl⟩
  have hm' : (2 : Int) ^ k = m := by rw [← hm]; push_cast; rfl
  unfold toSigned ofSigned
  simp only [Nat.add_sub_cancel, pow_succ, hm, hm'] at hlo hhi ⊢
  rcases lt_or_ge i 0 with hneg | hpos
  · have : i % ((m : Int) * 2) = i + m * 2 := by rw [← Int.add_emod_right, Int.emod_eq_of_lt] <;> omega
    rw [this, Nat.mod_mod, Nat.mod_eq_of_lt (by omega), if_neg (by omega)]
    omega
  · rw [Int.emod_eq_of_lt hpos (by omega), Nat.mod_mod, Nat.mod_eq_of_lt (by omega), if_pos (by omega)]
    omega

theorem decide_bit (b : Bool) : decide ((if b then 1 else 0) % 2 ^ 1 = 1) = b := by cases b <;> rfl

/-! ### Control blocks -/

theorem readBeacon_octets {b : BeaconMsg} (h1 : b.bcyc < 2 ^ 32) (h2 : b.begrn < 2 ^ 16) (h3 : b.dgrn < 2 ^ 16)
    (h4 : b.dcyc < 2 ^ 16) (h5 : b.vmax < 2 ^ 4) (h6 : b.nslot < 2 ^ 4) (h7 : b.boffMax < 2 ^ 3) : readBeacon b.octets = some b := by
  simp only [readBeacon, BeaconMsg.octets, msgWord_packOctets, getBits_ofNat_div, getLsbD_ofNat_div, toNat_ofNat_div, pack_head,
    pack_tail, widthOf_cons, widthOf_nil, Nat.reduceMul, Nat.reduceAdd, Nat.reduceSub, Nat.reduceLeDiff, Nat.reduceLT, decide_bit,
    Nat.mod_eq_of_lt, h1, h2, h3, h4, h5, h6, h7]

theorem readPoll_octets {p : PollMsg} (h1 : p.acku < 2 ^ 16) (h2 : p.umode < 2 ^ 12) (h3 : p.ustrm < 2 ^ 2) (h4 : p.uspan < 2 ^ 3)
    (h5 : p.ulen < 2 ^ 12) (h6 : p.rgap < 2 ^ 12) (h7 : toSigned 8 (ofSigned 8 p.ulvl % 2 ^ 8) = p.ulvl) :
    readPoll p.octets = some p := by
  simp only [readPoll, PollMsg.octets, msgWord_packOctets, getBits_ofNat_div, getLsbD_ofNat_div, pack_head,
    pack_tail, widthOf_cons, widthOf_nil, Nat.reduceMul, Nat.reduceAdd, Nat.reduceSub, Nat.reduceLeDiff, Nat.reduceLT, decide_bit,
    Nat.mod_eq_of_lt, h1, h2, h3, h4, h5, h6, h7]

theorem readJoinReq_octets {j : JoinReqMsg} (h1 : j.vmax < 2 ^ 4) (h2 : j.bands < 2 ^ 4) (h3 : j.maxq < 2 ^ 3) (h4 : j.mink < 2 ^ 4)
    (h5 : j.maxk < 2 ^ 4) (h6 : j.bundle < 2 ^ 2) (h7 : j.ilmem < 2 ^ 10) (h8 : toSigned 16 (ofSigned 16 j.bq % 2 ^ 16) = j.bq)
    (h9 : j.rgmin < 2 ^ 12) : readJoinReq j.octets = some j := by
  simp only [readJoinReq, JoinReqMsg.octets, msgWord_packOctets, takeBE_packOctets, Option.getD_some, getBits_ofNat_div, getLsbD_ofNat_div, pack_head,
    pack_tail, widthOf_cons, widthOf_nil, Nat.reduceMul, Nat.reduceAdd, Nat.reduceSub, Nat.reduceLeDiff, Nat.reduceLT, decide_bit,
    Nat.mod_eq_of_lt, j.nonceN.isLt, BitVec.ofNat_toNat, BitVec.setWidth_eq, h1, h2, h3, h4, h5, h6, h7, h8, h9]

theorem readJoinAcc_octets {j : JoinAccMsg} (h1 : j.status < 2 ^ 2) (h2 : j.ver < 2 ^ 4) (h3 : j.rgap < 2 ^ 12)
    (h4 : j.lostc < 2 ^ 12) : readJoinAcc j.octets = some j := by
  simp only [readJoinAcc, JoinAccMsg.octets, msgWord_packOctets, takeBE_packOctets, Option.getD_some, getBits_ofNat_div, pack_head,
    pack_tail, widthOf_cons, widthOf_nil, Nat.reduceMul, Nat.reduceAdd, Nat.reduceSub, Nat.reduceLeDiff, 
    Nat.mod_eq_of_lt, j.nonceN.isLt, j.nonceH.isLt, BitVec.ofNat_toNat, BitVec.setWidth_eq, h1, h2, h3, h4]

/-- Settles O13: each block is read word by word, and a field of it stands at its width from the end of the word. -/
theorem controlBlocksRoundTrip : Obligations.ControlBlocksRoundTrip :=
  ⟨fun _ => readBeacon_octets,
    fun _ h1 h2 h3 h4 h5 h6 h7 h8 => readPoll_octets h1 h2 h3 h4 h5 h6 (toSigned_ofSigned (by decide) h7 h8),
    fun _ h1 h2 h3 h4 h5 h6 h7 h8 h9 h10 => readJoinReq_octets h1 h2 h3 h4 h5 h6 h7 (toSigned_ofSigned (by decide) h8 h9) h10,
    fun _ => readJoinAcc_octets⟩

/-! ### The shim (R235) -/

theorem Shim.read_octets {h : Shim} (h1 : h.ver < 2 ^ 4) (h2 : h.tenant < 2 ^ 4) (h3 : h.node < 2 ^ 17) (h4 : h.cls < 2 ^ 2)
    (h5 : h.seq < 2 ^ 16) : readShim h.octets = h := by
  unfold Shim.octets
  generalize hl : [(4, h.ver), (4, h.tenant), (17, h.node), (2, h.cls), (1, if h.up then 1 else 0), (1, if h.via then 1 else 0),
    (3, 0), (16, h.seq), (16, 0)] = l
  have hn : beNat ((packOctets 8 l).take 8) = pack l := by
    have hwidth : widthOf l = 64 := by rw [← hl]; rfl
    have hlt : pack l < 256 ^ 8 := (pack_lt l).trans_eq (by rw [hwidth]; norm_num)
    rw [List.take_of_length_le (by simp [packOctets]), packOctets, beNat_octetsBE, Nat.mod_eq_of_lt hlt]
  have hver : pack l / 2 ^ 60 % 2 ^ 4 = h.ver := by
    simp only [← hl, pack_head, widthOf_cons, widthOf_nil, Nat.reduceAdd, Nat.mod_eq_of_lt, h1]
  have htenant : pack l / 2 ^ 56 % 2 ^ 4 = h.tenant := by
    simp only [← hl, pack_head, pack_tail, widthOf_cons, widthOf_nil, Nat.reduceAdd, Nat.reduceLeDiff, Nat.mod_eq_of_lt, h2]
  have hnode : pack l / 2 ^ 39 % 2 ^ 17 = h.node := by
    simp only [← hl, pack_head, pack_tail, widthOf_cons, widthOf_nil, Nat.reduceAdd, Nat.reduceLeDiff, Nat.mod_eq_of_lt, h3]
  have hcls : pack l / 2 ^ 37 % 2 ^ 2 = h.cls := by
    simp only [← hl, pack_head, pack_tail, widthOf_cons, widthOf_nil, Nat.reduceAdd, Nat.reduceLeDiff, Nat.mod_eq_of_lt, h4]
  have hup : (pack l / 2 ^ 36 % 2 ^ 1 == 1) = h.up := by
    simp only [← hl, pack_head, pack_tail, widthOf_cons, widthOf_nil, Nat.reduceAdd, Nat.reduceLeDiff]
    exact decide_bit h.up
  have hvia : (pack l / 2 ^ 35 % 2 ^ 1 == 1) = h.via := by
    simp only [← hl, pack_head, pack_tail, widthOf_cons, widthOf_nil, Nat.reduceAdd, Nat.reduceLeDiff]
    exact decide_bit h.via
  have hseq : pack l / 2 ^ 16 % 2 ^ 16 = h.seq := by
    simp only [← hl, pack_head, pack_tail, widthOf_cons, widthOf_nil, Nat.reduceAdd, Nat.reduceLeDiff, Nat.mod_eq_of_lt, h5]
  unfold readShim
  rw [hn]
  exact (Shim.mk.injEq ..).mpr ⟨hver, htenant, hnode, hcls, hup, hvia, hseq⟩

/-! ### Data units (R171) -/

/-- The fields of a unit's header as one number. -/
theorem unitHeader_fields {u : Unit_} {n : Nat} (hseq : u.dseq < 2 ^ 16) (hcls : u.cls < 2 ^ 2)
    (hlen : u.content.length < 2 ^ 14)
    (hn : n = pack [(16, u.dseq), (1, if u.rel then 1 else 0), (2, u.cls), (15, 0), (14, u.content.length)]) :
    n < 2 ^ 48 ∧
    n % 2 ^ 14 = u.content.length ∧ n / 2 ^ 32 = u.dseq ∧ (n / 2 ^ 31 % 2 == 1) = u.rel ∧ n / 2 ^ 29 % 4 = u.cls := by
  have hlt : n < 2 ^ 48 := hn ▸ pack_lt _
  have h1 : n / 2 ^ 0 % 2 ^ 14 = u.content.length := by
    simp only [hn, pack_tail, widthOf_cons, widthOf_nil, Nat.reduceAdd, Nat.reduceLeDiff]
    exact (pack_head rfl).trans (Nat.mod_eq_of_lt hlen)
  have h2 : n / 2 ^ 32 % 2 ^ 16 = u.dseq := by
    simp only [hn, pack_head, widthOf_cons, widthOf_nil, Nat.reduceAdd, Nat.mod_eq_of_lt, hseq]
  have h3 : (n / 2 ^ 31 % 2 ^ 1 == 1) = u.rel := by
    simp only [hn, pack_head, pack_tail, widthOf_cons, widthOf_nil, Nat.reduceAdd, Nat.reduceLeDiff]
    exact decide_bit u.rel
  have h4 : n / 2 ^ 29 % 2 ^ 2 = u.cls := by
    simp only [hn, pack_head, pack_tail, widthOf_cons, widthOf_nil, Nat.reduceAdd, Nat.reduceLeDiff, Nat.mod_eq_of_lt, hcls]
  rw [pow_zero, Nat.div_one] at h1
  rw [Nat.mod_eq_of_lt (Nat.div_lt_of_lt_mul (by rwa [← pow_add]))] at h2
  exact ⟨hlt, h1, h2, h3, h4⟩

theorem readUnits_unitOctets (us : List Unit_) (n : Nat)
    (hus : ∀ u ∈ us, u.dseq < 2 ^ 16 ∧ u.cls < 4 ∧ u.content ≠ [] ∧ u.content.length < 2 ^ 14) (hn : us.length ≤ n) :
    readUnits n (us.flatMap unitOctets) = (us, false) := by
  induction us generalizing n with
  | nil => cases n <;> simp [readUnits]
  | cons u us ih =>
    obtain ⟨n, rfl⟩ := Nat.exists_eq_add_of_le' hn
    obtain ⟨hseq, hcls, hne, hlen⟩ := hus u (by simp)
    have hrest := ih (n + us.length) (fun v hv => hus v (by simp [hv])) (by omega)
    have hpos : u.content.length ≠ 0 := by simpa using hne
    obtain ⟨x, hx⟩ : ∃ x, x = pack [(16, u.dseq), (1, if u.rel then 1 else 0), (2, u.cls), (15, 0), (14, u.content.length)] :=
      ⟨_, rfl⟩
    obtain ⟨hlt, hlenx, hdseq, hrel, hclsx⟩ := unitHeader_fields hseq hcls hlen hx
    have hhead (rest : List Byte) : takeBE (octetsBE 6 x ++ (u.content ++ rest)) 0 6 = some x := by
      rw [takeBE_octetsBE_append x _ (by omega)]
      norm_num
      omega
    have hoct (rest : List Byte) : unitOctets u ++ rest = octetsBE 6 x ++ (u.content ++ rest) := by
      rw [unitOctets, packOctets, ← hx, List.append_assoc]
    have hdrop (rest : List Byte) : (octetsBE 6 x ++ (u.content ++ rest)).drop 6 = u.content ++ rest := List.drop_left' (length_octetsBE 6 x)
    have hfit (rest : List Byte) : ¬ (octetsBE 6 x ++ (u.content ++ rest)).length < 6 + u.content.length := by simp
    rw [List.length_cons, ← Nat.add_assoc, readUnits, List.flatMap_cons]
    generalize us.flatMap unitOctets = rest at *
    have hnil : octetsBE 6 x ++ (u.content ++ rest) ≠ [] := by simp [octetsBE]
    rw [hoct, hhead, if_neg hnil]
    simp only [hlenx, hpos, hfit, or_self, if_false, hdseq, hrel, hclsx]
    rw [← List.drop_drop, hdrop, List.take_left, List.drop_left, hrest]

/-! ### Item contents (R250) -/

/-- The octet added last is the lowest of the word. -/
theorem setWidth_shiftLeft_or (w : Word64) (b : Byte) : (w <<< 8 ||| b.setWidth 64).setWidth 8 = b := by
  ext j hj
  simp

/-- The others have moved up by one octet. -/
theorem setWidth_ushiftRight_shiftLeft_or (w : Word64) (b : Byte) {s : Nat} (hs : s + 16 ≤ 64) :
    ((w <<< 8 ||| b.setWidth 64) >>> (s + 8)).setWidth 8 = (w >>> s).setWidth 8 := by
  ext j hj
  have hup : s + 8 + j - 8 = s + j := by omega
  have hin : s + 8 + j < 64 := by omega
  have hbig : ¬ s + 8 + j < 8 := by omega
  have hzero : b.getLsbD (s + 8 + j) = false := BitVec.getLsbD_of_ge _ _ (by omega)
  simp [hup, hin, hbig, hzero, BitVec.getLsbD_eq_getElem (show s + j < 64 by omega)]

theorem octetsOf_wordOf (l : List Byte) : octetsOf (wordOf l) = (List.range 8).map (fun i => l.getD i 0) := by
  have low (w : Word64) (b : Byte) : ((w <<< 8 ||| b.setWidth 64) >>> 0).setWidth 8 = b := by
    rw [BitVec.ushiftRight_zero, setWidth_shiftLeft_or]
  have up (s : Nat) (hs : s + 16 ≤ 64) (w : Word64) (b : Byte) := setWidth_ushiftRight_shiftLeft_or w b hs
  have u0 := up 0 (by omega)
  have u1 := up 8 (by omega)
  have u2 := up 16 (by omega)
  have u3 := up 24 (by omega)
  have u4 := up 32 (by omega)
  have u5 := up 40 (by omega)
  have u6 := up 48 (by omega)
  simp only [Nat.reduceAdd] at u0 u1 u2 u3 u4 u5 u6
  simp only [octetsOf, wordOf, List.range_succ, List.range_zero, List.nil_append, List.foldl_cons, List.foldl_nil, List.map_cons,
    List.map_nil, List.cons_append, low, u0, u1, u2, u3, u4, u5, u6]

theorem octetsOf_wordOf_of_length (l : List Byte) (h : l.length ≤ 8) : octetsOf (wordOf l) = l ++ List.replicate (8 - l.length) 0 := by
  rw [octetsOf_wordOf]
  apply List.ext_getElem
  · simp; omega
  · intro i h1 h2
    rcases lt_or_ge i l.length with hi | hi <;> simp [hi]

theorem flatMap_octetsOf_wordsOf (l : List Byte) : ∃ k, (wordsOf l).flatMap octetsOf = l ++ List.replicate k 0 := by
  induction l using wordsOf.induct with
  | case1 a b c d e f g h l ih =>
    obtain ⟨k, hk⟩ := ih
    exact ⟨k, by simp [wordsOf, hk, octetsOf_wordOf_of_length]⟩
  | case2 => exact ⟨0, rfl⟩
  | case3 l h1 h2 =>
    have hlen : l.length ≤ 8 := by
      rcases l with _ | ⟨a, _ | ⟨b, _ | ⟨c, _ | ⟨d, _ | ⟨e, _ | ⟨f, _ | ⟨g, _ | ⟨h, l⟩⟩⟩⟩⟩⟩⟩⟩
      case cons.cons.cons.cons.cons.cons.cons.cons => exact (h1 _ _ _ _ _ _ _ _ _ rfl).elim
      all_goals simp
    have hword : wordsOf l = [wordOf l] := by
      unfold wordsOf
      split
      · exact (h1 _ _ _ _ _ _ _ _ _ rfl).elim
      · exact absurd rfl h2
      · rfl
    exact ⟨8 - l.length, by simp [hword, octetsOf_wordOf_of_length l hlen]⟩

theorem content_wordsOf (l : List Byte) :
    ({ words := (wordsOf l).map (fun w => (w, false)), len := l.length } : Item).content = l := by
  obtain ⟨k, hk⟩ := flatMap_octetsOf_wordsOf l
  simp [Item.content, List.flatMap_map, hk]

/-- Settles O10: words hold their octets with zeros after them, and the units and the shim their fields. -/
theorem contentRoundTrips : Obligations.ContentRoundTrips :=
  ⟨content_wordsOf, fun us n => readUnits_unitOctets us n,
    fun h h1 h2 h3 h4 h5 => ⟨by simp [Shim.octets, packOctets], Shim.read_octets h1 h2 h3 h4 h5⟩⟩

end Sys2Proof.Machine
end

section
/-! PROOFS. The coding of a frame: whitening (R124), the checks of the LDPC code (R125 to R127), the places of the header bits (R118)
and of the bits of an interleaver block (R130). -/

namespace Sys2Proof.Machine

open Sys2Proof

/-! ### Whitening (R124) -/

theorem whiten_whiten (s : BitVec 23) (l : List Byte) : whiten s (whiten s l) = l := by
  induction l generalizing s with
  | nil => rfl
  | cons b l ih => simp [whiten, ih]

theorem whiteBody_whiteBody (src : Nat) (b : List Byte) : whiteBody src (whiteBody src b) = b := by
  rcases le_or_gt b.length 12 with hshort | hlong
  · have hclear : whiteBody src b = b := by
      rw [whiteBody, List.drop_eq_nil_of_le hshort, List.take_of_length_le hshort, whiten, List.append_nil]
    rw [hclear, hclear]
  · have hlen : (b.take 12).length = 12 := by simp; omega
    have hctr (x : List Byte) : ((b.take 12 ++ x).drop 4).take 8 = (b.drop 4).take 8 := by
      rw [List.drop_append_of_le_length (by omega), List.take_append_of_le_length (by simp; omega), List.drop_take, List.take_take]
      rfl
    rw [whiteBody, whiteBody, hctr, List.take_left' hlen, List.drop_left' hlen, whiten_whiten, List.take_append_drop]

/-! ### The LDPC code (R125 to R127) -/

theorem xor_zero_block (v : BitVec 256) : v ^^^ 0 = v := BitVec.xor_zero

/-- The blocks of a list of block indices, added up. -/
def lamSum (lam : Nat → BitVec 256) (n : Nat) : BitVec 256 := (List.range n).foldl (fun v i => v ^^^ lam i) 0

theorem lamSum_succ (lam : Nat → BitVec 256) (n : Nat) : lamSum lam (n + 1) = lamSum lam n ^^^ lam n := by
  simp [lamSum, List.range_succ]

theorem getD_zero_ldpcRest (lam : Nat → BitVec 256) (m : Nat) (p0 : BitVec 256) (l : List Nat) (p : BitVec 256) :
    (ldpcRest lam m p0 l p).getD 0 0 = p := by cases l <;> simp [ldpcRest]

/-- Each parity block follows from the one before it by the check of the row between them. -/
theorem getD_succ_ldpcRest (lam : Nat → BitVec 256) (m : Nat) (p0 : BitVec 256) (a n : Nat) (p : BitVec 256) {k : Nat} (hk : k < n) :
    (ldpcRest lam m p0 (List.range' a n) p).getD (k + 1) 0 =
      lam (a + k) ^^^ (ldpcRest lam m p0 (List.range' a n) p).getD k 0 ^^^ (if a + k = m / 2 then p0 else 0) := by
  induction n generalizing a p k with
  | zero => omega
  | succ n ih =>
    rw [List.range'_succ, ldpcRest, List.getD_cons_succ]
    cases k with
    | zero => rw [getD_zero_ldpcRest, List.getD_cons_zero, Nat.add_zero]
    | succ k =>
      rw [ih _ _ (by omega), List.getD_cons_succ, Nat.add_assoc a 1 k, Nat.add_comm 1 k]

/-- Parity block `k + 1` of rows `0` to `k`: what the checks of those rows leave. -/
theorem getD_ldpcRest (lam : Nat → BitVec 256) {m : Nat} (hm : 2 ≤ m) (p0 r : BitVec 256) (n : Nat) {k : Nat} (hk : k ≤ n) :
    (ldpcRest lam m p0 (List.range' 1 n) (lam 0 ^^^ r)).getD k 0 = lamSum lam (k + 1) ^^^ r ^^^ (if m / 2 ≤ k then p0 else 0) := by
  induction k with
  | zero =>
    rw [getD_zero_ldpcRest, if_neg (by omega), lamSum_succ]
    simp [lamSum]
  | succ k ih =>
    rw [getD_succ_ldpcRest lam m p0 1 n _ (by omega), ih (by omega), lamSum_succ lam (k + 1), Nat.add_comm 1 k]
    by_cases h1 : m / 2 ≤ k
    · rw [if_pos h1, if_neg (by omega), if_pos (by omega), xor_zero_block]
      ac_nf
    · by_cases h2 : k + 1 = m / 2
      · rw [if_neg h1, if_pos h2, if_pos (by omega), xor_zero_block]
        ac_nf
      · rw [if_neg h1, if_neg h2, if_neg (by omega)]
        ac_nf

theorem three_le_ldpcRows (rate : Nat) : 3 ≤ ldpcRows rate := by
  unfold ldpcRows ldpcA
  split <;> decide

/-- The parity blocks of a codeword. -/
theorem ldpcParity_eq (rate : Nat) (u : List (BitVec 256)) :
    ldpcParity rate u = lamSum (ldpcLam rate u) (ldpcRows rate) ::
      ldpcRest (ldpcLam rate u) (ldpcRows rate) (lamSum (ldpcLam rate u) (ldpcRows rate)) (List.range' 1 (ldpcRows rate - 2))
        (ldpcLam rate u 0 ^^^ ldpcRot (lamSum (ldpcLam rate u) (ldpcRows rate)) 1) := by
  have hrows : (List.range (ldpcRows rate - 2)).map (fun t => t + 1) = List.range' 1 (ldpcRows rate - 2) := by
    simp [List.range'_eq_map_range, Nat.add_comm]
  rw [← hrows]
  rfl

/-- The information part of a check reads the information blocks alone. -/
theorem ldpcLam_append (rate : Nat) {u : List (BitVec 256)} (v : List (BitVec 256)) (hu : u.length = ldpcCols rate) (i : Nat) :
    ldpcLam rate (u ++ v) i = ldpcLam rate u i := by
  unfold ldpcLam
  apply List.foldl_ext
  intro w j hj
  rw [List.getD_append _ _ _ _ (by rw [hu]; exact List.mem_range.1 hj)]

theorem ldpcCheck_codeword (rate : Nat) {u : List (BitVec 256)} (hu : u.length = ldpcCols rate) {i : Nat} (hi : i < ldpcRows rate) :
    ldpcCheck rate (u ++ ldpcParity rate u) i = 0 := by
  have hm := three_le_ldpcRows rate
  have hat (k : Nat) : (u ++ ldpcParity rate u).getD (ldpcCols rate + k) 0 = (ldpcParity rate u).getD k 0 := by
    rw [List.getD_append_right _ _ _ _ (by omega), hu, Nat.add_sub_cancel_left]
  unfold ldpcCheck
  dsimp only
  rw [ldpcLam_append rate _ hu, ← Nat.add_zero (ldpcCols rate), Nat.add_zero (ldpcCols rate + 0), hat]
  simp only [Nat.add_zero, Nat.add_assoc, hat]
  rw [ldpcParity_eq]
  generalize ldpcLam rate u = lam at *
  generalize ldpcRows rate = m at *
  simp only [List.getD_cons_zero, List.getD_cons_succ]
  cases i with
  | zero =>
    rw [if_pos (by omega), if_neg (by omega), if_pos (by omega), getD_zero_ldpcRest]
    ac_nf
    simp
  | succ k =>
    rw [List.getD_cons_succ]
    rcases lt_or_ge (k + 2) m with hmid | hlast
    · rw [if_neg (show ¬(k + 1 = 0 ∨ k + 1 = m - 1) by omega), if_pos (show 1 ≤ k + 1 by omega), if_pos hmid,
        getD_succ_ldpcRest _ _ _ _ _ _ (by omega), Nat.add_comm 1 k]
      ac_nf
      simp
    · obtain rfl : m = k + 2 := by omega
      rw [if_pos (by omega), if_pos (by omega), if_neg (by omega), getD_ldpcRest _ (by omega) _ _ _ (by omega), if_pos (by omega)]
      conv_lhs => rw [lamSum_succ lam (k + 1)]
      ac_nf
      simp

/-! ### Places (R118, R130) -/

theorem hdrAt_place (h : BitVec 96) {j : Nat} (hj : j < 288) : hdrAt h (97 * j % 288) = hdrCoded h j := by
  rw [hdrAt, if_pos (by omega)]
  congr 1
  omega

theorem singlePlace_place (f : Form) (first n i : Nat) : singlePlace f first n (first + i % n) (i / n) = first * f.bits + i := by
  rw [singlePlace, Nat.add_sub_cancel_left, Nat.add_assoc, Nat.div_add_mod']

/-- The bits of a data tine start at its own number of steps (R130). -/
theorem rotate_back {a j q T : Nat} (ha : a < q) (hj : j < T) : ((a + j) % q + q * T - j) % q = a := by
  have hle : j ≤ q * T := le_trans hj.le (Nat.le_mul_of_pos_left T (by omega))
  rw [Nat.add_sub_assoc hle, Nat.mod_add_mod, Nat.add_assoc, Nat.add_sub_cancel' hle, Nat.add_mul_mod_self_left,
    Nat.mod_eq_of_lt ha]

theorem muxPlace_place (f : Form) (first n i : Nat) (hmux : f.mux = true) (hi : i < n * f.bits) :
    muxPlace f first n (first + i % n) (i / n % (f.s * (15 * f.n / 16)))
      ((i / n / (f.s * (15 * f.n / 16)) + i / n % (f.s * (15 * f.n / 16))) % (2 * f.load)) = first * f.bits + i := by
  have hbits : f.bits = f.s * (15 * f.n / 16) * (2 * f.load) := by rw [Form.bits, if_pos hmux]
  unfold muxPlace
  dsimp only
  generalize f.s * (15 * f.n / 16) = T at *
  have hu : i / n < T * (2 * f.load) := hbits ▸ Nat.div_lt_of_lt_mul hi
  have hT : 0 < T := Nat.pos_of_ne_zero (fun h => by simp [h] at hu)
  rw [rotate_back (Nat.div_lt_of_lt_mul hu) (Nat.mod_lt _ hT), Nat.div_add_mod', Nat.add_sub_cancel_left, Nat.add_assoc,
    Nat.div_add_mod']

/-- Settles O12: whitening undoes itself, every row of checks is met, and every place is read where it was put. -/
theorem frameCodingRoundTrips : Obligations.FrameCodingRoundTrips := by
  refine ⟨whiteBody_whiteBody, fun rate i info u _ hi hu => ?_, fun h j hj => hdrAt_place h hj,
    fun f first n i u tines hmux _ hi hu ht => ?_,
    fun f first n i _ => singlePlace_place f first n i⟩
  · exact ldpcCheck_codeword rate (by simp [hu, infoBlocks]) hi
  · subst hu ht
    exact muxPlace_place f first n i hmux hi

end Sys2Proof.Machine
end

section
/-! PROOFS. Commands as runs of one effect, and four rules that name when a request is refused: a deep queue's EN (R268), SVN_COMMIT
(R313), a page's JEN (R303) and M above C (R339). -/

namespace Sys2Proof.Machine

open Sys2Proof

/-! ### A command and its effect -/

/-- A command of a clock that REFCLK_SYS drives, in a block that takes commands, by its effect on the device. -/
theorem exec_of_clk {c : Instr} {s : State} {t : Nat} {d e : Dev} {f : Dev → Dev} (hc : exec c s = s.runClk t f) (h : s.ready t d)
    (he : f d = e) : exec c s = .next (s.to e) := by
  rw [hc, State.runClk_ready f h, he]

/-- A command that needs no clock, RESET_N high, by its effect on the device. -/
theorem exec_of_run {c : Instr} {s : State} {t : Nat} {d e : Dev} {f : Dev → Dev} (hc : exec c s = s.run t f) (h : s.awake t d)
    (he : f d = e) : exec c s = .next (s.to e) := by
  rw [hc, State.run_awake f h, he]

/-! ### Setting EN of a deep queue (R247, R268) -/

@[simp] theorem Dev.ripen_word (d : Dev) (a : Nat) : d.ripen.word a = d.word a := rfl
@[simp] theorem Dev.ripen_rd (d : Dev) (f : Field) : d.ripen.rd f = d.rd f := rfl
@[simp] theorem Dev.ripen_domOn (d : Dev) (n : Nat) : d.ripen.domOn n = d.domOn n := rfl
@[simp] theorem Dev.ripen_ringsBut (d : Dev) (q : Nat) : d.ripen.ringsBut q = d.ringsBut q := rfl

theorem exec_queueEnable (t : Nat) (q : QueueId) (s : State) :
    exec (.queueEnable t q) s = s.runClk t (fun d => if d.domOn 76 then (d.enableQueue q).pfcCheck else d) := rfl

theorem sum_runs_of_takeRuns {n : Nat} {l r : List (Nat × Nat)} {cs : List Nat} (h : takeRuns n l = some (cs, r)) :
    n ≤ (l.map Prod.snd).sum := by
  by_contra hlt
  have hnone := (cellsComeFromTheHead n l).2.2 (not_le.mp hlt)
  simp [hnone] at h

/-- The check of R268 on a device whose free list holds 48 cells. -/
theorem Dev.ripen_deepOk_iff (d : Dev) (q dlog : Nat) (hcells : 48 ≤ (d.ripen.free.map Prod.snd).sum) :
    d.ripen.deepOk q dlog = true ↔ dlog ≤ 22 ∧ d.rd (F.QD_BASE_DBASE q) + 2 ^ dlog ≤ 4194304 ∧
      (∀ r ∈ d.ringsBut q, r.1 + r.2 ≤ d.rd (F.QD_BASE_DBASE q) ∨ d.rd (F.QD_BASE_DBASE q) + 2 ^ dlog ≤ r.1) ∧
      d.domOn 78 = true := by
  have hfree : 48 ≤ d.ripen.freeCells := le_trans hcells (Nat.le_add_right _ _)
  simp only [Dev.deepOk, Bool.and_eq_true, List.all_eq_true, Bool.or_eq_true, decide_eq_true_eq, and_assoc]
  simp [hfree]

theorem Dev.enableDeep_refused {d : Dev} {q : Nat} {v : Word32}
    (h : (d.ripen.free.map Prod.snd).sum < 48 ∨ d.ripen.deepOk q (getBits v 0 5) = false) :
    d.enableDeep q v = d.ripen.raise F.CV_STATUS_QREJ := by
  unfold Dev.enableDeep
  dsimp only
  split
  next => rfl
  next htake =>
    have hbad := h.resolve_left (not_lt.mpr (sum_runs_of_takeRuns htake))
    rw [if_neg (by simp [hbad])]

theorem Dev.enableDeep_taken {d : Dev} {q : Nat} {v : Word32} {cs : List Nat} {l : List (Nat × Nat)}
    (htake : takeRuns 48 d.ripen.free = some (cs, l)) (hok : d.ripen.deepOk q (getBits v 0 5) = true) :
    d.enableDeep q v = ({ d.ripen with free := l }.setWord (A.QD_CFG q) v).setDq q { staging := cs } := by
  unfold Dev.enableDeep
  dsimp only
  rw [htake]
  dsimp only
  rw [if_pos hok]

/-- Settles O21: the check of R268, and the taking of 48 cells. -/
theorem deepEnableRule : Obligations.DeepEnableRule := by
  intro s t d q v base dlog hready hcnv hoff hbase hdlog hv
  have hfield : getBits v 0 5 = dlog := by
    rw [hv, getBits_putBits_below _ _ (by decide) (by decide), hdlog]
    rfl
  have heffect {e : Dev} (he : d.enableDeep q.val v = e) : exec (.queueEnable t (.deep q)) s = .next (s.to e.pfcCheck) :=
    exec_of_clk (exec_queueEnable t (.deep q) s) hready (by simp [hcnv, Dev.enableQueue, hoff, ← hv, he])
  subst hbase
  constructor
  · intro hcase
    refine heffect (Dev.enableDeep_refused ?_)
    rcases lt_or_ge (d.ripen.free.map Prod.snd).sum 48 with hfew | hcells
    · exact .inl hfew
    · right
      rw [hfield, ← Bool.not_eq_true, Dev.ripen_deepOk_iff d q.val dlog hcells]
      rintro ⟨h1, h2, h3, h4⟩
      rcases hcase with h | h | ⟨r, hr, h⟩ | h | h
      · omega
      · omega
      · have := h3 r hr
        omega
      · simp [h4] at h
      · omega
  · intro cs l g h1 h2 h3 h4 htake hg
    subst hg
    refine heffect (Dev.enableDeep_taken htake ?_)
    rw [hfield, Dev.ripen_deepOk_iff d q.val dlog (sum_runs_of_takeRuns htake)]
    exact ⟨h1, h2, h3, h4⟩

/-! ### SVN_COMMIT (R313) -/

/-- The bits set, as a finite set. -/
theorem onesIn_eq_card (n : Nat) (w : BitVec n) : onesIn n w = ((Finset.range n).filter (fun i => w.getLsbD i)).card := by
  simp [onesIn, Finset.card_def, Finset.filter_val, Finset.range_val, Multiset.range]

theorem onesIn_or_bit_le (w : BitVec 128) (k : Nat) : onesIn 128 (w ||| (1#128 <<< k)) ≤ onesIn 128 w + 1 := by
  rw [onesIn_eq_card, onesIn_eq_card, ← Finset.card_singleton k]
  refine le_trans (Finset.card_le_card ?_) (Finset.card_union_le _ _)
  intro i hi
  simp only [Finset.mem_filter, Finset.mem_union, Finset.mem_range, Finset.mem_singleton, BitVec.getLsbD_or,
    Bool.or_eq_true] at hi ⊢
  obtain ⟨hlt, hbit | hbit⟩ := hi
  · exact .inl ⟨hlt, hbit⟩
  · simp at hbit
    omega

/-- No bit is cleared. -/
theorem and_raiseBits (n k : Nat) (w : BitVec 128) : w &&& raiseBits n k w = w := by
  induction k with
  | zero => simp [raiseBits]
  | succ k ih =>
    rw [raiseBits]
    split
    · have hbit : w &&& (raiseBits n k w ||| 1#128 <<< k) = w &&& raiseBits n k w ||| w &&& 1#128 <<< k := by
        ext i hi
        simp [Bool.and_or_distrib_left]
      rw [hbit, ih]
      ext i hi
      simp
      tauto
    · exact ih

/-- Until the value is reached every bit that was looked at is set. -/
theorem raiseBits_spec {n : Nat} (k : Nat) {w : BitVec 128} (hw : onesIn 128 w ≤ n) :
    onesIn 128 (raiseBits n k w) = n ∨
      onesIn 128 (raiseBits n k w) < n ∧ ∀ i, i < k → i < 128 → (raiseBits n k w).getLsbD i = true := by
  induction k with
  | zero => exact (Nat.eq_or_lt_of_le hw).imp_right (fun h => ⟨h, by omega⟩)
  | succ k ih =>
    rw [raiseBits]
    split
    next hlow =>
      obtain ⟨-, hset⟩ := ih.resolve_left (by omega)
      have hle := onesIn_or_bit_le (raiseBits n k w) k
      refine (Nat.eq_or_lt_of_le (show onesIn 128 (raiseBits n k w ||| 1#128 <<< k) ≤ n by omega)).imp_right (fun h => ⟨h, ?_⟩)
      intro i hi hi'
      rcases Nat.lt_succ_iff_lt_or_eq.1 hi with h | rfl
      · simp [hset i h hi']
      · simp [hi']
    next hreached => exact .inl (by omega)

theorem onesIn_raiseBits {n : Nat} {w : BitVec 128} (hw : onesIn 128 w ≤ n) (hn : n ≤ 128) : onesIn 128 (raiseBits n 128 w) = n := by
  refine (raiseBits_spec 128 hw).resolve_right ?_
  rintro ⟨hlt, hset⟩
  have hall : onesIn 128 (raiseBits n 128 w) = 128 := by
    rw [onesIn_eq_card, Finset.filter_true_of_mem (fun i hi => hset i (Finset.mem_range.1 hi) (Finset.mem_range.1 hi)),
      Finset.card_range]
  omega

theorem raiseBits_of_le {n : Nat} (k : Nat) {w : BitVec 128} (h : n ≤ onesIn 128 w) : raiseBits n k w = w := by
  induction k with
  | zero => rfl
  | succ k ih => simp [raiseBits, ih, h]

theorem Dev.wr_withRoot (d : Dev) (f : Field) (v : Nat) (r : Root) :
    { d.wr f v with root := r } = ({ d with root := r } : Dev).wr f v := rfl

theorem Dev.setWord_withRoot (d : Dev) (a : Nat) (w : Word32) (r : Root) :
    { d.setWord a w with root := r } = ({ d with root := r } : Dev).setWord a w := rfl

/-- What the end of SVN_COMMIT makes of the device. -/
theorem Dev.otpDone_svnCommit {d : Dev} {w : BitVec 128} (hcmd : d.root.cmd = some (3, 0))
    (hw : raiseBits (d.rd F.RT_STATUS_IMGSVN) 128 d.root.otp.svnBits = w) :
    d.otpDone = (((({ d with root := { d.root with otp := { d.root.otp with svnBits := w }, cmd := none } }.wr F.RT_STATUS_SVNCTR
      (onesIn 128 w)).wr F.RT_CMD_RES 0).setWord A.RT_CONFIRM 0).wr F.RT_CMD_BUSY 0) := by
  have heffect : d.rtEffect 3 = { d with root := { d.root with otp := { d.root.otp with svnBits := w } } }.wr F.RT_STATUS_SVNCTR
      (onesIn 128 w) := by
    simp only [Dev.rtEffect, hw]
    rfl
  simp only [Dev.otpDone, hcmd, if_true, heffect, Dev.rtRes]
  rw [Dev.wr_withRoot, Dev.setWord_withRoot, Dev.wr_withRoot, Dev.wr_withRoot]
  rfl

/-- Settles O22: the bits are raised from the lowest, as far as the value asks. -/
theorem svnCommitRule : Obligations.SvnCommitRule := by
  intro s t d g hawake hcmd
  constructor
  · intro hlt hmax
    have hones : onesIn 128 (raiseBits (d.rd F.RT_STATUS_IMGSVN) 128 d.root.otp.svnBits) = d.rd F.RT_STATUS_IMGSVN :=
      onesIn_raiseBits (le_of_lt hlt) hmax
    refine ⟨_, _, hones, and_raiseBits _ _ _, rfl, exec_of_run rfl hawake ?_⟩
    rw [Dev.otpDone_svnCommit hcmd rfl, hones]
  · intro hle hg
    subst hg
    refine exec_of_run rfl hawake ?_
    rw [Dev.otpDone_svnCommit hcmd (raiseBits_of_le 128 hle)]
    rfl

/-! ### JEN (R303) -/

theorem exec_jen (t : Nat) (p : PageId) (s : State) : exec (.jen t p) s =
    s.runClk t (fun d => if d.domOn 70 then (d.writeJcfg p.val (d.word (A.PG_JCFG p.val) ||| 0x2000#32)).2 else d) := rfl

/-- A field of a word that a bitwise operation leaves, from its bits. -/
theorem getBits_congr {v w : Word32} {lo n : Nat} (h : ∀ i, i < n → v.getLsbD (lo + i) = w.getLsbD (lo + i)) :
    getBits v lo n = getBits w lo n := by
  have hbits : v.extractLsb' lo n = w.extractLsb' lo n := by
    ext i hi
    simpa using h i hi
  have (x : Word32) : getBits x lo n = (x.extractLsb' lo n).toNat := by simp [getBits, Nat.shiftRight_eq_div_pow]
  rw [this, this, hbits]

/-- Setting JEN leaves every other bit. -/
theorem getLsbD_or_jen (w : Word32) {i : Nat} (h : i < 32) (hi : i ≠ 13) : (w ||| 0x2000#32).getLsbD i = w.getLsbD i := by
  have hzero : ∀ i, i < 32 → i ≠ 13 → (0x2000#32).getLsbD i = false := by decide
  rw [BitVec.getLsbD_or, hzero i h hi, Bool.or_false]

/-- The bits of PG_JCFG that are written. -/
theorem getLsbD_and_jcfg (w : Word32) {i : Nat} (h : i < 29) (hi : i ≠ 14 ∧ i ≠ 15) :
    (w &&& 0x1FFF3FFF#32).getLsbD i = w.getLsbD i := by
  have hone : ∀ i, i < 29 → i ≠ 14 ∧ i ≠ 15 → (0x1FFF3FFF#32).getLsbD i = true := by decide
  rw [BitVec.getLsbD_and, hone i h hi, Bool.and_true]

theorem Dev.jenOk_iff (d : Dev) (p : Nat) (w : Word32) : d.jenOk p (w ||| 0x2000#32) = true ↔
    d.on (F.QS_CFG_EN (getBits w 0 13)) = true ∧ d.on (F.QS_CFG_EN (getBits w 16 13)) = true ∧
      d.rd (F.QS_OWN_TENANT (getBits w 0 13)) = p ∧ d.rd (F.QS_OWN_TENANT (getBits w 16 13)) = p ∧
      getBits w 0 13 ≠ getBits w 16 13 := by
  have hin : getBits (w ||| 0x2000#32) 0 13 = getBits w 0 13 :=
    getBits_congr (fun i hi => getLsbD_or_jen w (by omega) (by omega))
  have hout : getBits (w ||| 0x2000#32) 16 13 = getBits w 16 13 :=
    getBits_congr (fun i hi => getLsbD_or_jen w (by omega) (by omega))
  simp [Dev.jenOk, hin, hout, and_assoc]

/-- What a write of PG_JCFG with JEN leaves in its fields. -/
theorem getBits_jcfg (w : Word32) : getBits ((w ||| 0x2000#32) &&& 0x1FFF3FFF#32) 0 13 = getBits w 0 13 ∧
    getBits ((w ||| 0x2000#32) &&& 0x1FFF3FFF#32) 16 13 = getBits w 16 13 ∧
    getBits ((w ||| 0x2000#32) &&& 0x1FFF3FFF#32) 13 1 = 1 := by
  refine ⟨getBits_congr (fun i hi => ?_), getBits_congr (fun i hi => ?_), ?_⟩
  · rw [getLsbD_and_jcfg _ (by omega) (by omega), getLsbD_or_jen _ (by omega) (by omega)]
  · rw [getLsbD_and_jcfg _ (by omega) (by omega), getLsbD_or_jen _ (by omega) (by omega)]
  · have hone : getBits ((w ||| 0x2000#32) &&& 0x1FFF3FFF#32) 13 1 = getBits 0x2000#32 13 1 := by
      refine getBits_congr (fun i hi => ?_)
      obtain rfl : i = 0 := by omega
      rw [getLsbD_and_jcfg _ (by omega) (by omega), BitVec.getLsbD_or]
      simp
    rw [hone]
    decide

/-- Settles O23: the checks of R303 on the word with JEN set. -/
theorem jobQueueRule : Obligations.JobQueueRule := by
  intro s t i o d p hready hon hwf hi ho
  have hok := d.jenOk_iff p.val (d.word (A.PG_JCFG p.val))
  change i = getBits (d.word (A.PG_JCFG p.val)) 0 13 at hi
  change o = getBits (d.word (A.PG_JCFG p.val)) 16 13 at ho
  rw [← hi, ← ho] at hok
  have heffect {b : Bool} {e : Dev} (he : d.writeJcfg p.val (d.word (A.PG_JCFG p.val) ||| 0x2000#32) = (b, e)) :
      exec (.jen t p) s = .next (s.to e) := exec_of_clk (exec_jen t p s) hready (by simp [hon, he])
  constructor
  · intro hbad
    have hno : d.jenOk p.val (d.word (A.PG_JCFG p.val) ||| 0x2000#32) = false := by
      rw [← Bool.not_eq_true, hok]
      rintro ⟨h1, h2, h3, h4, h5⟩
      simp [h1, h2, h3, h4, h5] at hbad
    exact heffect (by rw [Dev.writeJcfg, if_pos (by simp [hno])])
  · intro h1 h2 h3 h4 h5
    have hyes := hok.2 ⟨h1, h2, h3, h4, h5⟩
    obtain ⟨f1, f2, f3⟩ := getBits_jcfg (d.word (A.PG_JCFG p.val))
    refine ⟨_, heffect (by rw [Dev.writeJcfg, if_neg (by simp [hyes])]), ?_, ?_, ?_, fun a ha => d.word_setWord_ne _ _ _ ha⟩
    · simp only [Dev.on, Dev.rd, F.PG_JCFG_JEN, d.word_setWord _ _ hwf, f3]
      rfl
    · simp only [Dev.rd, F.PG_JCFG_JINQ, d.word_setWord _ _ hwf, f1, hi]
    · simp only [Dev.rd, F.PG_JCFG_JOUTQ, d.word_setWord _ _ hwf, f2, ho]

/-! ### Notices leave the registers but the count of those lost (R366) -/

theorem Dev.notLost_eq (d : Dev) (n : Nat) : ∃ r h, d.notLost n = { d with regs := r, hw := h } := by
  unfold Dev.notLost
  split
  · exact ⟨_, _, rfl⟩
  · exact ⟨_, _, rfl⟩

theorem Dev.mgRise_eq (d : Dev) (code n : Nat) : ∃ r h ss l g m, d.mgRise code n =
    { d with regs := r, hw := h, sessions := ss, ring := l, gather := g, mgSec := m } := by
  unfold Dev.mgRise
  dsimp only
  split
  · exact ⟨_, _, _, _, _, _, rfl⟩
  · obtain ⟨r, h, hlost⟩ := Dev.notLost_eq ({ d with mgSec := Tab.put d.mgSec code (d.now / 1000000000 + 1) }.queueNotice
      { cls := 10, code := code, arg := n }).2 ({ d with mgSec := Tab.put d.mgSec code (d.now / 1000000000 + 1) }.queueNotice
      { cls := 10, code := code, arg := n }).1
    exact ⟨_, _, _, _, _, _, hlost⟩

/-- What a notice can change. -/
theorem Dev.notice_eq (d : Dev) (n : Notice) : ∃ r h ss l g m, d.notice n =
    { d with regs := r, hw := h, sessions := ss, ring := l, gather := g, mgSec := m } := by
  unfold Dev.notice
  dsimp only
  split
  · exact ⟨_, _, _, _, _, _, rfl⟩
  · obtain ⟨r, h, hlost⟩ := Dev.notLost_eq (d.queueNotice n).2 (d.queueNotice n).1
    obtain ⟨r', h', ss, l, g, m, hrise⟩ := Dev.mgRise_eq ((d.queueNotice n).2.notLost (d.queueNotice n).1) 2 (d.queueNotice n).1
    rw [hrise, hlost]
    exact ⟨_, _, _, _, _, _, rfl⟩

theorem Dev.notLost_word (d : Dev) (n : Nat) {a : Nat} (h : a ≠ A.MG_CNT2) : (d.notLost n).word a = d.word a := by
  unfold Dev.notLost
  split
  · rfl
  · exact d.word_wr_ne F.MG_CNT2_NOTLOST _ a h

theorem Dev.mgRise_word (d : Dev) (code count : Nat) {a : Nat} (h : a ≠ A.MG_CNT2) : (d.mgRise code count).word a = d.word a := by
  unfold Dev.mgRise
  dsimp only
  split
  · rfl
  · exact Dev.notLost_word _ _ h

theorem Dev.notice_word (d : Dev) (n : Notice) {a : Nat} (h : a ≠ A.MG_CNT2) : (d.notice n).word a = d.word a := by
  unfold Dev.notice
  dsimp only
  split
  · rfl
  · rw [Dev.mgRise_word _ _ _ h, Dev.notLost_word _ _ h]
    rfl

/-! ### M above C (R339) -/

/-- The device once the samples of a tick are taken, before M is compared with C. -/
def Dev.sampled (d : Dev) (l : List (Nat × Nat)) : Dev :=
  let e : Dev := { d with gov := { d.gov with power := l } }
  let m := (roundQuotient e.windowEnergy 100000).toNat
  let e := { e with gov := { e.gov with m := m } }
  e.wr F.GV_PWR_PWR (min 65535 (roundQuotient m e.winMs).toNat)

theorem Dev.takePower_eq (d : Dev) (was : Bool) (rails : List Nat) {l : List (Nat × Nat)}
    (hl : l = (d.gov.power ++ [(d.now, rails.sum)]).filter (fun e => d.now < e.1 + 1000000 * d.winMs)) :
    d.takePower was rails = if (d.sampled l).overCap then
      (if was then (d.sampled l).raise F.GV_STATUS_OVERBUD else ((d.sampled l).raise F.GV_STATUS_OVERBUD).notice { cls := 8, code := 0 })
      else d.sampled l := by
  subst hl
  rfl

theorem Dev.sampled_overCap (d : Dev) (l : List (Nat × Nat)) :
    (d.sampled l).overCap = decide (100000 * d.cap < (l.map Prod.snd).sum) := by
  have hcap : (d.sampled l).cap = d.cap := by
    unfold Dev.cap Dev.capOf Dev.winMs
    rw [show (d.sampled l).rd F.GV_MODE_WIN = d.rd F.GV_MODE_WIN from Dev.rd_wr_ne _ F.GV_PWR_PWR F.GV_MODE_WIN _ (by decide)]
    rfl
  unfold Dev.overCap
  rw [hcap]
  rfl

theorem Dev.sampled_word (d : Dev) (l : List (Nat × Nat)) {a : Nat} (h : a ≠ A.GV_PWR) : (d.sampled l).word a = d.word a :=
  Dev.word_wr_ne _ F.GV_PWR_PWR _ a h

/-- Settles O24: above C the samples are kept and OVERBUD is set, and a notice may be sent; nothing else changes. -/
theorem overBudgetRule : Obligations.OverBudgetRule := by
  intro d e was rails l hwf hl hover he
  have hwf' : Regs.wf (d.sampled l).regs = true := Dev.setWord_wf _ _ _ hwf
  obtain ⟨r, hr⟩ : ∃ r, r = (d.sampled l).raise F.GV_STATUS_OVERBUD := ⟨_, rfl⟩
  have hcases : e = r ∨ e = r.notice { cls := 8, code := 0 } := by
    rw [he, d.takePower_eq was rails hl, Dev.sampled_overCap, decide_eq_true hover, if_pos rfl, ← hr]
    cases was <;> simp
  have hkeep : e.gov = r.gov ∧ e.chan = r.chan ∧ ∀ a, a ≠ A.MG_CNT2 → e.word a = r.word a := by
    rcases hcases with rfl | rfl
    · exact ⟨rfl, rfl, fun _ _ => rfl⟩
    · obtain ⟨_, _, _, _, _, _, heq⟩ := r.notice_eq { cls := 8, code := 0 }
      exact ⟨by rw [heq], by rw [heq], fun a ha => r.notice_word _ ha⟩
  obtain ⟨hgov, hchan, hword⟩ := hkeep
  have hwordd {a : Nat} (h1 : a ≠ A.MG_CNT2) (h2 : a ≠ A.GV_STATUS) (h3 : a ≠ A.GV_PWR) : e.word a = d.word a := by
    rw [hword a h1, hr, Dev.raise, Dev.word_wr_ne _ F.GV_STATUS_OVERBUD _ a h2]
    exact d.sampled_word l h3
  refine ⟨?_, ?_, ?_, fun n hn => ?_, fun k hk => ?_⟩
  · have hset : r.rd F.GV_STATUS_OVERBUD = 1 := by
      exact hr ▸ Dev.rd_wr_same ((d.sampled l).hwNote F.GV_STATUS_OVERBUD 1) F.GV_STATUS_OVERBUD 1 hwf' (by decide)
    rw [Dev.on, Dev.rd, hword _ (by decide), ← Dev.rd, hset]
    rfl
  · rw [hgov, hr]
    rfl
  · rw [hchan, hr]
    rfl
  · have haddr : A.GV_PDSTAT0 + 4 * (n / 32) = 0x10030 + 4 * (n / 32) := rfl
    unfold Dev.domOn
    rw [haddr, hwordd (a := _)
      (ne_of_lt (show _ < 0x3101010 by omega)) (ne_of_gt (show 0x1000C < _ by omega)) (ne_of_gt (show 0x10010 < _ by omega))]
  · have haddr : (F.GV_CHSTAT_PHASE k).addr = 0x10200 + 4 * k := rfl
    unfold Dev.phase Dev.rd
    rw [haddr, hwordd (a := _)
      (ne_of_lt (show _ < 0x3101010 by omega)) (ne_of_gt (show 0x1000C < _ by omega)) (ne_of_gt (show 0x10010 < _ by omega))]

end Sys2Proof.Machine
end

section
/-! PROOFS. The commands of mains time (R46 to R56, R63). -/

namespace Sys2Proof.Machine

open Sys2Proof

/-! ### Crossings (R46, R50) -/

/-- The device once the comparator has accepted a crossing. -/
def Dev.hitAt (d : Dev) (input : Nat) : Dev :=
  { d with mains := { d.mains with lastHit := Tab.set 0 d.mains.lastHit input d.now } }

/-- The corrected instant of a crossing that comes now (R44, R50). -/
def Dev.corrected (d : Dev) (input : Nat) : Int := (d.now : Int) - 180 - d.rdS (F.MT_OFS_ZC_OFFSET input)

/-- A crossing that the comparator admits while mains time runs feeds the loop. -/
theorem Dev.crossing_feeds {d : Dev} {input : Nat} {falling : Bool} (hen : d.on (F.MSNS_CFG_EN input) = true)
    (hedge : d.edgeAdmits input falling = true)
    (hblank : Tab.get 0 d.mains.lastHit input = 0 ∨
      Tab.get 0 d.mains.lastHit input + d.rd (F.MSNS_CFG_BLANK input) * 64000 ≤ d.now)
    (hst : d.mst = 2) (hconf : input = d.rd F.MT_CFG_REFSEL → d.refConflict = false) (hpol : d.on F.MT_CFG_REF_EDGE = falling) :
    d.crossing input falling = (d.hitAt input).mainsFeed input (d.corrected input) := by
  have hopen : ¬ ((!d.on (F.MSNS_CFG_EN input)) = true ∨ (!d.edgeAdmits input falling) = true ∨
      (Tab.get 0 d.mains.lastHit input ≠ 0 ∧ d.now < Tab.get 0 d.mains.lastHit input + d.rd (F.MSNS_CFG_BLANK input) * 64000)) := by
    simp only [hen, hedge, Bool.not_true, Bool.false_eq_true, false_or]
    omega
  have hrun : ¬ (d.hitAt input).mst = mtOFF := by
    rw [show (d.hitAt input).mst = 2 from hst]
    decide
  have hplain : ¬ (input = (d.hitAt input).rd F.MT_CFG_REFSEL ∧ (d.hitAt input).refConflict = true) := by
    rintro ⟨hin, hc⟩
    simp [show (d.hitAt input).refConflict = false from hconf hin] at hc
  have hsame : ¬ falling ≠ (d.hitAt input).on F.MT_CFG_REF_EDGE := not_not.mpr hpol.symm
  unfold Dev.crossing
  dsimp only
  rw [if_neg hopen]
  exact (if_neg hrun).trans ((if_neg hplain).trans (if_neg hsame))

/-- In LOCKED or SLEW the primary's crossing is tracked (R52). -/
theorem Dev.mainsFeed_primary {d : Dev} {input : Nat} (z : Int) (hin : d.rd F.MT_CFG_REFSEL = input) (hst : d.mst = 2)
    (halt : d.mains.onAlt = false) : d.mainsFeed input z = d.mainsTrack z := by
  simp [Dev.mainsFeed, hin, hst, halt, mtACQUIRE, mtHOLDOVER, mtFREERUN]

/-- In LOCKED the alternate's crossing teaches its grain while the primary is tracked (R55). -/
theorem Dev.mainsFeed_alternate {d : Dev} {input : Nat} (z : Int) (hin : d.rd F.MT_CFG_REFSEL ≠ input)
    (hsel : d.altInput = some input) (hst : d.mst = 2) (halt : d.mains.onAlt = false) : d.mainsFeed input z = d.learnAlt z := by
  simp [Dev.mainsFeed, Ne.symm hin, hsel, hst, halt, mtLOCKED]

/-- The first crossing of a cycle within the limit is accepted (R52). -/
theorem Dev.mainsTrack_accepts {d : Dev} {z : Int} (hfirst : ∀ h ∈ d.mains.hits, h.1 ≠ (d.cycleOf z).c)
    (hnear : (z - (d.cycleOf z).t0).natAbs * 2 ^ 20 ≤ d.jumpLimit * (d.cycleOf z).l) :
    d.mainsTrack z = { (d.setPherr (d.cycleOf z) (z - (d.cycleOf z).t0)).mtTo mtLOCKED with
      mains := { d.mains with hits := (((d.cycleOf z).c, z, z - (d.cycleOf z).t0) :: d.mains.hits).take 2, outs := [],
                              okCyc := (d.cycleOf z).c, zLast := some (z, (d.cycleOf z).c) } } := by
  have hnew : (d.mains.hits.any (fun h => decide (h.1 = (d.cycleOf z).c) &&
      decide (h.2.2.natAbs ≤ (z - (d.cycleOf z).t0).natAbs))) = false := by
    rw [List.any_eq_false]
    intro h hh
    simp [hfirst h hh]
  have hkeep : d.mains.hits.filter (fun h => h.1 ≠ (d.cycleOf z).c) = d.mains.hits :=
    List.filter_eq_self.2 (fun h hh => by simp [hfirst h hh])
  have hlimit : withinGrains (d.cycleOf z) (z - (d.cycleOf z).t0) (d.setPherr (d.cycleOf z) (z - (d.cycleOf z).t0)).jumpLimit = true := by
    have : (d.setPherr (d.cycleOf z) (z - (d.cycleOf z).t0)).jumpLimit = d.jumpLimit := by
      unfold Dev.jumpLimit
      rw [Dev.setPherr, Dev.wrS, Dev.rd_wr_ne _ _ _ _ (by decide)]
    simpa [withinGrains, this] using hnear
  unfold Dev.mainsTrack
  dsimp only
  rw [hnew, if_neg (by decide), if_pos hlimit, Mains.accept]
  rw [show (d.setPherr (d.cycleOf z) (z - (d.cycleOf z).t0)).mains = d.mains from rfl, hkeep]

/-- An alternate crossing before the sixteenth is kept (R55). -/
theorem Dev.learnAlt_keeps {d : Dev} {z : Int} (hz : (d.mains.cur.t0 : Int) ≤ z)
    (hfew : ((d.mains.cur.at_ z.toNat).2 :: d.mains.altGrains).length < 16) :
    d.learnAlt z = { d with mains := { d.mains with altGrains := (d.mains.cur.at_ z.toNat).2 :: d.mains.altGrains } } := by
  unfold Dev.learnAlt
  dsimp only
  rw [if_neg (not_lt.mpr hz), List.take_of_length_le hfew.le, if_neg hfew.ne]

/-! ### The record of the next cycle (R48, R49, R53, R56) -/

/-- The record of the next cycle for a period. -/
def Mains.recordFor (m : Mains) (period : Int) : CycleRec := ⟨m.cur.c + 1, m.cur.t0 + m.cur.len, (period / 65536).toNat⟩

theorem Dev.fixRecord_held {d : Dev} (hst : d.mst = 4 ∨ d.mst = 5) {period : Int}
    (hp : period = max (15151515 * 2 ^ 20) (min d.mains.p (66666666 * 2 ^ 20))) :
    d.fixRecord = if period ≠ d.mains.p then
      ({ d with mains := { d.mains with held := d.mains.held + 1, next := some (d.mains.recordFor period) } } : Dev).raise F.MT_STATUS_RANGE
      else { d with mains := { d.mains with held := d.mains.held + 1, next := some (d.mains.recordFor period) } } := by
  have htrack : ¬ (d.mst = mtLOCKED ∨ d.mst = mtSLEW) := by
    simp only [mtLOCKED, mtSLEW]
    omega
  unfold Dev.fixRecord
  simp only [htrack, if_false, add_zero, show max periodMin (min d.mains.p periodMax) = period from hp.symm]
  rfl

theorem Dev.loopFilter_locked {d : Dev} {z e : Int} (hst : d.mst = 2) (hhits : d.mains.hits = [(d.mains.cur.c, z, e)]) :
    d.loopFilter = (d.mains.p, max (-(divZero d.mains.p 64))
      (min (divZero (e * 2 ^ 20) (2 ^ (min 5 (d.rd F.MT_CFG_TC) + 1))) (divZero d.mains.p 64))) := by
  simp [Dev.loopFilter, hhits, hst, mtSLEW]

theorem Dev.fixRecord_locked {d : Dev} {corr : Int} (hst : d.mst = 2) (hloop : d.loopFilter = (d.mains.p, corr))
    (hlo : 15151515 * 2 ^ 20 ≤ d.mains.p + corr) (hhi : d.mains.p + corr ≤ 66666666 * 2 ^ 20) :
    d.fixRecord = { d with mains := { d.mains with next := some (d.mains.recordFor (d.mains.p + corr)) } } := by
  have htrack : d.mst = mtLOCKED ∨ d.mst = mtSLEW := .inl hst
  have hperiod : max periodMin (min (d.mains.p + corr) periodMax) = d.mains.p + corr := by
    unfold periodMin periodMax
    omega
  unfold Dev.fixRecord
  simp only [htrack, if_true, hloop, hperiod, ne_eq, not_true_eq_false, if_false]
  rfl

theorem Dev.timeRuns_of_mst {d : Dev} {n : Nat} (h : d.mst = n) (hn : 2 ≤ n) : d.timeRuns = true := by
  simp [Dev.timeRuns, h, hn]

theorem exec_recordFix (t : Nat) (s : State) : exec (.cycleRecordFix t) s = s.run t (fun d =>
    if d.timeRuns ∧ d.mains.next = none ∧ 32768 ≤ d.grn then d.fixRecord else d) := rfl

theorem exec_cycleRecordFix {s : State} {t : Nat} {d e : Dev} (h : s.awake t d) (hrun : d.timeRuns = true)
    (hnext : d.mains.next = none) (hgrn : 32768 ≤ d.grn) (he : d.fixRecord = e) :
    exec (.cycleRecordFix t) s = .next (s.to e) :=
  exec_of_run (exec_recordFix t s) h ((if_pos ⟨hrun, hnext, hgrn⟩).trans he)

/-! ### Missed cycles and FREERUN (R55, R56) -/

theorem exec_missed (t : Nat) (s : State) : exec (.missedCycles t) s = s.run t (fun d =>
    if (d.mst = mtLOCKED ∨ d.mst = mtSLEW) ∧ max 1 (d.rd F.MT_HOLD_HOLD_MISS) ≤ d.missedRun then
      match d.altInput with
      | some a => if !d.mains.onAlt ∧ d.on F.MT_STATUS_ALTVALID then d.toAlt a else d.mainsHold
      | none => d.mainsHold
    else d) := rfl

theorem exec_missedCycles {s : State} {t : Nat} {d e : Dev} (h : s.awake t d) (hst : d.mst = 2 ∨ d.mst = 3)
    (hmiss : max 1 (d.rd F.MT_HOLD_HOLD_MISS) ≤ d.missedRun)
    (he : (match d.altInput with
      | some a => if !d.mains.onAlt ∧ d.on F.MT_STATUS_ALTVALID then d.toAlt a else d.mainsHold
      | none => d.mainsHold) = e) : exec (.missedCycles t) s = .next (s.to e) := by
  exact exec_of_run (exec_missed t s) h ((if_pos ⟨hst, hmiss⟩).trans he)

/-! ### What waited in GOVQ_GNT (R335) -/

theorem Dev.leaveGnt_none {d : Dev} {q : Nat} {r : BudgetReq} (h : r.answer = none) : d.leaveGnt q r = d := by
  simp [Dev.leaveGnt, h]

theorem foldl_leaveGnt_none (l : List (Nat × BudgetReq)) (d : Dev) (h : ∀ x ∈ l, x.2.answer = none) :
    l.foldl (fun d x => d.leaveGnt x.1 x.2) d = d := by
  induction l with
  | nil => rfl
  | cons x l ih =>
    rw [List.foldl_cons, Dev.leaveGnt_none (h x (by simp)), ih (fun y hy => h y (by simp [hy]))]

theorem exec_zeroCrossing (t : Nat) (input : Fin 4) (falling : Bool) (s : State) :
    exec (.zeroCrossing t input falling) s = s.run t (fun d => d.crossing input.val falling) := rfl

theorem exec_freerun (t : Nat) (s : State) : exec (.freerun t) s = s.run t (fun d =>
    if d.mst = mtHOLDOVER ∧ d.rd F.MT_HOLD_HOLD_MAX ≤ d.mains.held then
      ((d.mtTo mtFREERUN).raise F.MT_STATUS_MAINSLOST).cause causeMAINSLOST { ao := true }
    else d) := rfl

theorem exec_refclkSysRestored (t : Nat) (s : State) : exec (.refclkSysRestored t) s = s.run t (fun d =>
    (d.refclkBack.seq.flatMap (fun e => e.2.reqs.map (fun r => (e.1, r)))).foldl (fun d x => d.leaveGnt x.1 x.2) d.refclkBack) := rfl

/-- Settles O25: each command by the branch that its state selects. -/
theorem mainsTimeCommandsComplete : Obligations.MainsTimeCommandsComplete := by
  refine ⟨?_, ?_, ?_, ?_, ?_, ?_, ?_, ?_⟩
  · intro s t d m input falling z e r h hen hedge hblank hst hsel hconf hpol halt hz hr he hfirst hnear hm
    subst hm he hr hz
    refine exec_of_run (exec_zeroCrossing t input falling s) h ?_
    exact (Dev.crossing_feeds hen hedge hblank hst (fun _ => hconf) hpol).trans
      ((Dev.mainsFeed_primary (d := d.hitAt input) _ hsel hst halt).trans
        (Dev.mainsTrack_accepts (d := d.hitAt input) hfirst hnear))
  · intro s t d m input falling z gs h hen hedge hblank hst hsel haltin hpol halt hz hcur hgs hfew hm
    subst hm hgs hz
    refine exec_of_run (exec_zeroCrossing t input falling s) h ?_
    exact (Dev.crossing_feeds hen hedge hblank hst (fun hin => absurd hin.symm hsel) hpol).trans
      ((Dev.mainsFeed_alternate (d := d.hitAt input) _ hsel haltin hst halt).trans
        (Dev.learnAlt_keeps (d := d.hitAt input) hcur hfew))
  · intro s t d e period n h hst hnext hgrn hp hn he
    subst he hn
    have hrun : d.timeRuns = true := hst.elim (Dev.timeRuns_of_mst · (by decide)) (Dev.timeRuns_of_mst · (by decide))
    exact ⟨fun hin => exec_cycleRecordFix h hrun hnext hgrn ((Dev.fixRecord_held hst hp).trans (if_neg (not_not.mpr hin))),
      fun hout => exec_cycleRecordFix h hrun hnext hgrn ((Dev.fixRecord_held hst hp).trans (if_pos hout))⟩
  · intro s t d z e corr tc n h hst hnext hgrn hhits htc hcorr hlo hhi hn
    subst hn htc
    exact exec_cycleRecordFix h (Dev.timeRuns_of_mst hst (by decide)) hnext hgrn
      (Dev.fixRecord_locked hst ((Dev.loopFilter_locked hst hhits).trans (by rw [hcorr])) hlo hhi)
  · intro s t d m h hst hmiss
    constructor
    · intro a halt hon hvalid hm
      subst hm
      exact exec_missedCycles h hst hmiss (by simp only [halt, hon, hvalid]; rfl)
    · intro halt hm
      subst hm
      exact exec_missedCycles h hst hmiss (by simp only [halt]; rfl)
  · intro s t d h hst hmax
    exact exec_of_run (exec_freerun t s) h (if_pos ⟨hst, hmax⟩)
  · intro s t c g d h hat
    refine exec_of_clk rfl h ?_
    simp only [Dev.latchNow, hat]
    rfl
  · intro s t d m h hseek hm hans
    subst hm
    refine exec_of_run (exec_refclkSysRestored t s) h ?_
    have hback : d.refclkBack = { d with mains := { d.mains with refclk := true } } := by simp [Dev.refclkBack, hseek]
    dsimp only
    rw [hback]
    refine foldl_leaveGnt_none _ _ (fun x hx => ?_)
    obtain ⟨y, hy, hxy⟩ := List.mem_flatMap.1 hx
    obtain ⟨r, hr, rfl⟩ := List.mem_map.1 hxy
    exact hans y hy r hr

end Sys2Proof.Machine
end

section
/-! PROOFS. Palette commands and the synchronising reset (R80 to R87, R20), and the performance counters (R372 to R376, R380). -/

namespace Sys2Proof.Machine

open Sys2Proof

/-! ### What a run leaves -/

theorem State.runClk_to {s : State} {t : Nat} {d e : Dev} {f : Dev → Dev} (h : s.ready t d) (he : f d = e) :
    s.runClk t f = .next (s.to e) := by
  rw [State.runClk_ready f h, he]

theorem State.run_to {s : State} {t : Nat} {d e : Dev} {f : Dev → Dev} (h : s.awake t d) (he : f d = e) :
    s.run t f = .next (s.to e) := by
  rw [State.run_awake f h, he]

/-- The same for a command that acts while PD_CNV0 is on. -/
theorem State.runClk_cnv {s : State} {t : Nat} {d e : Dev} {f : Dev → Dev} (h : s.ready t d) (hon : d.domOn 76 = true)
    (he : f d = e) : s.runClk t (fun d => if d.domOn 76 then f d else d) = .next (s.to e) :=
  State.runClk_to h ((if_pos hon).trans he)

/-! ### Palettes -/

theorem exec_commitA_on {s : State} {t : Nat} {d e : Dev} {k : ChanId} (h : s.ready t d) (hon : d.domOn k.val = true)
    (he : d.commitPalette k.val false = e) : exec (.commitA t k) s = .next (s.to e) :=
  he ▸ exec_commit_ready false h hon

theorem exec_commitB_on {s : State} {t : Nat} {d e : Dev} {k : ChanId} (h : s.ready t d) (hon : d.domOn k.val = true)
    (he : d.commitPalette k.val true = e) : exec (.commitB t k) s = .next (s.to e) :=
  he ▸ exec_commit_ready true h hon

/-- A hard swap between loaded, compatible palettes, while no fade runs, starts at the next boundary of each direction (R82). -/
theorem Dev.swapRequest_hard {d : Dev} {k at_ f : Nat} (hfade : d.on (F.SC_STATUS_FADING k) = false)
    (hload : d.on (loadedField k (!d.activeB k)) = true) (hcompat : d.palCompatible k = true) :
    d.swapRequest k at_ false f =
      (((d.runTx k (ceilDiv (d.txBoundary k at_) (2 ^ 24))).exchange k).modCh k (fun c =>
        { c with swaps := (⟨d.rxBoundary k at_, d.txBoundary k at_, !d.activeB k, none⟩ :: c.swaps).take 4 })).wr
          (F.SC_STATUS_LASTCODE k) swHARD := by
  simp [Dev.swapRequest, Dev.startSwap, hfade, hload, hcompat]

/-- The effect of PALETTE_SWAP on a channel alone in its bundle. -/
theorem Dev.swapDue_alone {d1 : Dev} {k : Nat} {e : PrmqEntry} {f : Nat} (hmem : d1.members k = [k])
    (hreset : ∀ r ∈ (d1.ch k).prmq, r.kind ≠ .reset) :
    (d1.members k).foldl (fun d m =>
      let due := (d.ch m).prmq.any (fun r => r.kind == .reset && decide (r.at_ ≤ e.at_))
      (if due then d.applyReset m else d).swapRequest m e.at_ false f) d1 = d1.swapRequest k e.at_ false f := by
  have hdue : (d1.ch k).prmq.any (fun r => r.kind == .reset && decide (r.at_ ≤ e.at_)) = false :=
    List.any_eq_false.2 (fun r hr => by simp [hreset r hr])
  rw [hmem]
  simp only [List.foldl_cons, List.foldl_nil, hdue, Bool.false_eq_true, if_false]

/-! ### The synchronising reset -/

theorem Dev.syncEvent_accepts {d : Dev} (cmd : Bool) (h : d.syncAt = none) : d.syncEvent cmd = d.syncAccept cmd := by
  simp [Dev.syncEvent, Dev.syncReset, h]

/-- Before the instant of the reset a further SYNC is counted (R20). -/
theorem Dev.syncEvent_ignores {d : Dev} {x : Nat} (h : d.syncAt = some x) (hx : d.now < x) :
    d.syncEvent true = d.inc F.GL_SYNCST_SYNCIGN := by
  simp [Dev.syncEvent, Dev.syncReset, h, Nat.not_le.mpr hx]

/-- An accepted event: its stamp, the instant of the reset, and the entries of the powered channels. -/
theorem Dev.syncAccept_eq {d d1 : Dev} {cmd : Bool}
    (hd1 : d1 = (((d.wr F.GL_SYNCST_SYNCSRC (if cmd then 1 else 0)).wr F.GL_SYNCST_SYNCV 1).wr F.GL_SYNC_NS_LO_T d.now).wr
      F.GL_SYNC_NS_HI_T (d.now / 2 ^ 32)) :
    d.syncAccept cmd = ((List.range 64).filter ({ d1 with syncAt := some (d.now + 200) } : Dev).chOn).foldl
      (fun x k => x.pushPrmq k ⟨x.now + 200, .reset, 128, 0⟩) { d1 with syncAt := some (d.now + 200) } := by
  have hnow : d1.now = d.now := by rw [hd1, Dev.wr_now, Dev.wr_now, Dev.wr_now, Dev.wr_now]
  have hstamped : d.syncAccept cmd = ((List.range 64).filter ({ d1 with syncAt := some (d1.now + 200) } : Dev).chOn).foldl
      (fun x k => x.pushPrmq k ⟨x.now + 200, .reset, 128, 0⟩) { d1 with syncAt := some (d1.now + 200) } := by
    rw [hd1]
    rfl
  rw [hstamped, hnow]

theorem exec_sync (t : Nat) (s : State) : exec (.sync t) s = s.runClk t (fun d => d.syncEvent true) := rfl

theorem exec_sampleSync (t : Nat) (s : State) : exec (.sampleSync t) s = s.run t (fun d => d.syncEvent false) := rfl

/-- SYNC and SAMPLE_SYNC by their one effect. -/
theorem exec_syncEvent {s : State} {t : Nat} {d e : Dev} (cmd : Bool) (h : if cmd then s.ready t d else s.awake t d)
    (he : d.syncEvent cmd = e) : exec (if cmd then .sync t else .sampleSync t) s = .next (s.to e) := by
  cases cmd with
  | true => exact exec_of_clk (exec_sync t s) h he
  | false => exact exec_of_run (exec_sampleSync t s) h he

/-! ### FADE_END -/

theorem Dev.endFade_ch (d : Dev) (k n : Nat) : (d.endFade k).ch n = d.ch n := by
  simp [Dev.endFade]

/-- The effect of FADE_END once both directions have passed their last sample. -/
theorem exec_fadeEnd {s : State} {t r x : Nat} {d e : Dev} {k : ChanId} {w : Swap} (h : s.ready t d)
    (hfade : d.on (F.SC_STATUS_FADING k) = true) (hw : d.lastFade k.val = some w) (hends : d.fadeEnds k.val w = (r, x))
    (hr : r ≤ d.now) (hx : x ≤ d.now)
    (he : (match ((d.endFade k.val).ch k.val).swapPend with
      | none => d.endFade k.val
      | some (fade, n) =>
        (((d.endFade k.val).wr (F.SC_STATUS_PENDING k.val) 0).modCh k.val (fun c => { c with swapPend := none })).startSwap k.val
          ((d.endFade k.val).rxBoundary k.val (r + 1)) ((d.endFade k.val).txBoundary k.val (x + 1)) fade n) = e) :
    exec (.fadeEnd t k) s = .next (s.to e) := by
  show execFadeEnd t k s = _
  refine State.runClk_to h ?_
  simp only [hw, hends]
  exact (if_pos ⟨hfade, max_le hr hx⟩).trans he

/-- Settles O26: each command by the branch that its state selects. -/
theorem paletteCommandsComplete : Obligations.PaletteCommandsComplete := by
  refine ⟨?_, ?_, ?_, ?_, ?_, ?_, ?_⟩
  · intro s t d k h hon hidle hok
    exact exec_commitA_on h hon (Dev.commitPalette_passes hidle hok)
  · intro s t d k h hon hidle hok
    exact exec_commitB_on h hon (Dev.commitPalette_passes hidle hok)
  · intro s t d k h hon
    exact ⟨fun hidle => exec_commitA_on h hon (Dev.commitPalette_busy hidle),
      fun hidle => exec_commitB_on h hon (Dev.commitPalette_busy hidle),
      fun hidle hok => exec_commitA_on h hon (Dev.commitPalette_fails hidle hok),
      fun hidle hok => exec_commitB_on h hon (Dev.commitPalette_fails hidle hok)⟩
  · intro s t d d1 d2 g k e f w h hdue hd1 hmem hfade hload hcompat hreset hw hg hd2
    show execPaletteSwap t k s = _
    refine State.runClk_to h ?_
    simp only [hdue]
    rw [← hd1, Dev.swapDue_alone hmem hreset, Dev.swapRequest_hard hfade hload hcompat, hd2, hg, hw]
    rfl
  · intro s t r x d g k w h hfade hw hends hr hx hg
    subst hg
    constructor
    · intro hpend
      exact exec_fadeEnd h hfade hw hends hr hx (by simp only [Dev.endFade_ch, hpend]; rfl)
    · intro fade n h' hpend hh
      exact exec_fadeEnd h hfade hw hends hr hx (by simp only [Dev.endFade_ch, hpend, hh]; rfl)
  · intro s t d d1 d2 d3 cmd h
    constructor
    · intro hnone hd1 hd2 hd3
      refine exec_syncEvent cmd h ((Dev.syncEvent_accepts cmd hnone).trans ?_)
      rw [hd3, hd2]
      exact Dev.syncAccept_eq hd1
    · intro x hx hlt hcmd
      subst hcmd
      exact exec_of_clk (exec_sync t s) h (Dev.syncEvent_ignores hx hlt)
  · intro s t d x h hx hle
    show execSyncReset t s = _
    refine State.runClk_to h ?_
    simp [Dev.syncReset, hx, hle]

/-! ### Counters -/

/-- The register of a setting with its written word (R373). -/
def Dev.settingWord (d : Dev) (c : Nat) (i : Fin 3) (v : Word32) : Dev :=
  match i with
  | 0 => d.setWord (A.CNT_SEL c) (v &&& 0x3F1F1FFF#32)
  | 1 => d.setWord (A.CNT_THR c) v
  | 2 => d.setWord (A.CNT_CTL c) (v &&& 0x1F7#32)

theorem Dev.writeSetting_changes {d : Dev} {c : Nat} {i : Fin 3} {v : Word32}
    (hwt : i = 2 → (d.settingWord c i v).rd (F.CNT_CTL_WT c) ≠ d.rd (F.CNT_CTL_WT c)) :
    d.writeSetting c i.val v = (d.settingWord c i v).settingWritten c := by
  match i with
  | 0 => rfl
  | 1 => rfl
  | 2 => exact if_neg (hwt rfl)

theorem Dev.settingWord_counter (d : Dev) (c : Nat) (i : Fin 3) (v : Word32) (n : Nat) :
    (d.settingWord c i v).counter n = d.counter n := by
  match i with
  | 0 => rfl
  | 1 => rfl
  | 2 => rfl

theorem Dev.settingWord_cclk (d : Dev) (c : Nat) (i : Fin 3) (v : Word32) : (d.settingWord c i v).cclk = d.cclk := by
  match i with
  | 0 => rfl
  | 1 => rfl
  | 2 => rfl

/-- Settles O27: each command by the branch that its state selects. -/
theorem counterCommandsComplete : Obligations.CounterCommandsComplete := by
  refine ⟨?_, ?_, ?_, ?_, ?_, ?_, ?_, ?_⟩
  · intro s t d d1 c i v sel thr wt x h hon hx hd1 hwt hsel hthr hwt'
    have hd1 : d1 = d.settingWord c.val i v := hd1
    subst hd1 hx hsel hthr hwt'
    have hrun : exec (.counterSettingWrite t c i v) s = .next (s.to ((d.settingWord c.val i v).settingWritten c)) :=
      by
      show execCounterSettingWrite t c i v s = _
      exact State.runClk_cnv h hon (Dev.writeSetting_changes hwt)
    rw [hrun, Dev.settingWritten, Dev.settingWord_counter, Dev.settingWord_cclk]
    constructor
    · intro hgrp
      have hgrp : selGroup (d.counter c.val).sel = 0 := hgrp
      simp only [hgrp, if_true]
      rfl
    · intro hgrp
      have hgrp : ¬ selGroup (d.counter c.val).sel = 0 := hgrp
      simp only [hgrp, if_false]
      rfl
  · intro s t d d1 c v h hon hd1 hwt
    subst hd1
    show execCounterSettingWrite t c 2 v s = _
    exact State.runClk_cnv h hon (if_pos hwt)
  · intro s t d c h hon
    show execWrapclr t c s = _
    exact State.runClk_cnv h hon rfl
  · intro s t d c reader x y h hon hx hkept hy
    subst hx hy
    show execCntRdRead t c reader s = _
    refine State.runClk_cnv h hon ?_
    simp [Dev.readCounter, Dev.captureOf, Dev.countOf, Dev.wrapOf, hkept]
  · intro s t d j v h hon
    show execWtCfgWrite t j v s = _
    exact State.runClk_cnv h hon rfl
  · intro s t d d1 v h hon hd1
    subst hd1
    show execBwCfgWrite t v s = _
    exact State.runClk_cnv h hon rfl
  · intro s t n d d1 g j x h hon hx hn hfree hmains hd1 hg
    subst hx hn hg hd1
    show execWindowBoundary t j s = _
    refine State.runClk_to (f := fun d => if d.domOn 76 ∧ d.boundaryDue j.val then d.boundary j.val else d) h
      (if_pos ⟨hon, ?_⟩)
    cases hbase : (d.timer j.val).cfg.getLsbD 0 with
    | false =>
      rw [Dev.boundaryDue, if_neg (by rw [hbase]; exact Bool.false_ne_true)]
      exact decide_eq_true (hfree hbase)
    | true =>
      obtain ⟨hrun, hlen⟩ := hmains hbase
      rw [Dev.boundaryDue, if_pos hbase, hrun]
      exact decide_eq_true hlen
  · intro d x sel thr wt hpend hat
    simp [Dev.takeSetting, hpend, hat, Counter.apply]

end Sys2Proof.Machine
end

section
/-! PROOFS. The control and the wait steps of a sequencer (R201 to R203, R211, R214). -/

namespace Sys2Proof.Machine

open Sys2Proof

/-! ### A step that is executed in time -/

/-- A step whose condition holds before its time has its effect. -/
theorem State.runClk_timed {s : State} {t q x sub : Nat} {d e r : Dev} {st : Step} {c : StepClass}
    {f : Step → Nat → Dev → Dev} (h : s.ready t d) (hst : d.takesStep e q st x) (hc : st.op.cls = c)
    (hk : e.cond q st.cond.toNat = true) (he : f st x e = r) :
    s.runClk t (fun d => d.fetch q c (fun st d => d.timed q st sub 0 (f st))) = .next (s.to r) :=
  State.runClk_to h ((Dev.fetch_ok c _ hst.1 hc hk).trans ((Dev.timed_ok sub _ hst).trans he))

/-- A BRANCH before its time has its effect, whatever its condition. -/
theorem State.runClk_branch {s : State} {t q x sub : Nat} {d e r : Dev} {st : Step} {f : Step → Nat → Dev → Dev}
    (h : s.ready t d) (hst : d.takesStep e q st x) (hc : st.op.cls = .branch) (he : f st x e = r) :
    s.runClk t (fun d => d.fetch q .branch (fun st d => d.timed q st sub 0 (f st))) = .next (s.to r) :=
  State.runClk_to h ((Dev.fetch_branch _ hst.1 hc).trans ((Dev.timed_ok sub _ hst).trans he))

/-! ### LOOP (R202, R211) -/

theorem Dev.loopStep_load (d : Dev) (q c n tg : Nat) :
    d.loopStep q c true n tg = (d.modSq q (fun z => { z with loops := (d.sq q).loops.set c n })).done q := rfl

theorem Dev.loopStep_again {d : Dev} {q c v : Nat} (n tg : Nat) (hv : (d.sq q).loops.getD c 0 = v + 2) :
    d.loopStep q c false n tg = (d.modSq q (fun z => { z with loops := (d.sq q).loops.set c (v + 1) })).doneTo q tg := by
  simp [Dev.loopStep, -List.getD_eq_getElem?_getD, hv]

theorem Dev.loopStep_last {d : Dev} {q c : Nat} (n tg : Nat) (hv : (d.sq q).loops.getD c 0 = 1) :
    d.loopStep q c false n tg = (d.modSq q (fun z => { z with loops := (d.sq q).loops.set c 0 })).done q := by
  simp [Dev.loopStep, -List.getD_eq_getElem?_getD, hv]

theorem Dev.loopStep_idle {d : Dev} {q c : Nat} (n tg : Nat) (hv : (d.sq q).loops.getD c 0 = 0) :
    d.loopStep q c false n tg = d.done q := by
  simp [Dev.loopStep, -List.getD_eq_getElem?_getD, hv]

/-- Settles O28: each step by the branch of its class. -/
theorem controlStepsComplete : Obligations.ControlStepsComplete := by
  intro s t d e q st x h hst
  have hloop : ∀ {c : BitVec 2} {load : Bool} {n : BitVec 14} {tg : BitVec 13} {r : Dev}, st.op = .loop c load n tg →
      e.cond q.val st.cond.toNat = true → e.loopStep q.val c.toNat load n.toNat tg.toNat = r →
      exec (.loop t q) s = .next (s.to r) := by
    intro c load n tg r hop hk hr
    show execLoop t q s = _
    exact State.runClk_timed h hst (by rw [hop]; rfl) hk (by simp only [hop, hr])
  constructor
  · intro hk
    refine ⟨?_, ?_, ?_, ?_, ?_, ?_, ?_, ?_, ?_, ?_, ?_⟩
    · intro n hop
      show execHalt t q s = _
      exact State.runClk_timed h hst (by rw [hop]; rfl) hk (by simp only [hop]; rfl)
    · intro c n tg hop
      exact hloop hop hk (Dev.loopStep_load ..)
    · intro c n tg v hop hv
      exact hloop hop hk (Dev.loopStep_again _ _ hv)
    · intro c n tg hop hv
      exact hloop hop hk (Dev.loopStep_last _ _ hv)
    · intro c n tg hop hv
      exact hloop hop hk (Dev.loopStep_idle _ _ hv)
    · intro tg hop hdepth
      show execCall t q s = _
      exact State.runClk_timed h hst (by rw [hop]; rfl) hk (by simp only [hop]; exact if_neg (by omega))
    · intro i l hop hstack
      show execRet t q s = _
      exact State.runClk_timed h hst (by rw [hop]; rfl) hk (by simp only [hstack])
    · intro code hop
      show execNoteNotice t q s = _
      exact State.runClk_timed h hst (by rw [hop]; rfl) hk (by simp only [hop])
    · intro code hop
      show execNoteEvent t q s = _
      exact State.runClk_timed h hst (by rw [hop]; rfl) hk (by simp only [hop])
    · intro pf hop
      show execNoteFlagSet t q s = _
      exact State.runClk_timed h hst (by rw [hop]; rfl) hk (by simp only [hop])
    · intro pf hop
      show execNoteFlagClear t q s = _
      exact State.runClk_timed h hst (by rw [hop]; rfl) hk (by simp only [hop])
  · intro inv tg hop
    show execBranch t q s = _
    refine State.runClk_branch h hst (by rw [hop]; rfl) ?_
    simp only [hop]
    cases e.cond q.val st.cond.toNat <;> cases inv <;> rfl

/-! ### WAIT (R203) -/

/-- A wait on an event that is executed before its time. -/
theorem State.runClk_wait {s : State} {t q x : Nat} {d e g r : Dev} {st : Step} {c : StepClass} {met : Step → Dev → Bool}
    (h : s.ready t d) (hst : d.takesStep e q st x) (hc : st.op.cls = c) (hk : e.cond q st.cond.toNat = true)
    (hg : g = e.waited q) (htime : g.stepTime q st 0 = some x) (hx : g.now ≤ x)
    (he : (if met st g then g.done q else g.hold q x x) = r) :
    s.runClk t (fun d => d.fetch q c (fun st d => d.waitEvent q st (met st))) = .next (s.to r) := by
  refine State.runClk_to h ((Dev.fetch_ok c _ hst.1 hc hk).trans ?_)
  obtain ⟨-, hxe, -⟩ := hst
  rw [Dev.waitEvent, hxe, if_pos Option.isSome_some, ← hg, Dev.timed, htime]
  exact (if_neg (by omega)).trans he

/-- Settles O29: each wait by the branch of its kind. -/
theorem waitStepsComplete : Obligations.WaitStepsComplete := by
  constructor
  · intro s t d e g q st x wk setbt lateok pf h hst hk hop hg htime hx
    have hg : g = e.waited q.val := hg
    have hcls : ∀ (v : BitVec 3), wk = v → st.op.cls = (StepOp.wait v setbt lateok pf).cls := by
      rintro v rfl
      rw [hop]
    refine ⟨?_, ?_, ?_, ?_, ?_, ?_, ?_⟩
    · intro hwk
      show execWaitTime t q s = _
      refine State.runClk_to h ((Dev.fetch_ok _ _ hst.1 (hcls _ hwk) hk).trans ?_)
      obtain ⟨-, hxe, -⟩ := hst
      simp only [hop, hxe, ← hg]
      exact if_neg (by omega)
    · intro hwk
      show execWaitRxdone t q s = _
      exact State.runClk_wait h hst (hcls _ hwk) hk hg htime hx rfl
    · intro hwk
      show execWaitTxdone t q s = _
      exact State.runClk_wait h hst (hcls _ hwk) hk hg htime hx rfl
    · intro hwk
      show execWaitGrant t q s = _
      refine State.runClk_wait h hst (hcls _ hwk) hk hg htime hx ?_
      cases (g.sq q.val).open_ <;> rfl
    · intro hwk
      show execWaitKey t q s = _
      refine State.runClk_wait h hst (hcls _ hwk) hk hg htime hx ?_
      simp only [beq_iff_eq]
    · intro hwk
      show execWaitFlagSet t q s = _
      exact State.runClk_wait h hst (hcls _ hwk) hk hg htime hx (by simp only [hop])
    · intro hwk
      show execWaitFlagClear t q s = _
      refine State.runClk_wait h hst (hcls _ hwk) hk hg htime hx ?_
      simp only [hop]
      cases g.pairFlag q.val pf.toNat <;> rfl
  · intro s t d q st setbt lateok pf b h hstate hat hop htarget hb
    show execWaitTimeComplete t q s = _
    refine State.runClk_to h ?_
    simp only [hstate, hat, hop, show ((3 : Nat) == sqHOLD) = true from rfl, if_pos (And.intro trivial htarget)]
    rw [hb]
    rfl

end Sys2Proof.Machine
end

section
/-! PROOFS. The ARM, KEYFETCH and BUDGET steps (R204, R212, R213, R234), and the commands to a sequencer (R196, R217 to R223). -/

namespace Sys2Proof.Machine

open Sys2Proof

/-! ### The entries that a step reads (R234) -/

/-- A step of class `c` whose condition holds is executed on the entries as they stood before a commit of its cycle. -/
theorem Dev.fetch_asBefore {d e : Dev} {q : Nat} {st : Step} {c : StepClass} (f : Step → Dev → Dev) (hrun : d.sqState q = 2)
    (hfault : d.fetchFault q = none) (hat : d.stepAt q = some st)
    (he : e = (d.modSq q (fun z => { z with run := z.run + 1 })).condParity q st.cond.toNat) (hc : st.op.cls = c)
    (hk : e.cond q st.cond.toNat = true) : d.fetch q c f = e.asBefore (f st) := by
  unfold Dev.fetch
  rw [if_neg (by simp [hrun, sqRUN]), hfault, hat]
  simp only [hc, ne_eq, not_true_eq_false, if_false]
  rw [← he, if_pos (.inr hk)]

/-- What a commit of the present cycle leaves once a step has run on the words before it. -/
theorem Dev.asBefore_committed {d : Dev} {l : List (Nat × List Word32)} (f : Dev → Dev) (hl : d.justCommitted = l) (hne : l ≠ []) :
    d.asBefore f = (l.zip (l.map (fun y => d.entryWords y.1))).foldl (fun x y => x.recommit y.1.1 y.1.2 y.2)
      (f (l.foldl (fun x y => x.putEntry y.1 y.2) d)) := by
  unfold Dev.asBefore
  rw [hl]
  cases l with
  | nil => exact absurd rfl hne
  | cons x l => rfl

/-- A step whose time lies ahead is in time. -/
theorem Dev.timed_of_stepTime {d : Dev} {q x sub : Nat} {st : Step} (f : Nat → Dev → Dev) (htime : d.stepTime q st 0 = some x)
    (hx : d.now ≤ x) : d.timed q st sub 0 f = f x d := by
  rw [Dev.timed, htime]
  exact if_neg (by omega)

/-! ### What a recorded cause can change (R409) -/

theorem Dev.lastFault_eq (d : Dev) (code : Nat) (chan : Option Nat) : ∃ r lc, d.lastFault code chan =
    { d with regs := r, lastCause := lc } := by
  unfold Dev.lastFault
  dsimp only
  split
  · exact ⟨_, _, rfl⟩
  · exact ⟨_, _, rfl⟩

theorem Dev.event_eq (d : Dev) (g s i n : Nat) : ∃ cs ev, d.event g s i n = { d with counters := cs, evNow := ev } := by
  rcases d.count_eq ⟨g, s, i, n, none⟩ with h | ⟨cs, ev, h⟩
  · exact ⟨_, _, h⟩
  · exact ⟨_, _, h⟩

/-- The CAUSE event and the FAULT notice of a cause. -/
theorem Dev.causeTold_eq (d : Dev) (ao : Bool) (code : Nat) (n : Notice) : ∃ r h cs ev ss l g m,
    (if ao then d else d.event 11 0 code 1).notice n =
      { d with regs := r, hw := h, counters := cs, evNow := ev, sessions := ss, ring := l, gather := g, mgSec := m } := by
  cases ao with
  | true =>
    obtain ⟨r, h, ss, l, g, m, hn⟩ := d.notice_eq n
    exact ⟨_, _, _, _, _, _, _, _, hn⟩
  | false =>
    obtain ⟨cs, ev, he⟩ := d.event_eq 11 0 code 1
    obtain ⟨r, h, ss, l, g, m, hn⟩ := ({ d with counters := cs, evNow := ev } : Dev).notice_eq n
    exact ⟨_, _, _, _, _, _, _, _, (congrArg (Dev.notice · n) he).trans hn⟩

/-- A cause reaches registers, event counters and notices alone. -/
theorem Dev.cause_eq (d : Dev) (code : Nat) (w : CauseAt) : ∃ r h lc cs ev ss l g m, d.cause code w =
    { d with regs := r, hw := h, lastCause := lc, counters := cs, evNow := ev, sessions := ss, ring := l, gather := g,
             mgSec := m } := by
  have hcounted : ∃ x r h, d.cause code w = (if w.ao then x else x.event 11 0 code 1).notice
      { cls := 0, code := code, chan := w.chan.getD 255, seq := w.seq.getD 255, step := w.step, arg := w.sub + 2 ^ 48 } ∧
      x = { (d.raise (fltBit code)).lastFault code w.chan with regs := r, hw := h } := by
    unfold Dev.cause
    cases w.chan with
    | none => exact ⟨_, _, _, rfl, rfl⟩
    | some k =>
      dsimp only
      cases causeCounter code k with
      | none => exact ⟨_, _, _, rfl, rfl⟩
      | some f => exact ⟨_, _, _, rfl, rfl⟩
  obtain ⟨x, r1, h1, hx, hxe⟩ := hcounted
  obtain ⟨r2, lc, hlast⟩ := Dev.lastFault_eq (d.raise (fltBit code)) code w.chan
  rw [hlast] at hxe
  subst hxe
  rw [hx]
  obtain ⟨r, h, cs, ev, ss, l, g, m, hn⟩ := Dev.causeTold_eq _ w.ao code
    { cls := 0, code := code, chan := w.chan.getD 255, seq := w.seq.getD 255, step := w.step, arg := w.sub + 2 ^ 48 }
  exact ⟨_, _, _, _, _, _, _, _, _, hn⟩

theorem Dev.cause_seq (d : Dev) (code : Nat) (w : CauseAt) : (d.cause code w).seq = d.seq := by
  obtain ⟨r, h, lc, cs, ev, ss, l, g, m, hc⟩ := d.cause_eq code w
  rw [hc]

theorem Dev.entryParity_seq (d : Dev) (k i : Nat) : (d.entryParity k i).seq = d.seq := by
  unfold Dev.entryParity
  split
  · exact Dev.cause_seq ..
  · rfl

theorem Dev.condParity_seq (d : Dev) (q c : Nat) : (d.condParity q c).seq = d.seq := by
  unfold Dev.condParity
  split
  · split
    · exact Dev.entryParity_seq ..
    · rfl
  · rfl

/-- What a fetch leaves of a sequencer: it has run one step more. -/
theorem Dev.sq_of_fetch (d : Dev) (q c : Nat) :
    ((d.modSq q (fun z => { z with run := z.run + 1 })).condParity q c).sq q = { d.sq q with run := (d.sq q).run + 1 } := by
  have hne : ({ d.sq q with run := (d.sq q).run + 1 } : Seq) ≠ {} := fun h => by simpa using congrArg Seq.run h
  unfold Dev.sq
  rw [Dev.condParity_seq, Dev.modSq, Dev.setSq, Tab.set, if_neg hne]
  exact Tab.get_put_self ..

/-! ### ARM SWAP (R17, R57, R204) -/

theorem Dev.armSwap_placed {d : Dev} {q x : Nat} {st : Step} {f : BitVec 4} {fade : Bool} (hop : st.op = .armSwap f fade)
    (hroom : d.prmqRoom (d.tgt q) 1 = true) (hx : d.now + 40 ≤ x) :
    d.armSwap q st x = (d.modCh (d.tgt q) (fun c =>
      { c with prmq := c.prmq ++ [⟨x, .swap fade f.toNat, q, d.sqPc q⟩] })).done q := by
  simp [Dev.armSwap, hop, hroom, Nat.not_lt.mpr hx]

theorem Dev.armSwap_waits {d : Dev} {q x : Nat} {st : Step} {f : BitVec 4} {fade : Bool} (hop : st.op = .armSwap f fade)
    (hroom : d.prmqRoom (d.tgt q) 1 = false) (hx : d.now + 40 ≤ x) :
    d.armSwap q st x = d.modSq q (fun z => { z with stall := some x }) := by
  simp [Dev.armSwap, hop, hroom, Nat.not_lt.mpr hx]

/-! ### BUDGET (R212) -/

/-- A request passes into GOVQ_REQ where it has room. -/
theorem Dev.budget_room {d : Dev} {q : Nat} {r : BudgetReq} (hk : r.kind ≠ .txslot) (hroom : d.govWaiting < 128) :
    d.budget q r = d.modSq q (fun z => { z with reqs := z.reqs ++ [r], open_ := true }) := by
  simp only [Dev.budget, if_neg hk, if_neg (Nat.not_le.mpr hroom)]

/-- A TXSLOT request first withdraws the one before it. -/
theorem Dev.budget_txslot {d g : Dev} {q : Nat} {r : BudgetReq} (hk : r.kind = .txslot)
    (hg : g = d.modSq q (fun z => { z with
      reqs := z.reqs.filter (fun y => y.kind ≠ .txslot), grant := none, asked := true, slotFailed := false }))
    (hroom : g.govWaiting < 128) :
    d.budget q r = g.modSq q (fun z => { z with reqs := z.reqs ++ [r], open_ := true }) := by
  simp only [Dev.budget, if_pos hk, ← hg, if_neg (Nat.not_le.mpr hroom)]

/-! ### ARM PATH (R204, R234) -/

theorem Dev.modSq_espalier (d : Dev) (q i : Nat) (f : Seq → Seq) : (d.modSq q f).espalier i = d.espalier i := rfl

/-- The re-selection issued first and not past its deadline, where it finds a path. -/
theorem exec_armPathCommit_found {s : State} {t : Nat} {d g r : Dev} {q : SeqId} {p : Nat × Nat × Nat} {c : PathCost}
    (h : s.ready t d) (hp : (d.sq q.val).paths.find? (fun p => d.now ≤ p.2.1) = some p)
    (hg : g = d.modSq q.val (fun y => { y with paths := y.paths.erase p })) (hc : d.reselect (d.tgt q.val) p.1 = some c)
    (hr : (if g.on (N.PIN p.1) ∨ (c.hops = g.espalier p.1 ∧ c.form = g.word (nodeWord p.1 3) ∧ c.form = g.word (nodeWord p.1 4))
      then g else g.adoptPath p.1 c) = r) : exec (.armPathCommit t q) s = .next (s.to r) := by
  show execArmPathCommit t q s = _
  refine State.runClk_to h ?_
  simp only [hp, hc]
  rw [← hg]
  exact hr

theorem Dev.adoptPath_eq {d h : Dev} {i : Nat} {c : PathCost}
    (hh : h = { d with adopted := (d.cclk, (i, Tab.get 0 d.edits i, [c.hops.getD 0 0, c.hops.getD 1 0, c.hops.getD 2 0,
      c.form.toNat]) :: (if d.adopted.1 = d.cclk then d.adopted.2 else []).filter (fun e => e.1 != i)) }) :
    d.adoptPath i c = ((((((h.wr (N.ESP1 i) (c.hops.getD 0 0)).wr (N.ESP2 i) (c.hops.getD 1 0)).wr (N.ESP3 i)
      (c.hops.getD 2 0)).setWord (nodeWord i 3) c.form).setWord (nodeWord i 4) c.form).copyEntry i).edited i := by
  have hform : BitVec.ofNat 32 c.form.toNat = c.form := by simp
  calc d.adoptPath i c = h.adoptForm i [c.hops.getD 0 0, c.hops.getD 1 0, c.hops.getD 2 0, c.form.toNat] := by rw [hh]; rfl
    _ = ((((((h.wr (N.ESP1 i) (c.hops.getD 0 0)).wr (N.ESP2 i) (c.hops.getD 1 0)).wr (N.ESP3 i) (c.hops.getD 2 0)).setWord
      (nodeWord i 3) (BitVec.ofNat 32 c.form.toNat)).setWord (nodeWord i 4) (BitVec.ofNat 32 c.form.toNat)).copyEntry i).edited
        i := rfl
    _ = _ := by rw [hform]

/-- Settles O30: each step by the branch of its class and state. -/
theorem armAndRequestStepsComplete : Obligations.ArmAndRequestStepsComplete := by
  refine ⟨?_, ?_, ?_, ?_⟩
  · intro s t d e q st x h hst hk
    refine ⟨?_, ?_, ?_, ?_, ?_, ?_, ?_, ?_⟩
    · intro a i hop hfound
      show execArmNode t q s = _
      exact State.runClk_timed h hst (by rw [hop]; rfl) hk (by simp only [hop, hfound, Option.isSome_some, if_true])
    · intro a g hop hnone hg
      subst hg
      show execArmNode t q s = _
      exact State.runClk_timed h hst (by rw [hop]; rfl) hk (by
        simp only [hop, hnone, Option.isSome_none, Bool.false_eq_true, if_false])
    · intro f fade hop hstall hroom howner hx
      have hstall' : (d.sq q.val).stall = none := by
        obtain ⟨⟨-, -, -, -, he⟩, -⟩ := hst
        rw [he, Dev.sq_of_fetch] at hstall
        exact hstall
      obtain ⟨hat, htime, -⟩ := hst
      show execArmSwap t q s = _
      refine State.runClk_to h ?_
      simp only [hstall']
      refine (Dev.fetch_ok .armSwap _ hat (by rw [hop]; rfl) hk).trans ?_
      simp only [htime, howner, Bool.not_true, Bool.false_eq_true, if_false]
      exact Dev.armSwap_placed hop hroom hx
    · intro i hop harmed hbusy hpaths
      have hrec : e.loader.paths.any (fun p => p.1 == e.tgt q.val) = true := List.any_eq_true.2 (by simpa using hpaths)
      show execArmPath t q s = _
      exact State.runClk_timed h hst (by rw [hop]; rfl) hk (by simp [harmed, hbusy, hrec])
    · intro sel i g hop harmed hg
      subst hg
      show execKeyfetch t q s = _
      refine State.runClk_to h ((Dev.fetch_ok .keyfetch _ hst.1 (by rw [hop]; rfl) hk).trans ?_)
      simp only [harmed, hop]
      exact (Dev.timed_ok _ _ hst).trans rfl
    · intro k en it c hop hk0 r g hr hg hroom
      subst hk0
      show execBudgetTxslot t q s = _
      exact State.runClk_timed h hst (by rw [hop]; rfl) hk (by
        simp only [hop]
        exact congrArg (Dev.done · q.val) (Dev.budget_txslot (by rfl) hg hroom |>.trans (by rw [hr]; rfl)))
    · intro k en it c hop hk1 hroom r hr
      subst hk1
      show execBudgetIter t q s = _
      exact State.runClk_timed h hst (by rw [hop]; rfl) hk (by
        simp only [hop]
        exact congrArg (Dev.done · q.val) (Dev.budget_room (by simp) hroom |>.trans (by rw [hr]; rfl)))
    · intro k en it c hop hk2 hroom r hr
      subst hk2
      show execBudgetBringup t q s = _
      exact State.runClk_timed h hst (by rw [hop]; rfl) hk (by
        simp only [hop]
        exact congrArg (Dev.done · q.val) (Dev.budget_room (by simp) hroom |>.trans (by rw [hr]; rfl)))
  · intro s t d q st f fade x h hrun hstall hat hop hx
    have hexec : ∀ r, d.armSwap q.val st x = r → exec (.armSwap t q) s = .next (s.to r) := by
      intro r hr
      show execArmSwap t q s = _
      refine State.runClk_to h ?_
      simp only [hstall, hat]
      exact (if_pos hrun).trans hr
    exact ⟨fun hroom => hexec _ (Dev.armSwap_placed hop hroom hx), fun hroom => hexec _ (Dev.armSwap_waits hop hroom hx)⟩
  · intro s t d e old q st x i a l h hrun hfault hat hop he hk hl hne hold htime hx hfound
    show execArmNode t q s = _
    refine State.runClk_to h ((Dev.fetch_asBefore _ hrun hfault hat he (by rw [hop]; rfl) hk).trans ?_)
    rw [Dev.asBefore_committed _ hl hne, ← hold, Dev.timed_of_stepTime _ htime hx]
    simp only [hop, hfound, Option.isSome_some, if_true]
  · intro s t d g h' q p i c h hp hi hg hc hh
    subst hi
    have hon : g.on (N.PIN p.1) = d.on (N.PIN p.1) := by rw [hg, Dev.modSq_on]
    have hesp : g.espalier p.1 = d.espalier p.1 := by rw [hg, Dev.modSq_espalier]
    have hword : ∀ a, g.word a = d.word a := fun a => by rw [hg, Dev.modSq_word]
    constructor
    · intro hkeep
      refine exec_armPathCommit_found h hp hg hc (if_pos ?_)
      rwa [hon, hesp, hword, hword]
    · intro hpin hnew
      refine exec_armPathCommit_found h hp hg hc ((if_neg ?_).trans (Dev.adoptPath_eq hh))
      rw [hon, hesp, hword, hword, hpin]
      simp only [Bool.false_eq_true, false_or, not_and_or]
      exact hnew

/-! ### Commands to a sequencer (R217, R218) -/

/-- A command that acts while the domain `n` of its registers is on. -/
theorem State.runClk_on {s : State} {t n : Nat} {d e : Dev} {f : Dev → Dev} (h : s.ready t d) (hon : d.domOn n = true)
    (he : f d = e) : s.runClk t (fun d => if d.domOn n then f d else d) = .next (s.to e) :=
  State.runClk_to h ((if_pos hon).trans he)

/-- While that domain is off nothing changes (R23). -/
theorem State.runClk_off {s : State} {t n : Nat} {d : Dev} {f : Dev → Dev} (h : s.ready t d) (hoff : d.domOn n = false) :
    s.runClk t (fun d => if d.domOn n then f d else d) = .next (s.to d) :=
  State.runClk_to h (if_neg (by simp [hoff]))

theorem Dev.sqStart_idle {d : Dev} {q c : Nat} (hrun : d.timeRuns = true) (hidle : d.sqState q = 0) :
    d.sqStart q c = d.modSq q (fun z => { z with checking := some c, live2 := none }) := by
  simp [Dev.sqStart, hrun, hidle, sqIDLE]

theorem Dev.sqStart_rejected {d : Dev} {q c : Nat} (h : d.timeRuns = false ∨ d.sqState q ≠ 0) :
    d.sqStart q c = d.raise (F.SQ_STATUS_STARTREJ q) := by
  unfold Dev.sqStart
  exact if_pos (h.imp (by simp [·]) id)

/-- In RUN or HOLD. -/
theorem Dev.sqLive_iff {d : Dev} {q : Nat} : d.sqLive q = true ↔ d.sqState q = 2 ∨ d.sqState q = 3 := by
  simp [Dev.sqLive, sqRUN, sqHOLD]

theorem Dev.sqLive_false_iff {d : Dev} {q : Nat} : d.sqLive q = false ↔ d.sqState q ≠ 2 ∧ d.sqState q ≠ 3 := by
  rw [← Bool.not_eq_true, Dev.sqLive_iff, not_or]

/-- STOP on what a sequencer holds. -/
theorem Dev.sqStop_eq {d g : Dev} {q : Nat} {tx : Bool} (htx : tx = true ↔ ∃ a b c f l, d.heldWait q = some (.tx a b c f l))
    (hg : g = d.modSq q (fun z => { z with checking := none, restart := false, held := none, stall := none, live2 := none,
                                           grant := if tx then none else z.grant })) :
    d.sqStop q = if d.sqLive q || d.sqState q == sqARMED then g.sqTo q sqHALTED else g := by
  subst hg
  unfold Dev.sqStop
  cases tx with
  | true =>
    obtain ⟨a, b, c, f, l, hheld⟩ := htx.1 rfl
    simp only [hheld]
  | false =>
    split
    · next hheld => exact absurd (htx.2 ⟨_, _, _, _, _, hheld⟩) Bool.false_ne_true
    · rfl

theorem Dev.sqClear_leads {d g : Dev} {q : Nat} (hg : g = d.modSq q (fun z => { z with restart := false }))
    (h : d.sqState q = 4 ∨ d.sqState q = 5) : d.sqClear q = (g.wr (F.SQ_STATUS_STATE q) 0).wr (F.SQ_FAULT_FCODE q) 0 := by
  subst hg
  exact if_pos h

theorem Dev.sqClear_stays {d g : Dev} {q : Nat} (hg : g = d.modSq q (fun z => { z with restart := false }))
    (h4 : d.sqState q ≠ 4) (h5 : d.sqState q ≠ 5) : d.sqClear q = g := by
  subst hg
  exact if_neg (not_or.2 ⟨h4, h5⟩)

/-! ### The live range and the step table (R196, R220) -/

/-- The state of a sequencer is not in SQ_LIVE. -/
theorem Dev.sqState_setLive (d : Dev) (q : Nat) (w : Word32) : (d.setWord (A.SQ_LIVE q) w).sqState q = d.sqState q := by
  unfold Dev.sqState Dev.rd
  rw [Dev.word_setWord_ne _ _ _ _ (by simp [F.SQ_STATUS_STATE, A.SQ_STATUS, A.SQ_LIVE])]

theorem Dev.sqLive_setLive (d : Dev) (q : Nat) (w : Word32) : (d.setWord (A.SQ_LIVE q) w).sqLive q = d.sqLive q := by
  rw [Dev.sqLive, Dev.sqState_setLive, Dev.sqLive]

theorem Dev.writeLive_unchecked {d : Dev} {q : Nat} {v : Word32} (h : ¬ (d.sqState q = 1 ∨ d.sqState q = 2 ∨ d.sqState q = 3)) :
    d.writeLive q v = d.setWord (A.SQ_LIVE q) (v &&& 0x1FFF1FFF#32) := by
  obtain ⟨h1, h23⟩ := not_or.1 h
  exact if_pos ⟨by simp [Dev.sqLive_false_iff.2 (not_or.1 h23)], h1⟩

/-- A range that passes is taken, and is pending while the sequencer runs or holds. -/
theorem Dev.writeLive_passes {d : Dev} {q : Nat} {v w : Word32} (hw : w = v &&& 0x1FFF1FFF#32)
    (hlive : d.sqState q = 1 ∨ d.sqState q = 2 ∨ d.sqState q = 3)
    (hok : d.firstBad q (getBits w 0 13) (getBits w 16 13) = none) :
    d.writeLive q v = if d.sqLive q then (d.setWord (A.SQ_LIVE q) w).modSq q (fun z => { z with live2 := some (d.live q) })
      else d.setWord (A.SQ_LIVE q) w := by
  subst hw
  unfold Dev.writeLive
  dsimp only
  rw [if_neg ?_, hok]
  · dsimp only
    rw [Dev.sqLive_setLive]
  · rintro ⟨hidle, harmed⟩
    exact hlive.elim harmed (fun h => by simp [Dev.sqLive_iff.2 h] at hidle)

theorem Dev.writeLive_bad {d : Dev} {q i : Nat} {v w : Word32} (hw : w = v &&& 0x1FFF1FFF#32)
    (hlive : d.sqState q = 1 ∨ d.sqState q = 2 ∨ d.sqState q = 3)
    (hbad : d.firstBad q (getBits w 0 13) (getBits w 16 13) = some i) :
    d.writeLive q v = (d.raise (F.SQ_STATUS_TBLBAD q)).wr (F.SQ_FAULT_FSTEP q) i := by
  subst hw
  unfold Dev.writeLive
  dsimp only
  rw [if_neg ?_, hbad]
  rintro ⟨hidle, harmed⟩
  exact hlive.elim harmed (fun h => by simp [Dev.sqLive_iff.2 h] at hidle)

/-- A step is writable outside ARMED, RUN and HOLD, and else outside both live ranges. -/
theorem Dev.stepWritable_iff {d : Dev} {q i : Nat} : d.stepWritable q i = true ↔
    d.domOn (q / 2) = false ∨ ¬ (d.sqState q = 1 ∨ d.sqState q = 2 ∨ d.sqState q = 3) ∨
      inRange (d.live q) i = false ∧ inRange (d.liveReg q) i = false := by
  simp only [Dev.stepWritable, sqARMED, Bool.or_eq_true, Bool.and_eq_true, Bool.not_eq_true', Dev.sqLive_false_iff, bne_iff_ne,
    not_or]
  tauto

/-- Settles O31: each command by the branch that its state selects. -/
theorem sequencerCommandsComplete : Obligations.SequencerCommandsComplete := by
  refine ⟨?_, ?_, ?_, ?_, ?_, ?_⟩
  · intro s t d q h
    show (_ → execStart t q s = _) ∧ (_ → _ → _ → execStart t q s = _) ∧ (_ → _ → execStart t q s = _)
    exact ⟨State.runClk_off h, fun hon hrun hidle => State.runClk_on h hon (Dev.sqStart_idle hrun hidle),
      fun hon hrej => State.runClk_on h hon (Dev.sqStart_rejected hrej)⟩
  · intro s t d g q tx h htx hg
    have hstop := Dev.sqStop_eq htx hg
    show (_ → execStop t q s = _) ∧ (_ → _ → execStop t q s = _) ∧ (_ → _ → _ → _ → execStop t q s = _)
    refine ⟨State.runClk_off h, fun hon hlive => State.runClk_on h hon (hstop.trans (if_pos ?_)),
      fun hon h1 h2 h3 => State.runClk_on h hon (hstop.trans (if_neg ?_))⟩
    · simp only [Bool.or_eq_true, Dev.sqLive_iff, beq_iff_eq, sqARMED]
      exact hlive.elim .inr .inl
    · simp only [Bool.or_eq_true, Dev.sqLive_iff, beq_iff_eq, sqARMED]
      rintro (h' | h')
      · exact h'.elim h2 h3
      · exact h1 h'
  · intro s t d g q h hg
    show (_ → execClear t q s = _) ∧ (_ → _ → execClear t q s = _) ∧ (_ → _ → _ → execClear t q s = _)
    exact ⟨State.runClk_off h, fun hon hst => State.runClk_on h hon (Dev.sqClear_leads hg hst),
      fun hon h4 h5 => State.runClk_on h hon (Dev.sqClear_stays hg h4 h5)⟩
  · intro s t d k m h
    show (_ → execPfset t k m s = _ ∧ execPfclr t k m s = _) ∧ (_ → execPfset t k m s = _ ∧ execPfclr t k m s = _)
    exact ⟨fun hoff => ⟨State.runClk_off h hoff, State.runClk_off h hoff⟩,
      fun hon => ⟨State.runClk_on h hon rfl, State.runClk_on h hon rfl⟩⟩
  · intro s t d q v w h hw
    have hon : ∀ {r : Dev}, d.domOn (q.val / 2) = true → d.writeLive q.val v = r → exec (.sqLiveWrite t q v) s = .next (s.to r) :=
      fun hon hr => by
        show execSqLiveWrite t q v s = _
        exact State.runClk_on h hon hr
    refine ⟨?_, ?_, ?_, ?_, ?_⟩
    · show _ → execSqLiveWrite t q v s = _
      exact State.runClk_off h
    · intro hdom h1 h2 h3
      exact hon hdom (hw ▸ Dev.writeLive_unchecked (by simp [h1, h2, h3]))
    · intro hdom harmed hok
      exact hon hdom ((Dev.writeLive_passes hw (.inl harmed) hok).trans (if_neg (by simp [Dev.sqLive_iff, harmed])))
    · intro hdom hlive hok
      exact hon hdom ((Dev.writeLive_passes hw (.inr hlive) hok).trans (if_pos (Dev.sqLive_iff.2 hlive)))
    · intro i hdom hlive hbad
      exact hon hdom (Dev.writeLive_bad hw hlive hbad)
  · intro s t d q i high v a h ha
    subst ha
    constructor
    · intro hon hfree
      show execSeqTableWrite t q i high v s = _
      refine State.runClk_to h ((if_pos ⟨hon, Dev.stepWritable_iff.2 ?_⟩).trans rfl)
      rcases hfree with hoff | h0 | h4 | h5 | hout
      · exact .inl hoff
      · exact .inr (.inl (by omega))
      · exact .inr (.inl (by omega))
      · exact .inr (.inl (by omega))
      · exact .inr (.inr hout)
    · intro hheld
      show execSeqTableWrite t q i high v s = _
      refine State.runClk_to h (if_neg ?_)
      rintro ⟨hon, hw⟩
      rcases hheld with hoff | ⟨hdom, hlive, hin⟩
      · simp [hon] at hoff
      · rcases Dev.stepWritable_iff.1 hw with hoff | hidle | ⟨hl, hr⟩
        · simp [hdom] at hoff
        · exact hidle hlive
        · simp [hl, hr] at hin

end Sys2Proof.Machine
end

section
/-! PROOFS. What a sequencer meets: faults, the watchdog, checks, entry to RUN, restarts (R216, R217, R343 to R345, R412), and missed
deadlines (R60, R201, R215, R451). -/

namespace Sys2Proof.Machine

open Sys2Proof

/-- A command that may go on with the start of service, by its effect on the device. -/
theorem State.runClkSvc_to {s : State} {t : Nat} {d e : Dev} {f : Dev → Dev} (h : s.ready t d) (he : f d = e) :
    s.runClkSvc t f = .next (s.to (e.serviceNext 256)) :=
  State.runClk_to h (congrArg (Dev.serviceNext · 256) he)

/-! ### Faults found at the fetch (R216) -/

/-- What SEQUENCER_FAULT does to a running sequencer, past the parity error that it may find. -/
def Dev.fetchFaulted (d : Dev) (q : Nat) (cause : SeqCause) (pc : Nat) : Dev :=
  match d.fetchFault q with
  | some code =>
    if cause = .parity ∧ code = fcPARITY ∨ cause = .runaway ∧ code = fcRUNAWAY ∨ cause = .outlive ∧ code = fcOUTLIVE
    then d.seqFault q code pc else d
  | none =>
    match d.stepAt q with
    | some st => if cause = .stack ∧ d.stackFails q st then (d.condParity q st.cond.toNat).seqFault q fcSTACK pc else d
    | none => d

/-- SEQUENCER_FAULT on a device that is `g` once the fetch has read the step's words. -/
theorem exec_sequencerFault_read {s : State} {t : Nat} {d g e : Dev} {q : SeqId} {c : SeqCause} (h : s.ready t d)
    (hg : (if c = .parity ∧ d.sqState q.val = sqRUN then d.upsetStep q.val (d.sqPc q.val) else d) = g)
    (he : (if g.sqState q.val ≠ sqRUN then g else g.fetchFaulted q.val c (d.sqPc q.val)) = e) :
    exec (.sequencerFault t q c) s = .next (s.to e) := by
  show execSequencerFault t q c s = _
  refine State.runClk_to h ?_
  dsimp only
  rw [hg]
  exact he

theorem exec_sequencerFault_running {s : State} {t : Nat} {d e : Dev} {q : SeqId} {c : SeqCause} (h : s.ready t d)
    (hrun : d.sqState q.val = 2) (hc : c ≠ .parity) (he : d.fetchFaulted q.val c (d.sqPc q.val) = e) :
    exec (.sequencerFault t q c) s = .next (s.to e) :=
  exec_sequencerFault_read h (if_neg (fun hp => hc hp.1)) ((if_neg (not_not.mpr hrun)).trans he)

/-- A parity error found at the fetch: the step's word fails parity from now on. -/
theorem exec_sequencerFault_parity {s : State} {t : Nat} {d g e : Dev} {q : SeqId} (h : s.ready t d)
    (hrun : d.sqState q.val = 2) (hg : d.upsetStep q.val (d.sqPc q.val) = g) (hrun' : g.sqState q.val = 2)
    (he : g.fetchFaulted q.val .parity (d.sqPc q.val) = e) : exec (.sequencerFault t q .parity) s = .next (s.to e) :=
  exec_sequencerFault_read h ((if_pos ⟨rfl, hrun⟩).trans hg) ((if_neg (not_not.mpr hrun')).trans he)

theorem Dev.upsetStep_none {d : Dev} {q i : Nat} (h : d.stepBad q i = true ∨ inRange (d.live q) i = false) : d.upsetStep q i = d := by
  unfold Dev.upsetStep
  exact if_pos (h.imp id (by simp [·]))

theorem Dev.fetchFaulted_fault {d : Dev} {q pc code : Nat} {c : SeqCause} (hf : d.fetchFault q = some code)
    (h : c = .parity ∧ code = 1 ∨ c = .runaway ∧ code = 3 ∨ c = .outlive ∧ code = 5) :
    d.fetchFaulted q c pc = d.seqFault q code pc := by
  unfold Dev.fetchFaulted
  rw [hf]
  exact if_pos h

theorem Dev.fetchFaulted_other {d : Dev} {q pc code : Nat} {c : SeqCause} (hf : d.fetchFault q = some code)
    (hp : ¬ (c = .parity ∧ code = 1)) (hr : ¬ (c = .runaway ∧ code = 3)) (ho : ¬ (c = .outlive ∧ code = 5)) :
    d.fetchFaulted q c pc = d := by
  unfold Dev.fetchFaulted
  rw [hf]
  exact if_neg (not_or.2 ⟨hp, not_or.2 ⟨hr, ho⟩⟩)

theorem Dev.fetchFaulted_stack {d : Dev} {q pc : Nat} {st : Step} (hf : d.fetchFault q = none) (hat : d.stepAt q = some st)
    (hfail : d.stackFails q st = true) : d.fetchFaulted q .stack pc = (d.condParity q st.cond.toNat).seqFault q 2 pc := by
  unfold Dev.fetchFaulted
  rw [hf, hat]
  exact if_pos ⟨rfl, hfail⟩

/-- A fetch without a fault stays, but where the stack of the step fails. -/
theorem Dev.fetchFaulted_none {d : Dev} {q pc : Nat} {c : SeqCause} (hf : d.fetchFault q = none)
    (hstack : c = .stack → ∀ st, d.stepAt q = some st → d.stackFails q st = false) : d.fetchFaulted q c pc = d := by
  unfold Dev.fetchFaulted
  rw [hf]
  cases hat : d.stepAt q with
  | none => rfl
  | some st => exact if_neg (fun ⟨hc, hfail⟩ => by simp [hstack hc st hat] at hfail)

/-- A CALL at depth 8 or a RETURN at depth 0 that executes fails the stack. -/
theorem Dev.stackFails_of_op {d : Dev} {q x : Nat} {st : Step} (hk : d.cond q st.cond.toNat = true)
    (htime : d.stepTime q st 0 = some x) (hx : d.now ≤ x)
    (hop : (∃ tg, st.op = .call tg ∧ 8 ≤ (d.sq q).stack.length) ∨ (st.op = .ret ∧ (d.sq q).stack = [])) :
    d.stackFails q st = true := by
  rcases hop with ⟨tg, hop, hdepth⟩ | ⟨hop, hdepth⟩
  · simp [Dev.stackFails, hop, hdepth, hk, htime, hx]
  · simp [Dev.stackFails, hop, hdepth, hk, htime, hx]

/-- The fetch of a step inside the live range that fails parity. -/
theorem Dev.fetchFault_parity {d : Dev} {q : Nat} (hin : inRange (d.live q) (d.sqPc q) = true)
    (hbad : d.stepBad q (d.sqPc q) = true) : d.fetchFault q = some 1 := by
  simp [Dev.fetchFault, hin, hbad, fcPARITY]

theorem Dev.fetchFault_outlive {d : Dev} {q : Nat} (hout : inRange (d.live q) (d.sqPc q) = false) : d.fetchFault q = some 5 := by
  simp [Dev.fetchFault, hout, fcOUTLIVE]

/-- The device once a word of step `i` fails parity (log entry 27). -/
def Dev.stepUpset (d : Dev) (q i : Nat) : Dev :=
  { d with draws := d.draws + 1
           badParity := seqWord q i (if (Config.upset d.draws).getLsbD 0 then 1 else 0) :: d.badParity }

theorem Dev.stepUpset_stepBad (d : Dev) (q i : Nat) : (d.stepUpset q i).stepBad q i = true := by
  unfold Dev.stepBad Dev.stepUpset
  cases (Config.upset d.draws).getLsbD 0 with
  | false => simp
  | true => simp

theorem Dev.upsetStep_upsets {d : Dev} {q i : Nat} (hbad : d.stepBad q i = false) (hin : inRange (d.live q) i = true) :
    d.upsetStep q i = d.stepUpset q i := by
  unfold Dev.upsetStep
  exact if_neg (by simp [hbad, hin])

/-! ### Checks, entry to RUN and restarts (R217, R343 to R345, R412) -/

/-- Every step of the range passes parity. -/
theorem all_range'_iff (r : Nat × Nat) (p : Nat → Bool) :
    (List.range' r.1 (r.2 + 1 - r.1)).all p = true ↔ ∀ i, r.1 ≤ i → i ≤ r.2 → p i = true := by
  simp only [List.all_eq_true, List.mem_range'_1]
  exact ⟨fun h i hlo hhi => h i ⟨hlo, by omega⟩, fun h i hi => h i hi.1 (by omega)⟩

theorem Dev.endCheck_passes {d g : Dev} {q c : Nat} (hc : (d.sq q).checking = some c)
    (hg : g = d.modSq q (fun z => { z with checking := none })) (hok : g.firstBad q (g.liveReg q).1 (g.liveReg q).2 = none) :
    d.endCheck q = (true, (g.wr (F.SQ_STATUS_STATE q) 1).modSq q (fun z => { z with
      startAt := if c = 0 ∨ (g.cycle + 2 ^ 32 - c) % 2 ^ 32 < 2 ^ 31 then (g.cycle + 1) % 2 ^ 32 else c })) := by
  unfold Dev.endCheck
  dsimp only
  rw [← hg, hok, hc]
  rfl

theorem Dev.endCheck_fails {d g : Dev} {q i : Nat} (hg : g = d.modSq q (fun z => { z with checking := none }))
    (hbad : g.firstBad q (g.liveReg q).1 (g.liveReg q).2 = some i) :
    d.endCheck q = (false, ((g.raise (F.SQ_STATUS_TBLBAD q)).wr (F.SQ_FAULT_FCODE q) 8).wr (F.SQ_FAULT_FSTEP q) i) := by
  unfold Dev.endCheck
  dsimp only
  rw [← hg, hbad]
  rfl

/-- What the end of a check does to the group's bring-up (R343, R345). -/
def Dev.checked (d : Dev) (q : Nat) (ok : Bool) : Dev :=
  let k := d.tgt q
  if d.phase k ≠ phSTART then d
  else if !ok then (d.stopSeqs (d.group k)).bringFail k lrTBLBAD
  else if (d.sq (2 * (q / 2))).checking.isSome ∨ (d.sq (2 * (q / 2) + 1)).checking.isSome then d
  else if (d.bring k).abort then (d.stopSeqs (d.group k)).abortBring k
  else (d.group k).foldl (fun d m => d.setPhase m phARMED) d

theorem exec_startCheckComplete {s : State} {t c : Nat} {d e r : Dev} {q : SeqId} {ok : Bool} (h : s.ready t d)
    (hc : (d.sq q.val).checking = some c) (hend : d.endCheck q.val = (ok, e)) (hr : e.checked q.val ok = r) :
    exec (.startCheckComplete t q) s = .next (s.to (r.serviceNext 256)) := by
  show execStartCheckComplete t q s = _
  refine State.runClkSvc_to h ?_
  simp only [hc, hend, Option.isNone_some, Bool.false_eq_true, if_false]
  unfold Dev.checked at hr
  exact hr

/-- The cycle depends on the records of mains time, the instant and MT_STATUS. -/
theorem Dev.cycle_congr {d e : Dev} (hmains : e.mains = d.mains) (hnow : e.now = d.now)
    (hstatus : e.word A.MT_STATUS = d.word A.MT_STATUS) : e.cycle = d.cycle := by
  have hruns : e.timeRuns = d.timeRuns := by
    simp only [Dev.timeRuns, Dev.mst, Dev.rd, show F.MT_STATUS_STATE.addr = A.MT_STATUS from rfl, hstatus]
  rw [Dev.cycle, Dev.cycle, Dev.mainsAt, Dev.mainsAt, hruns, hmains, hnow]

/-- A write of a field of SQ_STATUS leaves the cycle. -/
theorem Dev.wr_cycle {d : Dev} {f : Field} {q v : Nat} (hf : f.addr = A.SQ_STATUS q) : (d.wr f v).cycle = d.cycle := by
  refine Dev.cycle_congr (d.wr_mains f v) (d.wr_now f v) (d.word_wr_ne f v _ ?_)
  rw [hf, A.SQ_STATUS, sqBase, A.MT_STATUS, blkMt]
  omega

theorem Dev.modSq_cycle (d : Dev) (q : Nat) (f : Seq → Seq) : (d.modSq q f).cycle = d.cycle := rfl

theorem Dev.enterRun_eq (d : Dev) (q : Nat) : d.enterRun q =
    ((((d.wr (F.SQ_STATUS_DEPTH q) 0).modSq q (fun z => { z with stack := [] })).wr (F.SQ_STATUS_PC q)
      (d.rd (F.SQ_CFG_ENTRY q))).wr (F.SQ_STATUS_STATE q) 2).modSq q (fun z => { z with
        btc := d.cycle, btg := 0, loops := [0, 0, 0, 0], armed := none, held := none, run := 0, wdog := d.cycle,
        open_ := false, keys := [], keyBad := false
        fetched := z.fetched.map (fun f => { f with newest := false }) }) := by
  have hcyc : (((d.setStack q []).wr (F.SQ_STATUS_PC q) (d.rd (F.SQ_CFG_ENTRY q))).sqTo q sqRUN).cycle = d.cycle := by
    rw [Dev.sqTo, Dev.wr_cycle (q := q) rfl, Dev.wr_cycle (q := q) rfl, Dev.setStack, Dev.modSq_cycle, Dev.wr_cycle (q := q) rfl]
  unfold Dev.enterRun
  dsimp only
  rw [hcyc]
  rfl

/-- The effect of SEQ_RUN_ENTRY on an ARMED sequencer at its start cycle. -/
theorem exec_seqRunEntry {s : State} {t : Nat} {d e : Dev} {q : SeqId} (h : s.ready t d) (harmed : d.sqState q.val = 1)
    (hrun : d.timeRuns = true) (hstart : (d.cycle + 2 ^ 32 - (d.sq q.val).startAt) % 2 ^ 32 < 2 ^ 31)
    (he : (if d.phase (d.tgt q.val) = phARMED ∧ (d.bring (d.tgt q.val)).abort then
        (d.stopSeqs (d.group (d.tgt q.val))).abortBring (d.tgt q.val)
      else if (d.enterRun q.val).phase (d.tgt q.val) ≠ phARMED ∨ (d.enterRun q.val).sqState (2 * (q.val / 2)) = sqARMED ∨
          (d.enterRun q.val).sqState (2 * (q.val / 2) + 1) = sqARMED then d.enterRun q.val
      else ((d.enterRun q.val).group (d.tgt q.val)).foldl (fun d m =>
        ((d.modBring m (fun _ => {})).setPhase m phSERVICE).chsvc m lrINSERVICE) (d.enterRun q.val)) = e) :
    exec (.seqRunEntry t q) s = .next (s.to (e.serviceNext 256)) := by
  show execSeqRunEntry t q s = _
  refine State.runClkSvc_to h ((if_neg ?_).trans he)
  simp [harmed, sqARMED, hrun]
  omega

/-- Settles O32: each event by the branch that its state selects. -/
theorem sequencerEventsComplete : Obligations.SequencerEventsComplete := by
  refine ⟨?_, ?_, ?_, ?_, ?_, ?_, ?_, ?_, ?_⟩
  · intro s t d q c code h hrun
    refine ⟨?_, ?_, ?_, ?_, ?_, ?_⟩
    · intro hf hc
      rcases hc with ⟨rfl, rfl⟩ | ⟨rfl, rfl⟩ | ⟨rfl, rfl, hbad⟩
      · exact exec_sequencerFault_running h hrun (by decide) (Dev.fetchFaulted_fault hf (.inr (.inl ⟨rfl, rfl⟩)))
      · exact exec_sequencerFault_running h hrun (by decide) (Dev.fetchFaulted_fault hf (.inr (.inr ⟨rfl, rfl⟩)))
      · exact exec_sequencerFault_parity h hrun (Dev.upsetStep_none (.inl hbad)) hrun
          (Dev.fetchFaulted_fault hf (.inl ⟨rfl, rfl⟩))
    · intro st x hc hf hat hk htime hx hop
      subst hc
      exact exec_sequencerFault_running h hrun (by decide) (Dev.fetchFaulted_stack hf hat (Dev.stackFails_of_op hk htime hx hop))
    · intro hc hf hr ho
      exact exec_sequencerFault_running h hrun hc (Dev.fetchFaulted_other hf (fun hp => hc hp.1) hr ho)
    · intro hc hf
      have hne : c ≠ .parity ∧ c ≠ .stack := by rcases hc with rfl | rfl <;> decide
      exact exec_sequencerFault_running h hrun hne.1 (Dev.fetchFaulted_none hf (fun hs => absurd hs hne.2))
    · intro hc hf hfree
      subst hc
      exact exec_sequencerFault_running h hrun (by decide) (Dev.fetchFaulted_none hf (fun _ => hfree))
    · intro hc hout
      subst hc
      exact exec_sequencerFault_parity h hrun (Dev.upsetStep_none (.inr hout)) hrun
        (Dev.fetchFaulted_other (Dev.fetchFault_outlive hout) (by decide) (by decide) (by decide))
  · intro s t d q c h hrun
    exact exec_sequencerFault_read h (if_neg (fun hc => hrun hc.2)) (if_pos hrun)
  · intro s t d g q i h hrun hi hbad hin hg
    subst hi
    have hg : g = d.stepUpset q.val (d.sqPc q.val) := hg
    subst hg
    exact exec_sequencerFault_parity h hrun (Dev.upsetStep_upsets hbad hin) hrun (Dev.fetchFaulted_fault
      (Dev.fetchFault_parity (d := d.stepUpset q.val (d.sqPc q.val)) hin (Dev.stepUpset_stepBad ..)) (.inl ⟨rfl, rfl⟩))
  · intro s t d q w h hw
    subst hw
    constructor
    · intro hlive hw hcyc
      show execSeqWatchdog t q s = _
      exact State.runClk_to h (if_pos ⟨hlive, hw, hcyc⟩)
    · intro hfree
      show execSeqWatchdog t q s = _
      refine State.runClk_to h (if_neg ?_)
      rintro ⟨hlive, hw, hcyc⟩
      rcases hfree with hl | hz | hc
      · simp [hl] at hlive
      · exact hw hz
      · exact absurd hcyc (Nat.not_le.mpr hc)
  · intro s t d g q h hg
    subst hg
    constructor
    · intro hfault hrestart hgood
      show execSeqAutoRestart t q s = _
      exact State.runClk_to h (if_pos ⟨hfault, hrestart, (all_range'_iff _ _).2 (fun i hlo hhi => by simp [hgood i hlo hhi])⟩)
    · intro hno
      show execSeqAutoRestart t q s = _
      refine State.runClk_to h (if_neg ?_)
      rintro ⟨hfault, hrestart, hgood⟩
      rcases hno with hf | hr | ⟨i, hlo, hhi, hbad⟩
      · exact hf hfault
      · simp [hr] at hrestart
      · simpa [hbad] using (all_range'_iff _ _).1 hgood i hlo hhi
  · intro s t d g e q c k h hc hk hg
    subst hk
    have hcyc : g.cycle = d.cycle := by rw [hg]; rfl
    constructor
    · intro hok he
      have hend : d.endCheck q.val = (true, e) := by
        rw [Dev.endCheck_passes hc hg hok, he, hcyc]
      have hexec : ∀ {r}, e.checked q.val true = r → exec (.startCheckComplete t q) s = .next (s.to (r.serviceNext 256)) :=
        fun hr => exec_startCheckComplete h hc hend hr
      refine ⟨fun hph => hexec (if_pos hph), fun hph hother => hexec ?_, fun hph ha hb => ⟨fun habort => hexec ?_, fun habort => hexec ?_⟩⟩
      · exact (if_neg (not_not.mpr hph)).trans ((if_neg (by decide)).trans (if_pos hother))
      · exact (if_neg (not_not.mpr hph)).trans ((if_neg (by decide)).trans ((if_neg (by simp [ha, hb])).trans (if_pos habort)))
      · exact (if_neg (not_not.mpr hph)).trans ((if_neg (by decide)).trans ((if_neg (by simp [ha, hb])).trans
          (if_neg (by simp [habort]))))
    · intro i hbad he
      have hend : d.endCheck q.val = (false, e) := by rw [Dev.endCheck_fails hg hbad, he]
      exact ⟨fun hph => exec_startCheckComplete h hc hend (if_pos hph),
        fun hph => exec_startCheckComplete h hc hend ((if_neg (not_not.mpr hph)).trans (if_pos rfl))⟩
  · intro s t d q h hc
    show execStartCheckComplete t q s = _
    refine State.runClkSvc_to h (if_pos ?_)
    simp [hc]
  · intro s t d e q k h harmed hrun hstart hk he
    have he : e = d.enterRun q.val := he.trans (Dev.enterRun_eq ..).symm
    subst he hk
    have hexec := fun {r} hr => exec_seqRunEntry (e := r) h harmed hrun hstart hr
    refine ⟨fun hph hph' => hexec ?_, fun hph habort => hexec (if_pos ⟨hph, habort⟩),
      fun hph habort hph' => ⟨fun hother => hexec ?_, fun ha hb => hexec ?_⟩⟩
    · exact (if_neg (fun hp => hph hp.1)).trans (if_pos (.inl hph'))
    · exact (if_neg (by simp [habort])).trans (if_pos (.inr hother))
    · exact (if_neg (by simp [habort])).trans (if_neg (not_or.2 ⟨not_not.mpr hph', not_or.2 ⟨ha, hb⟩⟩))
  · intro s t d q h hno
    show execSeqRunEntry t q s = _
    refine State.runClkSvc_to h (if_pos ?_)
    exact hno.imp id (Or.imp (by simp [·]) id)

/-! ### Missed deadlines -/

/-- Settles O33: each item by the branch of its kind. -/
theorem deadlineMissCompletes : Obligations.DeadlineMissCompletes := by
  refine ⟨?_, ?_, ?_, ?_, ?_⟩
  · intro s t d q x op h hheld hwait hx
    have hexec : ∀ {e}, d.missHeld q.val = e → exec (.deadlineMiss t (.step q)) s = .next (s.to e) := fun he => by
      show execDeadlineMiss t (.step q) s = _
      exact State.runClk_to h he
    refine ⟨?_, ?_, ?_⟩
    · intro w sb lo pf hop hw
      refine hexec ?_
      simp only [Dev.missHeld, hheld, hwait, hop, if_neg (Nat.not_le.mpr hx), if_neg hw]
      rfl
    · intro a b c e f hop
      refine hexec ?_
      simp only [Dev.missHeld, hheld, hwait, hop, if_neg (Nat.not_le.mpr hx)]
      rfl
    · intro a b c e f g hop
      refine hexec ?_
      simp only [Dev.missHeld, hheld, hwait, hop, if_neg (Nat.not_le.mpr hx)]
      rfl
  · intro s t d q p h hp
    show execDeadlineMiss t (.path q) s = _
    refine State.runClk_to h ?_
    simp only [Dev.missPath, hp]
    rfl
  · intro s t d g q f h hf hg
    show execDeadlineMiss t (.key q) s = _
    refine State.runClk_to h ?_
    simp only [Dev.missKey, hf]
    rw [hg]
    cases f.newest with
    | false => rfl
    | true => rfl
  · intro s t d g e q r last h hr hlast hg he
    subst hlast hg he
    show execDeadlineMiss t (.budget q) s = _
    refine State.runClk_to h ?_
    simp only [Dev.missBudget, hr]
    rfl
  · intro s t d g k x h hx hg
    subst hg
    show execDeadlineMiss t (.slot k) s = _
    refine State.runClk_to h ?_
    simp only [Dev.missSlot, hx]
    rfl

end Sys2Proof.Machine
end

section
/-! PROOFS. Transmission (R27 to R35, R110, R203, R205, R207, R332). -/

namespace Sys2Proof.Machine

open Sys2Proof

/-! ### The TX step -/

/-- A step tried before its time, with its grant, its keys and room in PRMQ, issues its entry (R205). -/
theorem Dev.tryTx_issues {d : Dev} {q k x : Nat} {p : TxPlan} {g : SlotGrant} (hlock : d.locked k = false) (hx : d.now + 40 ≤ x)
    (hgrant : (d.sq q).grant = some g) (hkeys : ∀ y ∈ d.txKeys p, d.keyReady y = true ∧ d.slotFails y = false)
    (hover : d.overlapsTx k x = false) (hfctr : d.fctrSpent p = false) (hroom : d.prmqRoom k 1 = true) :
    d.tryTx q k p x = (d.issueTx q k p x g).abortStarted k := by
  have hready : (d.txKeys p).all d.keyReady = true := List.all_eq_true.2 (fun y hy => (hkeys y hy).1)
  have hsound : (d.txKeys p).any d.slotFails = false := List.any_eq_false.2 (fun y hy => by simp [(hkeys y hy).2])
  simp [Dev.tryTx, hlock, Nat.not_lt.mpr hx, hgrant, hready, hsound, hover, hfctr, hroom]

/-- A step whose gap R207 gives and that passes every check of R205 before its grant is tried (R205). -/
theorem Dev.txStep_tries {d d1 d2 : Dev} {q n x k typ fsel lenmax : Nat} {st : Step} {via gap : Bool} {p : TxPlan} {inner : List Byte}
    {len : Nat} (hk : k = d.tgt q) (hgap : (if gap then d.useGap k typ else some (0, d)) = some (n, d1))
    (htime : d.stepTime q st n = some x) (howner : d.ownerOk q = true) (hsends : roleSends (d.role k) typ = true)
    (harmed : needsArmed typ fsel via = true → (d1.sq q).armed ≠ none) (hbad : d1.txBad q k typ via = [])
    (hplan : d1.txPlan q k typ fsel via lenmax = some p) (hinner : inner = ((d1.ch k).grant.map (fun g => g.inner)).getD [])
    (hlen : len = p.lenOf inner (d1.baseLen k p)) (hform : d1.planRefusal k p len = none) (hfits : len ≤ p.limit ∨ p.typ = 15)
    (hd2 : d2 = (if typ = 4 ∧ (d1.joinSlot k x).isSome then d1.drawSlot k else d1))
    (hready : d2.typeReady k p.entry typ x = true) : d.txStep q st typ fsel via lenmax gap = d2.tryTx q k p x := by
  have hnode : ¬ (needsArmed typ fsel via = true ∧ (d1.sq q).armed = none) := fun h => harmed h.1 h.2
  have hroom : ¬ (p.limit < len ∧ p.typ ≠ tyINNER) := fun h => hfits.elim (Nat.not_le.mpr h.1) h.2
  subst hk hinner hlen hd2
  unfold Dev.txStep
  simp only [hgap, htime, howner, hsends, Bool.not_true, Bool.false_eq_true, or_self, if_false, hnode, hbad, ne_eq,
    not_true_eq_false, hplan, hform, hroom]
  exact if_pos hready

theorem Dev.noteLock_free {d : Dev} {k : Nat} (h : d.locked k = false) : d.noteLock k = d := by
  simp [Dev.noteLock, h]

/-! ### Drivers (R31) -/

/-- A trip leaves the cycle. -/
theorem Dev.cycle_trip (d : Dev) (k : ChanId) (c : Chan) : ((d.setCh k.val c).raise (F.LIF_STATUS_DRVOC k)).cycle = d.cycle := by
  refine Dev.cycle_congr (Dev.raise_mains ..) (Dev.raise_now ..) ?_
  refine Dev.word_wr_ne _ _ _ _ ?_
  simp only [F.LIF_STATUS_DRVOC, A.LIF_STATUS, A.MT_STATUS, chBase, blkMt]
  omega

/-- Settles O34: each command by the branch that its state selects. -/
theorem transmissionCommandsComplete : Obligations.TransmissionCommandsComplete := by
  refine ⟨?_, ?_, ?_, ?_, ?_, ?_, ?_⟩
  · intro s t d e e1 e2 q st x n k typ fsel via lenmax gap p g inner len h hat hcond hop hk hfree hgap htime howner hsends harmed
      hbad hplan hinner hlen hform hfits he2 hready hx hroom hgrant hkeys hover hfctr hlock
    obtain ⟨hrun, -⟩ := id hat
    show execTx t q s = _
    refine State.runClk_to h ((if_neg ?_).trans ((Dev.fetch_ok .tx _ hat (by rw [hop]; rfl) hcond).trans ?_))
    · rw [hrun]; decide
    · simp only [hop]
      rw [← hk, Dev.noteLock_free hfree, Dev.txStep_tries hk hgap htime howner hsends harmed hbad hplan hinner hlen hform hfits he2
        hready]
      exact Dev.tryTx_issues hlock hx hgrant hkeys hover hfctr hroom
  · intro s t d g k x h hdue hg
    show execTransmitEntry t k s = _
    refine State.runClk_to h ?_
    simp only [hdue]
    rw [← hg]
    rfl
  · intro s t d k x h hx
    show execTransmissionEnd t k s = _
    refine State.runClk_to h ?_
    simp only [hx]
    rfl
  · intro s t d g h' k trips h hlive hbegun htrips hg hh
    have hsends : (d.ch (d.lead k.val)).txs.any (fun x => x.begun) = true := List.any_eq_true.2 hbegun
    have hcyc : g.cycle = d.cycle := by rw [hg, Dev.cycle_trip]
    show execDriverOvercurrent t k s = _
    refine State.runClk_to h ?_
    simp only [hlive, hsends, Bool.not_true, Bool.false_eq_true, or_self, if_false]
    rw [← htrips, ← hg, hcyc, ← hh]
    rfl
  · intro s t d n g h hg
    subst hg
    show execVhvFeLow t n s = _
    exact State.run_to h rfl
  · intro s t d n g h hg
    subst hg
    show execVhvFeRestored t n s = _
    exact State.run_to h rfl
  · intro s t d g h hg
    subst hg
    show execVddFeOutOfRange t s = _
    exact State.run_to h rfl

end Sys2Proof.Machine
end

section
/-! PROOFS. Acquisition (R18, R35, R37, R59, R138 to R143, R146, R147, R179, R207 to R209). -/

namespace Sys2Proof.Machine

open Sys2Proof

/-! ### The RX step (R207 to R209) -/

/-- An RX step before its time, over no other window, with room in PRMQ, issues its window. -/
theorem Dev.tryRx_issues {d : Dev} {q k o close : Nat} {p : RxPlan} (ho : d.now + 40 ≤ o)
    (hapart : ∀ v ∈ (d.ch k).wins, v.close ≤ o ∨ close ≤ v.opn) (hroom : d.rxRoom k = true) :
    d.tryRx q k p o close = d.issueRx q k p o close := by
  have hover : (d.ch k).wins.any (fun w => decide (o < w.close) && decide (w.opn < close)) = false :=
    List.any_eq_false.2 (fun v hv => by
      have := hapart v hv
      simp only [Bool.and_eq_true, decide_eq_true_eq]
      omega)
  simp only [Dev.tryRx, Nat.not_lt.mpr ho, hover, hroom, Bool.not_true, Bool.false_eq_true, if_false]

/-- An RX step whose gap R207 gives and that passes its checks is tried. -/
theorem Dev.rxStep_tries {d d1 : Dev} {q k x wlen kh sync gain : Nat} {st : Step} {gsrc gap : Bool} {p : RxPlan} (hk : k = d.tgt q)
    (htime : (d.rxGap k gap).map (d.stepTime q st) = some (some x)) (howner : d.ownerOk q = true) (hrole : d.role k ≠ 0)
    (hplan : d.rxPlan q k wlen kh sync gsrc gain gap = some p)
    (hd1 : d1 = (if gap then d.modCh k (fun c => { c with grant := c.grant.map (fun g => { g with winFree := false }) }) else d))
    (hform : d1.rxRefusal k p.kh p.sync = none) :
    d.rxStep q st wlen kh sync gsrc gain gap = d1.tryRx q k p x (x + d1.grains p.wlen) := by
  subst hk hd1
  have hrole : ¬ d.role (d.tgt q) = roleOFF := hrole
  unfold Dev.rxStep
  simp only [htime, howner, Bool.not_true, Bool.false_eq_true, hrole, or_self, if_false, hplan, hform]

/-! ### Windows (R35, R37, R138) -/

theorem exec_windowOpen {s : State} {t : Nat} {d e : Dev} {k : ChanId} {w : RxWin} (h : s.ready t d)
    (hw : (d.ch k.val).wins.find? (fun w => !w.opened && decide (w.opn ≤ d.now) && decide (w.opn ≤ w.close)) = some w)
    (he : d.openWindow k.val w = e) : exec (.windowOpen t k) s = .next (s.to e) := by
  show execWindowOpen t k s = _
  refine State.runClk_to h ?_
  simp only [hw]
  exact he

/-! ### The receiver's rows -/

/-- A detection in a window that is not cut (R138). -/
theorem exec_preambleDetection {s : State} {t : Nat} {d0 d g e : Dev} {k : ChanId} {f : Feed} {w : RxWin} {p : Peak} {l : List Peak}
    (h : s.ready t d0) (hd : d = d0.intake k.val f) (hsearch : d.aqState k.val = 1) (hp : (d.ch k.val).search.peaks = p :: l)
    (hndet : d.ndet k.val ≤ l.length + 1) (hw : d.searchWin k.val = some w) (hcut : w.cut = false)
    (hg : g = ((d.modCh k.val (fun h => { h with search := {} })).inc (F.AQ_CNT_DETCNT k)).event 2 0 k.val 1)
    (he : (if w.close < p.last / 2 ^ 24 then g.inc F.MT_CNT_LATEARR
      else (g.lockFrame k.val w (p.last / 2 ^ 24) { peaks := p :: l } (g.strength k.val w.n (p :: l))).estimate k.val w.n) = e) :
    exec (.preambleDetection t k f) s = .next (s.to e) := by
  have hdue : ¬ (d.aqState k.val ≠ aqSEARCH ∨ (p :: l).length < d.ndet k.val) := by
    rw [hsearch, aqSEARCH, List.length_cons]
    omega
  show execPreambleDetection t k f s = _
  refine State.runClk_to h ?_
  dsimp only
  rw [← hd, hp, if_neg hdue, hw]
  simp only [hcut, Bool.false_eq_true, if_false]
  rw [← hg]
  exact he

/-- The frame under way without a candidate to restart on, before D, is given up and the receiver searches again (R146). -/
theorem Dev.failFrame_searches {d : Dev} {k code : Nat} {w : RxWin} {l : RxLock} (hw : d.lockWin k = some w)
    (hl : (d.ch k).lock = some l) (htake : d.takable k w = none) (hopen : d.refNow k < w.close) :
    d.failFrame k code = ((((d.signalQuality k l).putWin k w { w with last := some code }).trimHome k).modCh k
      (fun c => { c with lock := none, cand := none })).aqTo k aqSEARCH := by
  unfold Dev.failFrame
  rw [hw]
  dsimp only
  rw [htake]
  unfold Dev.searchOrEnd
  rw [hl]
  exact if_pos hopen

/-- An accepted header leads to PAYLOAD (R121, R143). -/
theorem Dev.headerOutcome_accepts {d g : Dev} {k i : Nat} {w : RxWin} {l : RxLock} {hdr : BitVec 96} (hcrc : hcrcOk hdr = true)
    (hj : (d.neighbourHeard k (hdrSrc hdr) l.ss).judgeHeader k w hdr = (.accept i, g)) :
    d.headerOutcome k w l hdr = (g.modLock k (fun l => { l with
      hdr := some hdr, fin := g.refNow k + g.chipsNs k (g.payloadChips k (hdrForm hdr w.kh) (hdrLen hdr))
      entry := some i, corr := {} })).aqTo k aqPAYLOAD := by
  unfold Dev.headerOutcome
  simp only [hcrc, Bool.not_true, Bool.false_eq_true, if_false, hj]

/-- Settles O35: each command by the branch that its state selects. -/
theorem acquisitionCommandsComplete : Obligations.AcquisitionCommandsComplete := by
  refine ⟨?_, ?_, ?_, ?_, ?_, ?_, ?_, ?_, ?_⟩
  · intro s t d e e1 g q st x k wlen kh sync gsrc gain gap p w h hat hcond hop hk htime howner hrole hplan he1 hform hx hapart
      hroom hw hg
    obtain ⟨hrun, -⟩ := id hat
    show execRx t q s = _
    refine State.runClk_to h ((if_neg ?_).trans ((Dev.fetch_ok .rx _ hat (by rw [hop]; rfl) hcond).trans ?_))
    · rw [hrun]; decide
    · simp only [hop]
      rw [Dev.rxStep_tries hk htime howner hrole hplan he1 hform, Dev.tryRx_issues hx hapart hroom, hg, hw]
      rfl
  · intro s t d g h' k w h hw hg
    constructor
    · intro hfree hh
      refine exec_windowOpen h hw ((if_neg (Nat.not_lt.mpr hfree)).trans ?_)
      rw [hh, hg]
      rfl
    · intro x hx hlt hh
      subst hx
      refine exec_windowOpen h hw ((if_pos hlt).trans ?_)
      rw [hh, hg]
      rfl
  · intro s t d0 d g k f w stamp p l h hd hsearch hp hndet hstamp hw hcut hg
    subst hstamp
    exact ⟨fun hin => exec_preambleDetection h hd hsearch hp hndet hw hcut hg (if_neg (Nat.not_lt.mpr hin)),
      fun hlate => exec_preambleDetection h hd hsearch hp hndet hw hcut hg (if_pos hlate)⟩
  · intro s t d g k e v h he hv hg
    show execTrimApply t k s = _
    refine State.runClk_to h ?_
    subst hg
    dsimp only
    split
    next x hx =>
      obtain rfl : e = x := Option.some.inj (he.symm.trans hx)
      rw [hv]
    next hx => exact absurd (he.symm.trans hx) (Option.some_ne_none e)
  · intro s t d0 d k f l h hd hstate hl hrev
    show execSignReversal t k f s = _
    refine State.runClk_to h ?_
    dsimp only
    rw [← hd, hl]
    exact if_pos ⟨hstate, hrev⟩
  · intro s t d0 d k f w l h hd hstate hl hrev h72 hw htake hopen
    show execSyncReversalTimeout t k f s = _
    refine State.runClk_to h ?_
    dsimp only
    rw [← hd, hl]
    exact (if_pos ⟨hstate, h72, by simp [hrev]⟩).trans (Dev.failFrame_searches hw hl htake hopen)
  · intro s t d0 d g k f w l ss h hd hw hl hstate hbits hss hg
    have hdue : ¬ (d.aqState k.val ≠ aqSYNC ∨ l.bits.length < 32) := by
      rw [hstate, aqSYNC]
      omega
    have hexec : ∀ {e}, (if g.syncAccepts k.val w.sync (syncWord l.bits) then g.aqTo k.val aqHEADER
        else (g.syncFail k.val).failFrame k.val rxSYNCLOST) = e → exec (.syncWordDecision t k f) s = .next (s.to e) := by
      intro e he
      show execSyncWordDecision t k f s = _
      refine State.runClk_to h ?_
      dsimp only
      rw [← hd, hw, hl]
      refine (if_neg hdue).trans ?_
      rw [← hss, ← hg]
      exact he
    exact ⟨fun hok => hexec (if_pos hok), fun hno => hexec (if_neg (by simp [hno]))⟩
  · intro s t d0 d k f w l hdr h hd hw hl hstate hsoft hsyms hhdr
    have hdue : ¬ (d.aqState k.val ≠ aqHEADER ∨ l.soft.length < max 288 (headerSymbols w.kh * w.kh)) := by
      rw [hstate, aqHEADER]
      omega
    have hexec : ∀ {e}, d.headerOutcome k.val w l hdr = e → exec (.headerDecode t k f) s = .next (s.to e) := by
      intro e he
      show execHeaderDecode t k f s = _
      refine State.runClk_to h ?_
      dsimp only
      rw [← hd, hw, hl]
      refine (if_neg hdue).trans ?_
      rw [← hhdr]
      exact he
    exact ⟨fun i g hcrc hj => hexec (Dev.headerOutcome_accepts hcrc hj), fun hcrc => hexec (if_pos (by simp [hcrc]))⟩
  · intro s t d g k w w' h hw hw' hg
    have hexec : ∀ {e}, (if (g.ch k.val).frames.any (fun l => w.owns (some l)) then g
        else g.commitWin k.val w' (w.last.getD rxTIMEOUT) false) = e → exec (.responseWindowCommit t k) s = .next (s.to e) := by
      intro e he
      show execResponseWindowCommit t k s = _
      refine State.runClk_to h ?_
      simp only [hw]
      rw [← hw', ← hg]
      exact he
    exact ⟨fun hno => hexec (if_neg (by simp [hno])), fun hyes => hexec (if_pos hyes)⟩

end Sys2Proof.Machine
end

section
/-! PROOFS. Payload reception (R157): the noise floor of a channel that its table lists twice. The states of a statement need not be
canonical, and an entry that becomes the default leaves the table, so that the second entry of the channel answers from then on. -/

namespace Sys2Proof.Machine

open Sys2Proof

/-- Channel 1, of a bundle that channel 0 leads, is listed with a complete quiet run and again with a noise floor that is valid. -/
def twiceListed : Dev :=
  { regs := [(A.LIF_CFG 1, 1#32), (A.PAL_A_W 1 8, 512#32), (A.PAL_A_W 1 264, 512#32), (A.GV_PDSTAT0, 2#32)]
    chan := [(1, { nfDue := [⟨1, 0, 1⟩] }), (1, { nfValid := true })] }

/-- NF of channel 1 after a command. -/
def noiseFloorAfter : Host.Outcome State Fault Refusal → Nat
  | .next s => s.dev.rd (F.AQ_LEVEL_NF 1)
  | _ => 0

theorem twiceListed_level : twiceListed.levelOf 1 1 1 0 = 592 := by decide +kernel

theorem twiceListed_intake : twiceListed.intake 1 {} = twiceListed := if_pos (by decide +kernel)

/-- The command takes the mean of R157 with the NF that the second entry calls valid. -/
theorem noiseFloor_twiceListed :
    noiseFloorAfter (exec (.noiseFloorMeasurement 0 1 {}) ⟨twiceListed, []⟩) = 148 := by decide +kernel

/-- Refutes O36: in the rule of NOISE_FLOOR_MEASUREMENT the device has no valid NF and a quiet run of level 592, and the command
sets NF to 148. -/
theorem not_payloadCommandsComplete : ¬ Obligations.PayloadCommandsComplete := by
  rintro ⟨-, -, -, -, -, -, -, -, -, -, hnoise, -⟩
  have h := hnoise ⟨twiceListed, []⟩ 0 twiceListed twiceListed 1 {} ⟨1, 0, 1⟩ [] 592 ⟨⟨rfl, rfl⟩, rfl⟩
    twiceListed_intake.symm rfl twiceListed_level.symm rfl
  have hnf := congrArg noiseFloorAfter h
  rw [noiseFloor_twiceListed] at hnf
  exact absurd hnf (by decide +kernel)

end Sys2Proof.Machine
end

section
/-! PROOFS. Luafen messages (R166, R170, R173, R174, R177, R181 to R190). -/

namespace Sys2Proof.Machine

open Sys2Proof

/-! ### Taking the message -/

/-- The message of a channel is taken where the command is of its type. -/
theorem Dev.takeAccepted_some {d : Dev} {k typ : Nat} {a : Accepted} (ha : (d.ch k).accepted = some a) (htyp : a.typ = typ) :
    d.takeAccepted k typ = some (a, d.modCh k (fun c => { c with accepted := none })) := by
  simp only [Dev.takeAccepted, ha, htyp, if_true]

/-! ### Beacons (R182, R183) -/

/-- A beacon is odd at a joined outstation alone, once HOFS is set, and beyond BCN_TOL of it. -/
theorem Dev.beaconOdd_iff (d : Dev) (k o : Nat) : d.beaconOdd k o = true ↔
    d.ostate k = 2 ∧ d.on (F.LF_STATUS_HOFSV k) = true ∧ d.rd (F.LF_BCN_BCN_TOL (d.lead k)) < offsetJump o (d.hofs k) := by
  simp only [Dev.beaconOdd, osJOINED, Bool.and_eq_true, beq_iff_eq, decide_eq_true_eq, and_assoc]

theorem Dev.beaconOdd_eq_false {d : Dev} {k o : Nat}
    (h : d.ostate k ≠ 2 ∨ d.on (F.LF_STATUS_HOFSV k) = false ∨ offsetJump o (d.hofs k) ≤ d.rd (F.LF_BCN_BCN_TOL (d.lead k))) :
    d.beaconOdd k o = false := by
  refine Bool.eq_false_iff.2 (fun hodd => ?_)
  obtain ⟨hjoined, hon, hjump⟩ := (Dev.beaconOdd_iff d k o).1 hodd
  rcases h with h | h | h
  · exact h hjoined
  · simp [h] at hon
  · omega

/-- A beacon that does not lie beyond BCN_TOL of a joined outstation moves HOFS, and announces its window where it is whole. -/
theorem Dev.beacon_moves {d : Dev} {k o : Nat} {a : Accepted} {b : BeaconMsg}
    (hread : readBeacon a.msg = some b ∨ readBeacon a.msg = none ∧ readBeaconTime a.msg = some b)
    (ho : o = d.impliedOffset a.fin b) (hnear : d.beaconOdd k o = false) :
    (match readBeacon a.msg with
      | some b => d.takeBeacon k a b
      | none => (match readBeaconTime a.msg with | some b => d.takeBeaconTime k a b | none => d)) =
    (if readBeacon a.msg = none then (d.moveHofs k o).modLf k (fun l => { l with beaconQ := a.q })
      else ((d.moveHofs k o).modLf k (fun l => { l with beaconQ := a.q })).announce k b) := by
  subst ho
  rcases hread with hread | ⟨hread, htime⟩
  · simp [hread, Dev.takeBeacon, hnear]
  · simp [hread, htime, Dev.takeBeaconTime, hnear]

/-- A beacon beyond BCN_TOL of a joined outstation is counted as odd. -/
theorem Dev.beacon_odd {d : Dev} {k o : Nat} {a : Accepted} {b : BeaconMsg}
    (hread : readBeacon a.msg = some b ∨ readBeacon a.msg = none ∧ readBeaconTime a.msg = some b)
    (ho : o = d.impliedOffset a.fin b) (hodd : d.beaconOdd k o = true) :
    (match readBeacon a.msg with
      | some b => d.takeBeacon k a b
      | none => (match readBeaconTime a.msg with | some b => d.takeBeaconTime k a b | none => d)) = d.oddBeacon k := by
  subst ho
  rcases hread with hread | ⟨hread, htime⟩
  · simp [hread, Dev.takeBeacon, hodd]
  · simp [hread, htime, Dev.takeBeaconTime, hodd]

section
variable {s : State} {t : Nat} {d g h : Dev} {k : ChanId} {a : Accepted}
  (hr : s.ready t d) (ha : (d.ch k.val).accepted = some a) (hg : g = d.modCh k.val (fun c => { c with accepted := none }))
include hr ha hg

/-- BEACON at an outstation acts on the device without the message, MSGBAD set where its block is cut. -/
theorem exec_beacon (hh : h = (if a.msg.length < blockLen a.typ then g.raise (F.LF_STATUS_MSGBAD k) else g)) (htyp : a.typ = 0)
    (hout : h.isOut k.val = true) {e : Dev}
    (he : (match readBeacon a.msg with
      | some b => h.takeBeacon k.val a b
      | none => (match readBeaconTime a.msg with | some b => h.takeBeaconTime k.val a b | none => h)) = e) :
    exec (.beacon t k) s = .next (s.to e) := by
  show execBeacon t k s = _
  refine State.runClk_to hr ?_
  rw [Dev.takeAccepted_some ha (show a.typ = tyBEACON from htyp)]
  have hcheck : (d.modCh k.val (fun c => { c with accepted := none })).checkBlock k.val a = h := by rw [hh, hg]; rfl
  simp only [hcheck, hout, Bool.not_true, Bool.false_eq_true, if_false]
  exact he

/-! ### Polls and relays (R177, R189, R190) -/

/-- POLL at a joined outstation. -/
theorem exec_poll (htyp : a.typ = 1) (hout : g.isOut k.val = true) (hjoined : g.ostate k.val = 2) {e : Dev}
    (he : (match readPoll a.msg with
      | some p => if a.addressed then ((if a.addressed then g.heardHead k.val else g).readReply k.val a).modCh k.val
          (fun c => { c with grant := some (pollGrant a p) }) else (if a.addressed then g.heardHead k.val else g).readReply k.val a
      | none => (if a.addressed then g.heardHead k.val else g).readReply k.val a) = e) :
    exec (.poll t k) s = .next (s.to e) := by
  show execPoll t k s = _
  refine State.runClk_to hr ?_
  rw [Dev.takeAccepted_some ha (show a.typ = tyPOLL from htyp), ← hg]
  have hjoined : g.ostate k.val = osJOINED := hjoined
  simp only [hout, hjoined, Bool.not_true, Bool.false_eq_true, ne_eq, not_true_eq_false, or_self, if_false]
  exact he

/-- RELAY, whole and addressed to a joined outstation: the grant is kept, RELAYX telling of a refusal. -/
theorem exec_relay (htyp : a.typ = 3) (hout : g.isOut k.val = true) (hjoined : g.ostate k.val = 2) (hdst : a.dst ≠ 0x1FFFF)
    {p : PollMsg} {r : RelayMsg} (hp : readPoll a.msg = some p) (hrel : readRelay a.msg = some r)
    (hlen : 24 + relayInlen a.msg ≤ a.msg.length) {y : Dev}
    (hy : y = (g.modLf k.val (fun l => { l with lastPoll := g.cycle })).readReply k.val a) :
    exec (.relay t k) s = .next (s.to
      (((if y.refusesRelay k.val (relayGrant a p r) then y.raise (F.LF_STATUS_RELAYX k) else y).modCh k.val
        (fun c => { c with grant := some { relayGrant a p r with refused := y.refusesRelay k.val (relayGrant a p r) } })).modLf
        k.val (fun l => { l with upward := none }))) := by
  show execRelay t k s = _
  refine State.runClk_to hr ?_
  rw [Dev.takeAccepted_some ha (show a.typ = tyRELAY from htyp), ← hg]
  have hjoined : g.ostate k.val = osJOINED := hjoined
  have haddr : a.addressed = true := by simpa [Accepted.addressed] using hdst
  have hy : (g.heardHead k.val).readReply k.val a = y := hy.symm
  simp only [hout, hjoined, Bool.not_true, Bool.false_eq_true, ne_eq, not_true_eq_false, or_self, if_false, haddr, if_true, hp,
    hrel, Nat.not_lt.mpr hlen, hy]

/-! ### Responses (R185) -/

/-- RESP at the head-end: of a JOINING entry by its nonce, of an ACTIVE one as it is. -/
theorem exec_resp (htyp : a.typ = 2) (hrole : g.role k.val = 1) {e : Dev}
    (he : (if g.rd (N.STATE a.entry) = 1 then
        (if respNonce a.msg = some (g.nonceH a.entry) then (g.confirmJoin k.val a.entry).respActive k.val a
         else (if (messageUnits 2 a.msg).2 then g.raise (F.LF_STATUS_MSGBAD k) else g).joinAbandon a.entry)
      else if g.rd (N.STATE a.entry) = 2 then g.respActive k.val a else g.endHandOn k.val) = e) :
    exec (.resp t k) s = .next (s.to e) := by
  show execResp t k s = _
  refine State.runClk_to hr ?_
  rw [Dev.takeAccepted_some ha (show a.typ = tyRESP from htyp), ← hg]
  exact (if_neg (not_not.2 hrole)).trans he

/-! ### Joins (R183, R184) -/

/-- JOINREQ at the head-end waits for its JOINACC. -/
theorem exec_joinreq (hh : h = (if a.msg.length < blockLen a.typ then g.raise (F.LF_STATUS_MSGBAD k) else g)) (htyp : a.typ = 4)
    (hrole : h.role k.val = 1) {r : JoinReqMsg} (hread : readJoinReq a.msg = some r) :
    exec (.joinreq t k) s = .next (s.to (h.modLf k.val (fun l =>
      { l with
        pend := l.pend.filter (fun p => p.1 ≠ a.entry) ++ [(a.entry, a.msg)]
        joinPath := l.joinPath.filter (fun p => p.1 ≠ a.entry) ++ [(a.entry, a.path)] }))) := by
  show execJoinreq t k s = _
  refine State.runClk_to hr ?_
  rw [Dev.takeAccepted_some ha (show a.typ = tyJOINREQ from htyp)]
  have hcheck : (d.modCh k.val (fun c => { c with accepted := none })).checkBlock k.val a = h := by rw [hh, hg]; rfl
  have hrole : h.role k.val = roleHEAD := hrole
  simp only [hcheck, hrole, hread, ne_eq, not_true_eq_false, Option.isNone_some, Bool.false_eq_true, or_self, if_false]

/-- JOINACC at a JOINING outstation, with the nonce of its request, does what STATUS says. -/
theorem exec_joinacc (hh : h = (if a.msg.length < blockLen a.typ then g.raise (F.LF_STATUS_MSGBAD k) else g)) (htyp : a.typ = 5)
    (hout : h.isOut k.val = true) (hjoining : h.ostate k.val = 1) {r m : JoinAccMsg} (hread : readJoinAcc a.msg = some r)
    (hm : m = (if a.msg.length < blockLen 5 then { r with lostc := (h.ch k.val).lf.lostc } else r))
    (hnonce : m.nonceN = (h.ch k.val).lf.nonceN) {e : Dev}
    (he : (match m.status with
      | 0 => h.joined k.val a.entry m
      | 1 => (h.wr (F.LF_STATUS_OSTATE k.val) osUNJOINED).wr (N.HOLDJ a.entry) 1
      | 2 => h.joinFailed k.val
      | _ => h) = e) :
    exec (.joinacc t k) s = .next (s.to e) := by
  show execJoinacc t k s = _
  refine State.runClk_to hr ?_
  rw [Dev.takeAccepted_some ha (show a.typ = tyJOINACC from htyp)]
  have hcheck : (d.modCh k.val (fun c => { c with accepted := none })).checkBlock k.val a = h := by rw [hh, hg]; rfl
  have hjoining : h.ostate k.val = osJOINING := hjoining
  simp only [hcheck, hread]
  have hm : (if a.msg.length < blockLen tyJOINACC then { r with lostc := (h.ch k.val).lf.lostc } else r) = m := hm.symm
  simp only [hm, hout, hjoining, hnonce, Bool.not_true, Bool.false_eq_true, ne_eq, not_true_eq_false, or_self, if_false]
  exact he

end

/-! ### Loss and the end of a discovery window (R174, R183 to R186) -/

/-- The end of the window that an outstation knows: a join that got no answer fails, a skipped window is counted off. -/
theorem exec_discoveryWindowEnd_outstation {s : State} {t : Nat} {d g : Dev} {k : ChanId} {first grain slots boff n : Nat}
    {jopen : Bool} (hr : s.ready t d) (hrole : d.role k.val ≠ 1) (hout : d.isOut k.val = true)
    (hdisc : (d.ch k.val).lf.disc = some (first, grain, slots, boff, jopen))
    (hn : n = ((d.headTime k.val d.now).1 + 2 ^ 32 - first) % 2 ^ 32) (hslots : slots ≤ n) (hpast : n < 2 ^ 31)
    (hg : g = (if d.ostate k.val = 1 then d.joinFailed k.val else if (d.ch k.val).lf.sentJoin then d
      else d.modLf k.val (fun l => { l with skip := l.skip - 1 }))) :
    exec (.discoveryWindowEnd t k) s = .next (s.to (g.modLf k.val (fun l =>
      { l with disc := none, drawn := none, sentJoin := false }))) := by
  show execDiscoveryWindowEnd t k s = _
  refine State.runClk_to hr ?_
  have hrole : ¬ d.role k.val = roleHEAD := hrole
  simp only [hrole, if_false, hout, if_true, hdisc]
  rw [← hn, if_neg (by omega), hg]
  rfl

/-- Settles O37: the message of the channel is taken, and each clause names the branch of its command that its conditions choose. -/
theorem luafenCommandsComplete : Obligations.LuafenCommandsComplete := by
  unfold Obligations.LuafenCommandsComplete
  refine ⟨?_, ?_, ?_, ?_, ?_⟩
  · intro s t d g h k a hr ha hg hh
    have hl : ∀ {x : Nat}, a.dst ≠ x → (a.dst != x) = true := fun h => by simpa using h
    refine ⟨?_, ?_, ?_, ?_, ?_, ?_, ?_, ?_, ?_, ?_⟩
    · intro b o htyp hout hread ho hnear
      exact exec_beacon hr ha hg hh htyp hout (Dev.beacon_moves hread ho (Dev.beaconOdd_eq_false hnear))
    · intro b o htyp hout hread ho hjoined hon hjump
      exact exec_beacon hr ha hg hh htyp hout (Dev.beacon_odd hread ho ((Dev.beaconOdd_iff h k.val o).2 ⟨hjoined, hon, hjump⟩))
    · intro htyp hout hjoined hdst
      refine exec_poll hr ha hg htyp hout hjoined ?_
      have haddr : a.addressed = false := by simp [Accepted.addressed, hdst]
      cases readPoll a.msg <;> simp [haddr]
    · intro p htyp hout hjoined hdst hp
      refine exec_poll hr ha hg htyp hout hjoined ?_
      have haddr : a.addressed = true := hl hdst
      simp only [hp, haddr, if_true]
      rfl
    · intro p r y htyp hout hjoined hdst hp hrel hlen hy
      have hexec := exec_relay hr ha hg htyp hout hjoined hdst hp hrel hlen hy
      constructor
      · intro hrefuse
        simpa only [hrefuse, Bool.false_eq_true, if_false] using hexec
      · intro hrefuse
        simpa only [hrefuse, if_true] using hexec
    · intro htyp hrole hact
      exact exec_resp hr ha hg htyp hrole (by simp only [hact, OfNat.ofNat_ne_one, if_false, if_true])
    · intro htyp hrole hjoin hnonce
      exact exec_resp hr ha hg htyp hrole (by simp only [hjoin, hnonce, if_true])
    · intro htyp hrole hjoin hnonce
      exact exec_resp hr ha hg htyp hrole (by simp only [hjoin, hnonce, if_true, if_false])
    · intro r htyp hrole hread
      exact exec_joinreq hr ha hg hh htyp hrole hread
    · intro r m htyp hout hjoining hread hm hnonce
      refine ⟨fun hst => ?_, fun hst => ?_, fun hst => ?_⟩ <;>
        exact exec_joinacc hr ha hg hh htyp hout hjoining hread hm hnonce (by rw [hst]; rfl)
  · intro s t d i k hr hk hrole hfails
    subst hk
    constructor
    · intro hstate
      show execNodeLost t i s = _
      exact State.runClk_to hr (if_pos ⟨hrole, hstate, hfails⟩)
    · intro hstate
      show execJoinAbandon t i s = _
      exact State.runClk_to hr (if_pos ⟨hrole, hstate, hfails⟩)
  · intro s t d k hr hout hjoined hlost
    show execOutstationLoss t k s = _
    exact State.runClk_to hr (if_pos ⟨hout, hjoined, hlost⟩)
  · intro s t d k w hr hrole hw hdw
    show execDiscoveryWindowEnd t k s = _
    refine State.runClk_to hr ?_
    have hrole : d.role k.val = roleHEAD := hrole
    simp only [hrole, if_true, hw, hdw, if_false]
  · intro s t d g k first grain slots boff n jopen hr hrole hout hdisc hn hslots hpast hg
    exact exec_discoveryWindowEnd_outstation hr hrole hout hdisc hn hslots hpast hg

end Sys2Proof.Machine
end

section
/-! PROOFS. Canvas queue commands (R247 to R260, R263 to R266, R268, R298). -/

namespace Sys2Proof.Machine

open Sys2Proof

/-! ### Pushes (R249 to R256, R263) -/

/-- A push into an enabled shallow queue that is not discarding and has room: its words and cells (R250, R251). -/
theorem Dev.pushShallow_room {d e g : Dev} {q cls need : Nat} {words : List Word64} {last : Option Nat} {cs : List Nat}
    {free : List (Nat × Nat)} (hon : d.on (F.QS_CFG_EN q) = true) (hdis : (d.sh q).discard = false)
    (hneed : need = words.length + (if (d.sh q).openTail then 0 else 1)) (he : e = d.ripen)
    (htake : takeRuns (ceilDiv ((d.sh q).fill + need) 32 - (d.sh q).cells.length) e.free = some (cs, free))
    (hroom : need ≤ e.cycRoom (d.sh q).log (e.room q false))
    (hg : g = { e with free := free }.setSh q { d.sh q with
      items := pushItems (d.sh q).items (d.sh q).openTail cls (words.map (fun w => (w, false))) last
      cells := (d.sh q).cells ++ cs, fill := (d.sh q).fill + need
      log := e.cycPush (d.sh q).log words.length need last.isSome }) :
    d.pushShallow q cls words last = if last.isSome then g.event 6 0 q 1 else g := by
  subst he
  subst hneed
  unfold Dev.pushShallow
  simp only [hon, hdis, Bool.not_true, Bool.false_eq_true, if_false, htake, Nat.not_lt.mpr hroom, hg]

/-- A push into an enabled shallow queue that is not discarding, without cells or room, is an overrun (R256). -/
theorem Dev.pushShallow_overrun {d e : Dev} {q cls need : Nat} {words : List Word64} {last : Option Nat}
    (hon : d.on (F.QS_CFG_EN q) = true) (hdis : (d.sh q).discard = false)
    (hneed : need = words.length + (if (d.sh q).openTail then 0 else 1)) (he : e = d.ripen)
    (hfull : takeRuns (ceilDiv ((d.sh q).fill + need) 32 - (d.sh q).cells.length) e.free = none ∨
      e.cycRoom (d.sh q).log (e.room q false) < need) :
    d.pushShallow q cls words last = e.overrunSh q need last.isSome := by
  subst he
  subst hneed
  unfold Dev.pushShallow
  simp only [hon, hdis, Bool.not_true, Bool.false_eq_true, if_false]
  split
  · rfl
  · next cs free htake =>
    rcases hfull with hnone | hroom
    · simp [htake] at hnone
    · exact if_pos hroom

/-- Staging is there for a push unless a third sector or a 33rd sector operation were needed (R263, R298). -/
theorem Dev.stagingFor_iff (d : Dev) (q need : Nat) : d.stagingFor q need = true ↔
    512 * (d.dq q).full + d.dTail q % 512 + need ≤ 1024 ∧ (d.dTail q % 512 + need < 512 ∨ d.sectorOps < 32) := by
  simp only [Dev.stagingFor, Bool.and_eq_true, Bool.or_eq_true, decide_eq_true_eq]

/-- A push into an enabled deep queue waits behind other pushes, or where its staging is not there. -/
theorem Dev.pushDeep_waits {d : Dev} {q cls need : Nat} {words : List (Word64 × Bool)} {last : Option Nat}
    (hon : d.on (F.QD_CFG_EN q) = true) (hdis : (d.dq q).discard = false)
    (hneed : need = words.length + (if (d.dq q).openTail then 0 else 1))
    (hwait : (d.dq q).waiting ≠ [] ∨ 1024 < 512 * (d.dq q).full + d.dTail q % 512 + need ∨
      512 ≤ d.dTail q % 512 + need ∧ 32 ≤ d.sectorOps) :
    d.pushDeep q cls words last = d.setDq q { d.dq q with waiting := (d.dq q).waiting ++ [(words, last, cls)] } := by
  subst hneed
  have hstage : (d.dq q).waiting ≠ [] ∨ (!d.stagingFor q (words.length + (if (d.dq q).openTail then 0 else 1))) = true := by
    refine hwait.imp_right (fun h => ?_)
    rw [Bool.not_eq_true', Bool.eq_false_iff, ne_eq, Dev.stagingFor_iff]
    omega
  unfold Dev.pushDeep
  simp only [hon, hdis, Bool.not_true, Bool.false_eq_true, if_false, hstage, if_true]

/-- A push into an enabled deep queue that finds its staging and room: TAIL advances, and an END rewrites the item word. -/
theorem Dev.pushDeep_room {d g : Dev} {q cls need room fill span : Nat} {words : List (Word64 × Bool)} {last : Option Nat}
    (hon : d.on (F.QD_CFG_EN q) = true) (hdis : (d.dq q).discard = false)
    (hneed : need = words.length + (if (d.dq q).openTail then 0 else 1)) (hwait : (d.dq q).waiting = [])
    (hstage : 512 * (d.dq q).full + d.dTail q % 512 + need ≤ 1024) (hops : d.dTail q % 512 + need < 512 ∨ d.sectorOps < 32)
    (hroom : room = 512 * 2 ^ d.rd (F.QD_CFG_DLOG q) - ringDist (d.dHead q) (d.dTail q)) (hle : need ≤ d.cycRoom (d.dq q).log room)
    (hfill : fill = d.dTail q % 512 + need)
    (hg : g = ((d.setDq q { d.dq q with
        items := pushItems (d.dq q).items (d.dq q).openTail cls words last, full := (d.dq q).full + fill / 512, wfill := fill % 512
        log := d.cycPush (d.dq q).log words.length need last.isSome }).wr (F.QD_TAIL_POS q)
          (d.dTail q + need)).event 8 1 1 (fill / 512))
    (hspan : span = ((g.dq q).items.getLast?.getD {}).span) :
    d.pushDeep q cls words last = if last.isSome then
      (g.rewriteWord q ((g.dTail q + 2 ^ 32 - span) % 2 ^ 32)).event 6 0 (4096 + q) 1 else g := by
  have hnow : ¬ ((d.dq q).waiting ≠ [] ∨ (!d.stagingFor q need) = true) := by
    rw [(Dev.stagingFor_iff d q need).2 ⟨hstage, hops⟩]
    simp [hwait]
  subst hspan hneed hfill hroom
  unfold Dev.pushDeep
  simp only [hon, hdis, Bool.not_true, Bool.false_eq_true, if_false, hnow]
  unfold Dev.pushDeepNow Dev.deepRoom
  simp only [Nat.not_lt.mpr hle, if_false]
  rw [← hg]

/-- What a granted push does to its queue. -/
def Dev.pushGranted (d : Dev) (q : QueueId) (cls : Nat) (words : List Word64) (last : Option Nat) : Dev :=
  match q with
  | .shallow q => (d.pushShallow q.val cls words last).pfcCheck
  | .deep q => d.pushDeep q.val cls (words.map (fun w => (w, false))) last

/-- A request of a producer's port (R249). -/
theorem exec_queuePush {s : State} {t : Nat} {d x e : Dev} {q : QueueId} {cls : Fin 4} {words : List Word64}
    {last : Option (Fin 9)} {a : Bool × Grants} (h : s.ready t d) (hon : d.domOn 76 = true) (hne : words ≠ [])
    (hlen : words.length ≤ 8) (hlast : last ≠ some 0) (ha : a = d.pushes.ask d.cclk (portOf q) words.length)
    (hx : x = { d with pushes := a.2 })
    (he : (if a.1 then x.pushGranted q cls.val words (last.map Fin.val) else x) = e) :
    exec (.queuePush t q cls words last) s = .next (s.to e) := by
  show execQueuePush t q cls words last s = _
  subst ha hx he
  refine State.runClk_to h ((if_neg ?_).trans ?_)
  · simp [hne, hlast, hon, Nat.not_lt.mpr hlen]
  · cases hok : (d.pushes.ask d.cclk (portOf q) words.length).1 <;> cases q <;>
      simp [Dev.askPush, hok, Dev.pushGranted]

/-- A granted push into a shallow queue. -/
theorem exec_queuePush_shallow {s : State} {t : Nat} {d x e : Dev} {q : Fin 8192} {cls : Fin 4} {words : List Word64}
    {last : Option (Fin 9)} {a : Bool × Grants} (h : s.ready t d) (hon : d.domOn 76 = true) (hne : words ≠ [])
    (hlen : words.length ≤ 8) (hlast : last ≠ some 0) (ha : a = d.pushes.ask d.cclk q.val words.length)
    (hx : x = { d with pushes := a.2 }) (hok : a.1 = true)
    (he : x.pushShallow q.val cls.val words (last.map Fin.val) = e) :
    exec (.queuePush t (.shallow q) cls words last) s = .next (s.to e.pfcCheck) := by
  refine exec_queuePush h hon hne hlen hlast ha hx ?_
  rw [hok, if_pos rfl]
  exact congrArg Dev.pfcCheck he

/-- A granted push into a deep queue. -/
theorem exec_queuePush_deep {s : State} {t : Nat} {d x e : Dev} {q : Fin 1024} {cls : Fin 4} {words : List Word64}
    {last : Option (Fin 9)} {a : Bool × Grants} (h : s.ready t d) (hon : d.domOn 76 = true) (hne : words ≠ [])
    (hlen : words.length ≤ 8) (hlast : last ≠ some 0) (ha : a = d.pushes.ask d.cclk (8192 + q.val) words.length)
    (hx : x = { d with pushes := a.2 }) (hok : a.1 = true)
    (he : x.pushDeep q.val cls.val (words.map (fun w => (w, false))) (last.map Fin.val) = e) :
    exec (.queuePush t (.deep q) cls words last) s = .next (s.to e) := by
  refine exec_queuePush h hon hne hlen hlast ha hx ?_
  rw [hok, if_pos rfl]
  exact he

/-- A push whose request is turned away stays with its producer. -/
theorem exec_queuePush_denied {s : State} {t : Nat} {d x : Dev} {q : QueueId} {cls : Fin 4} {words : List Word64}
    {last : Option (Fin 9)} {a : Bool × Grants} (h : s.ready t d) (hon : d.domOn 76 = true) (hne : words ≠ [])
    (hlen : words.length ≤ 8) (hlast : last ≠ some 0) (ha : a = d.pushes.ask d.cclk (portOf q) words.length)
    (hx : x = { d with pushes := a.2 }) (hno : a.1 = false) :
    exec (.queuePush t q cls words last) s = .next (s.to x) :=
  exec_queuePush h hon hne hlen hlast ha hx (by simp [hno])

/-! ### Pops, PRUNE and ABORT (R254 to R260) -/

/-- A pop of one to eight words from a shallow queue is a request of its consumer's port (R249). -/
theorem exec_queuePop_shallow {s : State} {t : Nat} {d : Dev} {q : Fin 8192} {n : Nat} {bad : Option Nat} {link : Bool}
    {a : Bool × Grants} (h : s.ready t d) (ha : a = d.pops.ask d.cclk q.val n) (hn : n ≠ 0) (hle : n ≤ 8)
    (hlink : link = false ∨ (d.sh q.val).cells = []) :
    exec (.queuePop t (.shallow q) n bad link) s = .next (s.to
      (if a.1 then (Dev.popShallow { d with pops := a.2 } q.val n bad).pfcCheck else { d with pops := a.2 })) := by
  subst ha
  show execQueuePop t (.shallow q) n bad link s = _
  refine State.runClk_to h ((if_neg ?_).trans ((if_neg hn).trans (if_neg (Nat.not_lt.mpr hle))))
  rcases hlink with hlink | hlink <;> simp [hlink]

/-- PRUNE drops the item that the consumer has begun. -/
theorem Dev.prune_taking {d : Dev} {q : Nat} {i : Item} {l : List Item} (htake : (d.sh q).taking = true)
    (hitems : (d.sh q).items = i :: l) :
    d.prune q = ((d.putSh q { d.sh q with
      items := l, gone := (d.sh q).gone + i.words.length, taking := false, discard := (d.sh q).discard || !i.complete
      log := d.cycFree (d.sh q).log (d.room q false) } true).inc F.CV_CNT2_PRUNECNT).event 6 2 q 1 := by
  unfold Dev.prune
  simp only [hitems, htake, if_true]

/-- The pushes at the end of `a ++ b` that carry no END are `b`, where `a` is empty or its last push carries one. -/
theorem takeWhile_unended {α β : Type} {f : α → Option β} {a b : List α} (hb : ∀ x ∈ b, f x = none)
    (ha : a = [] ∨ ∃ x l, a = l ++ [x] ∧ f x ≠ none) :
    ((a ++ b).reverse.takeWhile (fun x => (f x).isNone)).length = b.length := by
  have hall : ∀ x ∈ b.reverse, (f x).isNone = true := fun x hx => by
    rw [hb x (List.mem_reverse.1 hx)]
    rfl
  rw [List.reverse_append, List.takeWhile_append_of_pos hall]
  rcases ha with rfl | ⟨x, l, rfl, hx⟩
  · simp
  · simp [hx]

/-- ABORT while every push that waits carries no END: the open item goes from the ring too. -/
theorem Dev.abortDeep_all {d : Dev} {q : Nat} (h : ∀ x ∈ (d.dq q).waiting, x.2.1 = none) :
    d.abortDeep q = (d.dropDeepTail q).setDq q { (d.dropDeepTail q).dq q with discard := false, waiting := [] } := by
  have hlen := takeWhile_unended (f := fun x : List (Word64 × Bool) × Option Nat × Nat => x.2.1) h (Or.inl rfl)
  rw [List.nil_append] at hlen
  unfold Dev.abortDeep
  simp only [hlen, if_true, Nat.sub_self, List.take_zero]

/-- ABORT behind a push with END: the pushes after that one go. -/
theorem Dev.abortDeep_part {d : Dev} {q : Nat} {a b : List (List (Word64 × Bool) × Option Nat × Nat)}
    (hw : (d.dq q).waiting = a ++ b) (hb : ∀ x ∈ b, x.2.1 = none) (ha : ∃ x l, a = l ++ [x] ∧ x.2.1 ≠ none) :
    d.abortDeep q = d.setDq q { d.dq q with discard := false, waiting := a } := by
  have hlen := takeWhile_unended (f := fun x : List (Word64 × Bool) × Option Nat × Nat => x.2.1) hb (Or.inr ha)
  have hne : a.length ≠ 0 := by
    obtain ⟨x, l, rfl, -⟩ := ha
    simp
  unfold Dev.abortDeep
  simp only [hw, hlen, List.length_append]
  rw [if_neg (by omega), Nat.add_sub_cancel, List.take_left]

/-! ### Sectors, cells and HALF1 (R247, R248, R263) -/

/-- SECTOR_ENCRYPT_DONE with a full sector in write staging. -/
theorem exec_sectorEncryptDone {s : State} {t : Nat} {d g : Dev} {q : Fin 1024} {n p : Nat} (h : s.ready t d)
    (hfull : (d.dq q.val).full = n + 1)
    (hp : p = (d.dTail q.val + 2 ^ 32 - (512 * (n + 1) + d.dTail q.val % 512)) % 2 ^ 32)
    (hg : g = ((d.hbmWrite (d.ringBlock q.val p) (pairBlocks (d.ringWords q.val p 512))).event 8 0 1 256).setDq q.val
      { d.dq q.val with full := n, waiting := [] }) :
    exec (.sectorEncryptDone t q) s =
      .next (s.to (g.pushWaiting q.val (d.dq q.val).waiting).pushAllWaiting.startAllJobs) := by
  show execSectorEncryptDone t q s = _
  refine State.runClk_to h ((if_neg (by omega)).trans ?_)
  subst hg hp
  simp only [hfull, Nat.add_sub_cancel, Dev.encryptSector, Dev.staged]

/-- SECTOR_DECRYPT_DONE while the sector at RD is being fetched. -/
theorem exec_sectorDecryptDone {s : State} {t : Nat} {d g : Dev} {q : Fin 1024} (h : s.ready t d)
    (hread : (d.dq q.val).reading = true)
    (hg : g = (d.event 8 0 1 256).setDq q.val { d.dq q.val with
      reading := false, rstage := d.hbmRead (d.ringBlock q.val (d.dRd q.val - d.dRd q.val % 512)) 256 }) :
    exec (.sectorDecryptDone t q) s = .next (s.to g.pushAllWaiting.startAllJobs) := by
  show execSectorDecryptDone t q s = _
  refine State.runClk_to h ((if_pos hread).trans ?_)
  rw [hg]

/-- A write of a field of the canvas configuration leaves the domains. -/
theorem Dev.domOn_wr_HALF1 (d : Dev) (v : Nat) : (d.wr F.CV_CFG_HALF1 v).domOn 77 = d.domOn 77 := by
  simp only [Dev.domOn]
  rw [Dev.word_wr_ne d F.CV_CFG_HALF1 v _ (by decide)]

/-- Setting HALF1 while PD_CNV1 is on adds the upper cells. -/
theorem Dev.writeHalf1_set {d : Dev} (hon : d.domOn 77 = true) (hwas : d.half1 = false) :
    d.writeHalf1 true = (d.wr F.CV_CFG_HALF1 1).addUpper := by
  simp only [Dev.writeHalf1, hwas, if_true, Bool.not_false, true_and, Dev.domOn_wr_HALF1, hon]

/-- Clearing HALF1 drops the upper cells. -/
theorem Dev.writeHalf1_clear {d : Dev} (hwas : d.half1 = true) : d.writeHalf1 false = (d.wr F.CV_CFG_HALF1 0).dropUpper := by
  simp only [Dev.writeHalf1, hwas, Bool.false_eq_true, if_false, false_and, Bool.not_false, and_self, if_true]

/-- Settles O38: each clause names the branch of its command that its conditions choose. -/
theorem queueCommandsComplete : Obligations.QueueCommandsComplete := by
  unfold Obligations.QueueCommandsComplete
  refine ⟨?_, ?_, ?_, ?_, ?_, ?_, ?_, ?_⟩
  · intro s t d x q cls words last h a hr hon hne hlen hlast hh ha hx
    have hgranted {e : Dev} (hok : a.1 = true) (he : x.pushShallow q.val cls.val words (last.map Fin.val) = e) :=
      exec_queuePush_shallow hr hon hne hlen hlast ha hx hok he
    have hlast' : (last.map Fin.val).isSome = last.isSome := by rw [Option.isSome_map]
    have hsh : x.sh q.val = h := by rw [hx, hh]; rfl
    have henx : x.on (F.QS_CFG_EN q.val) = d.on (F.QS_CFG_EN q.val) := by rw [hx]; rfl
    subst hsh
    refine ⟨?_, ?_, ?_, ?_, ?_⟩
    · exact fun hno => exec_queuePush_denied hr hon hne hlen hlast ha hx hno
    · intro hok hen
      refine hgranted hok ?_
      simp only [Dev.pushShallow, henx, hen, Bool.not_false, if_true]
    · intro hok hen hdis
      refine hgranted hok ?_
      simp only [Dev.pushShallow, henx, hen, Bool.not_true, Bool.false_eq_true, if_false, hdis, if_true]
      cases last <;> rfl
    · intro need cs free items e g hok hen hdis hneed he htake hroom hitems hg
      refine hgranted hok ?_
      rw [Dev.pushShallow_room (henx.trans hen) hdis hneed he htake hroom (g := g) (by rw [hg, hitems, hlast']), hlast']
    · intro need e hok hen hdis hneed he hfull
      refine hgranted hok ?_
      rw [Dev.pushShallow_overrun (henx.trans hen) hdis hneed he hfull, hlast']
  · intro s t d x q cls words last h a need hr hon hne hlen hlast hh ha hx hneed
    have hgranted {e : Dev} (hok : a.1 = true)
        (he : x.pushDeep q.val cls.val (words.map (fun w => (w, false))) (last.map Fin.val) = e) :=
      exec_queuePush_deep hr hon hne hlen hlast ha hx hok he
    have hlast' : (last.map Fin.val).isSome = last.isSome := by rw [Option.isSome_map]
    have hdq : x.dq q.val = h := by rw [hx, hh]; rfl
    have henx : x.on (F.QD_CFG_EN q.val) = d.on (F.QD_CFG_EN q.val) := by rw [hx]; rfl
    have htail : x.dTail q.val = d.dTail q.val := by rw [hx]; rfl
    have hops : x.sectorOps = d.sectorOps := by rw [hx]; rfl
    have hneed' : need = (words.map (fun w => (w, false))).length + (if h.openTail then 0 else 1) := by
      rw [List.length_map, hneed]
    refine ⟨?_, ?_, ?_, ?_, ?_⟩
    · exact fun hno => exec_queuePush_denied hr hon hne hlen hlast ha hx hno
    · intro hok hen
      refine hgranted hok ?_
      simp only [Dev.pushDeep, henx, hen, Bool.not_false, if_true]
    · intro hok hen hdis
      refine hgranted hok ?_
      simp only [Dev.pushDeep, henx, hen, Bool.not_true, Bool.false_eq_true, if_false, hdq, hdis, if_true]
      cases last <;> rfl
    · intro hok hen hdis hwait
      refine hgranted hok ?_
      subst hdq
      exact Dev.pushDeep_waits (henx.trans hen) hdis hneed' (by rw [htail, hops]; exact hwait)
    · intro room fill span items g hok hen hdis hwait hstage hops' hroom hle hfill hitems hg hspan
      refine hgranted hok ?_
      subst hdq
      rw [← hlast']
      have hroom' : room = 512 * 2 ^ x.rd (F.QD_CFG_DLOG q.val) - ringDist (x.dHead q.val) (x.dTail q.val) := by
        rw [hroom, hx]
        rfl
      have hcyc : x.cycRoom (x.dq q.val).log room = d.cycRoom (x.dq q.val).log room := by rw [hx]; rfl
      have hpush (l : CycleLog) (n : Nat) (b : Bool) : x.cycPush l n need b = d.cycPush l n need b := by rw [hx]; rfl
      refine Dev.pushDeep_room (henx.trans hen) hdis hneed' hwait (by rw [htail]; exact hstage)
        (by rw [htail, hops]; exact hops') hroom' (by rw [hcyc]; exact hle) (hfill.trans (by rw [htail])) ?_ hspan
      rw [hg, hitems, hlast', htail, List.length_map, hpush]
  · intro s t d q n bad link a hr ha
    refine ⟨?_, ?_, ?_⟩
    · intro hn hle hlink
      have hexec := exec_queuePop_shallow (bad := bad) hr ha hn hle hlink
      constructor
      · intro hno
        simpa only [hno, Bool.false_eq_true, if_false] using hexec
      · intro hok
        simpa only [hok, if_true] using hexec
    · intro hlink hcells
      show execQueuePop t (.shallow q) n bad link s = _
      exact State.runClk_to hr (if_pos ⟨hlink, hcells⟩)
    · intro b hb hlink
      subst hb
      show execQueuePop t (.shallow q) 0 (some b) link s = _
      refine State.runClk_to hr ((if_neg ?_).trans (if_pos rfl))
      rcases hlink with hlink | hlink <;> simp [hlink]
  · intro s t d q n bad hr
    refine ⟨?_, ?_, ?_⟩
    · intro hon
      show execQueuePop t (.deep q) n bad true s = _
      exact State.runClk_to hr (if_pos ⟨rfl, hon⟩)
    · intro b hb
      subst hb
      show execQueuePop t (.deep q) n (some b) false s = _
      exact State.runClk_to hr (if_neg (by simp))
    · intro hb
      subst hb
      show execQueuePop t (.deep q) n none false s = _
      exact State.runClk_to hr (if_neg (by simp))
  · intro s t d g q i l h hr htaking hg hh htake hitems
    show execPrune t q s = _
    refine State.runClk_to hr ((if_pos htaking).trans ?_)
    subst hg hh
    exact Dev.prune_taking htake hitems
  · intro s t d q hr
    refine ⟨fun hon => ?_, ?_, fun hon => ?_, fun hon => ?_⟩
    · show execFlush t (.shallow q) s = _
      exact State.runClk_to hr (if_pos hon)
    · show execAbort t (.shallow q) s = _
      exact State.runClk_to hr rfl
    · show execQueueEnable t (.shallow q) s = _
      exact State.runClk_to hr (if_pos hon)
    · show execQueueDisable t (.shallow q) s = _
      exact State.runClk_to hr (if_pos hon)
  · intro s t d g q hr
    refine ⟨fun hon => ?_, fun hall => ?_, fun a b hw hb ha => ?_, fun hon hoff => ?_, fun hon => ?_, ?_, ?_⟩
    · show execFlush t (.deep q) s = _
      exact State.runClk_to hr (if_pos hon)
    · show execAbort t (.deep q) s = _
      exact State.runClk_to hr (Dev.abortDeep_all hall)
    · show execAbort t (.deep q) s = _
      exact State.runClk_to hr (Dev.abortDeep_part hw hb ha)
    · show execQueueEnable t (.deep q) s = _
      exact State.runClk_to hr ((if_pos hon).trans (congrArg Dev.pfcCheck (if_neg (by simp [hoff]))))
    · show execQueueDisable t (.deep q) s = _
      exact State.runClk_to hr (if_pos hon)
    · exact fun n p hfull hp hg => exec_sectorEncryptDone hr hfull hp hg
    · exact fun hread hg => exec_sectorDecryptDone hr hread hg
  · intro s t d hr
    refine ⟨fun c l hz => ?_, fun hon hup hwas => ?_, fun hon hwas => ?_, fun htx hoff hfree hdue => ?_⟩
    · show execZeroingDone t s = _
      refine State.runClk_to hr ?_
      simp only [hz]
    · show execHalf1Set t s = _
      exact State.runClk_to hr ((if_pos hon).trans (congrArg Dev.pfcCheck (Dev.writeHalf1_set hup hwas)))
    · show execHalf1Clear t s = _
      exact State.runClk_to hr ((if_pos hon).trans (congrArg Dev.pfcCheck (Dev.writeHalf1_clear hwas)))
    · show execPfcRepeat t s = _
      exact State.runClk_to hr ((if_pos ⟨htx, hoff, hfree⟩).trans (if_pos (decide_eq_true hdue)))

end Sys2Proof.Machine
end

section
/-! PROOFS. Node-entry shadows (R232 to R234): a counterexample. -/

namespace Sys2Proof.Machine

open Sys2Proof

/-- PD_CNV0 is on, the scope of channel 0 holds entries 0 and 1, slot 16 was loaded from entry 1 at its edit generation 0, and an
ARM PATH of the present cycle was adopted by the entry, which advanced the generation from 0 to 1. -/
def adoptedInCycle : Dev :=
  Dev.wr { regs := [(A.GV_PDSTAT0 + 8, 4096#32)], shadow := [(16, (1, 0))], edits := [(1, 1)], adopted := (0, [(1, 0, [])]) }
    (F.FW_SCOPE_SIZE 0) 2

/-- RES of slot 16 after a command. -/
def slotResultAfter : Host.Outcome State Fault Refusal → Nat
  | .next s => s.dev.rd (F.NT_SH_CTL_RES 16)
  | _ => 0

/-- A COMMIT comes before an ARM PATH result of its cycle (R234): the generation is the one loaded, and RES is OK. -/
theorem slotResult_adoptedInCycle :
    slotResultAfter (exec (.commit 0 16 1 false false) ⟨adoptedInCycle, []⟩) = 0 := by decide +kernel

/-- The device after a COMMIT that is answered STALE. -/
def answeredStale : Dev := ((adoptedInCycle.wr (F.NT_SH_CTL_INDEX 16) 1).tableParity 1).wr (F.NT_SH_CTL_RES 16) 6

/-- The check of R233 against the generation after the ARM PATH result. -/
theorem commitResult_adoptedInCycle :
    (((adoptedInCycle.wr (F.NT_SH_CTL_INDEX 16) 1).seen 1).commitResult 16 1) = 6 := by decide +kernel

/-- Refutes O39: the rule of COMMIT takes the edit generation of an entry as the ARM PATH result of the same cycle left it, so that
it asks for STALE (6), where the command answers OK. -/
theorem not_shadowAndKeyCommandsComplete : ¬ Obligations.ShadowAndKeyCommandsComplete := by
  rintro ⟨hshadow, -⟩
  obtain ⟨-, -, -, hcommit⟩ := hshadow ⟨adoptedInCycle, []⟩ 0 adoptedInCycle _ answeredStale 16 1 ⟨⟨rfl, rfl⟩, rfl⟩
    (by decide +kernel) rfl
  obtain ⟨hrefused, -⟩ := hcommit 6 false false answeredStale answeredStale answeredStale commitResult_adoptedInCycle.symm rfl
  have hres := congrArg slotResultAfter (hrefused (by decide))
  rw [slotResult_adoptedInCycle] at hres
  exact absurd hres (by decide +kernel)

end Sys2Proof.Machine
end

section
/-! PROOFS. Ethernet link commands (R239 to R241, R243, R349 to R351). -/

namespace Sys2Proof.Machine

open Sys2Proof

/-! ### Port bring-up and the move of channels (R239, R240) -/

/-- A port has stayed down: it never came up, or FAILHOLD has passed since it went down. -/
theorem Dev.heldDown_of_downSince {d : Dev} {p x : Nat} (hdown : d.portUp p = false)
    (hsince : Tab.get none d.downSince p = none ∨
      (Tab.get none d.downSince p = some x ∧ x + 1000 * min 150 (d.rd F.FW_UPL_FAILHOLD) ≤ d.now)) : d.heldDown p = true := by
  unfold Dev.heldDown
  rcases hsince with hsince | ⟨hsince, hlate⟩
  · simp [hdown, hsince]
  · simp only [hdown, hsince, Bool.not_false, Bool.true_and, decide_eq_true_eq]
    exact hlate

/-- The channels of a port that has stayed down move to the other port, which is up. -/
theorem Dev.failover_moves {d x : Dev} {p : Nat} {any : Bool} (hmode : 2 ≤ d.upmode) (hdown : d.heldDown p = true)
    (hup : d.portUp (1 - p) = true) (hmove : d.moveTo (1 - p) (fun _ => true) = (any, x)) :
    d.failover p = if any then (x.raise F.FW_UPSTAT_MOVED).uplinkNotice 0 (1 - p) else x := by
  unfold Dev.failover
  simp only [hmode, hdown, hup, true_and, if_true, hmove]

/-- In modes 0 and 1, and while the port has not stayed down, no channel moves. -/
theorem Dev.failover_stays {d : Dev} {p : Nat} (h : d.upmode < 2 ∨ d.heldDown p = false) : d.failover p = d := by
  refine if_neg (fun ⟨hmode, hdown, _⟩ => ?_)
  rcases h with h | h
  · omega
  · simp [h] at hdown

/-- PORT_UP of a live port that is down brings it up, and the channels of the other port may move to it. -/
theorem exec_portUp {s : State} {t : Nat} {d g h e : Dev} {p : PortId} (hr : s.awake t d) (hlive : d.ethLive p.val = true)
    (hdown : d.on (F.ETH_STATUS_UP p.val) = false)
    (hg : g = ((((d.wr (F.ETH_STATUS_SIGDET p.val) 0xFF).wr (F.ETH_STATUS_ALIGN p.val) 1).wr (F.ETH_STATUS_HISER p.val) 0).wr
      (F.ETH_STATUS_UP p.val) 1).wr (upField p.val) 1)
    (hh : h = { g with downSince := Tab.del g.downSince p.val, upSince := Tab.put g.upSince p.val (some g.now)
                       linkWait := Tab.del g.linkWait p.val })
    (he : h.failover (1 - p.val) = e) : exec (.portUp t p) s = .next (s.to e) := by
  show execPortUp t p s = _
  refine State.run_to hr ((if_pos ⟨hlive, by simp [hdown]⟩).trans ?_)
  subst hg
  simp only [← hh]
  exact he

/-- The other port of the other port. -/
theorem port_sub_sub (p : PortId) : 1 - (1 - p.val) = p.val := by omega

/-- The wait of 50 ms for PORT_UP has passed on a live port. -/
theorem exec_portUpTimeout {s : State} {t : Nat} {d : Dev} {p : PortId} {lanes : BitVec 8} {x : Nat} (hr : s.awake t d)
    (hlive : d.ethLive p.val = true) (hwait : Tab.get none d.linkWait p.val = some x) (hlate : x + 50000000 ≤ d.now) :
    exec (.portUpTimeout t p lanes) s = .next (s.to ((d.wr (F.ETH_STATUS_SIGDET p.val) lanes.toNat).raise
      (if lanes = BitVec.allOnes 8 then F.ETH_STATUS_LOA p.val else F.ETH_STATUS_LOS p.val))) := by
  show execPortUpTimeout t p lanes s = _
  refine State.run_to hr ?_
  simp only [hwait]
  exact if_pos ⟨hlive, hlate⟩

/-- A received pause is an event of a port that is up, and holds its priority while PFCRX is set (R243). -/
theorem exec_pfcFrame {s : State} {t : Nat} {d g e : Dev} {p : PortId} {r : Fin 8} {quanta : BitVec 16} (hr : s.awake t d)
    (hup : d.on (F.ETH_STATUS_UP p.val) = true) (hg : g = d.event 7 5 p.val 1)
    (he : (if g.on F.FW_PFC_PFCRX then
      { g with paused := Tab.set 0 g.paused (8 * p.val + r.val)
                 (if quanta = 0 then 0 else g.now + ceilDiv (quanta.toNat * 128) 100) } else g) = e) :
    exec (.pfcFrame t p r quanta) s = .next (s.to e) := by
  show execPfcFrame t p r quanta s = _
  refine State.run_to hr ((if_neg (by simp [hup])).trans ?_)
  simp only [← hg]
  exact he

/-- Settles O40: each clause names the branch of its command that its conditions choose. -/
theorem linkCommandsComplete : Obligations.LinkCommandsComplete := by
  unfold Obligations.LinkCommandsComplete
  refine ⟨?_, ?_, ?_, ?_⟩
  · intro s t d g p hr hlive
    refine ⟨fun lane => ?_, ?_, ?_, ?_, ?_⟩
    · show execLossOfSignal t p lane s = _
      exact State.run_to hr (if_pos hlive)
    · show execLossOfAlignment t p false s = _
      exact State.run_to hr (if_pos hlive)
    · show execLossOfAlignment t p true s = _
      exact State.run_to hr (if_pos hlive)
    · intro any h x hdown hg hh hup hmove
      have hother := port_sub_sub p
      constructor
      · intro hstay
        exact exec_portUp hr hlive hdown hg hh (Dev.failover_stays hstay)
      · intro hmode hheld
        refine exec_portUp hr hlive hdown hg hh ?_
        have hmove' : h.moveTo (1 - (1 - p.val)) (fun _ => true) = (any, x) := by rw [hother]; exact hmove
        rw [Dev.failover_moves hmode hheld (by rw [hother]; exact hup) hmove', hother]
    · intro x lanes hwait hlate hg
      subst hg
      have hexec := exec_portUpTimeout (lanes := lanes) hr hlive hwait hlate
      constructor
      · intro hne
        rwa [if_neg (show ¬ lanes = BitVec.allOnes 8 from hne)] at hexec
      · intro heq
        rwa [if_pos (show lanes = BitVec.allOnes 8 from heq)] at hexec
  · intro s t d g p hr hdom
    constructor
    · intro hsq
      show execSquelchClear t p s = _
      exact State.run_to hr ((if_pos hdom).trans (if_pos hsq))
    · intro hsq hg
      show execSquelchSet t p s = _
      refine State.run_to hr ((if_pos hdom).trans ((if_neg (by simp [hsq])).trans ?_))
      rw [hg]
  · intro s t d g p x any hr hmode
    constructor
    · intro hdown hsince hup hmove
      show execFailholdExpiry t p s = _
      exact State.runClk_to hr (Dev.failover_moves hmode (Dev.heldDown_of_downSince hdown hsince) hup hmove)
    · intro hsince hrevert hup hlate late h hlateq hmove hh
      show execRevert t p s = _
      refine State.runClk_to hr ?_
      simp only [hsince, hmode, hrevert, hup, hlate, and_self, if_true, ← hlateq, hmove, ← hh]
  · intro s t d g p r hr
    constructor
    · intro quanta x hup hg
      constructor
      · intro hrx hx
        subst hx
        exact exec_pfcFrame hr hup hg (if_pos hrx)
      · intro hrx
        exact exec_pfcFrame hr hup hg (if_neg (by simp [hrx]))
    · intro hend
      show execPauseExpiry t p r s = _
      exact State.run_to hr (if_pos hend)

end Sys2Proof.Machine
end

section
/-! PROOFS. Frames received and sent by the ports (R14, R235 to R238, R352, R447, R449). -/

namespace Sys2Proof.Machine

open Sys2Proof

/-! ### Received frames (R235 to R237, R352) -/

/-- The checks of R236 on a shim frame, in order. -/
theorem Dev.fwShim_eq {d : Dev} {body : List Byte} {x : Shim} {n : Nat} (hx : x = readShim body) (hn : n = body.length - 8) :
    d.fwShim body = if x.ver ≠ 1 ∨ x.up then d.fwDrop 3
      else if d.lookup (d.rd (N.CHAN x.node)) x.node ≠ some x.node ∨
          !kindSuits (d.rd (N.KIND x.node)) (d.kindRole (d.lead (d.rd (N.CHAN x.node)))) then
        (d.entryParity (d.lead (d.rd (N.CHAN x.node))) x.node).fwDrop 4
      else if x.tenant ≠ d.rd (N.TENANT x.node) then d.fwDrop 5
      else if d.fwState (d.lead (d.rd (N.CHAN x.node))) x.node x.cls then d.fwDrop 6
      else if n = 0 ∨ 16383 < n then d.fwDrop 7
      else d.fwPush x.node x.cls (body.drop 8) := by
  subst hx hn
  simp only [Dev.fwShim, List.length_drop]

section
variable {d : Dev} {p et : Nat} {octets body : List Byte} {mgt : Dev → List Byte → Dev}
  (hbody : frameBody [d.rd F.FW_CFG_SHIM_ET, d.rd F.FW_CFG_MGT_ET] octets = (et, body))
include hbody

/-- A port that does not accept drops the frame with code 1. -/
theorem Dev.ingress_closed (hclosed : d.accepting p = false) : d.ingress p octets mgt = d.fwDrop 1 := by
  simp only [Dev.ingress, hbody, hclosed, Bool.not_false, if_true]

/-- The management engine, the drop of a foreign EtherType and the checks of a shim frame (R235, R236). -/
theorem Dev.ingress_open (hopen : d.accepting p = true) :
    d.ingress p octets mgt = if et = d.rd F.FW_CFG_MGT_ET then mgt d body
      else if et ≠ d.rd F.FW_CFG_SHIM_ET then d.fwDrop 2 else d.fwShim body := by
  simp only [Dev.ingress, hbody, hopen, Bool.not_true, Bool.false_eq_true, if_false]

end

/-- A frame of good length and FCS at a port that is up is counted, and goes on while REFCLK_SYS is there (R14, R352). -/
theorem exec_frameReceive_counted {s : State} {t : Nat} {d g h e : Dev} {p : PortId} {octets : List Byte} {b : Tab Nat}
    (hr : s.awake t d) (hup : d.on (F.ETH_STATUS_UP p.val) = true) (hlen : 64 ≤ octets.length) (hfcs : fcsGood octets = true)
    (hmax : octets.length ≤ d.maxFr p.val) (hg : g = (d.event 7 0 p.val 1).event 7 1 p.val octets.length)
    (hb : b = Tab.set 0 g.bwSum (2 * (64 + p.val)) (Tab.get 0 g.bwSum (2 * (64 + p.val)) + octets.length))
    (hh : h = { g with bwSum := b })
    (he : (if h.mains.refclk then h.ingress p.val octets
      (fun d l => d.mgReceive p.val (BitVec.ofNat 48 (beNat ((octets.drop 6).take 6))) l) else h) = e) :
    exec (.frameReceive t p octets) s = .next (s.to e) := by
  show execFrameReceive t p octets s = _
  refine State.run_to hr ((if_neg (by simp [hup])).trans ((if_neg ?_).trans ((if_neg (by omega)).trans ?_)))
  · simp [hfcs, Nat.not_lt.mpr hlen]
  · subst hg hb hh
    exact he

/-! ### Frames that a port begins (R238, R447) -/

/-- A free port that is up begins the frame of the queue that R447 names. -/
theorem exec_egressFrameStart {s : State} {t : Nat} {d g : Dev} {p : PortId} {q k c : Nat} {it : Item} {e : EthOut} {z : Tab Nat}
    (hr : s.ready t d) (hup : d.portUp p.val = true)
    (hfree : d.ethOut.any (fun e : EthOut => e.port == p.val && !e.done) = false) (hnext : d.nextQueue p.val = some (q, k, c))
    (hit : it = (d.sh q).items.head?.getD {}) (he : e = { port := p.val, queue := q, head := d.egressHead p.val k c it })
    (hz : z = Tab.set 0 d.shimSeq (4 * k + c) ((Tab.get 0 d.shimSeq (4 * k + c) + 1) % 65536))
    (hg : g = { d with ethOut := d.ethOut ++ [e], rr := Tab.put d.rr (8 * p.val + d.pri c) q, shimSeq := z }) :
    exec (.egressFrameStart t p) s =
      .next (s.to (((g.entryParity k (g.itemNode k it).1).beginItem q).event 7 2 p.val 1)) := by
  show execEgressFrameStart t p s = _
  refine State.runClk_to hr ((if_neg (by simp [hup, hfree])).trans ?_)
  subst hit he hz
  simp only [hnext, ← hg]

/-- Settles O41: each clause names the branch that its conditions choose. -/
theorem frameCommandsComplete : Obligations.FrameCommandsComplete := by
  unfold Obligations.FrameCommandsComplete
  constructor
  · intro s t d p octets hr
    constructor
    · intro hdown
      show execFrameReceive t p octets s = _
      exact State.run_to hr (if_pos (by simp [hdown]))
    · intro hup
      refine ⟨fun hbad => ?_, fun hlen hfcs hmax => ?_, ?_⟩
      · show execFrameReceive t p octets s = _
        exact State.run_to hr ((if_neg (by simp [hup])).trans (if_pos (by simpa using hbad)))
      · show execFrameReceive t p octets s = _
        refine State.run_to hr ((if_neg (by simp [hup])).trans ((if_neg ?_).trans (if_pos hmax)))
        simp [hfcs, Nat.not_lt.mpr hlen]
      · intro g h et body b hlen hfcs hmax hg hb hh hbody
        refine ⟨fun hclk => ?_, fun hclk hclosed => ?_, fun hclk hopen => ?_⟩
        · exact exec_frameReceive_counted hr hup hlen hfcs hmax hg hb hh (if_neg (by simp [hclk]))
        · exact exec_frameReceive_counted hr hup hlen hfcs hmax hg hb hh ((if_pos hclk).trans (Dev.ingress_closed hbody hclosed))
        · have hcounted {e : Dev} (he) :=
            exec_frameReceive_counted (e := e) hr hup hlen hfcs hmax hg hb hh
              ((if_pos hclk).trans ((Dev.ingress_open hbody hopen).trans he))
          refine ⟨fun het => hcounted (if_pos het), fun hmg het => hcounted ((if_neg hmg).trans (if_pos het)), ?_⟩
          intro x n hmg het hx hn
          exact hcounted ((if_neg hmg).trans ((if_neg (not_not.2 het)).trans (Dev.fwShim_eq hx hn)))
  · intro s t d g p hr hup hfree
    constructor
    · intro hnone
      show execEgressFrameStart t p s = _
      refine State.runClk_to hr ((if_neg (by simp [hup, hfree])).trans ?_)
      simp only [hnone]
    · intro q k c it e z hnext hit he hz hg
      exact exec_egressFrameStart hr hup hfree hnext hit he hz hg

end Sys2Proof.Machine
end

section
/-! PROOFS. Budget decisions (R335 to R338, R341, R346). -/

namespace Sys2Proof.Machine

open Sys2Proof

/-- While REFCLK_SYS is there a device that RESET_N does not hold is ready. -/
theorem State.awake.ready {s : State} {t : Nat} {d : Dev} (h : s.awake t d) (hclk : d.mains.refclk = true) : s.ready t d := by
  obtain ⟨hreset, rfl⟩ := h
  exact ⟨⟨hreset, (Dev.advance_refclk s.dev t).symm.trans hclk⟩, rfl⟩

/-! ### The request that is decided -/

section
variable {d : Dev} {q : Nat} {kind : BudgetKind} {r : BudgetReq}
  (hr : (d.sq q).reqs.find? (fun x => x.kind == kind && !x.deferred && x.answer.isNone) = some r)
include hr

/-- The request that a decision finds is of its kind. -/
theorem Dev.kind_of_find : r.kind = kind := by
  have h := List.find?_some hr
  simp only [Bool.and_eq_true, beq_iff_eq] at h
  exact h.1.1

/-- No decision is made later than 40 ns before the deadline. -/
theorem Dev.decision_late (hlate : r.deadline < d.now + 40) : d.decision q kind = d := by
  unfold Dev.decision
  simp only [hr, hlate, if_true]

/-- A TXSLOT or BRINGUP request waits behind a deferred one. -/
theorem Dev.decision_behind (htime : d.now + 40 ≤ r.deadline) (hdef : d.anyDeferred = true) (hkind : kind ≠ .iter) :
    d.decision q kind = d.defer q r := by
  unfold Dev.decision
  simp only [hr, Nat.not_lt.mpr htime, if_false, hdef, hkind, ne_eq, not_false_eq_true, and_self, if_true]

/-- In time, and behind no deferred request unless it is an ITER, a request is decided. -/
theorem Dev.decision_inTime (htime : d.now + 40 ≤ r.deadline) (hfree : d.anyDeferred = false ∨ kind = .iter) :
    d.decision q kind = d.decideReq q r := by
  have hwait : ¬ (d.anyDeferred = true ∧ kind ≠ .iter) := by
    rcases hfree with h | h <;> simp [h]
  unfold Dev.decision
  simp only [hr, Nat.not_lt.mpr htime, if_false, hwait]

end

/-! ### TXSLOT requests (R336) -/

/-- The least reduction within DEG_MAX that H admits. -/
theorem Dev.slotReduction_eq_some {d : Dev} {e dmin z : Nat} {h : Int} (hmin : dmin ≤ z) (hmax : z ≤ d.rd F.GV_MODE_DEG_MAX)
    (hz : (chargeOf e z : Int) ≤ h) (hleast : ∀ y, dmin ≤ y → y < z → h < (chargeOf e y : Int)) :
    d.slotReduction e dmin h = some z := by
  refine List.find?_range'_eq_some.2 ⟨decide_eq_true hz, List.mem_range'_1.2 ⟨hmin, by omega⟩, fun y hy hyz => ?_⟩
  simpa using hleast y hy hyz

/-- No reduction within DEG_MAX is admitted by H. -/
theorem Dev.slotReduction_eq_none {d : Dev} {e dmin : Nat} {h : Int}
    (hall : ∀ y, dmin ≤ y → y ≤ d.rd F.GV_MODE_DEG_MAX → h < (chargeOf e y : Int)) : d.slotReduction e dmin h = none := by
  refine List.find?_range'_eq_none.2 (fun y hy hlt => ?_)
  simpa using hall y hy (by omega)

/-- Where R336 asks for a reduction the request is not granted whole. -/
theorem Dev.not_wholeSlot {d : Dev} {r : BudgetReq} {dmin : Nat} (hdmin : dmin = (if d.tstate = 1 then d.rd F.GV_MODE_WARM_DEG else 0))
    (hless : dmin ≠ 0 ∨ d.headroom < (r.energy : Int)) :
    ¬ ((if d.tstate = 1 then d.rd F.GV_MODE_WARM_DEG else 0) = 0 ∧ (r.energy : Int) ≤ d.headroom) := by
  rintro ⟨hzero, hroom⟩
  exact hless.elim (fun h => h (hdmin.trans hzero)) (fun h => absurd hroom (not_le.2 h))

section
variable {d : Dev} {q : Nat} {r : BudgetReq}

/-- A request over a quarter of C is denied. -/
theorem Dev.decideSlot_overCap (h : d.cap < 4 * r.energy) : d.decideSlot q r = d.decide_ q r .deny none := if_pos h

section
variable (hcap : 4 * r.energy ≤ d.cap)
include hcap

/-- A request within the floor is granted from it. -/
theorem Dev.decideSlot_floor (hfloor : r.energy ≤ d.floorLeft r.chan) {g : Gov}
    (hg : g = { d.gov with floors := (d.now, r.chan, r.energy) :: d.gov.floors }) :
    d.decideSlot q r = ({ d with gov := g } : Dev).decide_ q r .grant
      (some { chan := r.chan, charged := r.energy, floor := true, d := 0 }) := by
  subst hg
  exact (if_neg (Nat.not_lt.mpr hcap)).trans (if_pos hfloor)

variable (hfloor : d.floorLeft r.chan < r.energy)
include hfloor

/-- Beyond the floor nothing is granted from the HOT state on. -/
theorem Dev.decideSlot_hot (hhot : 2 ≤ d.tstate) : d.decideSlot q r = d.decide_ q r .deny none :=
  (if_neg (Nat.not_lt.mpr hcap)).trans ((if_neg (Nat.not_le.mpr hfloor)).trans (if_pos hhot))

variable (hcool : d.tstate < 2) {dmin : Nat} (hdmin : dmin = (if d.tstate = 1 then d.rd F.GV_MODE_WARM_DEG else 0))
include hcool hdmin

/-- A request that H admits whole is granted where no reduction is asked for. -/
theorem Dev.decideSlot_whole (hzero : dmin = 0) (hroom : (r.energy : Int) ≤ d.headroom) : d.decideSlot q r = d.decide_ q r .grant
    (some { chan := r.chan, charged := r.energy, floor := false, d := 0 }) :=
  (if_neg (Nat.not_lt.mpr hcap)).trans ((if_neg (Nat.not_le.mpr hfloor)).trans ((if_neg (Nat.not_le.mpr hcool)).trans
    (if_pos ⟨hdmin.symm.trans hzero, hroom⟩)))

variable (hless : dmin ≠ 0 ∨ d.headroom < (r.energy : Int))
include hless

/-- The request is degraded by the least reduction that H admits. -/
theorem Dev.decideSlot_degraded {z : Nat} (hmin : dmin ≤ z) (hmax : z ≤ d.rd F.GV_MODE_DEG_MAX)
    (hz : (chargeOf r.energy z : Int) ≤ d.headroom) (hleast : ∀ y, dmin ≤ y → y < z → d.headroom < (chargeOf r.energy y : Int)) :
    d.decideSlot q r = d.decide_ q r (.degrade z)
      (some { chan := r.chan, charged := chargeOf r.energy z, floor := false, d := z }) := by
  have hwhole := Dev.not_wholeSlot hdmin hless
  subst hdmin
  unfold Dev.decideSlot
  simp only [Nat.not_lt.mpr hcap, Nat.not_le.mpr hfloor, Nat.not_le.mpr hcool, hwhole, if_false,
    Dev.slotReduction_eq_some hmin hmax hz hleast]

/-- Without one it is deferred. -/
theorem Dev.decideSlot_deferred
    (hall : ∀ y, dmin ≤ y → y ≤ d.rd F.GV_MODE_DEG_MAX → d.headroom < (chargeOf r.energy y : Int)) :
    d.decideSlot q r = d.defer q r := by
  have hwhole := Dev.not_wholeSlot hdmin hless
  subst hdmin
  unfold Dev.decideSlot
  simp only [Nat.not_lt.mpr hcap, Nat.not_le.mpr hfloor, Nat.not_le.mpr hcool, hwhole, if_false,
    Dev.slotReduction_eq_none hall]

end
end

/-! ### ITER requests (R337) -/

section
variable {d g h : Dev} {q k n x : Nat} {r : BudgetReq} (hk : k = r.chan) (hn : n = max 1 (min r.iter d.iterCeiling))
  (hx : (d.allowance k n r.energy = some x ∧ g = d) ∨
    (d.allowance k n r.energy = none ∧ x = d.iterMin ∧ g = d.raise F.GV_STATUS_OVERBUD))
include hk hn hx

/-- An ITER request is given its allowance, or ITER_MIN with OVERBUD; while CCLK stands still it keeps what was decided. -/
theorem Dev.decideIter_allowance : d.decideIter q r = (if d.mains.refclk then
      (g.setAllowance k x (ceilDiv (r.energy * x) n)).decide_ q r (if x = n then .grant else .degrade 0) none
    else (g.modSq q (fun z => { z with reqs := z.reqs.map (fun w =>
        if w = r then { r with iter := x, energy := ceilDiv (r.energy * x) n } else w) })).decide_ q
      { r with iter := x, energy := ceilDiv (r.energy * x) n } (if x = n then .grant else .degrade 0) none) := by
  subst hk hn
  rcases hx with ⟨hgot, rfl⟩ | ⟨hgot, rfl, rfl⟩
  · simp only [Dev.decideIter, hgot, Option.getD_some, Option.isSome_some, if_true]
  · simp only [Dev.decideIter, hgot, Option.getD_none, Option.isSome_none, Bool.false_eq_true, if_false, Dev.raise_mains]

end

/-! ### BRINGUP requests (R341, R346) -/

/-- A BRINGUP request: from HELD service starts where the conditions admit it, else the sequence begins where R341 admits it. -/
theorem Dev.decideBringup_eq (d : Dev) (q : Nat) (r : BudgetReq) : d.decideBringup q r =
    (if d.phase r.chan = phHELD then
      if d.envOk then (d.decide_ q r .grant none).startService r.chan
      else (d.decide_ q r .deny none).chsvc r.chan lrDENIED
    else if d.bringOk r.chan r.energy then (d.decide_ q r .grant none).beginBring r.chan r.energy false
    else (d.decide_ q r .deny none).chsvc r.chan lrDENIED) := rfl

section
variable {s : State} {t : Nat} {d e : Dev} {q : SeqId} {r : BudgetReq}

theorem exec_txslotDecision (h : s.awake t d) (he : d.decision q.val .txslot = e) :
    exec (.txslotDecision t q) s = .next (s.to e) := by
  show execTxslotDecision t q s = _
  exact State.run_to h he

theorem exec_iterDecision (h : s.awake t d) (he : d.decision q.val .iter = e) :
    exec (.iterDecision t q) s = .next (s.to e) := by
  show execIterDecision t q s = _
  exact State.run_to h he

theorem exec_bringupDecision (h : s.ready t d) (he : d.decision q.val .bringup = e) :
    exec (.bringupDecision t q) s = .next (s.to e) := by
  show execBringupDecision t q s = _
  exact State.runClk_to h he

/-- A TXSLOT request in time, with none deferred, is decided by R336. -/
theorem Dev.decision_txslot {d : Dev} {q : Nat} {r : BudgetReq}
    (hr : (d.sq q).reqs.find? (fun x => x.kind == .txslot && !x.deferred && x.answer.isNone) = some r)
    (htime : d.now + 40 ≤ r.deadline) (hfree : d.anyDeferred = false) : d.decision q .txslot = d.decideSlot q r := by
  rw [Dev.decision_inTime hr htime (Or.inl hfree), Dev.decideReq, Dev.kind_of_find hr]

theorem Dev.decision_iter {d : Dev} {q : Nat} {r : BudgetReq}
    (hr : (d.sq q).reqs.find? (fun x => x.kind == .iter && !x.deferred && x.answer.isNone) = some r)
    (htime : d.now + 40 ≤ r.deadline) : d.decision q .iter = d.decideIter q r := by
  rw [Dev.decision_inTime hr htime (Or.inr rfl), Dev.decideReq, Dev.kind_of_find hr]

theorem Dev.decision_bringup {d : Dev} {q : Nat} {r : BudgetReq}
    (hr : (d.sq q).reqs.find? (fun x => x.kind == .bringup && !x.deferred && x.answer.isNone) = some r)
    (htime : d.now + 40 ≤ r.deadline) (hfree : d.anyDeferred = false) : d.decision q .bringup = d.decideBringup q r := by
  rw [Dev.decision_inTime hr htime (Or.inl hfree), Dev.decideReq, Dev.kind_of_find hr]

end

/-- Settles O42: the request that the command finds, its time, and then the row of R336, R337 or R341 that its conditions choose. -/
theorem budgetDecisionsComplete : Obligations.BudgetDecisionsComplete := by
  unfold Obligations.BudgetDecisionsComplete
  refine ⟨?_, ?_, ?_, ?_⟩
  · intro s t d q r ha
    refine ⟨fun hr => ⟨fun hlate => ?_, fun htime hdef => ?_⟩, fun hr hlate => ?_,
      fun hclk hr => ⟨fun hlate => ?_, fun htime hdef => ?_⟩⟩
    · exact exec_txslotDecision ha (Dev.decision_late hr hlate)
    · exact exec_txslotDecision ha (Dev.decision_behind hr htime hdef (by decide))
    · exact exec_iterDecision ha (Dev.decision_late hr hlate)
    · exact exec_bringupDecision (ha.ready hclk) (Dev.decision_late hr hlate)
    · exact exec_bringupDecision (ha.ready hclk) (Dev.decision_behind hr htime hdef (by decide))
  · intro s t d q r e k dmin ha hr htime hfree he hk hdmin
    subst he hk
    have hdecided {g : Dev} (hg : d.decideSlot q.val r = g) : exec (.txslotDecision t q) s = .next (s.to g) :=
      exec_txslotDecision ha ((Dev.decision_txslot hr htime hfree).trans hg)
    refine ⟨fun hcap => ?_, fun hcap hfloor g hg => ?_, fun hcap hfloor hhot => ?_, fun hcap hfloor hcool hzero hroom => ?_,
      fun z hcap hfloor hcool hless hmin hmax hz hleast => ?_, fun hcap hfloor hcool hless hall => ?_⟩
    · exact hdecided (Dev.decideSlot_overCap hcap)
    · exact hdecided (Dev.decideSlot_floor hcap hfloor hg)
    · exact hdecided (Dev.decideSlot_hot hcap hfloor hhot)
    · exact hdecided (Dev.decideSlot_whole hcap hfloor hcool hdmin hzero hroom)
    · exact hdecided (Dev.decideSlot_degraded hcap hfloor hcool hdmin hless hmin hmax hz hleast)
    · exact hdecided (Dev.decideSlot_deferred hcap hfloor hcool hdmin hless hall)
  · intro s t d g h q r k n x ha hr htime hk hn hx
    have hdecided {e : Dev} (he) := exec_iterDecision (e := e) ha
      ((Dev.decision_iter hr htime).trans ((Dev.decideIter_allowance (q := q.val) hk hn hx).trans he))
    constructor
    · intro hclk hh
      subst hh
      exact hdecided (if_pos hclk)
    · intro y hclk hy hh
      subst hy hh
      exact hdecided (if_neg (by simp [hclk]))
  · intro s t d q r ha hr htime hfree
    have hdecided {e : Dev} (he) := exec_bringupDecision (e := e) ha
      ((Dev.decision_bringup hr htime hfree).trans ((Dev.decideBringup_eq d q.val r).trans he))
    refine ⟨fun hheld henv => ?_, fun hheld hok => ?_, ?_⟩
    · exact hdecided ((if_pos hheld).trans (if_pos henv))
    · exact hdecided ((if_neg hheld).trans (if_pos hok))
    · rintro (⟨hheld, henv⟩ | ⟨hheld, hok⟩)
      · exact hdecided ((if_pos hheld).trans (if_neg (by simp [henv])))
      · exact hdecided ((if_neg hheld).trans (if_neg (by simp [hok])))

end Sys2Proof.Machine
end

section
/-! PROOFS. Ticks and samples of the governor (R330 to R335, R338 to R340). -/

namespace Sys2Proof.Machine

open Sys2Proof

/-- A command in the always-on clock that can end a bring-up lets the loader's service go on after its effect. -/
theorem State.runSvc_to {s : State} {t : Nat} {d e : Dev} {f : Dev → Dev} (h : s.awake t d) (he : f d = e) :
    s.runSvc t f = .next (s.to (e.serviceNext 256)) :=
  State.run_to h (by rw [he])

/-! ### The tick (R331 to R335, R339) -/

/-- The power of the last window: PWR, and OVERBUD with one notice as M comes to exceed C (R330, R339). -/
theorem Dev.takePower_tick {d e g h : Dev} {rails : List Nat} {live : List (Nat × Nat)} {nj m : Nat}
    (hlive : live = (e.gov.power ++ [(e.now, rails.sum)]).filter (fun p => decide (e.now < p.1 + 1000000 * e.winMs)))
    (hnj : nj = (live.map Prod.snd).sum) (hm : m = (roundQuotient nj 100000).toNat)
    (hg : g = { e with gov := { e.gov with power := live, m := m } })
    (hh : h = g.wr F.GV_PWR_PWR (min 65535 (roundQuotient m g.winMs).toNat)) :
    e.takePower d.overCap rails = (if nj ≤ 100000 * h.cap then h
      else if 100000 * d.cap < (d.gov.power.map Prod.snd).sum then h.raise F.GV_STATUS_OVERBUD
      else (h.raise F.GV_STATUS_OVERBUD).notice { cls := 8, code := 0 }) := by
  have henergy : h.windowEnergy = nj := by rw [hh, hnj, Dev.windowEnergy, Dev.wr_gov, hg]
  have hover : h.overCap = decide (100000 * h.cap < nj) := by rw [Dev.overCap, henergy]
  have hsampled : e.sampled live = h := by
    subst hh hg hm hnj
    rfl
  have hwas : d.overCap = decide (100000 * d.cap < (d.gov.power.map Prod.snd).sum) := rfl
  rw [Dev.takePower_eq e d.overCap rails hlive, hsampled, hover, hwas]
  by_cases hle : nj ≤ 100000 * h.cap
  · rw [if_pos hle, if_neg (by simpa using hle)]
  · rw [if_neg hle, if_pos (by simpa using hle)]
    exact if_congr decide_eq_true_iff rfl rfl

/-- A deferred request at a tick is decided unless its time has gone, it has left the pending ones, or the clocks stand still. -/
theorem Dev.tickDecision_eq (z : Dev) (p : Nat × BudgetReq) :
    (if p.2.deadline < z.now + 40 ∨ (!(z.sq p.1).reqs.contains p.2) = true ∨
      (p.2.kind = .bringup ∧ (!z.mains.refclk) = true) then z else z.decideReq p.1 p.2) =
    (if p.2.deadline < z.now + 40 ∨ (z.sq p.1).reqs.contains p.2 = false ∨
      (p.2.kind = .bringup ∧ z.mains.refclk = false) then z else z.decideReq p.1 p.2) := by
  simp only [Bool.not_eq_true']

/-- GOVERNOR_TICK: the mode, M and PWR, H, the floor charges, and then the deferred requests. -/
theorem exec_governorTick {s : State} {t : Nat} {rails : List Nat} {d e x y : Dev} {f : List (Nat × Nat × Nat)} (h : s.awake t d)
    (he : d.takeMode = e) (hx : e.takePower d.overCap rails = x) (hy : y = x.wrS F.GV_HEAD_H x.headroom)
    (hf : f = y.gov.floors.filter (fun f => decide (y.now < f.1 + 1000000 * y.winMs))) :
    exec (.governorTick t rails) s = .next (s.to (({ y with gov := { y.gov with floors := f } } : Dev).deferredReqs.foldl
      (fun z p => if p.2.deadline < z.now + 40 ∨ (z.sq p.1).reqs.contains p.2 = false ∨
          (p.2.kind = .bringup ∧ z.mains.refclk = false) then z else z.decideReq p.1 p.2)
      { y with gov := { y.gov with floors := f } })) := by
  show execGovernorTick t rails s = _
  refine State.run_to h ?_
  subst he hx hy hf
  simp only [← Dev.tickDecision_eq]

/-- Settles O43: the tick runs through its parts in order; a sample and a trip are their commands written out. -/
theorem governorTickCompletes : Obligations.GovernorTickCompletes := by
  unfold Obligations.GovernorTickCompletes
  refine ⟨?_, ?_, ?_⟩
  · intro s t rails d e g h x y c n m nj live f ha hn hc he hlive hnj hm hg hh hx hy hf
    have hmode : d.takeMode = e := by
      subst hn hc
      exact he.symm
    exact exec_governorTick ha hmode ((Dev.takePower_tick hlive hnj hm hg hh).trans hx.symm) hy hf
  · intro s t d g c tj n i l u v ha hl hhot hg hu hv
    show execTemperatureSample t c n s = _
    refine State.run_to ha ?_
    subst hl
    simp only [hhot, ← hg]
    subst hv hu
    rfl
  · intro s t d g x ha hhot hlate hstate hg
    show execThermalTrip t s = _
    refine State.runSvc_to ha ?_
    simp only [hhot, hlate, hstate, ne_eq, not_false_eq_true, and_self, if_true, ← hg]

end Sys2Proof.Machine
end

section
/-! PROOFS. Switching of domains and channels (R21, R22, R248, R328, R329, R341 to R347, R416). -/

namespace Sys2Proof.Machine

open Sys2Proof

/-! ### Writes of GV_PDCMD (R329, R347) -/

/-- The fields of the word that switches a domain on or off. -/
theorem pdcmdWord_fields (n : Fin 128) :
    getBits (BitVec.ofNat 32 (n.val + 0x100)) 0 7 = n.val ∧ getBits (BitVec.ofNat 32 (n.val + 0x100)) 8 2 = 1 ∧
    getBits (BitVec.ofNat 32 (n.val + 0x200)) 0 7 = n.val ∧ getBits (BitVec.ofNat 32 (n.val + 0x200)) 8 2 = 2 := by
  revert n
  decide +kernel

section
variable {s : State} {t : Nat} {d e : Dev} {w : Writer} {n : Fin 128} (h : s.ready t d)
include h

/-- A writer that may not govern is refused (R347). -/
theorem exec_gvPdcmd_denied (hw : d.mayGovern w = false) :
    exec (.gvPdcmdOn t w n) s = .next (s.to ((d.wr F.GV_PDCMD_RES 2).raise F.GV_STATUS_GVREJ)) ∧
    exec (.gvPdcmdOff t w n) s = .next (s.to ((d.wr F.GV_PDCMD_RES 2).raise F.GV_STATUS_GVREJ)) := by
  constructor
  · show execGvPdcmdOn t w n s = _
    exact State.runClk_to h (if_pos (by simp [hw]))
  · show execGvPdcmdOff t w n s = _
    exact State.runClk_to h (if_pos (by simp [hw]))

variable (hw : d.mayGovern w = true)
include hw

theorem exec_gvPdcmdOn (he : (d.wr F.GV_PDCMD_DOM n.val).pdOn n.val = e) :
    exec (.gvPdcmdOn t w n) s = .next (s.to e) := by
  show execGvPdcmdOn t w n s = _
  obtain ⟨hdom, hop, -, -⟩ := pdcmdWord_fields n
  refine State.runClk_to h ?_
  simp only [Dev.gvPdcmd, hw, hdom, hop, Bool.not_true, Bool.false_eq_true, if_false]
  exact he

theorem exec_gvPdcmdOff (he : (d.wr F.GV_PDCMD_DOM n.val).pdOff n.val = e) :
    exec (.gvPdcmdOff t w n) s = .next (s.to e) := by
  show execGvPdcmdOff t w n s = _
  obtain ⟨-, -, hdom, hop⟩ := pdcmdWord_fields n
  refine State.runClk_to h ?_
  simp only [Dev.gvPdcmd, hw, hdom, hop, Bool.not_true, Bool.false_eq_true, if_false]
  exact he

end

/-! ### Writes of GV_CHCMD (R341, R345 to R347) -/

/-- The role that a GV_CHCMD names, 0 where it names none. -/
def roleCode (r : Option (Fin 8)) : Nat := (r.map Fin.val).getD 0

/-- The fields of the word of a GV_CHCMD, as they are spelled. -/
def chcmdSpelled (k op : Nat) (r : Option (Fin 8)) : Bool :=
  getBits (chcmdWord k op r) 0 6 == k && getBits (chcmdWord k op r) 8 2 == op &&
  (chcmdWord k op r).getLsbD 16 == r.isSome && getBits (chcmdWord k op r) 16 1 == (if r.isSome then 1 else 0) &&
  getBits (chcmdWord k op r) 17 3 == roleCode r

theorem chcmdSpelled_all (k : Fin 64) (op : Fin 4) (r : Option (Fin 8)) : chcmdSpelled k.val op.val r = true := by
  revert k op r
  decide +kernel

/-- The fields of the word of a GV_CHCMD. -/
theorem chcmdWord_fields (k : ChanId) (op : Fin 4) (r : Option (Fin 8)) :
    getBits (chcmdWord k.val op.val r) 0 6 = k.val ∧ getBits (chcmdWord k.val op.val r) 8 2 = op.val ∧
    (chcmdWord k.val op.val r).getLsbD 16 = r.isSome ∧ getBits (chcmdWord k.val op.val r) 16 1 = (if r.isSome then 1 else 0) ∧
    getBits (chcmdWord k.val op.val r) 17 3 = roleCode r := by
  have h := chcmdSpelled_all k op r
  simpa only [chcmdSpelled, Bool.and_eq_true, beq_iff_eq, and_assoc] using h

/-- The role that the word names, as the command takes it. -/
theorem roleTaken (r : Option (Fin 8)) : (if r.isSome then some (roleCode r) else none) = r.map Fin.val := by
  cases r <;> rfl

/-- A writer that may not govern is refused (R347). -/
theorem Dev.gvChcmd_denied {d : Dev} {w : Writer} {v : Word32} (hw : d.mayGovern w = false) :
    d.gvChcmd w v = (d.wr F.GV_CHCMD_RES 2).raise F.GV_STATUS_GVREJ := if_pos (by simp [hw])

section
variable {d g : Dev} {w : Writer} {k : ChanId} {r : Option (Fin 8)} (hw : d.mayGovern w = true)
include hw

/-- ON and HOLD with a role of R10, or none. -/
theorem Dev.gvChcmd_on {op : Fin 4} {hold : Bool} (hop : op.val = if hold then 3 else 1)
    (hg : g = ((d.wr F.GV_CHCMD_CHAN k.val).wr F.GV_CHCMD_ROLESET (if r.isSome then 1 else 0)).wr F.GV_CHCMD_ROLE (roleCode r)) :
    d.gvChcmd w (chcmdWord k.val op.val r) =
      if 4 < roleCode r then g.wr F.GV_CHCMD_RES 3 else g.chOnCmd k.val (r.map Fin.val) hold := by
  obtain ⟨hchan, hopf, hset, hset1, hrole⟩ := chcmdWord_fields k op r
  have hop0 : op.val ≠ 0 := by rw [hop]; cases hold <;> decide
  unfold Dev.gvChcmd
  simp only [hw, Bool.not_true, Bool.false_eq_true, if_false, hchan, hopf, hset, hset1, hrole, hop0, ne_eq, not_false_eq_true,
    and_true, roleTaken, ← hg]
  by_cases hbad : 4 < roleCode r
  · simp only [hbad, if_true, Dev.chRes]
  · simp only [hbad, if_false]
    cases hold
    · simp only [show op.val = 1 from hop]
    · simp only [show op.val = 3 from hop]

/-- OFF. -/
theorem Dev.gvChcmd_off
    (hg : g = ((d.wr F.GV_CHCMD_CHAN k.val).wr F.GV_CHCMD_ROLESET 0).wr F.GV_CHCMD_ROLE 0) :
    d.gvChcmd w (chcmdWord k.val 2 none) = g.chOffCmd k.val := by
  obtain ⟨hchan, hopf, -, hset1, hrole⟩ := chcmdWord_fields k 2 none
  simp only [Option.isSome_none, Bool.false_eq_true, if_false, roleCode, Option.map_none, Option.getD_none] at hset1 hrole
  unfold Dev.gvChcmd
  simp only [hw, Bool.not_true, Bool.false_eq_true, if_false]
  rw [show ((2 : Fin 4).val) = 2 from rfl] at *
  simp only [hchan, hopf, hset1, hrole, Nat.not_lt_zero, false_and, if_false, ← hg]

end

/-- ON and HOLD with a role of R10, or none, by the channel's phase and the conditions of R341. -/
theorem Dev.chOnCmd_eq {g x y : Dev} {k : Nat} {r : Option (Fin 8)} {hold : Bool} (hrole : ¬ 4 < roleCode r)
    (hx : x = (g.wr F.GV_CHCMD_RES 0).setService k (r.map Fin.val))
    (hy : y = ((g.wr F.GV_CHCMD_RES 3).switchDeny (some k)).chsvc k lrDENIED) :
    g.chOnCmd k (r.map Fin.val) hold =
      if (g.group k).any g.inSequence then (g.wr F.GV_CHCMD_RES 1).setRes k lrBUSY
      else if g.gov.barred then y
      else if g.phase k = phHELD then (if hold then x else if g.envOk then x.startService k else y)
      else if g.bringOk k 0 then x.beginBring k 0 hold else y := by
  have hlow : ((r.map Fin.val).map (fun r => decide (4 < r))).getD false = false := by
    cases r with
    | none => rfl
    | some c => exact decide_eq_false hrole
  subst hx hy
  unfold Dev.chOnCmd Dev.chRes
  rw [hlow, if_neg Bool.false_ne_true]

/-! ### Domains that switch on (R328, R343, R344) -/

/-- The domain at the head of the queue no longer has what it requires: it is refused. -/
theorem Dev.domainDone_refused {d : Dev} {n : Nat} {l : List Nat} (hq : d.gov.queue = n :: l) (hreq : d.requiresOk n = false) :
    d.domainDone = d.startNext 256 := by
  unfold Dev.domainDone
  simp only [hq, hreq, Bool.not_false, if_true]

/-- The domain at the head of the queue is on: a channel goes on to RESTORE or ends an aborted bring-up. -/
theorem Dev.domainDone_on {d g h : Dev} {n : Nat} {l : List Nat} (hq : d.gov.queue = n :: l) (hreq : d.requiresOk n = true)
    (hg : g = ({ d with gov := { d.gov with queue := l } } : Dev).domainOn n)
    (hh : h = (if 64 ≤ n then g else if (g.bring n).abort then g.abortBring n else g.setPhase n phRESTORE)) :
    d.domainDone = (if h.rstate = 2 ∧ (n = 68 ∨ n = 69) then h.unsquelch (n - 68) else h).startNext 256 := by
  unfold Dev.domainDone
  simp only [hq, hreq, Bool.not_true, Bool.false_eq_true, if_false, ← hg, ← hh]

/-! ### Phases of a bring-up and of a take-out (R343 to R345, R416) -/

section
variable {s : State} {t : Nat} {d g : Dev} {k : ChanId} (hr : s.ready t d)
include hr

/-- RESTORE_DONE: the replay, then calibration, or the end of an aborted bring-up. -/
theorem exec_restoreDone (hphase : d.phase k.val = phRESTORE) (hbad : (d.record k.val).bad = false)
    (hg : g = (d.replay k.val).modBring k.val (fun b => { b with restored := true })) :
    exec (.restoreDone t k) s = .next (s.to
      ((if (g.bring k.val).abort then g.abortBring k.val else g.setPhase k.val phCAL).serviceNext 256)) := by
  show execRestoreDone t k s = _
  refine State.runClkSvc_to hr ((if_neg (not_not.2 hphase)).trans ((if_neg (by simp [hbad])).trans ?_))
  rw [hg]

variable (hphase : d.phase k.val = phCAL)
include hphase

/-- CALIBRATION_DONE by what the bring-up and the calibration say. -/
theorem exec_calibrationDone {ok : Bool} {e : Dev}
    (he : (if (d.bring k.val).abort then d.abortBring k.val
      else if !ok then (d.cause causeCALFAIL { chan := some k.val }).bringFail k.val lrCALFAIL
      else if (d.group k.val).any (fun m => (d.modBring k.val (fun b => { b with calibrated := true })).phase m != phCAL ||
          !((d.modBring k.val (fun b => { b with calibrated := true })).bring m).calibrated) then
        d.modBring k.val (fun b => { b with calibrated := true })
      else if ((d.modBring k.val (fun b => { b with calibrated := true })).bring k.val).hold then
        (d.modBring k.val (fun b => { b with calibrated := true })).enterHeld (d.group k.val)
      else (d.modBring k.val (fun b => { b with calibrated := true })).startService k.val) = e) :
    exec (.calibrationDone t k ok) s = .next (s.to (e.serviceNext 256)) := by
  show execCalibrationDone t k ok s = _
  exact State.runClkSvc_to hr ((if_neg (not_not.2 hphase)).trans he)

end

/-- Settles O44: the fields of each command word, and then the branch that the conditions of the clause choose. -/
theorem powerCommandsComplete : Obligations.PowerCommandsComplete := by
  unfold Obligations.PowerCommandsComplete
  refine ⟨?_, ?_, ?_, ?_, ?_⟩
  · intro s t d g w n hr
    refine ⟨exec_gvPdcmd_denied hr, fun hw hg => ?_⟩
    subst hg
    constructor
    · intro hn
      constructor
      · refine exec_gvPdcmdOn hr hw ((if_pos hn).trans ?_)
        simp only [Bool.not_eq_true']
      · refine exec_gvPdcmdOff hr hw ((if_pos hn).trans ?_)
        simp only [Bool.not_eq_true']
    · intro hlo hne hhi
      have hn : ¬ (n.val < 64 ∨ n.val = 76 ∨ 79 ≤ n.val) := by omega
      exact ⟨exec_gvPdcmdOn hr hw (if_neg hn), exec_gvPdcmdOff hr hw (if_neg hn)⟩
  · intro s t d w k hold r hr
    refine ⟨fun hw => ⟨?_, ?_, ?_⟩, ?_, ?_⟩
    · show execGvChcmdOn t w k r s = _
      exact State.runClkSvc_to hr (Dev.gvChcmd_denied hw)
    · show execGvChcmdHold t w k r s = _
      exact State.runClkSvc_to hr (Dev.gvChcmd_denied hw)
    · show execGvChcmdOff t w k s = _
      exact State.runClkSvc_to hr (Dev.gvChcmd_denied hw)
    · intro g x y b c hw hb hc hg hx hy
      have heffect {op : Fin 4} (hop : op.val = if hold then 3 else 1) :=
        Dev.gvChcmd_on (g := g) (k := k) (r := r) hw hop (by rw [hg, hb, hc]; rfl)
      have hcases : (if 4 < roleCode r then g.wr F.GV_CHCMD_RES 3 else g.chOnCmd k.val (r.map Fin.val) hold) =
          (if 4 < c then g.wr F.GV_CHCMD_RES 3
          else if (g.group k.val).any g.inSequence then (g.wr F.GV_CHCMD_RES 1).setRes k.val lrBUSY
          else if g.gov.barred then y
          else if g.phase k.val = phHELD then (if hold then x else if g.envOk then x.startService k.val else y)
          else if g.bringOk k.val 0 then x.beginBring k.val 0 hold else y) := by
        by_cases hrole : 4 < roleCode r
        · rw [if_pos hrole, if_pos (hc ▸ hrole)]
        · rw [if_neg hrole, if_neg (hc ▸ hrole), Dev.chOnCmd_eq hrole hx hy]
      rw [← hcases]
      cases hold
      · show execGvChcmdOn t w k r s = _
        exact State.runClkSvc_to hr (heffect (op := 1) rfl)
      · show execGvChcmdHold t w k r s = _
        exact State.runClkSvc_to hr (heffect (op := 3) rfl)
    · intro g p hw hg hp
      show execGvChcmdOff t w k s = _
      refine State.runClkSvc_to hr ((Dev.gvChcmd_off hw hg).trans ?_)
      subst hp
      rfl
  · intro s t d g k hr
    refine ⟨fun hphase hbad => ?_, fun hphase hbad hg => ?_, fun hphase habort ok => ?_, fun hphase habort => ?_,
      fun hphase habort hg => ?_, fun hphase hdrained => ?_, fun l hphase hl hg => ?_⟩
    · show execRestoreDone t k s = _
      exact State.runClkSvc_to hr ((if_neg (not_not.2 hphase)).trans (if_pos hbad))
    · exact exec_restoreDone hr hphase hbad hg
    · exact exec_calibrationDone hr hphase (if_pos habort)
    · exact exec_calibrationDone hr hphase ((if_neg (by simp [habort])).trans (if_pos rfl))
    · refine exec_calibrationDone hr hphase ((if_neg (by simp [habort])).trans ((if_neg (by simp)).trans ?_))
      rw [hg]
    · show execDrainComplete t k s = _
      exact State.runClkSvc_to hr (if_pos ⟨hphase, hdrained⟩)
    · show execCaptureDone t k s = _
      refine State.runClkSvc_to hr ((if_neg (not_not.2 hphase)).trans ?_)
      rw [hg, hl]
  · intro s t d k hr hphase hlate
    show execDrainTimeout t k s = _
    exact State.runClkSvc_to hr (if_pos ⟨hphase, hlate⟩)
  · intro s t n l d g h ha hq
    constructor
    · intro hreq
      show execDomainSwitchOnDone t s = _
      exact State.runSvc_to ha (congrArg Dev.domainAwaited (Dev.domainDone_refused hq hreq))
    · intro hreq hg hh
      show execDomainSwitchOnDone t s = _
      exact State.runSvc_to ha (congrArg Dev.domainAwaited (Dev.domainDone_on hq hreq hg hh))

end Sys2Proof.Machine
end

section
/-! PROOFS. Record commands (R279, R285 to R291, R307, R324). -/

namespace Sys2Proof.Machine

open Sys2Proof

/-! ### What a record command does at its own row (R285) -/

/-- The checks of R285 on a record that a source names, before an effect with its result. -/
def Dev.recordChecked (e : Dev) (src sa : Nat) (x : Nat × Dev) : Nat × Dev :=
  if (e.sa_ sa).kind = 0 then (2, e) else if src ≠ 16 ∧ (e.sa_ sa).tenant ≠ src then (1, e.hedge) else x

section
variable (e : Dev) (src sa kind : Nat) (ph : Bool)

theorem Dev.recordEffect_keywr :
    e.recordEffect src 1 sa ph kind = e.recordChecked src sa (e.keyWrite src sa ph) := by
  simp [Dev.recordEffect, Dev.recordChecked, saNOREC, saPERM]

theorem Dev.recordEffect_keyerase :
    e.recordEffect src 2 sa ph kind = e.recordChecked src sa (e.keyErase sa ph) := by
  simp [Dev.recordEffect, Dev.recordChecked, saNOREC, saPERM]

theorem Dev.recordEffect_roll :
    e.recordEffect src 3 sa ph kind = e.recordChecked src sa (e.rollRecord sa) := by
  simp [Dev.recordEffect, Dev.recordChecked, saNOREC, saPERM]

theorem Dev.recordEffect_query :
    e.recordEffect src 4 sa ph kind = e.recordChecked src sa (0, e.queryRecord src sa) := by
  simp [Dev.recordEffect, Dev.recordChecked, saNOREC, saPERM, saOK]

/-- CREATE is the administration's alone; kind 0 is none, and a record in use stays. -/
theorem Dev.recordEffect_create : e.recordEffect src 5 sa ph kind =
    if src ≠ 16 then (1, e.hedge) else if kind = 0 then (7, e) else if (e.sa_ sa).kind ≠ 0 then (6, e)
      else (0, e.setSa sa { kind := kind, tenant := e.rd (F.SA_ARG_TENANT 16), salt := BitVec.ofNat 31 (e.rd (F.SA_SALT_SALT 16)) }) := by
  by_cases hsrc : src = 16
  · subst hsrc
    rfl
  · simp [Dev.recordEffect, hsrc, saPERM]

/-- DELETE is the administration's alone. -/
theorem Dev.recordEffect_delete : e.recordEffect src 6 sa ph kind =
    if src ≠ 16 then (1, e.hedge) else e.recordChecked src sa (0, e.removeRecord sa) := by
  by_cases hsrc : src = 16
  · subst hsrc
    simp [Dev.recordEffect, Dev.recordChecked, saNOREC, saOK]
  · simp [Dev.recordEffect, hsrc, saPERM]

/-- PAGEERASE is the administration's alone, and needs the entropy source. -/
theorem Dev.recordEffect_pageerase : e.recordEffect src 7 sa ph kind =
    if src ≠ 16 then (1, e.hedge) else if e.trusted = false then (4, e) else (0, e.pageErase (e.rd (F.SA_ARG_TENANT 16))) := by
  by_cases hsrc : src = 16
  · subst hsrc
    simp [Dev.recordEffect, saBUSY, saOK]
  · simp [Dev.recordEffect, hsrc, saPERM]

end

/-! ### Issue and end of a command (R285, R286, R324) -/

/-- With PD_CIPG off or in the recovery state a record command has no effect. -/
theorem Dev.recordCommand_none {d : Dev} {src op sa kind : Nat} {ph : Bool} (h : d.domOn 70 = false ∨ d.rstate = 2) :
    d.recordCommand src op sa ph kind = d := if_pos (by simpa using h)

section
variable {d e : Dev} {src op sa kind : Nat} {ph : Bool} (hon : d.domOn 70 = true) (hrec : d.rstate ≠ 2)
include hon hrec

/-- While the source's previous command runs the answer is BUSY. -/
theorem Dev.recordCommand_busy (hbusy : d.on (F.SA_CMD_BUSYST src) = true) :
    d.recordCommand src op sa ph kind = d.wr (F.SA_CMD_RES src) 4 :=
  (if_neg (by simp [hon, hrec])).trans (if_pos hbusy)

/-- Else the command is named in SA_CMD, has its effect, and leaves its result to SA_COMMAND_DONE. -/
theorem Dev.recordCommand_issued (hidle : d.on (F.SA_CMD_BUSYST src) = false) (hop : 1 ≤ op ∧ op ≤ 7)
    (he : e = ((d.wr (F.SA_CMD_PH src) (if ph then 1 else 0)).wr (F.SA_CMD_SAIDX src) sa).wr (F.SA_CMD_KIND src) kind)
    {x : Nat × Dev} (hx : e.recordEffect src op sa ph kind = x) {old : Option (BitVec 320)}
    (hold : old = if op = 1 ∧ e.resident (sa, ph) then some (e.startKey (sa, ph)) else none) :
    d.recordCommand src op sa ph kind = { x.2.wr (F.SA_CMD_BUSYST src) 1 with
      sa := Tab.put x.2.sa src { op := op, saidx := sa, phase := ph, res := x.1, old := old } } := by
  subst hx hold he
  unfold Dev.recordCommand
  rw [if_neg (by simp [hon, hrec]), if_neg (by simp [hidle]), if_neg (by omega)]
  rfl

end

/-- The command that a source runs ends. -/
theorem Dev.recordDone_running {d g h : Dev} {src : Nat} {e : Nat × SaCmd} (hfind : d.sa.find? (fun e => e.1 == src) = some e)
    (hg : g = (match e.2.old with | some w => d.noteRewrite (e.2.saidx, e.2.phase) w | none => d))
    (hh : h = ((g.wr (F.SA_CMD_RES src) e.2.res).wr (F.SA_CMD_BUSYST src) 0).zeroStaging src) :
    d.recordDone src = { h with sa := Tab.del g.sa src } := by
  unfold Dev.recordDone
  simp only [hfind]
  cases hold : e.2.old <;> simp only [hold] at hg <;> rw [hh, hg] <;> rfl

section
variable {s : State} {t : Nat} {d e : Dev} {src : Fin 17} {i : NodeAddr} {ph : Bool} {kind : Fin 4}

/-- What the record commands have in common: where each runs `recordCommand` to one device, that is the next state. -/
theorem exec_recordCommands (h : s.ready t d)
    (he : ∀ (op sa k : Nat) (p : Bool), d.recordCommand src.val op sa p k = e) :
    ∀ c ∈ [Instr.keywr t src i ph, .keyerase t src i ph, .roll t src i, .query t src i, .create t src i kind, .delete t src i,
      .pageerase t src], exec c s = .next (s.to e) := by
  intro c hc
  simp only [List.mem_cons, List.not_mem_nil, or_false] at hc
  rcases hc with rfl | rfl | rfl | rfl | rfl | rfl | rfl
  · show execKeywr t src i ph s = _
    exact State.runClk_to h (he _ _ _ _)
  · show execKeyerase t src i ph s = _
    exact State.runClk_to h (he _ _ _ _)
  · show execRoll t src i s = _
    exact State.runClk_to h (he _ _ _ _)
  · show execQuery t src i s = _
    exact State.runClk_to h (he _ _ _ _)
  · show execCreate t src i kind s = _
    exact State.runClk_to h (he _ _ _ _)
  · show execDelete t src i s = _
    exact State.runClk_to h (he _ _ _ _)
  · show execPageerase t src s = _
    exact State.runClk_to h (he _ _ _ _)

end

/-- Settles O45: the answer of a command that is not issued, the effect of each that is, and the end of one. -/
theorem recordCommandsComplete : Obligations.RecordCommandsComplete := by
  unfold Obligations.RecordCommandsComplete
  refine ⟨?_, ?_, ?_⟩
  · intro s t d src i ph kind hr
    exact ⟨fun hnone => exec_recordCommands hr (fun _ _ _ _ => Dev.recordCommand_none hnone),
      fun hon hrec hbusy => exec_recordCommands hr (fun _ _ _ _ => Dev.recordCommand_busy hon hrec hbusy)⟩
  · intro s t d src i k0 p0 g chk put hr hon hrec hidle hk0 hp0 hg hchk hput
    subst hk0 hp0 hg hchk hput
    refine ⟨?_, ?_, ?_, ?_⟩
    · intro ph e old he hold
      constructor
      · show execKeywr t src i ph s = _
        exact State.runClk_to hr (Dev.recordCommand_issued hon hrec hidle (by decide) he
          (Dev.recordEffect_keywr e src.val i.toNat _ ph) (by simpa using hold))
      · show execKeyerase t src i ph s = _
        exact State.runClk_to hr (Dev.recordCommand_issued hon hrec hidle (by decide) he
          (Dev.recordEffect_keyerase e src.val i.toNat _ ph) rfl)
    · intro e he
      refine ⟨?_, ?_, ?_⟩
      · show execRoll t src i s = _
        exact State.runClk_to hr (Dev.recordCommand_issued hon hrec hidle (by decide) he
          (Dev.recordEffect_roll e src.val i.toNat _ _) rfl)
      · show execQuery t src i s = _
        exact State.runClk_to hr (Dev.recordCommand_issued hon hrec hidle (by decide) he
          (Dev.recordEffect_query e src.val i.toNat _ _) rfl)
      · show execDelete t src i s = _
        exact State.runClk_to hr (Dev.recordCommand_issued hon hrec hidle (by decide) he
          (Dev.recordEffect_delete e src.val i.toNat _ _) rfl)
    · intro kind e he
      show execCreate t src i kind s = _
      exact State.runClk_to hr (Dev.recordCommand_issued hon hrec hidle (by decide) he
        (Dev.recordEffect_create e src.val i.toNat _ _) rfl)
    · intro e he
      show execPageerase t src s = _
      exact State.runClk_to hr (Dev.recordCommand_issued hon hrec hidle (by decide) he
        (Dev.recordEffect_pageerase e src.val _ _ _) rfl)
  · intro s t d g h src e hr hfind hg hh
    show execSaCommandDone t src s = _
    exact State.runClk_to hr (Dev.recordDone_running hfind hg hh)

end Sys2Proof.Machine
end

section
/-! PROOFS. ADMIN_LOCK and tenant jobs (R301, R303 to R305, R363). -/

namespace Sys2Proof.Machine

open Sys2Proof

/-! ### ADMIN_LOCK (R301, R363) -/

/-- A lease that has run out frees the lock and zeroes the administration staging. -/
theorem Dev.lapseLock_expired {d : Dev} {x : Nat} (hlease : d.leaseEnd = some x) (hpast : x ≤ d.now) :
    d.lapseLock = ({ d.wr F.ADMIN_LOCK_HOLDER 0 with leaseEnd := none } : Dev).zeroStaging 16 := by
  unfold Dev.lapseLock
  simp only [hlease, hpast, if_true]
  rfl

/-- A lease that runs leaves the lock. -/
theorem Dev.lapseLock_running {d : Dev} {x : Nat} (hlease : d.leaseEnd = some x) (hrun : d.now < x) : d.lapseLock = d := by
  unfold Dev.lapseLock
  simp only [hlease, Nat.not_le.mpr hrun, if_false]

section
variable {d g : Dev} {n : Nat} (hn : n ≠ 0) (hg : g = d.lapseLock)
include hn hg

theorem Dev.writeLock_acq : d.writeLock n 0x100 = g.acquire n := by
  subst hg
  exact (if_neg hn).trans ((if_neg (by decide)).trans (if_pos (by decide)))

theorem Dev.writeLock_rel : d.writeLock n 0x200 = g.releaseLock n := by
  subst hg
  exact (if_neg hn).trans (if_pos (by decide))

end

section
variable {s : State} {t : Nat} {d e : Dev} {n : Fin 256} (h : s.ready t d)
include h

theorem exec_acq (he : (if d.adminSession n.val then d.writeLock n.val 0x100 else d) = e) :
    exec (.acq t n) s = .next (s.to e) := by
  show execAcq t n s = _
  exact State.runClk_to h he

theorem exec_rel (he : (if d.adminSession n.val then d.writeLock n.val 0x200 else d) = e) :
    exec (.rel t n) s = .next (s.to e) := by
  show execRel t n s = _
  exact State.runClk_to h he

end

/-! ### Tenant jobs (R303 to R305) -/

/-- A write of PG_JCFG that sets JEN is refused where R303 refuses it, and is else taken. -/
theorem Dev.writeJcfg_jen (d : Dev) (p : Nat) (w : Word32) : (d.writeJcfg p (w ||| 0x2000#32)).2 =
    if d.jenOk p (w ||| 0x2000#32) then d.setWord (A.PG_JCFG p) ((w ||| 0x2000#32) &&& 0x1FFF3FFF#32)
    else d.raise F.CV_STATUS_QREJ := by
  unfold Dev.writeJcfg
  cases hok : d.jenOk p (w ||| 0x2000#32) <;> simp

/-- With no job running a job completion changes nothing. -/
theorem Dev.completeJob_idle {d : Dev} {p : Nat} (h : (d.page p).jobs.find? Job.started = none) : d.completeJob p = d := by
  unfold Dev.completeJob
  simp only [h]

/-- An erased job ends ERASED. -/
theorem Dev.completeJob_erased {d : Dev} {p : Nat} {j : Job} (h : (d.page p).jobs.find? Job.started = some j)
    (herased : j.erased = true) : d.completeJob p = (d.finishJob p j jsERASED 0).startJobs p := by
  unfold Dev.completeJob
  simp only [h, herased, if_true]

/-- A job with its output, or TAGFAIL where its tag does not open. -/
theorem Dev.completeJob_result {d e : Dev} {p st : Nat} {j : Job} (h : (d.page p).jobs.find? Job.started = some j)
    (herased : j.erased = false)
    (hst : (st, e) = (match d.jobResult j with
      | none => (jsTAGFAIL, (d.event 8 0 1 (ceilDiv j.dlen 16)).tagFail j.saidx none 1)
      | some out => (d.event 8 0 1 (ceilDiv j.dlen 16)).jobOutput p (fitTo j.outLen out))) :
    d.completeJob p = (e.finishJob p j st (if st = jsOK then j.outLen else 0)).startJobs p := by
  unfold Dev.completeJob
  simp only [h, herased, Bool.false_eq_true, if_false]
  cases hres : d.jobResult j with
  | none =>
    rw [hres] at hst
    obtain ⟨rfl, rfl⟩ := Prod.mk.inj hst
    rfl
  | some out =>
    rw [hres] at hst
    simp only at hst
    simp only [← hst]

/-- Settles O46: the lease, and then the branch of each command that its conditions choose. -/
theorem lockAndJobCommandsComplete : Obligations.LockAndJobCommandsComplete := by
  unfold Obligations.LockAndJobCommandsComplete
  refine ⟨?_, ?_, ?_, ?_⟩
  · intro s t d g n hr
    constructor
    · intro hnone
      exact ⟨exec_acq hr (if_neg (by simp [hnone])), exec_rel hr (if_neg (by simp [hnone]))⟩
    · intro hadmin hn hg
      have hn : n.val ≠ 0 := fun h => hn (Fin.ext h)
      have hacq {e : Dev} (he : g.acquire n.val = e) := exec_acq hr ((if_pos hadmin).trans ((Dev.writeLock_acq hn hg).trans he))
      have hrel {e : Dev} (he : g.releaseLock n.val = e) := exec_rel hr ((if_pos hadmin).trans ((Dev.writeLock_rel hn hg).trans he))
      exact ⟨fun hfree => hacq (if_pos hfree), fun hheld hother => hacq (if_neg (fun h => h.elim hheld hother)),
        fun hmine => hrel (if_pos hmine), fun hother => hrel (if_neg hother)⟩
  · intro s t x d hr hlease
    constructor
    · intro hpast
      show execLeaseExpiry t s = _
      exact State.run_to hr (Dev.lapseLock_expired hlease hpast)
    · intro hrun
      show execLeaseExpiry t s = _
      exact State.run_to hr (Dev.lapseLock_running hlease hrun)
  · intro s t d p v hr hon hv
    subst hv
    have hjen {e : Dev} (he : (if d.jenOk p.val (d.word (A.PG_JCFG p.val) ||| 0x2000#32) then
        d.setWord (A.PG_JCFG p.val) ((d.word (A.PG_JCFG p.val) ||| 0x2000#32) &&& 0x1FFF3FFF#32)
        else d.raise F.CV_STATUS_QREJ) = e) : exec (.jen t p) s = .next (s.to e) := by
      show execJen t p s = _
      exact State.runClk_on hr hon ((Dev.writeJcfg_jen d p.val _).trans he)
    have hjgo {e : Dev} (he : d.jobGo p.val = e) : exec (.jgo t p) s = .next (s.to e) := by
      show execJgo t p s = _
      exact State.runClk_on hr hon he
    refine ⟨fun hok => hjen (if_pos hok), fun hbad => hjen (if_neg (by simp [hbad])),
      fun hoff => hjgo (if_pos (by simpa using hoff)), fun hen hroom => hjgo (if_neg ?_), ?_⟩
    · simp [hen, Nat.not_le.mpr hroom]
    · show execPgJdone3Read t p s = _
      exact State.runClk_on hr hon rfl
  · intro s t d p hr
    have hdone {e : Dev} (he : d.completeJob p.val = e) : exec (.jobComplete t p) s = .next (s.to e) := by
      show execJobComplete t p s = _
      exact State.runClk_to hr he
    exact ⟨fun hidle => hdone (Dev.completeJob_idle hidle), fun j hj => ⟨fun her => hdone (Dev.completeJob_erased hj her),
      fun st e her hst => hdone (Dev.completeJob_result hj her hst)⟩⟩

end Sys2Proof.Machine
end

section
/-! PROOFS. Lifecycle and OTP commands (R309 to R311, R313, R314). -/

namespace Sys2Proof.Machine

open Sys2Proof

/-! ### Issue of a command (R310) -/

/-- The check of a command in the present state. -/
theorem Dev.rtCheck_eq {d : Dev} {op : Nat} (hop : 1 ≤ op ∧ op ≤ 4) :
    d.rtCheck op = (if d.word A.RT_CONFIRM ≠ BitVec.ofNat 32 (0x4C430000 + op) then 3
      else if d.lc ≠ 1 ∧ (d.lc ≠ 2 ∨ op ≤ 2) then 2
      else if op = 1 ∧ d.on F.RT_STATUS_OWNKEY = true then 2
      else if op = 2 ∧ d.on F.RT_STATUS_OWNIMG = false then 6 else 0) := by
  unfold Dev.rtCheck
  rw [if_neg (by omega)]
  simp only [Bool.not_eq_true', rtCONFIRM, rtSTATE, rtNOIMG]

section
variable {d : Dev} {w : Writer} {op : Nat}

/-- A writer that may not govern is refused. -/
theorem Dev.rtCmd_denied (hw : d.mayGovern w = false) : d.rtCmd w op = (d.wr F.RT_CMD_RES 1).setWord A.RT_CONFIRM 0 :=
  if_pos (by simp [hw])

variable (hw : d.mayGovern w = true)
include hw

/-- While a command runs the answer is BUSY. -/
theorem Dev.rtCmd_busy (hcmd : d.root.cmd.isSome = true) : d.rtCmd w op = (d.wr F.RT_CMD_RES 4).setWord A.RT_CONFIRM 0 :=
  (if_neg (by simp [hw])).trans (if_pos hcmd)

variable (hcmd : d.root.cmd = none)
include hcmd

/-- A command that the check refuses. -/
theorem Dev.rtCmd_refused (hr : d.rtCheck op ≠ 0) : d.rtCmd w op = (d.wr F.RT_CMD_RES (d.rtCheck op)).setWord A.RT_CONFIRM 0 :=
  (if_neg (by simp [hw])).trans ((if_neg (by simp [hcmd])).trans (if_pos hr))

/-- A command that the check admits runs, DECOMMISSION behind its alarm. -/
theorem Dev.rtCmd_runs (hr : d.rtCheck op = 0) {e : Dev} (he : e = (if op = 4 then d.eraseAlarm almDECOM else d)) :
    d.rtCmd w op = { e.wr F.RT_CMD_BUSY 1 with root := { e.root with cmd := some (op, 0) } } := by
  subst he
  exact (if_neg (by simp [hw])).trans ((if_neg (by simp [hcmd])).trans (if_neg (not_not.2 hr)))

end

/-- The four commands run `rtCmd` with their number. -/
theorem exec_rtCmd {s : State} {t : Nat} {d e : Dev} {w : Writer} {op : Nat} {c : Instr} (h : s.ready t d)
    (hc : (op, c) ∈ [(1, Instr.ownkeySet t w), (2, .lock t w), (3, .svnCommit t w), (4, .decommission t w)])
    (he : d.rtCmd w op = e) : exec c s = .next (s.to e) := by
  simp only [List.mem_cons, List.not_mem_nil, or_false, Prod.mk.injEq] at hc
  rcases hc with ⟨rfl, rfl⟩ | ⟨rfl, rfl⟩ | ⟨rfl, rfl⟩ | ⟨rfl, rfl⟩
  · show execOwnkeySet t w s = _
    exact State.runClk_to h he
  · show execLock t w s = _
    exact State.runClk_to h he
  · show execSvnCommit t w s = _
    exact State.runClk_to h he
  · show execDecommission t w s = _
    exact State.runClk_to h he

/-! ### End of a command (R310, R313) -/

/-- What a command that nothing cut programs. -/
theorem Dev.rtEffect_eq {d e : Dev} {op n : Nat} {o : Otp} (ho : o = d.root.otp) (hn : n = d.rd F.RT_STATUS_IMGSVN)
    (h : (op = 1 ∧ e = ({ d with root := { d.root with otp := { o with vkhO := d.rtHash } } } : Dev).wr F.RT_STATUS_OWNKEY
        (if d.rtHash = 0 then 0 else 1)) ∨
      (op = 2 ∧ e = ({ d with root := { d.root with otp := o.programGroup 2 } } : Dev).wr F.RT_STATUS_LCPEND 1) ∨
      (op = 3 ∧ e = ({ d with root := { d.root with otp := { o with svnBits := raiseBits n 128 o.svnBits } } } : Dev).wr
        F.RT_STATUS_SVNCTR { o with svnBits := raiseBits n 128 o.svnBits }.svn) ∨
      (op = 4 ∧ e = ({ d with root := { d.root with
        otp := { o with dus := BitVec.allOnes 256 }.programGroup 3 } } : Dev).wr F.RT_STATUS_LCPEND 1)) :
    d.rtEffect op = e := by
  subst ho hn
  rcases h with ⟨rfl, rfl⟩ | ⟨rfl, rfl⟩ | ⟨rfl, rfl⟩ | ⟨rfl, rfl⟩ <;> rfl

/-- A command ends with its result; one that nothing cut has its effect first. -/
theorem exec_otpCommandDone {s : State} {t op res : Nat} {d e : Dev} (h : s.awake t d) (hcmd : d.root.cmd = some (op, res))
    (he : (if res = 0 then d.rtEffect op else d) = e) : exec (.otpCommandDone t) s = .next (s.to
      { ((e.wr F.RT_CMD_RES res).setWord A.RT_CONFIRM 0).wr F.RT_CMD_BUSY 0 with root := { e.root with cmd := none } }) := by
  show execOtpCommandDone t s = _
  refine State.run_to h ?_
  unfold Dev.otpDone
  simp only [hcmd, he]
  rfl

/-- Settles O47: the checks of a command in their order, its end, and the identity. -/
theorem lifecycleCommandsComplete : Obligations.LifecycleCommandsComplete := by
  unfold Obligations.LifecycleCommandsComplete
  refine ⟨?_, ?_, ?_⟩
  · intro s t d w op r c hr hc hres
    have hop : 1 ≤ op ∧ op ≤ 4 := by
      simp only [List.mem_cons, List.not_mem_nil, or_false, Prod.mk.injEq] at hc
      omega
    have hcheck : d.rtCheck op = r := (Dev.rtCheck_eq hop).trans hres.symm
    refine ⟨fun hw => exec_rtCmd hr hc (Dev.rtCmd_denied hw), fun hw hcmd => exec_rtCmd hr hc (Dev.rtCmd_busy hw hcmd),
      fun hw hcmd => ⟨fun hne => ?_, fun e hzero he => ?_⟩⟩
    · subst hcheck
      exact exec_rtCmd hr hc (Dev.rtCmd_refused hw hcmd hne)
    · exact exec_rtCmd hr hc (Dev.rtCmd_runs hw hcmd (hcheck.trans hzero) he)
  · intro s t op res n d e o hr hcmd ho hn hcases
    refine exec_otpCommandDone hr hcmd ?_
    rcases hcases with ⟨hres, rfl⟩ | ⟨hres, h⟩ | ⟨hres, h⟩ | ⟨hres, h⟩ | ⟨hres, h⟩
    · exact if_neg hres
    · exact (if_pos hres).trans (Dev.rtEffect_eq ho hn (Or.inl h))
    · exact (if_pos hres).trans (Dev.rtEffect_eq ho hn (Or.inr (Or.inl h)))
    · exact (if_pos hres).trans (Dev.rtEffect_eq ho hn (Or.inr (Or.inr (Or.inl h))))
    · exact (if_pos hres).trans (Dev.rtEffect_eq ho hn (Or.inr (Or.inr (Or.inr h))))
  · intro s t d g hr hlc hid hg
    have hhas : d.hasIdentity = true := by
      rcases hlc with hlc | hlc <;> simp [Dev.hasIdentity, hlc]
    show execIdentityReady t s = _
    refine State.run_to hr ((if_pos ⟨hhas, by simp [hid]⟩).trans ?_)
    rw [hg]

end Sys2Proof.Machine
end

section
/-! PROOFS. Entropy and alarms (R14, R317 to R323, R326, R453). -/

namespace Sys2Proof.Machine

open Sys2Proof

/-! ### Entropy (R317 to R319, R453) -/

section
variable {d g : Dev} {bits : List Bool} {r : RawTests × Nat × Nat} (hstate : d.estate = 2) (hr : r = ({} : RawTests).bits bits)
  (hg : g = d.countTests bits r)
include hstate hr hg

/-- A rerun by the failures it counts and the bits that passed in a row. -/
theorem Dev.retest_eq : d.retest bits = if 0 < r.2.1 + r.2.2 then { g with root := { g.root with passes := 0 } }
    else if r.1.good < 4096 then g
    else if g.root.passes + 1 < 3 then { g with root := { g.root with passes := g.root.passes + 1 } }
    else g.entropyTrusted := by
  subst hr hg
  unfold Dev.retest
  simp only [hstate, ne_eq, not_true_eq_false, if_false]

end

/-- A rerun of the start-up test in FAILED. -/
theorem exec_entropyRetest {s : State} {t : Nat} {d e : Dev} {bits : List Bool} (h : s.awake t d) (he : d.retest bits = e) :
    exec (.entropyRetest t bits) s = .next (s.to e.entropyAwaited) := by
  show execEntropyRetest t bits s = _
  exact State.run_to h (by rw [he])

/-- The DRBG is reseeded when its generates or its time are up. -/
theorem Dev.seedDrbg_reseed {d : Dev} {x : Drbg} (h : d.root.drbg = some x) : d.seedDrbg = { d with root := { d.root with
    drbg := some (x.reseed (conditioned d.root.raw)), raw := [], generates := 0, seeded := d.now } } := by
  unfold Dev.seedDrbg
  simp only [h]

/-- Settles O48: each clause names the branch of its command that its conditions choose. -/
theorem entropyCommandsComplete : Obligations.EntropyCommandsComplete := by
  unfold Obligations.EntropyCommandsComplete
  intro s t d g bits r ha
  refine ⟨?_, ?_, ?_, ?_, ?_, ?_⟩
  · intro hstate hr hg
    subst hr hg
    constructor
    · intro hfew
      show execEntropyStartupPass t bits s = _
      exact State.run_to ha ((if_neg (not_not.2 hstate)).trans (if_pos hfew))
    · intro hmany
      show execEntropyStartupPass t bits s = _
      exact State.run_to ha ((if_neg (not_not.2 hstate)).trans (if_neg (Nat.not_lt.mpr hmany)))
  · intro hstate
    show execEntropyStartupPass t bits s = _
    exact State.run_to ha (if_pos hstate)
  · intro hr hg
    subst hr hg
    constructor
    · intro hstate hfail
      show execEntropyFailure t bits s = _
      exact State.run_to ha (if_pos ⟨hstate, hfail⟩)
    · intro hcount
      show execEntropyFailure t bits s = _
      exact State.run_to ha (if_neg (fun ⟨hstate, hfail⟩ => hcount.elim (fun h => h hstate) (fun h => by omega)))
  · intro hstate hr hg
    have heffect {e : Dev} (he) := exec_entropyRetest (e := e) ha ((Dev.retest_eq hstate hr hg).trans he)
    exact ⟨fun hfail => heffect (if_pos hfail),
      fun hnone hfew => heffect ((if_neg (by omega)).trans (if_pos hfew)),
      fun hnone hmany hpass => heffect ((if_neg (by omega)).trans ((if_neg (Nat.not_lt.mpr hmany)).trans (if_pos (by omega)))),
      fun hnone hmany hpass => heffect ((if_neg (by omega)).trans ((if_neg (Nat.not_lt.mpr hmany)).trans
        (if_neg (by omega))))⟩
  · intro hstate hroot hlate
    show execEntropyStartTimeout t s = _
    exact State.run_to ha (if_pos ⟨hstate, hlate, hroot⟩)
  · intro x hstate hx hdue
    show execDrbgReseed t s = _
    exact State.run_to ha ((if_pos ⟨by simp [hx], hstate, hdue⟩).trans (Dev.seedDrbg_reseed hx))

/-! ### Alarms (R320 to R323, R326) -/

/-- What a source does: nothing where its enable is 0, else what its class says. -/
theorem Dev.alarm_eq (e : Dev) (src : Nat) : e.alarm src = if e.almEnabled src = false then e
    else if e.almErases src = true then e.eraseAlarm src
    else ((e.wr ⟨A.ALM_SRC, 16 + src, 1⟩ 1).countAlarm).notice { cls := 3, code := src } := by
  cases h : e.almEnabled src <;> simp [Dev.alarm, h, Dev.reportAlarm]

/-- The alarms of the inputs that become active. -/
theorem Dev.newTamps_eq (was d : Dev) : was.newTamps d = (List.range 4).foldl
    (fun x i => if d.tampActive i = true ∧ was.tampActive i = false then x.alarm i else x) d := by
  simp only [Dev.newTamps, Bool.not_eq_true']

/-- The bits of ALM_CFG that a write of ALMLOCK leaves, bit by bit. -/
theorem almlock_bit : ∀ (i : Fin 32) (b l : Bool),
    ((((b || (0x80000000#32).getLsbD i.val) && (0x80F0FFFF#32).getLsbD i.val) &&
      !(if l then 0x00700700#32 else 0#32).getLsbD i.val) || (b && (if l then 0x00700700#32 else 0#32).getLsbD i.val)) =
    ((b || (0x80000000#32).getLsbD i.val) && (0x80F0FFFF#32).getLsbD i.val) := by
  decide

/-- The enable and class bits that LOCKED keeps are those that ALM_CFG has. -/
theorem almlock_word (w : Word32) (l : Bool) :
    ((w ||| 0x80000000#32) &&& 0x80F0FFFF#32 &&& ~~~(if l then 0x00700700#32 else 0#32)) |||
      (w &&& (if l then 0x00700700#32 else 0#32)) = (w ||| 0x80000000#32) &&& 0x80F0FFFF#32 := by
  refine BitVec.eq_of_getLsbD_eq (fun i hi => ?_)
  have h := almlock_bit ⟨i, hi⟩ (w.getLsbD i) l
  simpa only [BitVec.getLsbD_or, BitVec.getLsbD_and, BitVec.getLsbD_not, hi, decide_true, Bool.true_and] using h

/-- ALMLOCK on an unlocked ALM_CFG. -/
theorem Dev.writeAlmCfg_lock {d : Dev} (h : d.on F.ALM_CFG_ALMLOCK = false) :
    (d.writeAlmCfg (d.word A.ALM_CFG ||| 0x80000000#32)).2 =
      d.newTamps (d.setWord A.ALM_CFG ((d.word A.ALM_CFG ||| 0x80000000#32) &&& 0x80F0FFFF#32)) := by
  have hword := almlock_word (d.word A.ALM_CFG) (decide (d.lc = 2))
  simp only [decide_eq_true_eq] at hword
  unfold Dev.writeAlmCfg
  simp only [h, Bool.false_eq_true, if_false]
  exact congrArg (fun x => d.newTamps (d.setWord A.ALM_CFG x)) hword

/-- Where REFCLK_SYS goes absent mains time holds, an erasing clock alarm switches off first, and the alarm acts. -/
theorem Dev.refclkLost_eq {d g h x : Dev} (hclk : d.mains.refclk = true)
    (hg : g = { d with mains := { d.mains with refclk := false } })
    (hh : h = (if g.mst = mtLOCKED ∨ g.mst = mtSLEW then g.mainsHold else g))
    (hx : x = (if h.almEnabled almCLOCK = true ∧ h.almErases almCLOCK = true then
      [70, 71, 78].foldl (fun z n => if z.domOn n then z.domainOff n else z) h else h)) :
    d.refclkLost = x.alarm almCLOCK := by
  unfold Dev.refclkLost
  simp only [hclk, Bool.not_true, Bool.false_eq_true, if_false, ← hg, ← hh, Bool.and_eq_true, ← hx]

/-- Settles O49: the model's alarm and its rule for the tamper inputs are those of the statement; each clause is then the branch
of its command. -/
theorem alarmCommandsComplete : Obligations.AlarmCommandsComplete := by
  unfold Obligations.AlarmCommandsComplete
  intro s t d alm new ha halm hnew
  have halarm : alm = Dev.alarm := by
    rw [halm]
    funext e src
    exact (Dev.alarm_eq e src).symm
  have htamps : new = Dev.newTamps := by
    rw [hnew, halarm]
    funext e f
    exact (Dev.newTamps_eq e f).symm
  subst halarm htamps
  refine ⟨?_, ?_, ?_, ?_, ?_, ?_, ?_, ?_, ?_, ?_, ?_⟩
  · show execLid t s = _
    exact State.run_to ha rfl
  · intro harmed
    constructor
    · show execVolt t s = _
      exact State.run_to ha (if_pos harmed)
    · show execTemp t s = _
      exact State.run_to ha (if_pos harmed)
  · intro harmed
    constructor
    · show execVolt t s = _
      exact State.run_to ha (if_neg (by simp [harmed]))
    · show execTemp t s = _
      exact State.run_to ha (if_neg (by simp [harmed]))
  · show execClock t false s = _
    exact State.run_to ha (if_neg Bool.false_ne_true)
  · intro g h x hclk hg hh hx
    have hlost := Dev.refclkLost_eq hclk hg hh hx
    constructor
    · show execRefclkSysLoss t s = _
      exact State.run_to ha hlost
    · show execClock t true s = _
      exact State.run_to ha ((if_pos rfl).trans hlost)
  · intro hclk
    have hlost : d.refclkLost = d := if_pos (by simp [hclk])
    constructor
    · show execRefclkSysLoss t s = _
      exact State.run_to ha hlost
    · show execClock t true s = _
      exact State.run_to ha ((if_pos rfl).trans hlost)
  · intro hlc hkey
    show execJtag t s = _
    exact State.run_to ha (if_pos ⟨hlc, by simpa [Dev.holdsKey] using hkey⟩)
  · intro hno
    show execJtag t s = _
    refine State.run_to ha (if_neg (fun ⟨hlc, hkey⟩ => ?_))
    rcases hno with hno | ⟨hkeyed, hid⟩
    · exact hno hlc
    · simp [Dev.holdsKey, hkeyed, hid] at hkey
  · intro hclk hlock
    show execAlmlock t s = _
    refine State.runClk_to ⟨⟨ha.1, hclk⟩, ha.2⟩ ?_
    simp only [Dev.writeAlmCfg, hlock, if_true]
  · intro hclk hlock
    show execAlmlock t s = _
    exact State.runClk_to ⟨⟨ha.1, hclk⟩, ha.2⟩ (Dev.writeAlmCfg_lock hlock)
  · intro i level
    show execTamp t i level s = _
    exact State.run_to ha rfl

end Sys2Proof.Machine
end

section
/-! PROOFS. Reset and the image loader (R14, R24, R308, R309, R312, R320, R328, R381 to R384, R392 to R395). -/

namespace Sys2Proof.Machine

open Sys2Proof

/-! ### RESET_N (R381) -/

/-- The start sequence: the OTP store, the lifecycle state, and then the clock alarm where REFCLK_SYS is absent. -/
theorem Dev.startUp_eq {d g h : Dev} (hg : g = d.modLd (fun l => { l with released := d.now, lands := true }))
    (hgood : g.root.otp.bad = false → g.lc ≠ 3 ∧ h = (({ g with root := { g.root with armed := true } } : Dev).wr
      F.LD_STATUS_LSTATE 1).enqueue [76] ∨ g.lc = 3 ∧ h = g.enterRecovery)
    (hbad : g.root.otp.bad = true → h = (g.cause causePARITY { ao := true }).enterRecovery) :
    d.startUp = if h.mains.refclk then h else h.alarm almCLOCK := by
  have hstart : (if g.root.otp.bad then (g.cause causePARITY { ao := true }).enterRecovery
      else if g.lc = 3 then g.enterRecovery
      else (({ g with root := { g.root with armed := true } } : Dev).lstateTo 1).enqueue [76]) = h := by
    cases hotp : g.root.otp.bad
    · rw [if_neg Bool.false_ne_true]
      rcases hgood hotp with ⟨hlc, rfl⟩ | ⟨hlc, rfl⟩
      · exact if_neg hlc
      · exact if_pos hlc
    · rw [if_pos rfl, hbad hotp]
  unfold Dev.startUp
  simp only [← hg, hstart]

/-- RESET_N_RELEASE starts a module that is held or has just been reset, and leaves one that runs. -/
theorem exec_resetNRelease_at {s : State} {t : Nat} {d e : Dev} (h : s.at_ t = d)
    (he : (if d.inReset || d.loading 0 then ({ d with inReset := false } : Dev).startUp else d) = e) :
    exec (.resetNRelease t) s = .next (s.to e) := by
  subst h he
  rfl

/-! ### Slots (R382 to R384) -/

/-- The loader takes up the slot that is next, unless its image does not lie within it. -/
theorem Dev.nextSlot_some {d y : Dev} {fuel : Nat} {b : Bool} {hd : SlotHeader} (hpick : d.pickSlot = some (b, hd))
    (hy : y = (d.wr F.LD_STATUS_SLOT (if b then 1 else 0)).modLd (fun l =>
      { l with triedA := l.triedA || !b, triedB := l.triedB || b })) :
    d.nextSlot (fuel + 1) = if y.slotOctets < hd.ilen then (y.imgFail (if b then 7 else 5) 0 0).nextSlot fuel
      else y.wr F.LD_STATUS_LSTATE 2 := by
  subst hy
  conv_lhs => rw [Dev.nextSlot]
  simp only [hpick]
  rfl

/-- Without a slot to try the root enters the recovery state. -/
theorem Dev.nextSlot_none {d : Dev} {fuel : Nat} (hpick : d.pickSlot = none) : d.nextSlot (fuel + 1) = d.enterRecovery := by
  rw [Dev.nextSlot]
  simp only [hpick]

section
variable {s : State} {t : Nat} {d g e : Dev} {mode : Fin 4} {dens : Fin 64} {mhz : Fin 256} {a b : List Byte}
  (h : s.ready t d) (hload : d.loading 1 = true)
  (hg : g = ((d.wr F.LD_FLASH_FMODE mode.val).wr F.LD_FLASH_DENS dens.val).wr F.LD_FLASH_FLMHZ (min 100 mhz.val))
include h hload hg

/-- The loader notes the flash, and goes on to a slot where a read mode was found. -/
theorem exec_flashDiscoveryDone (he : (if mode.val ≤ 1 then
      (((g.wr F.LD_STATUS_SUB_A 7).wr F.LD_STATUS_SUB_B 7).cause causeIMGFAIL { sub := 7, ao := true }).enterRecovery
      else (g.modLd (fun l => { l with hdrA := some (readHeader a), hdrB := some (readHeader b) })).nextSlot 3) = e) :
    exec (.flashDiscoveryDone t mode dens mhz a b) s = .next (s.to e) := by
  show execFlashDiscoveryDone t mode dens mhz a b s = _
  refine State.runClk_to h ((if_neg (by simp [hload])).trans ?_)
  subst hg
  exact he

end

/-! ### Verification (R312, R392) -/

/-- The root's verdict, then the loader's checks, then the application. -/
theorem exec_imageVerify {s : State} {t : Nat} {d g e : Dev} {img : Image} (h : s.ready t d) (hload : d.loading 3 = true)
    (himg : d.loader.image = some img) (hg : g = d.acceptImage img)
    (hroot : ∀ sub, d.rootCheck img = some sub → e = d.slotFail sub 0 0)
    (hform : ∀ sect, d.rootCheck img = none → img.formatFails = some sect → e = g.slotFail 5 sect 0)
    (hcons : ∀ detail sect, d.rootCheck img = none → img.formatFails = none → img.consistFails g.root.otp = some (detail, sect) →
      e = g.slotFail 6 sect detail)
    (happly : d.rootCheck img = none → img.formatFails = none → img.consistFails g.root.otp = none → e = g.applyImage img) :
    exec (.imageVerify t) s = .next (s.to e) := by
  show execImageVerify t s = _
  refine State.runClk_to h ?_
  simp only [himg, hload, Bool.not_true, Bool.false_eq_true, if_false, ← hg]
  cases hr : d.rootCheck img with
  | some sub => exact (hroot sub hr).symm
  | none =>
    cases hf : img.formatFails with
    | some sect => exact (hform sect hr hf).symm
    | none =>
      cases hc : img.consistFails g.root.otp with
      | some x => exact (hcons x.1 x.2 hr hf hc).symm
      | none => exact (happly hr hf hc).symm

/-! ### Service (R395) -/

/-- The loader waits for mains time. -/
theorem Dev.awaitsMains_of {d : Dev} (hroot : d.rstate = 1) (hstate : d.lstate = 6) (hserve : d.loader.serving = false) :
    d.awaitsMains = true := by
  simp [Dev.awaitsMains, hroot, hstate, hserve]

/-- Settles O50: each clause names the branch of its command that its conditions choose. -/
theorem startupCommandsComplete : Obligations.StartupCommandsComplete := by
  unfold Obligations.StartupCommandsComplete
  refine ⟨?_, ?_, ?_, ?_, ?_, ?_⟩
  · intro s t d g ha hg
    show execResetNAssert t s = _
    refine State.run_to ha ?_
    rw [hg]
  · intro s t d g h hd
    constructor
    · intro hrun hload
      exact exec_resetNRelease_at hd (if_neg (by simp [hrun, hload]))
    · intro hfresh hg hgood hbad
      exact exec_resetNRelease_at hd ((if_pos (by simpa using hfresh)).trans (Dev.startUp_eq hg hgood hbad))
  · intro s t d g h mode dens mhz a b hr hload hg
    constructor
    · intro hmode
      exact exec_flashDiscoveryDone hr hload hg (if_pos hmode)
    · intro hmode hh
      have hslot {e : Dev} (he : h.nextSlot 3 = e) : exec (.flashDiscoveryDone t mode dens mhz a b) s = .next (s.to e) :=
        exec_flashDiscoveryDone hr hload hg ((if_neg (by omega)).trans (hh ▸ he))
      refine ⟨fun hpick => hslot (Dev.nextSlot_none hpick), fun slotB hd y hpick hy => ⟨fun hfit => ?_, fun hlong => ?_⟩⟩
      · exact hslot ((Dev.nextSlot_some hpick hy).trans (if_neg (Nat.not_lt.mpr hfit)))
      · exact hslot ((Dev.nextSlot_some hpick hy).trans (if_pos hlong))
  · intro s t d hr hload hon
    have hgo : ¬ ((!d.loading 2) = true ∨ (!d.domOn 76) = true) := by simp [hload, hon]
    constructor
    · show execSlotReadDone t none s = _
      exact State.runClk_to hr (if_neg hgo)
    · intro x
      show execSlotReadDone t (some x) s = _
      exact State.runClk_to hr (if_neg hgo)
  · intro s t d g img hr hload himg hg
    refine exec_imageVerify hr hload himg hg ?_ ?_ ?_ ?_
    · intro sub hroot
      simp only [hroot]
    · intro sect hroot hform
      simp only [hroot, hform]
    · intro detail sect hroot hform hcons
      simp only [hroot, hform, hcons]
    · intro hroot hform hcons
      simp only [hroot, hform, hcons]
  · intro s t d hr hroot hstate hserve
    have hawait := Dev.awaitsMains_of hroot hstate hserve
    constructor
    · intro hmst
      show execServiceStart t s = _
      exact State.runClkSvc_to hr (if_pos ⟨hawait, hmst⟩)
    · intro hlocked hslew hlate
      show execServiceWaitTimeout t s = _
      exact State.runClk_to hr (if_pos ⟨hawait, hlocked, hslew, hlate⟩)

end Sys2Proof.Machine
end

section
/-! PROOFS. Register writes (R5, R62, R347, R361, R363, R420, R423, R424). -/

namespace Sys2Proof.Machine

open Sys2Proof

/-! ### Reach, address and domain of a write (R361, R363, R420) -/

/-- A principal reaches a register for writing: of every register, of ADMIN_LOCK, or of its page. -/
def Dev.writes (g : Dev) (p n a : Nat) (all : Bool) : Prop :=
  (all = true ∧ (p = 17 ∨ g.lapseLock.holder = n)) ∨ (p = 16 ∧ a = A.ADMIN_LOCK) ∨ (p < 16 ∧ pageReach p a true = true)

/-- The reach as the model computes it. -/
theorem Dev.writes_iff (g : Dev) (p n a : Nat) (all : Bool) :
    (all && (p == 17 || g.lapseLock.holder == n) || (p == 16 && a == A.ADMIN_LOCK) ||
      (decide (p < 16) && pageReach p a true)) = true ↔ g.writes p n a all := by
  simp only [Dev.writes, Bool.or_eq_true, Bool.and_eq_true, beq_iff_eq, decide_eq_true_eq, or_assoc]

/-- What a write within reach does at an address, by the register there and its domain. -/
def Dev.writeRow (g : Dev) (w : Writer) (p n a : Nat) (v : Word32) : Option RegRow → Dev
  | none => g
  | some r => if !g.domOn (regDomain a) then g else (g.blockWrite w p n a r v).2

/-- A writer that is no session changes nothing. -/
theorem Dev.regWrite_none {d : Dev} {w : Writer} {a : Nat} {v : Word32} (h : d.principal w = none) : (d.regWrite w a v).2 = d := by
  unfold Dev.regWrite
  simp only [h]

section
variable {d g : Dev} {w : Writer} {p n a : Nat} {all : Bool} {v : Word32} (h : d.principal w = some (p, n, all))
  (hg : g = { d with hold64 := Tab.del d.hold64 p })
include h hg

/-- A write outside the reach of its writer is denied. -/
theorem Dev.regWrite_denied (hno : ¬ g.writes p n a all) : (d.regWrite w a v).2 = g.denied a := by
  subst hg
  unfold Dev.regWrite
  simp only [h]
  rw [if_pos]
  · rfl
  · rw [Bool.not_eq_true', Bool.eq_false_iff]
    exact fun hyes => hno ((Dev.writes_iff _ p n a all).1 hyes)

/-- A write within reach goes to the address: its register, if any, and that register's domain. -/
theorem Dev.regWrite_reached (hyes : g.writes p n a all) : (d.regWrite w a v).2 = g.writeRow w p n a v (rowAt a) := by
  have hreach := (Dev.writes_iff g p n a all).2 hyes
  subst hg
  unfold Dev.regWrite
  simp only [h]
  rw [if_neg (show ¬ (!(all && (p == 17 || _) || (p == 16 && a == A.ADMIN_LOCK) || (decide (p < 16) && pageReach p a true))) = true by
    rw [Bool.not_eq_true', Bool.eq_false_iff, not_not]; exact hreach)]
  cases rowAt a with
  | none => rfl
  | some r => exact apply_ite Prod.snd _ _ _

/-- An address without a register is left alone. -/
theorem Dev.regWrite_noRow (hyes : g.writes p n a all) (hrow : rowAt a = none) : (d.regWrite w a v).2 = g := by
  rw [Dev.regWrite_reached h hg hyes, hrow, Dev.writeRow]

variable {r : RegRow} (hyes : g.writes p n a all) (hrow : rowAt a = some r)
include hyes hrow

/-- A register of a domain that is off is left alone. -/
theorem Dev.regWrite_off (hoff : g.domOn (regDomain a) = false) : (d.regWrite w a v).2 = g := by
  rw [Dev.regWrite_reached h hg hyes, hrow]
  exact if_pos (by simp [hoff])

/-- Any other register takes the word by the rule of its block. -/
theorem Dev.regWrite_on (hon : g.domOn (regDomain a) = true) : (d.regWrite w a v).2 = (g.blockWrite w p n a r v).2 := by
  rw [Dev.regWrite_reached h hg hyes, hrow]
  exact if_neg (by simp [hon])

end

/-- What a writer does not reach, as the conditions of the statement say it. -/
theorem Dev.not_writes {g : Dev} {p n a : Nat} {all : Bool} (hall : all = false ∨ (p ≠ 17 ∧ g.lapseLock.holder ≠ n))
    (hlock : p ≠ 16 ∨ a ≠ A.ADMIN_LOCK) (hpage : 16 ≤ p ∨ pageReach p a true = false) : ¬ g.writes p n a all := by
  rintro (⟨htrue, hwho⟩ | ⟨hp, ha⟩ | ⟨hp, hreach⟩)
  · rcases hall with hall | ⟨h17, hheld⟩
    · simp [hall] at htrue
    · exact hwho.elim h17 hheld
  · exact hlock.elim (fun h => h hp) (fun h => h ha)
  · rcases hpage with hpage | hpage
    · omega
    · simp [hpage] at hreach

/-! ### The rules of two blocks (R62, R423) -/

/-- A register of the HBM block takes its writable bits and its W1C bits. -/
theorem Dev.blockWrite_hbm (g : Dev) (w : Writer) (p n : Nat) {a : Nat} (r : RegRow) (v : Word32) (hlo : blkHb ≤ a) (hhi : a < blkRt) :
    (g.blockWrite w p n a r v).2 = g.store a r v := by
  have hblocks : blkGv = 0x10000 ∧ blkMt = 0x20000 ∧ blkCv = 0x1800000 ∧ blkCi = 0x2000000 ∧ blkCt = 0x3000000 ∧
      blkEth = 0x3100000 ∧ blkHb = 0x3200000 ∧ blkRt = 0x3300000 := by decide
  obtain ⟨hgv, hmt, hcv, hci, hct, heth, hhb, hrt⟩ := hblocks
  unfold Dev.blockWrite
  rw [if_neg (by omega), if_neg (by omega), if_neg (by omega), if_neg (by omega), if_neg (by omega), if_neg (by omega),
    if_neg (by omega), if_neg (by omega), if_neg (by omega), if_neg (by omega), if_neg (by omega), if_pos hhi]
  rfl

/-- MT_CFG takes its word field by field. -/
theorem Dev.blockWrite_mtCfg (g : Dev) (w : Writer) (p n : Nat) (r : RegRow) (v : Word32) :
    (g.blockWrite w p n A.MT_CFG r v).2 = g.writeMtCfg v := by
  unfold Dev.blockWrite
  rw [if_neg (by decide), if_neg (by decide), if_pos (by decide)]
  exact congrArg Prod.snd (if_pos rfl)

/-- MT_CFG keeps the bits that R62 protects, with CFGREJ where that changed one; mains time starts or stops with EN. -/
theorem Dev.writeMtCfg_eq {g h : Dev} {v keep x new : Word32}
    (hkeep : keep = (if g.on F.MT_CFG_EN then BitVec.ofNat 32 (mtProtected + (if g.anyChOn then 1 else 0)) else 0))
    (hx : x = v &&& 0xF77F#32) (hnew : new = (x &&& ~~~keep) ||| (g.word A.MT_CFG &&& keep))
    (hh : h = (if new = x then g.setWord A.MT_CFG new else (g.setWord A.MT_CFG new).raise F.MT_STATUS_CFGREJ)) :
    g.writeMtCfg v = if h.on F.MT_CFG_EN = g.on F.MT_CFG_EN then h else h.mtEnable (h.on F.MT_CFG_EN) := by
  subst hx hkeep
  unfold Dev.writeMtCfg
  simp only [← hnew]
  have hstored : (if new ≠ v &&& 0xF77F#32 then (g.setWord A.MT_CFG new).raise F.MT_STATUS_CFGREJ else g.setWord A.MT_CFG new) = h := by
    rw [hh, ite_not]
  rw [hstored]

/-- A denied write of MT_CFG marks the hedge alone. -/
theorem Dev.denied_mtCfg (g : Dev) : g.denied A.MT_CFG = g.hedge := by
  unfold Dev.denied
  rw [if_neg (by decide), if_neg (by decide), if_neg (by decide), if_neg (by decide)]

section
variable {s : State} {t : Nat} {d e : Dev} {w : Writer} {a : Nat} {v : Word32} (h : s.ready t d)
include h

theorem exec_registerWrite (he : (d.regWrite w a v).2 = e) : exec (.registerWrite t w a v) s = .next (s.to e) := by
  show execRegisterWrite t w a v s = _
  exact State.runClk_to h he

theorem exec_mtCfgWrite (he : (d.regWrite w A.MT_CFG v).2 = e) : exec (.mtCfgWrite t w v) s = .next (s.to e) := by
  show execMtCfgWrite t w v s = _
  exact State.runClk_to h he

end

/-- MT_CFG is a register of PD_AON. -/
theorem mtCfg_row : ∃ r, rowAt A.MT_CFG = some r := Option.isSome_iff_exists.1 (by decide +kernel)

/-- Settles O51: the principal, the reach, the address and the domain of a write, and then the rule of the register's block. -/
theorem registerWritesComplete : Obligations.RegisterWritesComplete := by
  unfold Obligations.RegisterWritesComplete
  intro s t d w a v hr
  refine ⟨fun hnone => ⟨exec_registerWrite hr (Dev.regWrite_none hnone), exec_mtCfgWrite hr (Dev.regWrite_none hnone)⟩, ?_⟩
  intro p n all g hp hg
  refine ⟨?_, ?_, ?_, ?_⟩
  · intro hall hlock hpage
    exact exec_registerWrite hr (Dev.regWrite_denied hp hg (Dev.not_writes hall hlock hpage))
  · intro hall hpage
    refine exec_mtCfgWrite hr ?_
    rw [Dev.regWrite_denied hp hg (Dev.not_writes hall (Or.inr (by decide)) hpage), Dev.denied_mtCfg]
  · intro hreach
    have hyes : g.writes p n a all := hreach
    refine ⟨fun hrow => exec_registerWrite hr (Dev.regWrite_noRow hp hg hyes hrow), fun r hrow => ⟨?_, ?_, ?_⟩⟩
    · exact fun hoff => exec_registerWrite hr (Dev.regWrite_off hp hg hyes hrow hoff)
    · exact fun hon => exec_registerWrite hr (Dev.regWrite_on hp hg hyes hrow hon)
    · intro hon hlo hhi
      exact exec_registerWrite hr ((Dev.regWrite_on hp hg hyes hrow hon).trans (Dev.blockWrite_hbm g w p n r v hlo hhi))
  · intro keep x new h hall hwho hon hkeep hx hnew hh
    obtain ⟨r, hrow⟩ := mtCfg_row
    have hyes : g.writes p n A.MT_CFG all := Or.inl ⟨hall, hwho⟩
    refine exec_mtCfgWrite hr ((Dev.regWrite_on hp hg hyes hrow hon).trans ?_)
    rw [Dev.blockWrite_mtCfg, Dev.writeMtCfg_eq hkeep hx hnew hh]

end Sys2Proof.Machine
end

section
/-! PROOFS. Uncorrectable HBM errors (R416): a counterexample. -/

namespace Sys2Proof.Machine

open Sys2Proof

/-- A device with PD_HBM on, the array of HBM as it stands after reset. -/
def hbmPowered : Dev := { regs := [(A.GV_PDSTAT0 + 8, 16384#32)] }

/-- The device once the error in the first block of restore record 0 is counted and located. -/
def hbmLocated : Dev :=
  ((hbmPowered.inc F.FT_CNT2_HBMUE).wr F.HBM_ERRLOC_BLOCK 8392704).wr F.HBM_ERRLOC_ERRV 1

/-- Nothing was written to HBM by a command. -/
def hbmUntouched : Host.Outcome State Fault Refusal → Bool
  | .next s => s.dev.hbm.isEmpty
  | _ => false

/-- A table that was put to is not empty. -/
theorem Tab.put_ne_nil {α : Type} (l : Tab α) (k : Nat) (v : α) : Tab.put l k v ≠ [] := by
  cases l with
  | nil => exact List.cons_ne_nil _ _
  | cons e l =>
    unfold Tab.put
    split
    · exact List.cons_ne_nil _ _
    · split <;> exact List.cons_ne_nil _ _

/-- Sealing blocks empties no array. -/
theorem Dev.sealBlocks_ne_nil (d : Dev) (l : List (BitVec 128)) :
    ∀ (n : Nat) (h : Tab (BitVec 128)), h ≠ [] → d.sealBlocks n l h ≠ [] := by
  induction l with
  | nil => exact fun _ _ h => h
  | cons b l ih => exact fun n h _ => ih (n + 1) _ (Tab.put_ne_nil h n _)

/-- A restore record that the store engine writes stands in HBM (R342). -/
theorem Dev.setRecord_hbm_ne_nil (d : Dev) (k : Nat) (r : Restore) : (d.setRecord k r).hbm ≠ [] := by
  have hblocks : r.blocks ≠ [] := by
    unfold Restore.blocks
    rw [ne_eq, List.map_eq_nil_iff, List.range_eq_nil]
    exact OfNat.ofNat_ne_zero 768
  obtain ⟨b, l, hl⟩ := List.exists_cons_of_ne_nil hblocks
  unfold Dev.setRecord Dev.hbmWrite
  rw [hl]
  exact d.sealBlocks_ne_nil l _ _ (Tab.put_ne_nil _ _ _)

/-- A cause leaves HBM. -/
theorem Dev.cause_hbm (d : Dev) (code : Nat) (w : CauseAt) : (d.cause code w).hbm = d.hbm := by
  obtain ⟨r, h, lc, cs, ev, ss, l, g, m, he⟩ := Dev.cause_eq d code w
  rw [he]

/-- What a command leaves in HBM is what its device holds. -/
theorem hbmUntouched_to (s : State) (d : Dev) : hbmUntouched (.next (s.to d)) = d.hbm.isEmpty := rfl

/-- The command marks the record and leaves what HBM holds. -/
theorem hbmUntouched_uncorrectable :
    hbmUntouched (exec (.hbmUncorrectable 0 8392704 0) ⟨hbmPowered, []⟩) = true := by decide +kernel

/-- Refutes O52: in the rule of an error in a restore record the store engine writes the record, marked bad, to HBM again; the
command marks it and writes nothing. -/
theorem not_scrubCommandsComplete : ¬ Obligations.ScrubCommandsComplete := by
  rintro ⟨-, -, hhbm⟩
  obtain ⟨-, -, -, hrecord, -⟩ := hhbm ⟨hbmPowered, []⟩ 0 8392704 4096 0 0 hbmPowered hbmLocated ⟨⟨rfl, rfl⟩, rfl⟩
    (by decide +kernel) (by decide) rfl (by decide) (by decide)
  have hexec := congrArg hbmUntouched (hrecord (by decide) (by decide) (by decide))
  rw [hbmUntouched_uncorrectable, hbmUntouched_to, Dev.cause_hbm] at hexec
  exact Dev.setRecord_hbm_ne_nil _ _ _ (List.isEmpty_iff.1 hexec.symm)

end Sys2Proof.Machine
end

section
/-! PROOFS. Management frames, sessions, notices and attestation reports (R236, R316, R352, R354 to R366). -/

namespace Sys2Proof.Machine

open Sys2Proof

/-! ### A frame on its way to the engine -/

section Arrival
variable (d : Dev) (p : Nat) (f : MgmtFrame) (act : Dev → Dev)

/-- A frame at a port that is down is lost. -/
theorem Dev.mgArrive_down (h : d.on (F.ETH_STATUS_UP p) = false) : d.mgArrive p f act = d := by
  simp [Dev.mgArrive, h]

/-- A frame over MAXFR is counted. -/
theorem Dev.mgArrive_oversize (h : d.on (F.ETH_STATUS_UP p) = true)
    (hn : d.maxFr p < mgOctets f.prin.val f.payload.length) : d.mgArrive p f act = d.inc (F.ETH_CNT_OVERSIZE p) := by
  simp [Dev.mgArrive, h, hn]

/-- A frame that the port receives is counted, and goes on as REFCLK_SYS and FWPORT let it. -/
theorem Dev.mgArrive_received (h : d.on (F.ETH_STATUS_UP p) = true)
    (hn : mgOctets f.prin.val f.payload.length ≤ d.maxFr p) {g : Dev}
    (hg : g = d.mgReceived p (mgOctets f.prin.val f.payload.length)) :
    d.mgArrive p f act =
      if g.mains.refclk = false then g else if g.accepting p = false then g.fwDrop 1 else g.mgTake f act := by
  subst hg
  simp [Dev.mgArrive, h, hn]

/-- A frame that breaks R354 is dropped. -/
theorem Dev.mgTake_invalid
    (h : 9120 < f.payload.length ∨ (16 < f.prin.val ∧ f.prin.val ≠ 31) ∨ f.mver = 0 ∨ 2 < f.mver) : d.mgTake f act = d :=
  if_pos h

/-- The lengths, principals and versions that R354 admits. -/
theorem mgmtFrame_valid (hlen : f.payload.length ≤ 9120) (hprin : f.prin.val ≤ 16 ∨ f.prin.val = 31)
    (hver : f.mver = 1 ∨ f.mver = 2) :
    ¬ (9120 < f.payload.length ∨ (16 < f.prin.val ∧ f.prin.val ≠ 31) ∨ f.mver = 0 ∨ 2 < f.mver) := by
  omega

/-- A frame that finds four requests is dropped and counted. -/
theorem Dev.mgTake_full (hlen : f.payload.length ≤ 9120) (hprin : f.prin.val ≤ 16 ∨ f.prin.val = 31)
    (hver : f.mver = 1 ∨ f.mver = 2) (hfull : 4 ≤ d.engine.length) : d.mgTake f act = d.inc F.MG_CNT2_MGDROP :=
  (if_neg (mgmtFrame_valid f hlen hprin hver)).trans (if_pos hfull)

/-- Any other frame acts. -/
theorem Dev.mgTake_acts (hlen : f.payload.length ≤ 9120) (hprin : f.prin.val ≤ 16 ∨ f.prin.val = 31)
    (hver : f.mver = 1 ∨ f.mver = 2) (hroom : d.engine.length < 4) : d.mgTake f act = act d :=
  (if_neg (mgmtFrame_valid f hlen hprin hver)).trans (if_neg (by omega))

end Arrival

/-! ### The checks of a keyed frame -/

section Keyed
variable (d : Dev) (f : MgmtFrame) (act : Dev → Dev)

theorem Dev.mgKeyed_keyless (ok : Bool) (h : d.mgKey f.prin.val f.kph = false) :
    d.mgKeyed f ok act = d.inc F.CI_CNT2_KEYMISS := by
  simp [Dev.mgKeyed, h]

theorem Dev.mgKeyed_recovery (ok : Bool) (h : d.mgKey f.prin.val f.kph = true) (hr : d.rstate = 2) :
    d.mgKeyed f ok act = d := by
  simp [Dev.mgKeyed, h, hr]

theorem Dev.mgKeyed_badTag (h : d.mgKey f.prin.val f.kph = true) (hr : d.rstate ≠ 2) :
    d.mgKeyed f false act = (d.inc F.MG_CNT_AUTHFAIL).mgRise 0 1 := by
  simp [Dev.mgKeyed, Dev.authFail, h, hr]

theorem Dev.mgKeyed_acts (h : d.mgKey f.prin.val f.kph = true) (hr : d.rstate ≠ 2) : d.mgKeyed f true act = act d := by
  simp [Dev.mgKeyed, h, hr]

end Keyed

/-! ### An OPEN -/

section Open
variable (d : Dev) (p : Nat) (mac : BitVec 48) (f : MgmtFrame) (ok : Bool)

/-- An OPEN of PRIN 31 is of no use. -/
theorem Dev.mgOpen_keyless (h : f.prin.val = 31) : d.mgOpen p mac f ok = d := by
  simp [Dev.mgOpen, Dev.mgIdle, h]

/-- An OPEN that is not of version 2, names a session or carries a payload only shows a missing key. -/
theorem Dev.mgOpen_idle (hprin : f.prin.val ≤ 16) (h : f.mver ≠ 2 ∨ f.sess ≠ 0 ∨ f.payload ≠ []) :
    d.mgOpen p mac f ok = if d.mgKey f.prin.val f.kph then d else d.inc F.CI_CNT2_KEYMISS := by
  have h31 : f.prin.val ≠ 31 := by omega
  refine (if_pos (Or.inr h)).trans ?_
  cases hkey : d.mgKey f.prin.val f.kph <;> simp [Dev.mgIdle, h31, hkey]

/-- Any other OPEN is keyed. -/
theorem Dev.mgOpen_keyed (hprin : f.prin.val ≤ 16) (hver : f.mver = 2) (hsess : f.sess = 0) (hpay : f.payload = []) :
    d.mgOpen p mac f ok = d.mgKeyed f ok (fun d => d.openSession p mac f) := by
  have h31 : f.prin.val ≠ 31 := by omega
  simp [Dev.mgOpen, h31, hver, hsess, hpay]

/-- Without trusted entropy no session is opened. -/
theorem Dev.openSession_untrusted (h : d.trusted = false) : d.openSession p mac f = d := by
  simp [Dev.openSession, h]

/-- With 32 sessions open an OPEN is dropped. -/
theorem Dev.openSession_full (h : d.trusted = true) (hfull : 32 ≤ (d.displace f.prin.val).sessions.length) :
    d.openSession p mac f = (d.displace f.prin.val).inc F.MG_CNT2_MGDROP := by
  simp [Dev.openSession, h, hfull]

/-- The session that an OPEN opens. -/
def openedSession (f : MgmtFrame) (p : Nat) (mac : BitVec 48) (n : Nat) (nonceM : BitVec 64) (now : Nat) : Session :=
  { num := n, prin := f.prin.val, kph := f.kph, ssalt := sessionSalt f.mseq nonceM f.prin.val n, opened := now
    heard := now, mac := mac, port := p }

/-- The OPENACK of an OPEN. -/
def openAck (f : MgmtFrame) (p : Nat) (mac : BitVec 48) (n : Nat) (nonceM : BitVec 64) : MgmtOut :=
  { port := p, mac := mac, mver := 2, mtype := 4, prin := f.prin.val, kph := f.kph, sess := n, mseq := nonceM
    payload := octetsBE 8 f.mseq.toNat }

/-- Else an OPEN opens the next session and answers. -/
theorem Dev.openSession_opens (h : d.trusted = true) {e z : Dev} {x : Nat} {y : BitVec 64} (he : e = d.displace f.prin.val)
    (hroom : e.sessions.length < 32) (hx : e.nextSession = x) (hdraw : e.draw = (y, z)) :
    d.openSession p mac f =
      ({ z.wr F.MG_STATUS_LASTSESS x with sessions := z.sessions ++ [openedSession f p mac x y z.now] } : Dev).mgSend
        (openAck f p mac x y) := by
  subst he
  have hfull : ¬ 32 ≤ (d.displace f.prin.val).sessions.length := by omega
  refine (if_neg (by rw [h]; exact Bool.false_ne_true)).trans ((if_neg hfull).trans ?_)
  simp only [hdraw, hx]
  rfl

end Open

/-! ### A REQ -/

section Request
variable (d : Dev) (p : Nat) (mac : BitVec 48) (f : MgmtFrame)

theorem Dev.mgReq_keyless (ok : Bool) (h : f.prin.val = 31) : d.mgReq p mac f ok = d.engineTake p mac f := if_pos h

theorem Dev.mgReq_keyed (ok : Bool) (h : f.prin.val ≤ 16) :
    d.mgReq p mac f ok = d.mgKeyed f ok (fun d => d.takeReq p mac f) := if_neg (by omega)

theorem Dev.takeReq_noSession (hver : f.mver = 2) (h : d.session f.sess.val = none) :
    d.takeReq p mac f = (d.inc F.MG_CNT_MGREPLAY).mgRise 1 1 := by
  simp [Dev.takeReq, Dev.mgReplay, hver, h]

theorem Dev.takeReq_session (hver : f.mver = 2) {x : Session} (h : d.session f.sess.val = some x) :
    d.takeReq p mac f = if x.prin ≠ f.prin.val ∨ f.mseq.toNat ≤ x.last then (d.inc F.MG_CNT_MGREPLAY).mgRise 1 1
      else (d.acceptReq x f.mseq.toNat).engineTake p mac f := by
  simp [Dev.takeReq, Dev.mgReplay, hver, h]

theorem Dev.takeReq_v1 (hver : f.mver = 1) :
    d.takeReq p mac f = if f.sess ≠ 0 ∨ d.on F.MG_CFG_V1EN = false ∨ f.mseq.toNat ≤ d.v1seq f.prin.val then
        (d.inc F.MG_CNT_MGREPLAY).mgRise 1 1
      else (d.wr64 (F.MG_V1SEQ_LO_V1SEQ f.prin.val) (F.MG_V1SEQ_HI_V1SEQ f.prin.val) f.mseq.toNat).engineTake p mac f := by
  simp [Dev.takeReq, Dev.mgReplay, hver]

end Request

/-! ### The two commands -/

section Commands
variable {s : State} {t : Nat} {d g e : Dev} {p : PortId} {mac : BitVec 48} {f : MgmtFrame} {ok : Bool}

/-- What an OPEN or a REQ does with a frame that arrives. -/
def mgAct (p : PortId) (mac : BitVec 48) (f : MgmtFrame) (ok : Bool) : Bool → Dev → Dev
  | false, d => d.mgOpen p.val mac f ok
  | true, d => d.mgReq p.val mac f ok

/-- The command of a management frame: OPEN or REQ. -/
def mgInstr (t : Nat) (p : PortId) (mac : BitVec 48) (f : MgmtFrame) (ok : Bool) : Bool → Instr
  | false => .openFrame t p mac f ok
  | true => .req t p mac f ok

/-- A management frame arrives by its port. -/
theorem exec_mgInstr (hs : s.awake t d) (req : Bool) (he : d.mgArrive p.val f (mgAct p mac f ok req) = e) :
    exec (mgInstr t p mac f ok req) s = .next (s.to e) := by
  cases req
  case false =>
    show execOpenFrame t p mac f ok s = _
    exact State.run_to hs he
  case true =>
    show execReq t p mac f ok s = _
    exact State.run_to hs he

/-- A frame that the port passes to the management engine. -/
theorem exec_mgInstr_received (hs : s.awake t d) (req : Bool) (hup : d.on (F.ETH_STATUS_UP p.val) = true)
    (hn : mgOctets f.prin.val f.payload.length ≤ d.maxFr p.val)
    (hg : g = d.mgReceived p.val (mgOctets f.prin.val f.payload.length)) (hclk : g.mains.refclk = true)
    (hacc : g.accepting p.val = true) (he : g.mgTake f (mgAct p mac f ok req) = e) :
    exec (mgInstr t p mac f ok req) s = .next (s.to e) := by
  refine exec_mgInstr hs req ((d.mgArrive_received p.val f _ hup hn hg).trans ?_)
  rw [if_neg (by simp [hclk]), if_neg (by simp [hacc]), he]

end Commands

/-- The first part: what happens to a frame before the engine looks at it. -/
theorem managementFrame_ports (s : State) (t : Nat) (d : Dev) (p : PortId) (mac : BitVec 48) (f : MgmtFrame) (ok : Bool) (n : Nat)
    (hs : s.awake t d) (hn : n = mgOctets f.prin.val f.payload.length) (req : Bool) :
    (d.on (F.ETH_STATUS_UP p.val) = false → exec (mgInstr t p mac f ok req) s = .next (s.to d)) ∧
    (d.on (F.ETH_STATUS_UP p.val) = true → d.maxFr p.val < n →
      exec (mgInstr t p mac f ok req) s = .next (s.to (d.inc (F.ETH_CNT_OVERSIZE p.val)))) ∧
    (∀ g, d.on (F.ETH_STATUS_UP p.val) = true → n ≤ d.maxFr p.val → g = d.mgReceived p.val n →
      (g.mains.refclk = false → exec (mgInstr t p mac f ok req) s = .next (s.to g)) ∧
      (g.mains.refclk = true → g.accepting p.val = false → exec (mgInstr t p mac f ok req) s = .next (s.to (g.fwDrop 1))) ∧
      (g.mains.refclk = true → g.accepting p.val = true →
        (9120 < f.payload.length ∨ (16 < f.prin.val ∧ f.prin.val ≠ 31) ∨ f.mver = 0 ∨ 2 < f.mver →
          exec (mgInstr t p mac f ok req) s = .next (s.to g)) ∧
        (f.payload.length ≤ 9120 → f.prin.val ≤ 16 ∨ f.prin.val = 31 → f.mver = 1 ∨ f.mver = 2 → 4 ≤ g.engine.length →
          exec (mgInstr t p mac f ok req) s = .next (s.to (g.inc F.MG_CNT2_MGDROP))))) := by
  subst hn
  refine ⟨fun hup => exec_mgInstr hs req (d.mgArrive_down p.val f _ hup),
    fun hup hlong => exec_mgInstr hs req (d.mgArrive_oversize p.val f _ hup hlong), fun g hup hle hg => ?_⟩
  refine ⟨fun hclk => exec_mgInstr hs req ((d.mgArrive_received p.val f _ hup hle hg).trans (if_pos hclk)),
    fun hclk hacc => exec_mgInstr hs req ((d.mgArrive_received p.val f _ hup hle hg).trans ?_), fun hclk hacc => ⟨?_, ?_⟩⟩
  · rw [if_neg (by simp [hclk]), if_pos hacc]
  · exact fun hbad => exec_mgInstr_received hs req hup hle hg hclk hacc (g.mgTake_invalid f _ hbad)
  · exact fun hlen hprin hver hfull =>
      exec_mgInstr_received hs req hup hle hg hclk hacc (g.mgTake_full f _ hlen hprin hver hfull)

/-! ### Sessions, the flash write and attestation -/

/-- A session that was not confirmed within a second lapses (R357). -/
theorem exec_sessionLapse {s : State} {t : Nat} {d : Dev} {n : Fin 256} {x : Session} (hs : s.ready t d)
    (hx : d.session n.val = some x) (hconf : x.confirmed = false) (hlate : x.opened + 1000000000 ≤ d.now) :
    exec (.sessionLapse t n) s = .next (s.to (d.endSession x.num)) := by
  show execSessionLapse t n s = _
  refine State.runClk_to hs ?_
  simp only [hx]
  exact if_pos ⟨by rw [hconf]; rfl, hlate⟩

/-- A confirmed session idles out (R359). -/
theorem exec_sessionIdleTimeout {s : State} {t : Nat} {d : Dev} {n : Fin 256} {x : Session} (hs : s.ready t d)
    (hx : d.session n.val = some x) (hconf : x.confirmed = true)
    (hlate : x.heard + 1000000000 * max 1 (d.rd F.MG_CFG_IDLE) ≤ d.now) :
    exec (.sessionIdleTimeout t n) s = .next (s.to (d.endSession x.num)) := by
  show execSessionIdleTimeout t n s = _
  refine State.runClk_to hs ?_
  simp only [hx]
  exact if_pos ⟨hconf, hlate⟩

/-- A flash write ends with its notice (R364). -/
theorem exec_flashWriteDone {s : State} {t : Nat} {d g : Dev} {ok : Bool} {p : Nat} {mac : BitVec 48} {mseq : BitVec 64}
    {n : Notice} {o : MgmtOut} (hs : s.ready t d) (hw : d.loader.writing = some (p, mac, mseq))
    (hn : n = { cls := 11, code := if ok then 0 else 7, ns := d.now,
                cyc := (d.mainsAt d.now).1 % 2 ^ 32, grn := (d.mainsAt d.now).2 })
    (hg : g = d.dropRimg.modLd (fun l => { l with writing := none, lands := false }))
    (ho : o = { port := p, mac := mac, mver := 2, mtype := 2, prin := 31, sess := 0, mseq := mseq, payload := n.octets }) :
    exec (.flashWriteDone t ok) s = .next (s.to (g.mgSend o)) := by
  subst hn hg ho
  show execFlashWriteDone t ok s = _
  refine State.runClk_to hs ?_
  simp only [hw]

/-- A flash write that none runs changes nothing. -/
theorem exec_flashWriteDone_idle {s : State} {t : Nat} {d : Dev} {ok : Bool} (hs : s.ready t d)
    (hw : d.loader.writing = none) : exec (.flashWriteDone t ok) s = .next (s.to d) := by
  show execFlashWriteDone t ok s = _
  refine State.runClk_to hs ?_
  simp only [hw]

/-- A report for which nothing waits leaves the engine to run. -/
theorem Dev.attestDone_idle {d : Dev} {x : List AttestReq} (hx : x = d.root.attest.dropWhile AttestReq.orphan)
    (h : x = [] ∨ d.engine = []) :
    d.attestDone = ({ d with root := { d.root with attest := x } } : Dev).engineRun 9200 := by
  subst hx
  unfold Dev.attestDone
  split
  case h_1 ha hj =>
    rcases h with h | h
    · exact absurd (ha.symm.trans h) (List.cons_ne_nil _ _)
    · exact absurd (hj.symm.trans h) (List.cons_ne_nil _ _)
  case h_2 => rfl

section Report
variable {d : Dev} {a : AttestReq} {l : List AttestReq} {j : MgmtJob} {js : List MgmtJob}
  (hx : d.root.attest.dropWhile AttestReq.orphan = a :: l) (hj : d.engine = j :: js) (hw : j.waits = true)
include hx hj hw

/-- A request that an alarm abandoned is refused. -/
theorem Dev.attestDone_abandoned (hab : a.abandoned = true) :
    d.attestDone = ({ d with root := { d.root with attest := l },
                             engine := j.put (j.rest.drop 1) 7 Config.alarmRefusal.toNat 0 [] :: js } : Dev).engineRun 9200 := by
  simp only [Dev.attestDone, hx, hj, hw, hab, Bool.not_true, Bool.false_eq_true, if_true, if_false]

/-- A request is answered by its report, deterministic without trusted entropy. -/
theorem Dev.attestDone_report (hab : a.abandoned = false) (hid : d.root.identity = true) {r : List Byte × Dev}
    (hr : r = if d.trusted then d.random 32 else (List.replicate 32 0, d)) :
    d.attestDone = ({ r.2 with root := { r.2.root with attest := l },
                               engine := j.put (j.rest.drop 1) 7 rgOK 0 (d.report a.nonce (!d.trusted) r.1) :: js }
                    : Dev).engineRun 9200 := by
  subst hr
  simp only [Dev.attestDone, hx, hj, hw, hab, hid, Bool.not_true, Bool.false_eq_true, if_false]
  cases d.trusted <;> rfl

end Report

/-- A finished report, or the refusal of an abandoned one, goes on with its request (R316). -/
theorem exec_attestReportReady {s : State} {t : Nat} {d e : Dev} (hs : s.ready t d) (he : d.attestDone = e) :
    exec (.attestReportReady t) s = .next (s.to e) := by
  show execAttestReportReady t s = _
  exact State.runClk_to hs he

/-! ### The second part: what the engine does with a frame -/

section Engine
variable {s : State} {t : Nat} {d g : Dev} {p : PortId} (mac : BitVec 48) {f : MgmtFrame} {n : Nat}

/-- A port passes a frame, and the engine has room for it. -/
def FramePasses (s : State) (t : Nat) (d g : Dev) (p : PortId) (f : MgmtFrame) : Prop :=
  s.awake t d ∧ d.on (F.ETH_STATUS_UP p.val) = true ∧ mgOctets f.prin.val f.payload.length ≤ d.maxFr p.val ∧
    g = d.mgReceived p.val (mgOctets f.prin.val f.payload.length) ∧ g.mains.refclk = true ∧ g.accepting p.val = true ∧
    f.payload.length ≤ 9120 ∧ (f.mver = 1 ∨ f.mver = 2) ∧ g.engine.length < 4

variable (h : FramePasses s t d g p f)
include h

/-- A frame that passes acts. -/
theorem FramePasses.exec (hprin : f.prin.val ≤ 16 ∨ f.prin.val = 31) (req ok : Bool) {e : Dev} (he : mgAct p mac f ok req g = e) :
    exec (mgInstr t p mac f ok req) s = .next (s.to e) := by
  obtain ⟨hs, hup, hn, hg, hclk, hacc, hlen, hver, hroom⟩ := h
  exact exec_mgInstr_received hs req hup hn hg hclk hacc ((g.mgTake_acts f _ hlen hprin hver hroom).trans he)

/-- A keyed REQ runs the checks of its key, then is taken. -/
theorem FramePasses.exec_req (hprin : f.prin.val ≤ 16) (ok : Bool) {e : Dev}
    (he : g.mgKeyed f ok (fun d => d.takeReq p.val mac f) = e) : Machine.exec (.req t p mac f ok) s = .next (s.to e) :=
  h.exec mac (.inl hprin) true ok ((g.mgReq_keyed p.val mac f ok hprin).trans he)

/-- A keyed OPEN runs the checks of its key, then opens a session. -/
theorem FramePasses.exec_open (hprin : f.prin.val ≤ 16) (hver : f.mver = 2) (hsess : f.sess = 0) (hpay : f.payload = [])
    (ok : Bool) {e : Dev} (he : g.mgKeyed f ok (fun d => d.openSession p.val mac f) = e) :
    Machine.exec (.openFrame t p mac f ok) s = .next (s.to e) :=
  h.exec mac (.inl hprin) false ok ((g.mgOpen_keyed p.val mac f ok hprin hver hsess hpay).trans he)

/-- An OPEN, by its key, its tag, the entropy and the sessions open. -/
theorem FramePasses.open_complete (hprin : f.prin.val ≤ 16) (hver : f.mver = 2) (hsess : f.sess = 0) (hpay : f.payload = [])
    (ok : Bool) :
    (g.mgKey f.prin.val f.kph = false →
      Machine.exec (.openFrame t p mac f ok) s = .next (s.to (g.inc F.CI_CNT2_KEYMISS))) ∧
    (g.mgKey f.prin.val f.kph = true → g.rstate = 2 → Machine.exec (.openFrame t p mac f ok) s = .next (s.to g)) ∧
    (g.mgKey f.prin.val f.kph = true → g.rstate ≠ 2 →
      Machine.exec (.openFrame t p mac f false) s = .next (s.to ((g.inc F.MG_CNT_AUTHFAIL).mgRise 0 1)) ∧
      (g.trusted = false → Machine.exec (.openFrame t p mac f true) s = .next (s.to g)) ∧
      (∀ e, g.trusted = true → e = g.displace f.prin.val →
        (32 ≤ e.sessions.length → Machine.exec (.openFrame t p mac f true) s = .next (s.to (e.inc F.MG_CNT2_MGDROP))) ∧
        (∀ x y z, e.sessions.length < 32 → e.nextSession = x → e.draw = (y, z) →
          Machine.exec (.openFrame t p mac f true) s = .next (s.to
            (({ z.wr F.MG_STATUS_LASTSESS x with sessions := z.sessions ++ [openedSession f p.val mac x y z.now] } : Dev).mgSend
              (openAck f p.val mac x y)))))) := by
  have hopen (ok : Bool) {e : Dev} := h.exec_open mac hprin hver hsess hpay ok (e := e)
  refine ⟨fun hkey => hopen ok (g.mgKeyed_keyless f _ ok hkey), fun hkey hr => hopen ok (g.mgKeyed_recovery f _ ok hkey hr),
    fun hkey hr => ⟨hopen false (g.mgKeyed_badTag f _ hkey hr), fun htr => hopen true ?_, fun e htr he => ⟨fun hfull => ?_, ?_⟩⟩⟩
  · exact (g.mgKeyed_acts f _ hkey hr).trans (g.openSession_untrusted p.val mac f htr)
  · subst he
    exact hopen true ((g.mgKeyed_acts f _ hkey hr).trans (g.openSession_full p.val mac f htr hfull))
  · exact fun x y z hroom hx hdraw =>
      hopen true ((g.mgKeyed_acts f _ hkey hr).trans (g.openSession_opens p.val mac f htr he hroom hx hdraw))

/-- A REQ with a good key, by its tag, its version, its session and its sequence. -/
theorem FramePasses.req_complete (hprin : f.prin.val ≤ 16) (hkey : g.mgKey f.prin.val f.kph = true) (hr : g.rstate ≠ 2) :
    Machine.exec (.req t p mac f false) s = .next (s.to ((g.inc F.MG_CNT_AUTHFAIL).mgRise 0 1)) ∧
    (f.mver = 2 → g.session f.sess.val = none →
      Machine.exec (.req t p mac f true) s = .next (s.to ((g.inc F.MG_CNT_MGREPLAY).mgRise 1 1))) ∧
    (∀ x, f.mver = 2 → g.session f.sess.val = some x →
      (x.prin = f.prin.val → x.last < f.mseq.toNat →
        Machine.exec (.req t p mac f true) s = .next (s.to ((g.acceptReq x f.mseq.toNat).engineTake p.val mac f))) ∧
      (x.prin ≠ f.prin.val ∨ f.mseq.toNat ≤ x.last →
        Machine.exec (.req t p mac f true) s = .next (s.to ((g.inc F.MG_CNT_MGREPLAY).mgRise 1 1)))) ∧
    (f.mver = 1 → f.sess ≠ 0 ∨ g.on F.MG_CFG_V1EN = false ∨ f.mseq.toNat ≤ g.v1seq f.prin.val →
      Machine.exec (.req t p mac f true) s = .next (s.to ((g.inc F.MG_CNT_MGREPLAY).mgRise 1 1))) ∧
    (f.mver = 1 → f.sess = 0 → g.on F.MG_CFG_V1EN = true → g.v1seq f.prin.val < f.mseq.toNat →
      Machine.exec (.req t p mac f true) s = .next (s.to
        ((g.wr64 (F.MG_V1SEQ_LO_V1SEQ f.prin.val) (F.MG_V1SEQ_HI_V1SEQ f.prin.val) f.mseq.toNat).engineTake p.val mac f))) := by
  have htake {e : Dev} (he : g.takeReq p.val mac f = e) : Machine.exec (.req t p mac f true) s = .next (s.to e) :=
    h.exec_req mac hprin true ((g.mgKeyed_acts f _ hkey hr).trans he)
  refine ⟨h.exec_req mac hprin false (g.mgKeyed_badTag f _ hkey hr),
    fun hver hnone => htake (g.takeReq_noSession p.val mac f hver hnone),
    fun x hver hx => ⟨fun hown hnew => htake ?_, fun hbad => htake ?_⟩,
    fun hver hbad => htake ((g.takeReq_v1 p.val mac f hver).trans (if_pos hbad)),
    fun hver hsess hen hnew => htake ((g.takeReq_v1 p.val mac f hver).trans (if_neg ?_))⟩
  · exact (g.takeReq_session p.val mac f hver hx).trans (if_neg (not_or.2 ⟨not_not.2 hown, not_le.2 hnew⟩))
  · exact (g.takeReq_session p.val mac f hver hx).trans (if_pos hbad)
  · exact not_or.2 ⟨not_not.2 hsess, not_or.2 ⟨ne_of_eq_of_ne hen Bool.true_eq_false.mp, not_le.2 hnew⟩⟩

end Engine

/-- Settles O53: a frame by the checks it passes in order, sessions, the flash write, notices and reports each by their rule. -/
theorem managementCommandsComplete : Obligations.ManagementCommandsComplete := by
  unfold Obligations.ManagementCommandsComplete
  refine ⟨?_, ?_, ?_, ?_, ?_⟩
  · intro s t d p mac f ok n hs hn c hc
    have hreq : ∃ req, c = mgInstr t p mac f ok req := by
      rcases List.mem_cons.1 hc with rfl | hc
      · exact ⟨false, rfl⟩
      · exact ⟨true, List.mem_singleton.1 hc⟩
    obtain ⟨req, rfl⟩ := hreq
    exact managementFrame_ports s t d p mac f ok n hs hn req
  · intro s t d g p mac f ok n hs hn hup hle hg hclk hacc hlen hver hroom
    subst hn
    have h : FramePasses s t d g p f := ⟨hs, hup, hle, hg, hclk, hacc, hlen, hver, hroom⟩
    refine ⟨fun h31 => ⟨h.exec mac (.inr h31) true ok (g.mgReq_keyless p.val mac f ok h31),
        h.exec mac (.inr h31) false ok (g.mgOpen_keyless p.val mac f ok h31)⟩,
      fun hprin hbad => h.exec mac (.inl hprin) false ok (g.mgOpen_idle p.val mac f ok hprin hbad),
      fun hprin hkey => h.exec_req mac hprin ok (g.mgKeyed_keyless f _ ok hkey),
      fun hprin hkey hr => h.exec_req mac hprin ok (g.mgKeyed_recovery f _ ok hkey hr), fun hprin hv hsess hpay => ?_,
      fun hprin hkey hr => h.req_complete mac hprin hkey hr⟩
    obtain ⟨hmiss, hrec, hgood⟩ := h.open_complete mac hprin hv hsess hpay ok
    refine ⟨hmiss, hrec, fun hkey hr => ?_⟩
    obtain ⟨htag, huntrusted, hopen⟩ := hgood hkey hr
    refine ⟨htag, huntrusted, fun e htr he => ⟨(hopen e htr he).1, ?_⟩⟩
    intro x y z u v o hfree hx hdraw hu hv' ho
    subst hu hv' ho
    exact (hopen e htr he).2 x y z hfree hx hdraw
  · exact fun s t d n x hs hx => ⟨exec_sessionLapse hs hx, exec_sessionIdleTimeout hs hx⟩
  · intro s t d g ok p mac mseq n o hs
    refine ⟨exec_flashWriteDone_idle hs, exec_flashWriteDone hs, ?_⟩
    show execNoticeSend t s = _
    exact State.runClk_to hs rfl
  · intro s t d e x l a j js i hs hx
    refine ⟨fun h => exec_attestReportReady hs (Dev.attestDone_idle hx h), fun ha hj hw h => exec_attestReportReady hs ?_⟩
    have hx' := hx.symm.trans ha
    rcases h with ⟨hab, rfl, rfl⟩ | ⟨hab, hid, htr, rfl, rfl⟩ | ⟨hab, hid, htr, rfl, rfl⟩
    · exact Dev.attestDone_abandoned hx' hj hw hab
    · have hr := Dev.attestDone_report hx' hj hw hab hid (r := (List.replicate 32 0, e)) (by rw [htr]; rfl)
      rwa [htr] at hr
    · have hr := Dev.attestDone_report hx' hj hw hab hid (r := d.random 32) (by rw [htr, if_pos rfl])
      rwa [htr] at hr

end Sys2Proof.Machine
end

section
/-! PROOFS. What a command may leave alone: the view of a device that its frame tracks. -/

namespace Sys2Proof.Machine

open Sys2Proof

/-! ### The view -/

/-- Which of the parts that some command of a stated family changes a frame tracks: association records; the key cache with its
fetches, record commands and jobs of pages; the shallow queues with the zeroing engine; the deep queues; the free list; the repair
copy with its edits; nanosecond and mains time; the governor; the root, and apart from it its DRBG; the lease of ADMIN_LOCK; the frames of the
ports; masking. -/
structure Watch where
  assoc : Bool := true
  keys : Bool := true
  shallow : Bool := true
  deep : Bool := true
  free : Bool := true
  copy : Bool := true
  time : Bool := true
  gov : Bool := true
  root : Bool := true
  drbg : Bool := true
  lease : Bool := true
  ethOut : Bool := true
  masked : Bool := true

/-- A part where it is tracked. -/
def tracked {α : Type} (b : Bool) (x : α) : Option α := if b then some x else none

/-- What a frame tracks of a device: the parts that no command of a stated family changes, and those that `Watch` names. -/
structure Kept where
  restore : Tab Restore
  loader : Loader
  alarmed : Bool
  inReset : Bool
  badParity : List Nat
  shadow : Tab (Nat × Nat)
  engine : List MgmtJob
  root : Option Root
  drbg : Option (Option Drbg × Nat)
  assoc : Option (Tab Assoc)
  keys : Option (List (Nat × Bool) × List (Nat × Bool) × Tab SaCmd × Tab PageJobs)
  shallow : Option (Tab Shallow × List Nat)
  deep : Option (Tab Deep)
  free : Option (List (Nat × Nat))
  copy : Option (Tab Word32 × Tab Nat)
  time : Option (Nat × Mains)
  gov : Option Gov
  lease : Option (Option Nat)
  ethOut : Option (List EthOut)
  masked : Option Bool

/-- The view of a device. -/
def Dev.kept (W : Watch) (d : Dev) : Kept where
  restore := d.restore
  loader := d.loader
  alarmed := d.alarmed
  inReset := d.inReset
  badParity := d.badParity
  shadow := d.shadow
  engine := d.engine
  root := tracked W.root { d.root with drbg := none, generates := 0 }
  drbg := tracked W.drbg (d.root.drbg, d.root.generates)
  assoc := tracked W.assoc d.assoc
  keys := tracked W.keys (d.cache, d.fetches, d.sa, d.pages)
  shallow := tracked W.shallow (d.shallow, d.zeroing)
  deep := tracked W.deep d.deep
  free := tracked W.free d.free
  copy := tracked W.copy (d.copy, d.edits)
  time := tracked W.time (d.now, d.mains)
  gov := tracked W.gov d.gov
  lease := tracked W.lease d.leaseEnd
  ethOut := tracked W.ethOut d.ethOut
  masked := tracked W.masked d.masked

/-- What is not tracked may take any value. -/
theorem tracked_false {α : Type} {b : Bool} (h : b = false) (x : α) : tracked b x = none := by
  rw [h]; rfl

/-- What is tracked is known. -/
theorem tracked_inj {α : Type} {b : Bool} (h : b = true) {x y : α} (hxy : tracked b x = tracked b y) : x = y := by
  rw [h] at hxy; exact Option.some.inj hxy

variable {W : Watch}

/-- A step that leaves the view, repeated along a list, leaves it. -/
theorem Dev.kept_foldl {α : Type} {f : Dev → α → Dev} (h : ∀ d x, (f d x).kept W = d.kept W) (l : List α) (d : Dev) :
    (l.foldl f d).kept W = d.kept W := by
  induction l generalizing d with
  | nil => rfl
  | cons x l ih => exact (ih (f d x)).trans (h d x)

/-- Either branch leaves the view. -/
theorem Dev.kept_ite (c : Prop) [Decidable c] {a b d : Dev} (ha : a.kept W = d.kept W) (hb : b.kept W = d.kept W) :
    (if c then a else b).kept W = d.kept W := by
  split
  · exact ha
  · exact hb

/-! ### Fields that no frame tracks, and tracked fields where they are not watched -/

theorem Dev.kept_pool (d : Dev) (x : List (Nat × Nat × Nat)) : ({ d with pool := x } : Dev).kept W = d.kept W := by rfl

theorem Dev.kept_poolBusy (d : Dev) (x : List (Nat × Nat)) : ({ d with poolBusy := x } : Dev).kept W = d.kept W := by rfl

theorem Dev.kept_fresh (d : Dev) (x : List (Nat × Nat)) : ({ d with fresh := x } : Dev).kept W = d.kept W := by rfl

theorem Dev.kept_maskWait (d : Dev) (x : List Nat) : ({ d with maskWait := x } : Dev).kept W = d.kept W := by rfl

theorem Dev.kept_maskBlocks (d : Dev) (x : Nat) : ({ d with maskBlocks := x } : Dev).kept W = d.kept W := by rfl

theorem Dev.kept_counters (d : Dev) (x : Tab Counter) : ({ d with counters := x } : Dev).kept W = d.kept W := by rfl

theorem Dev.kept_bwSum (d : Dev) (x : Tab Nat) : ({ d with bwSum := x } : Dev).kept W = d.kept W := by rfl

theorem Dev.kept_linkWait (d : Dev) (x : Tab (Option Nat)) : ({ d with linkWait := x } : Dev).kept W = d.kept W := by rfl

theorem Dev.kept_returning (d : Dev) (x : List (Nat × Nat)) : ({ d with returning := x } : Dev).kept W = d.kept W := by rfl

theorem Dev.kept_sessions (d : Dev) (x : List Session) : ({ d with sessions := x } : Dev).kept W = d.kept W := by rfl

theorem Dev.kept_mgSec (d : Dev) (x : Tab Nat) : ({ d with mgSec := x } : Dev).kept W = d.kept W := by rfl

theorem Dev.kept_lastCause (d : Dev) (x : Nat × Nat) : ({ d with lastCause := x } : Dev).kept W = d.kept W := by rfl

theorem Dev.kept_missAt (d : Dev) (x : Nat × Nat) : ({ d with missAt := x } : Dev).kept W = d.kept W := by rfl

theorem Dev.kept_syncAt (d : Dev) (x : Option Nat) : ({ d with syncAt := x } : Dev).kept W = d.kept W := by rfl

theorem Dev.kept_pfcOff (d : Dev) (x : Bool) : ({ d with pfcOff := x } : Dev).kept W = d.kept W := by rfl

theorem Dev.kept_draws (d : Dev) (x : Nat) : ({ d with draws := x } : Dev).kept W = d.kept W := by rfl

theorem Dev.kept_flagOps (d : Dev) (x : Nat × List FlagOps) : ({ d with flagOps := x } : Dev).kept W = d.kept W := by rfl

theorem Dev.kept_pools (d : Dev) (x : List (Nat × Nat × Nat)) (y : List (Nat × Nat)) :
    ({ d with pool := x, poolBusy := y } : Dev).kept W = d.kept W := by rfl

theorem Dev.kept_pfc (d : Dev) (x : Bool) (y : Nat) : ({ d with pfcOff := x, pfcAt := y } : Dev).kept W = d.kept W := by rfl

theorem Dev.kept_pfcOut (d : Dev) (x : List PfcOut) : ({ d with pfcOut := x } : Dev).kept W = d.kept W := by rfl

theorem Dev.kept_links (d : Dev) (x : List (Nat × Nat)) (y z : Tab (Option Nat)) (p : Nat) :
    ({ d with returning := x, downSince := y, upSince := z, lastDown := p } : Dev).kept W = d.kept W := by rfl

theorem Dev.kept_window (d : Dev) (x : Tab Nat) (y : Option Nat) (b : Bool) :
    ({ d with bwSum := x, bwLast := y, bwFresh := b } : Dev).kept W = d.kept W := by rfl

theorem Dev.kept_mgtOut (d : Dev) (x : Tab Nat) (y : List MgmtOut) :
    ({ d with bwSum := x, mgtOut := y } : Dev).kept W = d.kept W := by rfl

theorem Dev.kept_captures (d : Dev) (x : Tab Capture) : ({ d with captures := x } : Dev).kept W = d.kept W := by rfl

theorem Dev.kept_paused (d : Dev) (x : Tab Nat) : ({ d with paused := x } : Dev).kept W = d.kept W := by rfl

theorem Dev.kept_pfcAt (d : Dev) (x : Nat) : ({ d with pfcAt := x } : Dev).kept W = d.kept W := by rfl

theorem Dev.kept_linkUp (d : Dev) (x y z : Tab (Option Nat)) :
    ({ d with downSince := x, upSince := y, linkWait := z } : Dev).kept W = d.kept W := by rfl

theorem Dev.kept_assoc (d : Dev) (x : Tab Assoc) (hassoc : W.assoc = false) :
    ({ d with assoc := x } : Dev).kept W = d.kept W := by
  simp only [Dev.kept, tracked_false hassoc]

theorem Dev.kept_cache (d : Dev) (x : List (Nat × Bool)) (hkeys : W.keys = false) :
    ({ d with cache := x } : Dev).kept W = d.kept W := by
  simp only [Dev.kept, tracked_false hkeys]

theorem Dev.kept_sa (d : Dev) (x : Tab SaCmd) (hkeys : W.keys = false) : ({ d with sa := x } : Dev).kept W = d.kept W := by
  simp only [Dev.kept, tracked_false hkeys]

theorem Dev.kept_pages (d : Dev) (x : Tab PageJobs) (hkeys : W.keys = false) :
    ({ d with pages := x } : Dev).kept W = d.kept W := by
  simp only [Dev.kept, tracked_false hkeys]

theorem Dev.kept_free (d : Dev) (x : List (Nat × Nat)) (hfree : W.free = false) :
    ({ d with free := x } : Dev).kept W = d.kept W := by
  simp only [Dev.kept, tracked_false hfree]

theorem Dev.kept_mains (d : Dev) (x : Mains) (htime : W.time = false) : ({ d with mains := x } : Dev).kept W = d.kept W := by
  simp only [Dev.kept, tracked_false htime]

theorem Dev.kept_leaseEnd (d : Dev) (x : Option Nat) (hlease : W.lease = false) :
    ({ d with leaseEnd := x } : Dev).kept W = d.kept W := by
  simp only [Dev.kept, tracked_false hlease]

theorem Dev.kept_ethOut (d : Dev) (x : List EthOut) (hethOut : W.ethOut = false) :
    ({ d with ethOut := x } : Dev).kept W = d.kept W := by
  simp only [Dev.kept, tracked_false hethOut]

theorem Dev.kept_masked (d : Dev) (x : Bool) (hmasked : W.masked = false) :
    ({ d with masked := x } : Dev).kept W = d.kept W := by
  simp only [Dev.kept, tracked_false hmasked]

theorem Dev.kept_zeroing (d : Dev) (x : List Nat) (hshallow : W.shallow = false) :
    ({ d with zeroing := x } : Dev).kept W = d.kept W := by
  simp only [Dev.kept, tracked_false hshallow]

theorem Dev.kept_gov (d : Dev) (x : Gov) (hgov : W.gov = false) : ({ d with gov := x } : Dev).kept W = d.kept W := by
  simp only [Dev.kept, tracked_false hgov]

theorem Dev.kept_egress (d : Dev) (x : List EthOut) (y z : Tab Nat) (hethOut : W.ethOut = false) :
    ({ d with ethOut := x, rr := y, shimSeq := z } : Dev).kept W = d.kept W := by
  simp only [Dev.kept, tracked_false hethOut]

/-! ### A command's effect, its instant and its outputs -/

/-- The outputs settle over no tracked part. -/
theorem Dev.settle_kept (d : Dev) : d.settle.kept W = d.kept W := rfl

/-- Up to the command's instant only time passes. -/
theorem Dev.advance_kept (d : Dev) (t : Nat) (htime : W.time = false) : (d.advance t).kept W = d.kept W := by
  unfold Dev.advance
  split
  · rfl
  · simp only [Dev.kept, tracked_false htime]

/-- A command keeps what its effect keeps. -/
theorem State.run_kept {f : Dev → Dev} (hf : ∀ d, (f d).kept W = d.kept W) {s s' : State} {t : Nat}
    (h : s.run t f = .next s') : s'.dev.kept W = (s.at_ t).kept W := by
  cases h
  refine (Dev.settle_kept _).trans ?_
  split
  · rfl
  · exact hf _

/-- The same of a command that acts while REFCLK_SYS is present. -/
theorem State.runClk_kept {f : Dev → Dev} (hf : ∀ d, (f d).kept W = d.kept W) {s s' : State} {t : Nat}
    (h : s.runClk t f = .next s') : s'.dev.kept W = (s.at_ t).kept W :=
  State.run_kept (fun d => Dev.kept_ite _ (hf d) rfl) h

end Sys2Proof.Machine
end

section
/-! PROOFS. What a frame tracks is left alone: registers, notices, causes and HBM. -/

namespace Sys2Proof.Machine

open Sys2Proof

variable {W : Watch}

/-! ### Registers, notices and causes -/

theorem Dev.setWord_kept (d : Dev) (a : Nat) (w : Word32) : (d.setWord a w).kept W = d.kept W := by rfl

theorem Dev.wr_kept (d : Dev) (f : Field) (v : Nat) : (d.wr f v).kept W = d.kept W := by
  simp only [Dev.wr, Dev.setWord_kept]

theorem Dev.hwNote_kept (d : Dev) (f : Field) (n : Nat) : (d.hwNote f n).kept W = d.kept W := by rfl

theorem Dev.inc_kept (d : Dev) (f : Field) (n : Nat) : (d.inc f n).kept W = d.kept W := by
  simp only [Dev.inc, Dev.wr_kept, Dev.hwNote_kept]

theorem Dev.raise_kept (d : Dev) (f : Field) : (d.raise f).kept W = d.kept W := by
  simp only [Dev.raise, Dev.wr_kept, Dev.hwNote_kept]

theorem Dev.wrS_kept (d : Dev) (f : Field) (v : Int) : (d.wrS f v).kept W = d.kept W := by
  simp only [Dev.wrS, Dev.wr_kept]

theorem Dev.wr64_kept (d : Dev) (lo hi : Field) (v : Nat) : (d.wr64 lo hi v).kept W = d.kept W := by
  simp only [Dev.wr64, Dev.wr_kept]

theorem Dev.resetRange_kept (d : Dev) (lo hi : Nat) : (d.resetRange lo hi).kept W = d.kept W := by rfl

theorem Dev.setCh_kept (d : Dev) (k : Nat) (c : Chan) : (d.setCh k c).kept W = d.kept W := by rfl

theorem Dev.modCh_kept (d : Dev) (k : Nat) (f : Chan → Chan) : (d.modCh k f).kept W = d.kept W := by
  simp only [Dev.modCh, Dev.setCh_kept]

theorem Dev.setSq_kept (d : Dev) (q : Nat) (s : Seq) : (d.setSq q s).kept W = d.kept W := by rfl

theorem Dev.modSq_kept (d : Dev) (q : Nat) (f : Seq → Seq) : (d.modSq q f).kept W = d.kept W := by
  simp only [Dev.modSq, Dev.setSq_kept]

theorem Dev.setSh_kept (d : Dev) (q : Nat) (s : Shallow) (hshallow : W.shallow = false) : (d.setSh q s).kept W = d.kept W := by
  simp only [Dev.kept, Dev.setSh, tracked_false hshallow]

theorem Dev.setDq_kept (d : Dev) (q : Nat) (s : Deep) (hdeep : W.deep = false) : (d.setDq q s).kept W = d.kept W := by
  simp only [Dev.kept, Dev.setDq, tracked_false hdeep]

theorem Dev.setPage_kept (d : Dev) (p : Nat) (j : PageJobs) (hkeys : W.keys = false) : (d.setPage p j).kept W = d.kept W := by
  simp only [Dev.setPage, hkeys, Dev.kept_pages]

theorem Dev.modLf_kept (d : Dev) (k : Nat) (f : Luafen → Luafen) : (d.modLf k f).kept W = d.kept W := by
  simp only [Dev.modLf, Dev.modCh_kept]

theorem Dev.count_kept (d : Dev) (x : CountEvent) : (d.count x).kept W = d.kept W := by
  unfold Dev.count
  split
  · rfl
  · simp only []

theorem Dev.event_kept (d : Dev) (grp sub inst inc : Nat) : (d.event grp sub inst inc).kept W = d.kept W := by
  simp only [Dev.event, Dev.count_kept]

theorem Dev.seqnote_kept (d : Dev) (q tag : Nat) : (d.seqnote q tag).kept W = d.kept W := by
  simp only [Dev.seqnote, Dev.count_kept, Dev.event_kept]

theorem Dev.random_kept (d : Dev) (n : Nat) (hdrbg : W.drbg = false) : (d.random n).2.kept W = d.kept W := by
  unfold Dev.random
  split <;> simp only [Dev.kept, tracked_false hdrbg]

theorem Dev.draw_kept (d : Dev) (hdrbg : W.drbg = false) : d.draw.2.kept W = d.kept W := by
  simp only [Dev.draw, Dev.random_kept, hdrbg]

theorem Dev.drawKey_kept (d : Dev) (hdrbg : W.drbg = false) : d.drawKey.2.kept W = d.kept W := by
  simp only [Dev.drawKey, Dev.random_kept, hdrbg]

theorem Dev.drawCtr_kept (d : Dev) (hdrbg : W.drbg = false) : d.drawCtr.2.kept W = d.kept W := by
  simp only [Dev.drawCtr, Dev.draw_kept, hdrbg]

theorem Dev.queueNotice_kept (d : Dev) (n : Notice) : (d.queueNotice n).2.kept W = d.kept W := by
  unfold Dev.queueNotice
  split
  rfl

theorem Dev.notLost_kept (d : Dev) (lost : Nat) : (d.notLost lost).kept W = d.kept W := by
  simp only [Dev.notLost, Dev.inc_kept, apply_ite (Dev.kept W), ite_self]

theorem Dev.mgRise_kept (d : Dev) (code count : Nat) : (d.mgRise code count).kept W = d.kept W := by
  simp only [Dev.mgRise, Dev.queueNotice_kept, Dev.notLost_kept, Dev.kept_mgSec, apply_ite (Dev.kept W), ite_self]

theorem Dev.notice_kept (d : Dev) (n : Notice) : (d.notice n).kept W = d.kept W := by
  simp only [Dev.notice, Dev.queueNotice_kept, Dev.mgRise_kept, Dev.notLost_kept, apply_ite (Dev.kept W), ite_self]

theorem Dev.lastFault_kept (d : Dev) (code : Nat) (chan : Option Nat) : (d.lastFault code chan).kept W = d.kept W := by
  refine Dev.kept_ite _ rfl ((Dev.kept_lastCause _ _).trans ?_)
  simp only [Dev.wr_kept]

theorem Dev.cause_kept (d : Dev) (code : Nat) (w : CauseAt) : (d.cause code w).kept W = d.kept W := by
  unfold Dev.cause
  (repeat' split) <;> simp only [Dev.lastFault_kept, Dev.raise_kept, Dev.inc_kept, Dev.event_kept, Dev.notice_kept]

theorem Dev.causes_kept (d : Dev) (n code : Nat) (w : CauseAt) : (d.causes n code w).kept W = d.kept W := by
  simp only [Dev.causes, Dev.cause_kept, Dev.kept_foldl, implies_true]

/-! ### HBM and records -/

theorem Dev.hbmWrite_kept (d : Dev) (n : Nat) (l : List (BitVec 128)) : (d.hbmWrite n l).kept W = d.kept W := by rfl

theorem Dev.storeRecord_kept (d : Dev) (i : Nat) (a : Assoc) : (d.storeRecord i a).kept W = d.kept W := by
  simp only [Dev.storeRecord, Dev.hbmWrite_kept]

theorem Dev.setSa_kept (d : Dev) (i : Nat) (a : Assoc) (hassoc : W.assoc = false) : (d.setSa i a).kept W = d.kept W := by
  simp only [Dev.setSa, Dev.storeRecord_kept, hassoc, Dev.kept_assoc]

end Sys2Proof.Machine
end

section
/-! PROOFS. What a frame tracks is left alone: the canvas and its queues. -/

namespace Sys2Proof.Machine

open Sys2Proof

variable {W : Watch}

theorem Dev.ripen_kept (d : Dev) (hfree : W.free = false) : d.ripen.kept W = d.kept W := by
  simp only [Dev.kept, Dev.ripen, tracked_false hfree]

theorem Dev.returnCell_kept (d : Dev) (c : Nat) (hfree : W.free = false) : (d.returnCell c).kept W = d.kept W := by
  simp only [Dev.returnCell, Dev.ripen_kept, hfree, Dev.kept_fresh, apply_ite (Dev.kept W), ite_self]

theorem Dev.returnCells_kept (d : Dev) (cs : List Nat) (hfree : W.free = false) : (d.returnCells cs).kept W = d.kept W := by
  simp only [Dev.returnCells, Dev.returnCell_kept, hfree, Dev.kept_foldl, implies_true]

theorem Dev.zeroCells_kept (d : Dev) (cs : List Nat) (hshallow : W.shallow = false) : (d.zeroCells cs).kept W = d.kept W := by
  simp only [Dev.kept, Dev.zeroCells, tracked_false hshallow]

theorem Dev.freeJob_kept (d : Dev) (x : TxJob) (hfree : W.free = false) : (d.freeJob x).kept W = d.kept W := by
  simp only [Dev.freeJob, Dev.returnCells_kept, hfree]

theorem Dev.addUpper_kept (d : Dev) (hfree : W.free = false) : d.addUpper.kept W = d.kept W := by
  simp only [Dev.addUpper, hfree, Dev.kept_free]

theorem Dev.dropUpper_kept (d : Dev) (hfree : W.free = false) : d.dropUpper.kept W = d.kept W := by
  simp only [Dev.kept, Dev.dropUpper, tracked_false hfree]

theorem Dev.writeHalf1_kept (d : Dev) (v : Bool) (hfree : W.free = false) : (d.writeHalf1 v).kept W = d.kept W := by
  simp only [Dev.writeHalf1, Dev.wr_kept, Dev.addUpper_kept, Dev.dropUpper_kept, hfree, apply_ite (Dev.kept W), ite_self]

theorem Dev.sendPfc_kept (d : Dev) (quanta : Nat) : (d.sendPfc quanta).kept W = d.kept W :=
  (Dev.kept_foldl (fun d _ => d.event_kept _ _ _ _) _ _).trans (d.kept_pfcOut _)

theorem Dev.pfcCheck_kept (d : Dev) : d.pfcCheck.kept W = d.kept W := by
  refine Dev.kept_ite _ rfl (Dev.kept_ite _ ?_ (Dev.kept_ite _ ?_ rfl))
  · exact (Dev.kept_pfc _ _ _).trans (d.sendPfc_kept _)
  · exact (Dev.kept_pfcOff _ _).trans (d.sendPfc_kept _)

theorem Dev.ethAdd_kept (d : Dev) (q : Nat) (bs : List Byte) (hethOut : W.ethOut = false) :
    (d.ethAdd q bs).kept W = d.kept W := by
  simp only [Dev.ethAdd, hethOut, Dev.kept_ethOut]

theorem Dev.returnAfter_kept (d : Dev) (q : Nat) : (d.returnAfter q).kept W = d.kept W := by
  simp only [Dev.returnAfter, Dev.wr_kept, Dev.kept_returning, Dev.kept_foldl, implies_true]

theorem Dev.ethEnd_kept (d : Dev) (q : Nat) (truncated : Bool) (hethOut : W.ethOut = false) :
    (d.ethEnd q truncated).kept W = d.kept W := by
  unfold Dev.ethEnd
  split
  · refine Dev.kept_ite _ ?_ ?_
    · exact (Dev.kept_ethOut _ _ hethOut).trans (d.returnAfter_kept q)
    · refine (Dev.kept_ethOut _ _ hethOut).trans ((Dev.kept_bwSum _ _).trans ?_)
      simp only [Dev.event_kept, Dev.returnAfter_kept]
  · rfl

theorem Dev.detachSh_kept (d : Dev) (q : Nat) (s : Shallow) (hshallow : W.shallow = false) :
    (d.detachSh q s).2.kept W = d.kept W := by
  simp only [Dev.detachSh, Dev.setSh_kept, hshallow]

theorem Dev.putSh_kept (d : Dev) (q : Nat) (s : Shallow) (zero : Bool) (hshallow : W.shallow = false) (hfree : W.free = false) :
    (d.putSh q s zero).kept W = d.kept W := by
  simp only [Dev.putSh, Dev.setSh_kept, Dev.zeroCells_kept, Dev.returnCells_kept, hshallow, hfree, apply_ite (Dev.kept W),
    ite_self]

theorem Dev.askPush_kept (d : Dev) (q : QueueId) (n : Nat) : (d.askPush q n).2.kept W = d.kept W := by rfl

theorem Dev.askPop_kept (d : Dev) (q : QueueId) (n : Nat) : (d.askPop q n).2.kept W = d.kept W := by rfl

theorem Dev.abortTail_kept (d : Dev) (q : Nat) (hshallow : W.shallow = false) (hfree : W.free = false) :
    (d.abortTail q).kept W = d.kept W := by
  simp only [Dev.abortTail]
  split <;> simp only [Dev.setSh_kept, Dev.putSh_kept, hshallow, hfree, apply_ite (Dev.kept W), ite_self]

theorem Dev.overrunSh_kept (d : Dev) (q need : Nat) (ended : Bool) (hshallow : W.shallow = false) (hfree : W.free = false) :
    (d.overrunSh q need ended).kept W = d.kept W := by
  simp only [Dev.overrunSh, Dev.event_kept, Dev.inc_kept, Dev.raise_kept, Dev.abortTail_kept, Dev.setSh_kept, Dev.cause_kept,
    hshallow, hfree, apply_ite (Dev.kept W), ite_self]

theorem Dev.pushShallow_kept (d : Dev) (q cls : Nat) (words : List Word64) (last : Option Nat) (hshallow : W.shallow = false)
    (hfree : W.free = false) :
    (d.pushShallow q cls words last).kept W = d.kept W := by
  simp only [Dev.pushShallow, Dev.setSh_kept, hshallow, apply_ite (Dev.kept W)]
  (repeat' split) <;>
    simp only [Dev.setSh_kept, Dev.ripen_kept, Dev.overrunSh_kept, Dev.event_kept, hshallow, hfree, Dev.kept_free]

theorem Dev.pushGroups_kept (d : Dev) (q cls octets : Nat) (l : List (List Word64)) (hshallow : W.shallow = false)
    (hfree : W.free = false) :
    (d.pushGroups q cls octets l).kept W = d.kept W := by
  induction l generalizing d with
  | nil => rfl
  | cons g l ih =>
    cases l with
    | nil => exact d.pushShallow_kept q cls g _ hshallow hfree
    | cons x l => exact (ih (d.pushShallow q cls g none)).trans (d.pushShallow_kept q cls g none hshallow hfree)

theorem Dev.pushContent_kept (d : Dev) (q cls : Nat) (content : List Byte) (hshallow : W.shallow = false)
    (hfree : W.free = false) :
    (d.pushContent q cls content).kept W = d.kept W := by
  simp only [Dev.pushContent, Dev.pushGroups_kept, hshallow, hfree]

theorem Dev.beginItem_kept (d : Dev) (q : Nat) (hshallow : W.shallow = false) : (d.beginItem q).kept W = d.kept W := by
  simp only [Dev.beginItem, Dev.setSh_kept, hshallow]

theorem Dev.prune_kept (d : Dev) (q : Nat) (hshallow : W.shallow = false) (hfree : W.free = false) :
    (d.prune q).kept W = d.kept W := by
  simp only [Dev.prune]
  split <;> simp only [Dev.event_kept, Dev.inc_kept, Dev.putSh_kept, hshallow, hfree, apply_ite (Dev.kept W), ite_self]

theorem Dev.flushShallow_kept (d : Dev) (q : Nat) (hshallow : W.shallow = false) (hfree : W.free = false)
    (hethOut : W.ethOut = false) :
    (d.flushShallow q).kept W = d.kept W := by
  simp only [Dev.flushShallow, Dev.putSh_kept, Dev.inc_kept, Dev.raise_kept, Dev.ethEnd_kept, hshallow, hfree, hethOut,
    apply_ite (Dev.kept W), ite_self]

theorem Dev.cutFrame_kept (d : Dev) (q : Nat) (hshallow : W.shallow = false) (hfree : W.free = false)
    (hethOut : W.ethOut = false) :
    (d.cutFrame q).kept W = d.kept W := by
  simp only [Dev.cutFrame, Dev.prune_kept, Dev.ethEnd_kept, hshallow, hfree, hethOut]

theorem Dev.linkError_kept (d : Dev) (q : Nat) (hshallow : W.shallow = false) (hfree : W.free = false)
    (hethOut : W.ethOut = false) :
    (d.linkError q).kept W = d.kept W := by
  simp only [Dev.linkError, Dev.setSh_kept, Dev.cause_kept, Dev.raise_kept, Dev.flushShallow_kept, hshallow, hfree, hethOut]

theorem Dev.popWords_kept (d : Dev) (q n : Nat) (bad : Option Nat) (late : Nat) (hshallow : W.shallow = false)
    (hfree : W.free = false) (hethOut : W.ethOut = false) :
    (d.popWords q n bad late).kept W = d.kept W := by
  simp only [Dev.popWords]
  split <;>
    simp only [Dev.cause_kept, Dev.raise_kept, Dev.event_kept, Dev.ethAdd_kept, Dev.cutFrame_kept, Dev.setSh_kept,
      Dev.ethEnd_kept, Dev.putSh_kept, hshallow, hfree, hethOut, apply_ite (Dev.kept W), ite_self]

theorem Dev.popShallow_kept (d : Dev) (q n : Nat) (bad : Option Nat) (hshallow : W.shallow = false) (hfree : W.free = false)
    (hethOut : W.ethOut = false) :
    (d.popShallow q n bad).kept W = d.kept W := by
  simp only [Dev.popShallow, Dev.beginItem_kept, Dev.popWords_kept, hshallow, hfree, hethOut, apply_ite (Dev.kept W), ite_self]

theorem Dev.popItem_kept (d : Dev) (q : Nat) (hshallow : W.shallow = false) (hfree : W.free = false)
    (hethOut : W.ethOut = false) :
    (d.popItem q).kept W = d.kept W := by
  simp only [Dev.popItem, Dev.popWords_kept, Dev.beginItem_kept, hshallow, hfree, hethOut]

theorem Dev.deepFetch_kept (d : Dev) (q : Nat) (hdeep : W.deep = false) : (d.deepFetch q).kept W = d.kept W := by
  simp only [Dev.deepFetch, Dev.event_kept, Dev.setDq_kept, hdeep]

theorem Dev.rewriteWord_kept (d : Dev) (q p : Nat) : (d.rewriteWord q p).kept W = d.kept W := by
  simp only [Dev.rewriteWord, Dev.event_kept, Dev.hbmWrite_kept, apply_ite (Dev.kept W), ite_self]

theorem Dev.dropDeepTail_kept (d : Dev) (q : Nat) (hdeep : W.deep = false) : (d.dropDeepTail q).kept W = d.kept W := by
  simp only [Dev.dropDeepTail]
  split <;> simp only [Dev.wr_kept, Dev.setDq_kept, hdeep, apply_ite (Dev.kept W), ite_self]

theorem Dev.pushDeepNow_kept (d : Dev) (q cls : Nat) (words : List (Word64 × Bool)) (last : Option Nat) (hdeep : W.deep = false)
    :
    (d.pushDeepNow q cls words last).kept W = d.kept W := by
  simp only [Dev.pushDeepNow, Dev.event_kept, Dev.inc_kept, Dev.raise_kept, Dev.dropDeepTail_kept, Dev.setDq_kept,
    Dev.cause_kept, Dev.wr_kept, Dev.rewriteWord_kept, hdeep, apply_ite (Dev.kept W), ite_self]

theorem Dev.pushDeep_kept (d : Dev) (q cls : Nat) (words : List (Word64 × Bool)) (last : Option Nat) (hdeep : W.deep = false) :
    (d.pushDeep q cls words last).kept W = d.kept W := by
  simp only [Dev.pushDeep, Dev.setDq_kept, Dev.pushDeepNow_kept, hdeep, apply_ite (Dev.kept W), ite_self]

theorem Dev.followRd_kept (d : Dev) (i : Nat) : (d.followRd i).kept W = d.kept W := by
  simp only [Dev.followRd, Dev.wr_kept, apply_ite (Dev.kept W), ite_self]

theorem Dev.followQueue_kept (d : Dev) (q : Nat) : (d.followQueue q).kept W = d.kept W := by
  unfold Dev.followQueue
  split <;> simp only [Dev.followRd_kept]

theorem Dev.pushWaiting_kept (d : Dev) (q : Nat) (l : List (List (Word64 × Bool) × Option Nat × Nat)) (hdeep : W.deep = false) :
    (d.pushWaiting q l).kept W = d.kept W := by
  simp only [Dev.pushWaiting, Dev.pushDeep_kept, hdeep, Dev.kept_foldl, implies_true]

theorem Dev.flushDeep_kept (d : Dev) (q : Nat) (hdeep : W.deep = false) : (d.flushDeep q).kept W = d.kept W := by
  simp only [Dev.flushDeep, Dev.wr_kept, Dev.setDq_kept, Dev.inc_kept, Dev.raise_kept, Dev.pushWaiting_kept,
    Dev.followQueue_kept, hdeep, apply_ite (Dev.kept W), ite_self]

theorem Dev.abortDeep_kept (d : Dev) (q : Nat) (hdeep : W.deep = false) : (d.abortDeep q).kept W = d.kept W := by
  simp only [Dev.abortDeep, Dev.dropDeepTail_kept, Dev.setDq_kept, hdeep, apply_ite (Dev.kept W), ite_self]

theorem Dev.disableShallow_kept (d : Dev) (q : Nat) (hshallow : W.shallow = false) (hfree : W.free = false)
    (hethOut : W.ethOut = false) :
    (d.disableShallow q).kept W = d.kept W := by
  simp only [Dev.disableShallow, Dev.wr_kept, Dev.flushShallow_kept, Dev.setSh_kept, hshallow, hfree, hethOut]

theorem Dev.disableDeep_kept (d : Dev) (q : Nat) (hshallow : W.shallow = false) (hdeep : W.deep = false) :
    (d.disableDeep q).kept W = d.kept W := by
  simp only [Dev.disableDeep, Dev.flushDeep_kept, Dev.wr_kept, Dev.zeroCells_kept, Dev.setDq_kept, hshallow, hdeep]

theorem Dev.enableDeep_kept (d : Dev) (q : Nat) (v : Word32) (hdeep : W.deep = false) (hfree : W.free = false) :
    (d.enableDeep q v).kept W = d.kept W := by
  simp only [Dev.enableDeep]
  split <;>
    simp only [Dev.ripen_kept, Dev.raise_kept, Dev.setDq_kept, Dev.setWord_kept, hdeep, hfree, Dev.kept_free,
      apply_ite (Dev.kept W), ite_self]

theorem Dev.enableQueue_kept (d : Dev) (x : QueueId) (hdeep : W.deep = false) (hfree : W.free = false) :
    (d.enableQueue x).kept W = d.kept W := by
  unfold Dev.enableQueue
  split <;> simp only [Dev.wr_kept, Dev.enableDeep_kept, hdeep, hfree, apply_ite (Dev.kept W), ite_self]

theorem Dev.disableQueue_kept (d : Dev) (x : QueueId) (hshallow : W.shallow = false) (hdeep : W.deep = false)
    (hfree : W.free = false) (hethOut : W.ethOut = false) :
    (d.disableQueue x).kept W = d.kept W := by
  unfold Dev.disableQueue
  split <;>
    simp only [Dev.disableShallow_kept, Dev.disableDeep_kept, hshallow, hdeep, hfree, hethOut, apply_ite (Dev.kept W), ite_self]

theorem Dev.flushQueue_kept (d : Dev) (x : QueueId) (hshallow : W.shallow = false) (hdeep : W.deep = false)
    (hfree : W.free = false) (hethOut : W.ethOut = false) :
    (d.flushQueue x).kept W = d.kept W := by
  cases x with
  | shallow q => exact d.flushShallow_kept q.val hshallow hfree hethOut
  | deep q => exact d.flushDeep_kept q.val hdeep

theorem Dev.moveRd_kept (d : Dev) (q rd : Nat) (hdeep : W.deep = false) : (d.moveRd q rd).kept W = d.kept W := by
  simp only [Dev.moveRd, Dev.wr_kept, Dev.setDq_kept, hdeep]

theorem Dev.release_kept (d : Dev) (q n : Nat) (hdeep : W.deep = false) : (d.release q n).kept W = d.kept W := by
  simp only [Dev.release, Dev.wr_kept, Dev.setDq_kept, Dev.raise_kept, hdeep, apply_ite (Dev.kept W), ite_self]

theorem Dev.rewindHead_kept (d : Dev) (q : Nat) (hdeep : W.deep = false) : (d.rewindHead q).kept W = d.kept W := by
  simp only [Dev.rewindHead, Dev.deepFetch_kept, Dev.inc_kept, Dev.wr_kept, Dev.moveRd_kept, hdeep]

theorem Dev.rewindMark_kept (d : Dev) (q : Nat) (hdeep : W.deep = false) : (d.rewindMark q).kept W = d.kept W := by
  simp only [Dev.rewindMark, Dev.deepFetch_kept, Dev.moveRd_kept, hdeep]

theorem Dev.markDeep_kept (d : Dev) (q : Nat) : (d.markDeep q).kept W = d.kept W := by
  simp only [Dev.markDeep, Dev.wr_kept]

theorem Dev.raiseHwm_kept (d : Dev) (q : Nat) : (d.raiseHwm q).kept W = d.kept W := by
  simp only [Dev.raiseHwm, Dev.wr_kept, apply_ite (Dev.kept W), ite_self]

theorem execQueuePush_kept {s s' : State} {t : Nat} {q : QueueId} {cls : Fin 4} {words : List Word64} {last : Option (Fin 9)}
    (hshallow : W.shallow = false) (hdeep : W.deep = false) (hfree : W.free = false)
    (h : execQueuePush t q cls words last s = .next s') :
    s'.dev.kept W = (s.at_ t).kept W := by
  refine State.runClk_kept (fun d => ?_) h
  dsimp only
  (repeat' split) <;>
    simp only [Dev.askPush_kept, Dev.pfcCheck_kept, Dev.pushShallow_kept, Dev.pushDeep_kept, hshallow, hdeep, hfree]

theorem Dev.poisonDeep_kept (d : Dev) (q n : Nat) (hdeep : W.deep = false) : (d.poisonDeep q n).kept W = d.kept W := by
  simp only [Dev.poisonDeep]
  split <;> simp only [Dev.cause_kept, Dev.raise_kept, Dev.event_kept, Dev.setDq_kept, hdeep, apply_ite (Dev.kept W), ite_self]

theorem Dev.poisonShallow_kept (d : Dev) (q n : Nat) (hshallow : W.shallow = false) :
    (d.poisonShallow q n).kept W = d.kept W := by
  simp only [Dev.poisonShallow]
  split <;>
    simp only [Dev.cause_kept, Dev.raise_kept, Dev.event_kept, Dev.setSh_kept, hshallow, apply_ite (Dev.kept W), ite_self]

theorem execQueuePop_kept {s s' : State} {t : Nat} {q : QueueId} {n : Nat} {badWord : Option Nat} {badLink : Bool} (hshallow :
    W.shallow = false) (hdeep : W.deep = false) (hfree : W.free = false) (hethOut : W.ethOut = false)
    (h : execQueuePop t q n badWord badLink s = .next s') :
    s'.dev.kept W = (s.at_ t).kept W := by
  refine State.runClk_kept (fun d => ?_) h
  dsimp only
  (repeat' split) <;>
    simp only [Dev.pfcCheck_kept, Dev.linkError_kept, Dev.poisonShallow_kept, Dev.askPop_kept, Dev.popShallow_kept,
      Dev.cause_kept, Dev.raise_kept, Dev.flushDeep_kept, Dev.poisonDeep_kept, hshallow, hdeep, hfree, hethOut]

theorem execPrune_kept {s s' : State} {t : Nat} {q : Fin 8192} (hshallow : W.shallow = false) (hfree : W.free = false)
    (hethOut : W.ethOut = false) (h : execPrune t q s = .next s') :
    s'.dev.kept W = (s.at_ t).kept W := by
  refine State.runClk_kept (fun d => ?_) h
  simp only [Dev.cutFrame_kept, hshallow, hfree, hethOut, apply_ite (Dev.kept W), ite_self]

theorem execFlush_kept {s s' : State} {t : Nat} {q : QueueId} (hshallow : W.shallow = false) (hdeep : W.deep = false)
    (hfree : W.free = false) (hethOut : W.ethOut = false) (h : execFlush t q s = .next s') :
    s'.dev.kept W = (s.at_ t).kept W := by
  refine State.runClk_kept (fun d => ?_) h
  simp only [Dev.flushQueue_kept, hshallow, hdeep, hfree, hethOut, apply_ite (Dev.kept W), ite_self]

theorem execAbort_kept {s s' : State} {t : Nat} {q : QueueId} (hshallow : W.shallow = false) (hdeep : W.deep = false)
    (hfree : W.free = false) (h : execAbort t q s = .next s') :
    s'.dev.kept W = (s.at_ t).kept W := by
  refine State.runClk_kept (fun d => ?_) h
  split <;> simp only [Dev.abortTail_kept, Dev.setSh_kept, Dev.abortDeep_kept, hshallow, hdeep, hfree]

theorem execZeroingDone_kept {s s' : State} {t : Nat} (hshallow : W.shallow = false) (hfree : W.free = false)
    (h : execZeroingDone t s = .next s') :
    s'.dev.kept W = (s.at_ t).kept W := by
  refine State.runClk_kept (fun d => ?_) h
  split
  · exact (Dev.pfcCheck_kept _).trans ((Dev.returnCell_kept _ _ hfree).trans (d.kept_zeroing _ hshallow))
  · rfl

theorem Dev.encryptSector_kept (d : Dev) (q : Nat) : (d.encryptSector q).kept W = d.kept W := by
  simp only [Dev.encryptSector, Dev.hbmWrite_kept]

theorem execQueueEnable_kept {s s' : State} {t : Nat} {q : QueueId} (hdeep : W.deep = false) (hfree : W.free = false)
    (h : execQueueEnable t q s = .next s') :
    s'.dev.kept W = (s.at_ t).kept W := by
  refine State.runClk_kept (fun d => ?_) h
  simp only [Dev.pfcCheck_kept, Dev.enableQueue_kept, hdeep, hfree, apply_ite (Dev.kept W), ite_self]

theorem execQueueDisable_kept {s s' : State} {t : Nat} {q : QueueId} (hshallow : W.shallow = false) (hdeep : W.deep = false)
    (hfree : W.free = false) (hethOut : W.ethOut = false) (h : execQueueDisable t q s = .next s') :
    s'.dev.kept W = (s.at_ t).kept W := by
  refine State.runClk_kept (fun d => ?_) h
  simp only [Dev.disableQueue_kept, hshallow, hdeep, hfree, hethOut]

theorem execHalf1Set_kept {s s' : State} {t : Nat} (hfree : W.free = false) (h : execHalf1Set t s = .next s') :
    s'.dev.kept W = (s.at_ t).kept W := by
  refine State.runClk_kept (fun d => ?_) h
  simp only [Dev.pfcCheck_kept, Dev.writeHalf1_kept, hfree, apply_ite (Dev.kept W), ite_self]

theorem execHalf1Clear_kept {s s' : State} {t : Nat} (hfree : W.free = false) (h : execHalf1Clear t s = .next s') :
    s'.dev.kept W = (s.at_ t).kept W := by
  refine State.runClk_kept (fun d => ?_) h
  simp only [Dev.pfcCheck_kept, Dev.writeHalf1_kept, hfree, apply_ite (Dev.kept W), ite_self]

theorem execPfcRepeat_kept {s s' : State} {t : Nat} (h : execPfcRepeat t s = .next s') : s'.dev.kept W = (s.at_ t).kept W := by
  refine State.runClk_kept (fun d => Dev.kept_ite _ (Dev.kept_ite _ ?_ rfl) d.pfcCheck_kept) h
  exact (Dev.kept_pfcAt _ _).trans (d.sendPfc_kept _)

end Sys2Proof.Machine
end

section
/-! PROOFS. What a frame tracks is left alone: nodes, keys and counters. -/

namespace Sys2Proof.Machine

open Sys2Proof

variable {W : Watch}

/-! ### Node entries -/

theorem Dev.setFctr_kept (d : Dev) (i v : Nat) : (d.setFctr i v).kept W = d.kept W := by
  simp only [Dev.setFctr, Dev.wr64_kept]

theorem Dev.entryParity_kept (d : Dev) (k i : Nat) : (d.entryParity k i).kept W = d.kept W := by
  simp only [Dev.entryParity, Dev.cause_kept, apply_ite (Dev.kept W), ite_self]

theorem Dev.lookupParity_kept (d : Dev) (k a : Nat) : (d.lookupParity k a).kept W = d.kept W := by
  unfold Dev.lookupParity
  split <;> simp only [Dev.entryParity_kept]

theorem Dev.edited_kept (d : Dev) (i : Nat) (hcopy : W.copy = false) : (d.edited i).kept W = d.kept W := by
  simp only [Dev.kept, Dev.edited, tracked_false hcopy]

theorem Dev.copyEntry_kept (d : Dev) (i : Nat) (hcopy : W.copy = false) : (d.copyEntry i).kept W = d.kept W := by
  simp only [Dev.kept, Dev.copyEntry, tracked_false hcopy]

theorem Dev.makeActive_kept (d : Dev) (i : Nat) : (d.makeActive i).kept W = d.kept W := by
  simp only [Dev.makeActive, Dev.wr_kept]

theorem Dev.neighbourHeard_kept (d : Dev) (k src : Nat) (ss : Int) : (d.neighbourHeard k src ss).kept W = d.kept W := by
  simp only [Dev.neighbourHeard, apply_ite (Dev.kept W)]
  (repeat' split) <;> simp only [Dev.lookupParity_kept, Dev.wr_kept, Dev.wrS_kept]

theorem Dev.pushHist_kept (d : Dev) (i : Nat) (ok : Bool) : (d.pushHist i ok).kept W = d.kept W := by
  simp only [Dev.pushHist, Dev.wr_kept]

theorem Dev.dropSession_kept (d : Dev) (i : Nat) (hassoc : W.assoc = false) : (d.dropSession i).kept W = d.kept W := by
  simp only [Dev.dropSession, Dev.setSa_kept, hassoc]

theorem Dev.makeAbsent_kept (d : Dev) (i : Nat) (hassoc : W.assoc = false) : (d.makeAbsent i).kept W = d.kept W := by
  simp only [Dev.makeAbsent, Dev.dropSession_kept, Dev.wr_kept, hassoc]

theorem Dev.putEntry_kept (d : Dev) (i : Nat) (l : List Word32) : (d.putEntry i l).kept W = d.kept W := by
  simp only [Dev.putEntry, Dev.setWord_kept, Dev.kept_foldl, implies_true]

theorem Dev.recommit_kept (d : Dev) (i : Nat) (old new : List Word32) : (d.recommit i old new).kept W = d.kept W := by
  simp only [Dev.recommit, Dev.setWord_kept, Dev.kept_foldl, implies_true]

theorem Dev.asBefore_kept (d : Dev) (f : Dev → Dev) (hf : ∀ d, (f d).kept W = d.kept W) : (d.asBefore f).kept W = d.kept W := by
  unfold Dev.asBefore
  split
  · exact hf d
  · refine (Dev.kept_foldl (fun d e => d.recommit_kept _ _ _) _ _).trans ((hf _).trans ?_)
    exact Dev.kept_foldl (fun d e => d.putEntry_kept _ _) _ d

/-! ### Keys and masking -/

theorem Dev.adoptSession_kept (d : Dev) (i : Nat) (nonceN nonceH : BitVec 64) (addr : Nat) (head : Bool)
    (hassoc : W.assoc = false) :
    (d.adoptSession i nonceN nonceH addr head).kept W = d.kept W := by
  simp only [Dev.adoptSession, Dev.setFctr_kept, Dev.setSa_kept, hassoc]

theorem Dev.askKey_kept (d : Dev) (sa : Nat) (ph : Bool) (cluster : Nat) (hkeys : W.keys = false) :
    (d.askKey sa ph cluster).2.kept W = d.kept W := by
  have hfetch (c l : List (Nat × Bool)) : ({ d with cache := c, fetches := l } : Dev).kept W = d.kept W := by
    simp only [Dev.kept, tracked_false hkeys]
  unfold Dev.askKey
  dsimp only
  split
  · exact d.inc_kept _ _
  split
  · exact d.kept_cache _ hkeys
  split
  · rfl
  split
  · exact (Dev.event_kept _ _ _ _ _).trans (hfetch d.cache _)
  split
  · exact (Dev.event_kept _ _ _ _ _).trans (hfetch _ _)
  · simp only [Dev.inc_kept, Dev.raise_kept]

theorem Dev.bindAsk_kept (d : Dev) (sa : Nat) (ph : Bool) (cluster : Nat) (hkeys : W.keys = false) :
    (d.bindAsk sa ph cluster).2.kept W = d.kept W := by
  unfold Dev.bindAsk
  dsimp only
  split
  · refine (Dev.askKey_kept _ sa ph cluster hkeys).trans ((Dev.cause_kept _ _ _).trans ?_)
    simp only [Dev.kept, tracked_false hkeys]
  · exact d.askKey_kept sa ph cluster hkeys

theorem Dev.noteRewrite_kept (d : Dev) (k : Nat × Bool) (old : BitVec 320) : (d.noteRewrite k old).kept W = d.kept W := by
  unfold Dev.noteRewrite
  split <;> rfl

theorem Dev.abortChanJobs_kept (d : Dev) (k : Nat) (p : Nat × Bool → Bool) : (d.abortChanJobs k p).kept W = d.kept W := by
  simp only [Dev.abortChanJobs, Dev.causes_kept, Dev.inc_kept, Dev.setCh_kept, Dev.kept_draws, apply_ite (Dev.kept W), ite_self]

theorem Dev.abortTenantJobs_kept (d : Dev) (p : Nat × Bool → Bool) (hkeys : W.keys = false) :
    (d.abortTenantJobs p).kept W = d.kept W := by
  simp only [Dev.abortTenantJobs, Dev.causes_kept, Dev.inc_kept, hkeys, Dev.kept_pages, apply_ite (Dev.kept W), ite_self]

theorem Dev.abortStarted_kept (d : Dev) (k : Nat) : (d.abortStarted k).kept W = d.kept W := by
  simp only [Dev.abortStarted, Dev.abortChanJobs_kept, apply_ite (Dev.kept W), ite_self]

theorem Dev.eraseKeys_kept (d : Dev) (p : Nat × Bool → Bool) (hkeys : W.keys = false) : (d.eraseKeys p).kept W = d.kept W := by
  have herased (c : Prop) [Decidable c] (x : Nat × List (Nat × Bool)) :
      (if c then d else { d with erased := x }).kept W = d.kept W := Dev.kept_ite _ rfl rfl
  refine (Dev.abortTenantJobs_kept _ p hkeys).trans ?_
  refine (Dev.kept_foldl (fun d (e : Nat × Chan) => d.abortChanJobs_kept e.1 p) _ _).trans ?_
  exact (Dev.kept_cache _ _ hkeys).trans (herased _ _)

theorem Dev.erasePhase_kept (d : Dev) (sa : Nat) (ph : Bool) (hassoc : W.assoc = false) (hkeys : W.keys = false) :
    (d.erasePhase sa ph).kept W = d.kept W := by
  simp only [Dev.erasePhase, Dev.eraseKeys_kept, Dev.setSa_kept, hassoc, hkeys]

theorem Dev.mirrorPhase_kept (d : Dev) (sa : Nat) : (d.mirrorPhase sa).kept W = d.kept W := by
  unfold Dev.mirrorPhase
  split <;> simp only [Dev.wr_kept]

theorem Dev.completeRoll_kept (d : Dev) (sa : Nat) (hassoc : W.assoc = false) (hkeys : W.keys = false) :
    (d.completeRoll sa).kept W = d.kept W := by
  simp only [Dev.completeRoll, Dev.setSa_kept, Dev.mirrorPhase_kept, Dev.erasePhase_kept, hassoc, hkeys]

theorem Dev.checkRoll_kept (d : Dev) (sa : Nat) (hassoc : W.assoc = false) (hkeys : W.keys = false) :
    (d.checkRoll sa).kept W = d.kept W := by
  simp only [Dev.checkRoll, Dev.completeRoll_kept, hassoc, hkeys, apply_ite (Dev.kept W), ite_self]

theorem Dev.sentUnder_kept (d : Dev) (sa : Nat) (ph : Bool) (hassoc : W.assoc = false) (hkeys : W.keys = false) :
    (d.sentUnder sa ph).kept W = d.kept W := by
  simp only [Dev.sentUnder, Dev.checkRoll_kept, Dev.setSa_kept, hassoc, hkeys, apply_ite (Dev.kept W), ite_self]

theorem Dev.acceptedUnder_kept (d : Dev) (sa : Nat) (ph : Bool) (hassoc : W.assoc = false) (hkeys : W.keys = false) :
    (d.acceptedUnder sa ph).kept W = d.kept W := by
  simp only [Dev.acceptedUnder, Dev.completeRoll_kept, Dev.checkRoll_kept, Dev.mirrorPhase_kept, Dev.setSa_kept, hassoc, hkeys,
    apply_ite (Dev.kept W), ite_self]

theorem Dev.tagFail_kept (d : Dev) (sa : Nat) (chan : Option Nat) (cluster : Nat) (hassoc : W.assoc = false) :
    (d.tagFail sa chan cluster).kept W = d.kept W := by
  simp only [Dev.tagFail, Dev.cause_kept, Dev.event_kept, Dev.inc_kept, Dev.setSa_kept, Dev.notice_kept, Dev.raise_kept, hassoc,
    apply_ite (Dev.kept W), ite_self]

theorem Dev.setMasked_kept (d : Dev) (v : Bool) (hmasked : W.masked = false) : (d.setMasked v).kept W = d.kept W := by
  simp only [Dev.setMasked, Dev.notice_kept, Dev.raise_kept, Dev.wr_kept, Dev.kept_masked, hmasked, apply_ite (Dev.kept W),
    ite_self]

theorem Dev.maskUse_kept (d : Dev) (octets : Nat) (hdrbg : W.drbg = false) : (d.maskUse octets).kept W = d.kept W := by
  simp only [Dev.maskUse, Dev.random_kept, hdrbg, Dev.kept_maskBlocks, Dev.kept_foldl, implies_true, apply_ite (Dev.kept W),
    ite_self]

theorem Dev.pipeEnd_kept (d : Dev) (pipe octets : Nat) (hdrbg : W.drbg = false) (hmasked : W.masked = false) :
    (d.pipeEnd pipe octets).kept W = d.kept W := by
  simp only [Dev.pipeEnd, Dev.maskUse_kept, Dev.setMasked_kept, hdrbg, hmasked, Dev.kept_maskWait, apply_ite (Dev.kept W),
    ite_self]

theorem Dev.hedge_kept (d : Dev) : d.hedge.kept W = d.kept W := by
  simp only [Dev.hedge, Dev.inc_kept, Dev.raise_kept]

/-! ### Counters -/

theorem Dev.setCounter_kept (d : Dev) (c : Nat) (x : Counter) : (d.setCounter c x).kept W = d.kept W := by rfl

theorem Dev.setTimer_kept (d : Dev) (j : Nat) (x : Timer) : (d.setTimer j x).kept W = d.kept W := by rfl

theorem Dev.settingWritten_kept (d : Dev) (c : Nat) : (d.settingWritten c).kept W = d.kept W := by
  simp only [Dev.settingWritten, Dev.setCounter_kept]

theorem Dev.writeSetting_kept (d : Dev) (c which : Nat) (v : Word32) : (d.writeSetting c which v).kept W = d.kept W := by
  unfold Dev.writeSetting
  split <;> simp only [Dev.settingWritten_kept, Dev.setWord_kept, apply_ite (Dev.kept W), ite_self]

theorem execCounterSettingWrite_kept {s s' : State} {t : Nat} {c : Fin 2048} {which : Fin 3} {v : Word32} (h :
    execCounterSettingWrite t c which v s = .next s') :
    s'.dev.kept W = (s.at_ t).kept W := by
  refine State.runClk_kept (fun d => ?_) h
  simp only [Dev.writeSetting_kept, apply_ite (Dev.kept W), ite_self]

theorem Dev.clearWrap_kept (d : Dev) (c : Nat) : (d.clearWrap c).kept W = d.kept W := by
  simp only [Dev.clearWrap, Dev.setCounter_kept]

theorem execWrapclr_kept {s s' : State} {t : Nat} {c : Fin 2048} (h : execWrapclr t c s = .next s') :
    s'.dev.kept W = (s.at_ t).kept W := by
  refine State.runClk_kept (fun d => ?_) h
  simp only [Dev.clearWrap_kept, Dev.wr_kept, apply_ite (Dev.kept W), ite_self]

theorem Dev.countOf_kept (d : Dev) (c : Nat) : (d.countOf c).2.kept W = d.kept W := by
  simp only [Dev.countOf, Dev.kept_draws, apply_ite (Dev.kept W), ite_self, apply_ite Prod.snd]

theorem Dev.captureOf_kept (d : Dev) (c : Nat) : (d.captureOf c).2.kept W = d.kept W := by
  simp only [Dev.captureOf, Dev.countOf_kept]

theorem Dev.readCounter_kept (d : Dev) (c reader : Nat) : (d.readCounter c reader).2.kept W = d.kept W :=
  (Dev.kept_captures _ _).trans (d.captureOf_kept c)

theorem execCntRdRead_kept {s s' : State} {t : Nat} {c : Fin 2048} {reader : Fin 18} (h : execCntRdRead t c reader s = .next s')
    :
    s'.dev.kept W = (s.at_ t).kept W := by
  refine State.runClk_kept (fun d => ?_) h
  simp only [Dev.readCounter_kept, apply_ite (Dev.kept W), ite_self]

theorem Dev.putRate_kept (d : Dev) (e i : Nat) : (d.putRate e i).kept W = d.kept W := by
  simp only [Dev.putRate, Dev.wr_kept]

theorem Dev.closeWindow_kept (d : Dev) (last : Nat) : (d.closeWindow last).kept W = d.kept W := by
  unfold Dev.closeWindow
  simp only [Dev.wr_kept, Dev.wr64_kept]
  exact (Dev.kept_draws _ _).trans (Dev.kept_foldl (fun d i => d.putRate_kept _ i) _ d)

theorem Dev.bandwidth_kept (d : Dev) : d.bandwidth.kept W = d.kept W := by
  refine (Dev.kept_window _ _ _ _).trans ?_
  split
  · exact Dev.kept_ite _ rfl (d.closeWindow_kept _)
  · rfl

theorem Dev.boundary_kept (d : Dev) (j : Nat) : (d.boundary j).kept W = d.kept W := by
  simp only [Dev.boundary, Dev.setTimer_kept, Dev.bandwidth_kept, Dev.kept_counters, apply_ite (Dev.kept W), ite_self]

theorem execWindowBoundary_kept {s s' : State} {t : Nat} {timer : Fin 8} (h : execWindowBoundary t timer s = .next s') :
    s'.dev.kept W = (s.at_ t).kept W := by
  refine State.runClk_kept (fun d => ?_) h
  simp only [Dev.boundary_kept, apply_ite (Dev.kept W), ite_self]

theorem execWtCfgWrite_kept {s s' : State} {t : Nat} {timer : Fin 8} {v : Word32} (h : execWtCfgWrite t timer v s = .next s') :
    s'.dev.kept W = (s.at_ t).kept W := by
  refine State.runClk_kept (fun d => ?_) h
  simp only [Dev.setWord_kept, apply_ite (Dev.kept W), ite_self]

theorem Dev.writeBwCfg_kept (d : Dev) (v : Word32) : (d.writeBwCfg v).kept W = d.kept W :=
  (Dev.kept_window _ _ _ _).trans ((Dev.wr_kept _ _ _).trans (d.setWord_kept _ _))

theorem execBwCfgWrite_kept {s s' : State} {t : Nat} {v : Word32} (h : execBwCfgWrite t v s = .next s') :
    s'.dev.kept W = (s.at_ t).kept W := by
  refine State.runClk_kept (fun d => ?_) h
  simp only [Dev.writeBwCfg_kept, apply_ite (Dev.kept W), ite_self]

end Sys2Proof.Machine
end

section
/-! PROOFS. What a frame tracks is left alone: mains time, waveforms and flags. -/

namespace Sys2Proof.Machine

open Sys2Proof

variable {W : Watch}

/-! ### Mains time -/

theorem Dev.setPherr_kept (d : Dev) (r : CycleRec) (e : Int) : (d.setPherr r e).kept W = d.kept W := by
  simp only [Dev.setPherr, Dev.wrS_kept]

theorem Dev.mtTo_kept (d : Dev) (st : Nat) : (d.mtTo st).kept W = d.kept W := by
  simp only [Dev.mtTo, Dev.wr_kept]

theorem Dev.mainsLock_kept (d : Dev) (z : Int) (htime : W.time = false) : (d.mainsLock z).kept W = d.kept W := by
  have htimers (d : Dev) (m : Mains) (t : Tab Timer) : ({ d with mains := m, timers := t } : Dev).kept W = d.kept W := by
    simp only [Dev.kept, tracked_false htime]
  exact (htimers _ _ _).trans (d.mtTo_kept _)

theorem Dev.mainsRecover_kept (d : Dev) (z : Int) (htime : W.time = false) : (d.mainsRecover z).kept W = d.kept W := by
  simp only [Dev.mainsRecover, Dev.mtTo_kept, Dev.setPherr_kept, Dev.wr_kept, Dev.raise_kept, htime, Dev.kept_mains,
    apply_ite (Dev.kept W), ite_self]

theorem Dev.mainsHold_kept (d : Dev) (htime : W.time = false) : d.mainsHold.kept W = d.kept W := by
  simp only [Dev.mainsHold, Dev.cause_kept, Dev.raise_kept, Dev.mtTo_kept, htime, Dev.kept_mains]

theorem Dev.mainsOutlier_kept (d : Dev) (r : CycleRec) (z e : Int) (htime : W.time = false) :
    (d.mainsOutlier r z e).kept W = d.kept W := by
  simp only [Dev.mainsOutlier, Dev.raise_kept, Dev.inc_kept, Dev.mtTo_kept, htime, Dev.kept_mains, apply_ite (Dev.kept W),
    ite_self]

theorem Dev.mainsTrack_kept (d : Dev) (z : Int) (htime : W.time = false) : (d.mainsTrack z).kept W = d.kept W := by
  simp only [Dev.mainsTrack, Dev.mainsOutlier_kept, Dev.setPherr_kept, Dev.mtTo_kept, htime, Dev.kept_mains,
    apply_ite (Dev.kept W), ite_self]

theorem Dev.learnAlt_kept (d : Dev) (z : Int) (htime : W.time = false) : (d.learnAlt z).kept W = d.kept W := by
  simp only [Dev.learnAlt, Dev.raise_kept, Dev.wr_kept, htime, Dev.kept_mains, apply_ite (Dev.kept W), ite_self]

theorem Dev.mainsFeed_kept (d : Dev) (input : Nat) (z : Int) (htime : W.time = false) :
    (d.mainsFeed input z).kept W = d.kept W := by
  simp only [Dev.mainsFeed, Dev.mainsLock_kept, Dev.mainsRecover_kept, Dev.mainsTrack_kept, Dev.learnAlt_kept, htime,
    Dev.kept_mains, apply_ite (Dev.kept W), ite_self]

theorem Dev.crossing_kept (d : Dev) (input : Nat) (falling : Bool) (htime : W.time = false) :
    (d.crossing input falling).kept W = d.kept W := by
  simp only [Dev.crossing, Dev.raise_kept, Dev.mainsFeed_kept, htime, Dev.kept_mains, apply_ite (Dev.kept W), ite_self]

theorem execZeroCrossing_kept {s s' : State} {t : Nat} {input : Fin 4} {falling : Bool} (htime : W.time = false)
    (h : execZeroCrossing t input falling s = .next s') :
    s'.dev.kept W = (s.at_ t).kept W := by
  refine State.run_kept (fun d => ?_) h
  simp only [Dev.crossing_kept, htime]

theorem Dev.fixRecord_kept (d : Dev) (htime : W.time = false) : d.fixRecord.kept W = d.kept W := by
  simp only [Dev.fixRecord, Dev.raise_kept, htime, Dev.kept_mains, apply_ite (Dev.kept W), ite_self]

theorem execCycleRecordFix_kept {s s' : State} {t : Nat} (htime : W.time = false) (h : execCycleRecordFix t s = .next s') :
    s'.dev.kept W = (s.at_ t).kept W := by
  refine State.run_kept (fun d => ?_) h
  simp only [Dev.fixRecord_kept, htime, apply_ite (Dev.kept W), ite_self]

theorem Dev.toAlt_kept (d : Dev) (a : Nat) (htime : W.time = false) : (d.toAlt a).kept W = d.kept W := by
  simp only [Dev.toAlt, Dev.raise_kept, Dev.wr_kept, htime, Dev.kept_mains]

theorem execMissedCycles_kept {s s' : State} {t : Nat} (htime : W.time = false) (h : execMissedCycles t s = .next s') :
    s'.dev.kept W = (s.at_ t).kept W := by
  refine State.run_kept (fun d => ?_) h
  (repeat' split) <;> simp only [Dev.toAlt_kept, Dev.mainsHold_kept, htime]

theorem execFreerun_kept {s s' : State} {t : Nat} (h : execFreerun t s = .next s') : s'.dev.kept W = (s.at_ t).kept W := by
  refine State.run_kept (fun d => ?_) h
  simp only [Dev.cause_kept, Dev.raise_kept, Dev.mtTo_kept, apply_ite (Dev.kept W), ite_self]

theorem Dev.refclkBack_kept (d : Dev) (htime : W.time = false) : d.refclkBack.kept W = d.kept W := by
  simp only [Dev.refclkBack]
  split <;> simp only [Dev.mainsLock_kept, Dev.mainsRecover_kept, htime, Dev.kept_mains, apply_ite (Dev.kept W), ite_self]

theorem Dev.latchNow_kept (d : Dev) : d.latchNow.kept W = d.kept W := by
  simp only [Dev.latchNow, Dev.wr64_kept, Dev.wr_kept]

theorem execMtNowCycRead_kept {s s' : State} {t : Nat} (h : execMtNowCycRead t s = .next s') :
    s'.dev.kept W = (s.at_ t).kept W := by
  refine State.runClk_kept (fun d => ?_) h
  simp only [Dev.latchNow_kept]

theorem Dev.putMiss_kept (d : Dev) (i : Nat) (l : List Word32) : (d.putMiss i l).kept W = d.kept W := by
  simp only [Dev.putMiss, Dev.setWord_kept]

theorem Dev.sinkMiss_kept (d : Dev) (i n : Nat) : (d.sinkMiss i n).kept W = d.kept W := by
  induction n generalizing d i with
  | zero => rfl
  | succ n ih =>
    simp only [Dev.sinkMiss]
    split
    · simp only [ih, Dev.putMiss_kept]
    · rfl

theorem Dev.logMiss_kept (d : Dev) (i sub : Nat) (chan : Option Nat) (seq step late : Nat) :
    (d.logMiss i sub chan seq step late).kept W = d.kept W := by
  simp only [Dev.logMiss, Dev.wr_kept]

theorem Dev.dlMiss_kept (d : Dev) (sub : Nat) (chan : Option Nat) (seq step late : Nat) :
    (d.dlMiss sub chan seq step late).kept W = d.kept W := by
  simp only [Dev.dlMiss, Dev.sinkMiss_kept, Dev.logMiss_kept, Dev.raise_kept, Dev.inc_kept, Dev.wr_kept, Dev.cause_kept,
    Dev.kept_missAt, apply_ite (Dev.kept W), ite_self]

/-! ### Waveforms -/

theorem Dev.wfReject_kept (d : Dev) (l : List Nat) (fr : Bool) : (d.wfReject l fr).kept W = d.kept W := by
  simp only [Dev.wfReject, Dev.inc_kept, Dev.raise_kept, Dev.kept_foldl, implies_true, apply_ite (Dev.kept W), ite_self]

/-! ### Flags -/

theorem Dev.countRef_kept (d : Dev) (q : Nat) : (d.countRef q).kept W = d.kept W := by
  simp only [Dev.countRef, Dev.inc_kept]

theorem Dev.missFlags_kept (d : Dev) (q : Nat) : (d.missFlags q).kept W = d.kept W := by
  simp only [Dev.missFlags, Dev.event_kept, Dev.inc_kept, Dev.raise_kept]

theorem Dev.setPairFlags_kept (d : Dev) (p rank mask : Nat) (v : Bool) : (d.setPairFlags p rank mask v).kept W = d.kept W :=
  (Dev.kept_flagOps _ _).trans (d.wr_kept _ _)

theorem Dev.condParity_kept (d : Dev) (q c : Nat) : (d.condParity q c).kept W = d.kept W := by
  unfold Dev.condParity
  split <;> simp only [Dev.entryParity_kept, apply_ite (Dev.kept W), ite_self]

theorem Dev.hdrInvalid_kept (d : Dev) (k : Nat) : (d.hdrInvalid k).kept W = d.kept W := by
  simp only [Dev.hdrInvalid, Dev.inc_kept, Dev.raise_kept]

theorem Dev.plCrc_kept (d : Dev) (k : Nat) : (d.plCrc k).kept W = d.kept W := by
  simp only [Dev.plCrc, Dev.inc_kept, Dev.raise_kept]

theorem Dev.noiseFloor_kept (d : Dev) (k : Nat) (level : Int) : (d.noiseFloor k level).kept W = d.kept W := by
  simp only [Dev.noiseFloor, Dev.modCh_kept, Dev.wr_kept, Dev.wrS_kept]

theorem Dev.syncFail_kept (d : Dev) (k : Nat) : (d.syncFail k).kept W = d.kept W := by
  simp only [Dev.syncFail, Dev.inc_kept, Dev.raise_kept, Dev.setCh_kept, apply_ite (Dev.kept W), ite_self]

theorem Dev.cutFlags_kept (d : Dev) (k : Nat) : (d.cutFlags k).kept W = d.kept W := by
  simp only [Dev.cutFlags, Dev.inc_kept, Dev.raise_kept]

end Sys2Proof.Machine
end

section
/-! PROOFS. What a frame tracks is left alone: the sequencers. -/

namespace Sys2Proof.Machine

open Sys2Proof

variable {W : Watch}

/-! ### What a sequencer's step may do beside -/

/-- All that a frame tracks but the deep queues is the same. -/
def Dev.sameButDeep (d e : Dev) : Prop := ∀ W : Watch, W.deep = false → e.kept W = d.kept W

/-- A relation between a device and what a sequencer's step makes of it: it holds where all but the deep queues is the same, where
a cell returns to the free list, and along a chain. -/
structure Lenient (R : Dev → Dev → Prop) : Prop where
  same : ∀ {d e : Dev}, d.sameButDeep e → R d e
  trans : ∀ {d e g : Dev}, R d e → R e g → R d g
  cell : ∀ (d : Dev) (c : Nat), R d (d.returnCell c)

/-- The equality of what is tracked is one, where neither the deep queues nor the free list are. -/
theorem lenient_kept (hdeep : W.deep = false) (hfree : W.free = false) : Lenient (fun d e => e.kept W = d.kept W) where
  same h := h W hdeep
  trans h k := k.trans h
  cell d c := d.returnCell_kept c hfree

section Lenient
variable {R : Dev → Dev → Prop} (hR : Lenient R)
include hR

theorem Lenient.refl (d : Dev) : R d d := hR.same (fun _ _ => rfl)

omit hR in
theorem Lenient.ite (c : Prop) [Decidable c] {d a b : Dev} (ha : R d a) (hb : R d b) : R d (if c then a else b) := by
  split
  · exact ha
  · exact hb

theorem Lenient.foldl {α : Type} {f : Dev → α → Dev} (h : ∀ d x, R d (f d x)) (l : List α) (d : Dev) : R d (l.foldl f d) := by
  induction l generalizing d with
  | nil => exact hR.refl d
  | cons x l ih => exact hR.trans (h d x) (ih (f d x))

/-- What changes the tracked parts stands between two effects that do not. -/
theorem Lenient.around {d x y e : Dev} (hx : d.sameButDeep x) (h : R x y) (he : y.sameButDeep e) : R d e :=
  hR.trans (hR.trans (hR.same hx) h) (hR.same he)

/-- A command that acts while REFCLK_SYS is present is related as its effect is. -/
theorem Lenient.runClk {f : Dev → Dev} (hf : ∀ d, R d (f d)) {s s' : State} {t : Nat} (h : s.runClk t f = .next s') :
    R (s.at_ t) s'.dev := by
  cases h
  refine hR.trans ?_ (hR.same (fun _ _ => Dev.settle_kept _))
  exact Lenient.ite _ (hR.refl _) (Lenient.ite _ (hf _) (hR.refl _))

theorem Lenient.run {f : Dev → Dev} (hf : ∀ d, R d (f d)) {s s' : State} {t : Nat} (h : s.run t f = .next s') :
    R (s.at_ t) s'.dev := by
  cases h
  refine hR.trans ?_ (hR.same (fun _ _ => Dev.settle_kept _))
  exact Lenient.ite _ (hR.refl _) (hf _)

theorem Lenient.freeJob (d : Dev) (x : TxJob) : R d (d.freeJob x) := hR.foldl (fun d c => hR.cell d c) x.cells d

theorem Lenient.asBefore (d : Dev) {f : Dev → Dev} (hf : ∀ d, R d (f d)) : R d (d.asBefore f) := by
  unfold Dev.asBefore
  split
  · exact hf d
  · refine hR.trans ?_ (hR.foldl (fun d e => hR.same (fun _ _ => d.recommit_kept _ _ _)) _ _)
    refine hR.trans (hR.same (fun _ _ => ?_)) (hf _)
    exact Dev.kept_foldl (fun d e => d.putEntry_kept _ _) _ d

end Lenient

/-! ### The functions of the sequencers -/

theorem Dev.sqTo_kept (d : Dev) (q st : Nat) : (d.sqTo q st).kept W = d.kept W := by
  simp only [Dev.sqTo, Dev.wr_kept]

theorem Dev.goTo_kept (d : Dev) (q i : Nat) : (d.goTo q i).kept W = d.kept W := by
  simp only [Dev.goTo, Dev.modSq_kept, Dev.sqTo_kept, Dev.wr_kept]

theorem Dev.setStack_kept (d : Dev) (q : Nat) (l : List Nat) : (d.setStack q l).kept W = d.kept W := by
  simp only [Dev.setStack, Dev.modSq_kept, Dev.wr_kept]

theorem Dev.doneTo_kept (d : Dev) (q i : Nat) : (d.doneTo q i).kept W = d.kept W := by
  simp only [Dev.doneTo, Dev.goTo_kept, Dev.event_kept]

theorem Dev.done_kept (d : Dev) (q : Nat) : (d.done q).kept W = d.kept W := by
  simp only [Dev.done, Dev.doneTo_kept]

theorem Dev.unpin_kept (d : Dev) (q : Nat) : (d.unpin q).kept W = d.kept W := by
  simp only [Dev.unpin, Dev.modSq_kept]

theorem Dev.seqStop_kept (d : Dev) (q code step arg : Nat) : (d.seqStop q code step arg).kept W = d.kept W := by
  simp only [Dev.seqStop, Dev.notice_kept]

theorem Dev.unmark_kept (d : Dev) (x : TxJob) (hdeep : W.deep = false) : (d.unmark x).kept W = d.kept W := by
  unfold Dev.unmark
  split <;> simp only [Dev.followRd_kept, Dev.rewindMark_kept, hdeep]

theorem Lenient.withdraw {R : Dev → Dev → Prop} (hR : Lenient R) (d : Dev) (q : Nat) : R d (d.withdraw q) := by
  refine hR.trans ?_ (hR.foldl (fun d x => ?_) _ _)
  · refine hR.trans ?_ (hR.foldl (fun d m => hR.same (fun _ _ => d.modCh_kept m _)) _ _)
    exact hR.same (fun _ _ => d.setCh_kept _ _)
  · exact hR.trans (hR.same (fun _ hdeep => d.unmark_kept x hdeep)) (hR.freeJob _ x)

theorem Dev.autoRestart_kept (d : Dev) (q code step : Nat) : (d.autoRestart q code step).kept W = d.kept W := by
  simp only [Dev.autoRestart, Dev.seqStop_kept, Dev.modSq_kept, apply_ite (Dev.kept W), ite_self]

theorem Lenient.seqFault {R : Dev → Dev → Prop} (hR : Lenient R) (d : Dev) (q code step : Nat) :
    R d (d.seqFault q code step) := by
  refine hR.around (fun _ _ => ?_)
    (hR.withdraw (((d.sqTo q sqFAULT).wr (F.SQ_FAULT_FCODE q) code).wr (F.SQ_FAULT_FSTEP q) step) q) (fun _ _ => ?_)
  · simp only [Dev.wr_kept, Dev.sqTo_kept]
  · simp only [Dev.seqFault, Dev.modSq_kept, Dev.cause_kept, Dev.autoRestart_kept, Dev.seqStop_kept, apply_ite (Dev.kept _),
      ite_self]

theorem Dev.seqFault_kept (d : Dev) (q code step : Nat) (hdeep : W.deep = false) (hfree : W.free = false) :
    (d.seqFault q code step).kept W = d.kept W :=
  (lenient_kept hdeep hfree).seqFault d q code step

theorem Lenient.stepMiss {R : Dev → Dev → Prop} (hR : Lenient R) (d : Dev) (q sub : Nat) (deadline : Option Nat) :
    R d (d.stepMiss q sub deadline) := by
  simp only [Dev.stepMiss]
  split
  · refine hR.same (fun _ _ => ?_)
    simp only [Dev.goTo_kept, Dev.setStack_kept, Dev.missFlags_kept, Dev.dlMiss_kept]
  · refine hR.trans (hR.same (fun _ _ => ?_)) (hR.seqFault _ q fcMISS _)
    simp only [Dev.missFlags_kept, Dev.dlMiss_kept]
  · refine hR.same (fun _ _ => ?_)
    simp only [Dev.goTo_kept, Dev.missFlags_kept, Dev.dlMiss_kept]

theorem Dev.stepMiss_kept (d : Dev) (q sub : Nat) (deadline : Option Nat) (hdeep : W.deep = false) (hfree : W.free = false) :
    (d.stepMiss q sub deadline).kept W = d.kept W :=
  (lenient_kept hdeep hfree).stepMiss d q sub deadline

theorem Lenient.lateMiss {R : Dev → Dev → Prop} (hR : Lenient R) (d : Dev) (q step sub deadline : Nat) :
    R d (d.lateMiss q step sub deadline) := by
  refine hR.trans (hR.same (fun _ _ => ?_)) (Lenient.ite _ (hR.seqFault _ q fcMISS step) (hR.refl _))
  simp only [Dev.missFlags_kept, Dev.dlMiss_kept]

theorem Dev.lateMiss_kept (d : Dev) (q step sub deadline : Nat) (hdeep : W.deep = false) (hfree : W.free = false) :
    (d.lateMiss q step sub deadline).kept W = d.kept W :=
  (lenient_kept hdeep hfree).lateMiss d q step sub deadline

theorem Lenient.fetch {R : Dev → Dev → Prop} (hR : Lenient R) (d : Dev) (q : Nat) (c : StepClass) {f : Step → Dev → Dev}
    (hf : ∀ st d, R d (f st d)) : R d (d.fetch q c f) := by
  unfold Dev.fetch
  refine Lenient.ite _ (hR.refl d) ?_
  split
  · exact hR.seqFault d q _ _
  · split
    · exact hR.refl d
    next st _ =>
      refine Lenient.ite _ (hR.refl d) (hR.trans (hR.same (fun _ _ => ?_)) (Lenient.ite _ (hR.asBefore _ (hf st)) ?_))
      · simp only [Dev.condParity_kept, Dev.modSq_kept]
      · exact hR.same (fun _ _ => Dev.goTo_kept _ q _)

theorem Dev.fetch_kept (d : Dev) (q : Nat) (c : StepClass) (f : Step → Dev → Dev) (hdeep : W.deep = false)
    (hfree : W.free = false) (hf : ∀ st d, (f st d).kept W = d.kept W) : (d.fetch q c f).kept W = d.kept W :=
  (lenient_kept hdeep hfree).fetch d q c hf

theorem Lenient.timed {R : Dev → Dev → Prop} (hR : Lenient R) (d : Dev) (q : Nat) (st : Step) (sub lead : Nat)
    {f : Nat → Dev → Dev} (hf : ∀ x d, R d (f x d)) : R d (d.timed q st sub lead f) := by
  unfold Dev.timed
  split
  · exact hR.stepMiss d q subCONV none
  · exact Lenient.ite _ (hR.stepMiss d q sub _) (hf _ d)

/-- A step that only counts, stops or goes on in time. -/
theorem Lenient.timedStep {R : Dev → Dev → Prop} (hR : Lenient R) {s s' : State} {t q sub : Nat} {c : StepClass}
    {f : Step → Nat → Dev → Dev} (hf : ∀ st x (d : Dev), d.sameButDeep (f st x d))
    (h : s.runClk t (fun d => d.fetch q c (fun st d => d.timed q st sub 0 (f st))) = .next s') : R (s.at_ t) s'.dev :=
  hR.runClk (fun d => hR.fetch d q c (fun st d => hR.timed d q st sub 0 (fun x d => hR.same (hf st x d)))) h

theorem Dev.hold_kept (d : Dev) (q x deadline : Nat) : (d.hold q x deadline).kept W = d.kept W := by
  simp only [Dev.hold, Dev.modSq_kept, Dev.sqTo_kept]

theorem Lenient.endWait {R : Dev → Dev → Prop} (hR : Lenient R) (d : Dev) (q : Nat) : R d (d.endWait q) := by
  unfold Dev.endWait
  split
  · exact Lenient.ite _ (hR.stepMiss d q subSTEP _) (hR.same (fun _ _ => d.done_kept q))
  · exact hR.refl d

theorem Dev.endWait_kept (d : Dev) (q : Nat) (hdeep : W.deep = false) (hfree : W.free = false) :
    (d.endWait q).kept W = d.kept W :=
  (lenient_kept hdeep hfree).endWait d q

theorem Dev.wakeWhere_kept (d : Dev) (p : Dev → Nat → Bool) (wk : Nat) (hdeep : W.deep = false) (hfree : W.free = false) :
    (d.wakeWhere p wk).kept W = d.kept W := by
  refine Dev.kept_foldl (fun d e => ?_) d.seq d
  split
  · exact Dev.kept_ite _ (d.endWait_kept e.1 hdeep hfree) rfl
  · rfl

theorem Dev.wakeChan_kept (d : Dev) (k wk : Nat) (hdeep : W.deep = false) (hfree : W.free = false) :
    (d.wakeChan k wk).kept W = d.kept W := by
  simp only [Dev.wakeChan, Dev.wakeWhere_kept, hdeep, hfree]

theorem Lenient.wakeFlags {R : Dev → Dev → Prop} (hR : Lenient R) (d : Dev) (p : Nat) : R d (d.wakeFlags p) := by
  refine hR.foldl (fun d e => ?_) d.seq d
  split
  · exact Lenient.ite _ (hR.endWait d e.1) (hR.refl d)
  · exact hR.refl d

theorem Dev.wakeGrant_kept (d : Dev) (q : Nat) (hdeep : W.deep = false) (hfree : W.free = false) :
    (d.wakeGrant q).kept W = d.kept W := by
  simp only [Dev.wakeGrant, Dev.wakeWhere_kept, hdeep, hfree]

theorem Dev.commitTx_kept (d : Dev) (k code : Nat) (hdeep : W.deep = false) (hfree : W.free = false) :
    (d.commitTx k code).kept W = d.kept W := by
  simp only [Dev.commitTx, Dev.modCh_kept, Dev.event_kept, Dev.wakeChan_kept, hdeep, hfree, apply_ite (Dev.kept W), ite_self]

theorem Dev.countRx_kept (d : Dev) (k code : Nat) : (d.countRx k code).kept W = d.kept W := by
  unfold Dev.countRx
  split <;> simp only [Dev.event_kept]

theorem Dev.commitRx_kept (d : Dev) (k code : Nat) (poll : Bool) (hdeep : W.deep = false) (hfree : W.free = false) :
    (d.commitRx k code poll).kept W = d.kept W := by
  simp only [Dev.commitRx, Dev.wakeChan_kept, Dev.countRx_kept, Dev.modCh_kept, hdeep, hfree]

theorem Dev.sqStart_kept (d : Dev) (q startc : Nat) : (d.sqStart q startc).kept W = d.kept W := by
  simp only [Dev.sqStart, Dev.raise_kept, Dev.modSq_kept, apply_ite (Dev.kept W), ite_self]

theorem Dev.sqStartReg_kept (d : Dev) (q : Nat) : (d.sqStartReg q).kept W = d.kept W := by
  simp only [Dev.sqStartReg, Dev.sqStart_kept]

theorem Dev.sqStop_kept (d : Dev) (q : Nat) : (d.sqStop q).kept W = d.kept W := by
  simp only [Dev.sqStop, Dev.modSq_kept, Dev.sqTo_kept, apply_ite (Dev.kept W), ite_self]

theorem Dev.sqClear_kept (d : Dev) (q : Nat) : (d.sqClear q).kept W = d.kept W := by
  simp only [Dev.sqClear, Dev.modSq_kept, Dev.wr_kept, Dev.sqTo_kept, apply_ite (Dev.kept W), ite_self]

theorem Dev.writeSqCtl_kept (d : Dev) (q : Nat) (start stop clear : Bool) :
    (d.writeSqCtl q start stop clear).kept W = d.kept W := by
  simp only [Dev.writeSqCtl, Dev.sqStop_kept, Dev.sqClear_kept, Dev.sqStartReg_kept, apply_ite (Dev.kept W), ite_self]

theorem execHalt_lenient {R : Dev → Dev → Prop} (hR : Lenient R) {s s' : State} {t : Nat} {q : SeqId}
    (h : execHalt t q s = .next s') : R (s.at_ t) s'.dev := by
  refine hR.timedStep (fun st x d _ _ => ?_) h
  split <;> simp only [Dev.seqStop_kept, Dev.modSq_kept, Dev.sqTo_kept, Dev.event_kept, apply_ite (Dev.kept _), ite_self]

theorem execBranch_lenient {R : Dev → Dev → Prop} (hR : Lenient R) {s s' : State} {t : Nat} {q : SeqId}
    (h : execBranch t q s = .next s') : R (s.at_ t) s'.dev := by
  refine hR.timedStep (fun st x d _ _ => ?_) h
  split <;> simp only [Dev.done_kept, Dev.doneTo_kept, apply_ite (Dev.kept _), ite_self]

theorem Dev.loopStep_kept (d : Dev) (q c : Nat) (load : Bool) (n tg : Nat) : (d.loopStep q c load n tg).kept W = d.kept W := by
  simp only [Dev.loopStep, Dev.done_kept, Dev.modSq_kept, Dev.doneTo_kept, apply_ite (Dev.kept W), ite_self]

theorem execLoop_lenient {R : Dev → Dev → Prop} (hR : Lenient R) {s s' : State} {t : Nat} {q : SeqId}
    (h : execLoop t q s = .next s') : R (s.at_ t) s'.dev := by
  refine hR.timedStep (fun st x d _ _ => ?_) h
  split <;> simp only [Dev.loopStep_kept]

theorem execCall_lenient {R : Dev → Dev → Prop} (hR : Lenient R) {s s' : State} {t : Nat} {q : SeqId}
    (h : execCall t q s = .next s') : R (s.at_ t) s'.dev := by
  refine hR.runClk (fun d => hR.fetch d q.val _ (fun st d => hR.timed d q.val st subSTEP 0 (fun x d => ?_))) h
  split
  · refine Lenient.ite _ (hR.seqFault d q.val fcSTACK _) (hR.same (fun _ _ => ?_))
    simp only [Dev.doneTo_kept, Dev.setStack_kept]
  · exact hR.refl d

theorem execRet_lenient {R : Dev → Dev → Prop} (hR : Lenient R) {s s' : State} {t : Nat} {q : SeqId}
    (h : execRet t q s = .next s') : R (s.at_ t) s'.dev := by
  refine hR.runClk (fun d => hR.fetch d q.val _ (fun st d => hR.timed d q.val st subSTEP 0 (fun x d => ?_))) h
  split
  · exact hR.seqFault d q.val fcSTACK _
  · refine hR.same (fun _ _ => ?_)
    simp only [Dev.doneTo_kept, Dev.setStack_kept]

theorem execNoteNotice_lenient {R : Dev → Dev → Prop} (hR : Lenient R) {s s' : State} {t : Nat} {q : SeqId}
    (h : execNoteNotice t q s = .next s') : R (s.at_ t) s'.dev := by
  refine hR.timedStep (fun st x d _ _ => ?_) h
  split <;> simp only [Dev.done_kept, Dev.notice_kept]

theorem execNoteEvent_lenient {R : Dev → Dev → Prop} (hR : Lenient R) {s s' : State} {t : Nat} {q : SeqId}
    (h : execNoteEvent t q s = .next s') : R (s.at_ t) s'.dev := by
  refine hR.timedStep (fun st x d _ _ => ?_) h
  split <;> simp only [Dev.done_kept, Dev.seqnote_kept]

/-- A NOTE that sets or clears a pair flag wakes what waits for it. -/
theorem Lenient.noteFlag {R : Dev → Dev → Prop} (hR : Lenient R) (d : Dev) (q pf : Nat) (v : Bool) :
    R d (((d.setPairFlags (q / 2) (1 + q % 2) (2 ^ pf) v).done q).wakeFlags (q / 2)) := by
  refine hR.trans (hR.same (fun _ _ => ?_)) (hR.wakeFlags _ (q / 2))
  simp only [Dev.done_kept, Dev.setPairFlags_kept]

theorem execNoteFlagSet_lenient {R : Dev → Dev → Prop} (hR : Lenient R) {s s' : State} {t : Nat} {q : SeqId}
    (h : execNoteFlagSet t q s = .next s') : R (s.at_ t) s'.dev := by
  refine hR.runClk (fun d => hR.fetch d q.val _ (fun st d => hR.timed d q.val st subSTEP 0 (fun x d => ?_))) h
  split
  next pf _ => exact hR.noteFlag d q.val pf.toNat true
  · exact hR.refl d

theorem execNoteFlagClear_lenient {R : Dev → Dev → Prop} (hR : Lenient R) {s s' : State} {t : Nat} {q : SeqId}
    (h : execNoteFlagClear t q s = .next s') : R (s.at_ t) s'.dev := by
  refine hR.runClk (fun d => hR.fetch d q.val _ (fun st d => hR.timed d q.val st subSTEP 0 (fun x d => ?_))) h
  split
  next pf _ => exact hR.noteFlag d q.val pf.toNat false
  · exact hR.refl d

theorem Dev.waited_kept (d : Dev) (q : Nat) : (d.waited q).kept W = d.kept W := by
  simp only [Dev.waited, Dev.modSq_kept]

theorem Dev.setBase_kept (d : Dev) (q : Nat) (st : Step) (setbt : Bool) (w : Nat) :
    (d.setBase q st setbt w).kept W = d.kept W := by
  simp only [Dev.setBase, Dev.modSq_kept, apply_ite (Dev.kept W), ite_self]

theorem execWaitTime_lenient {R : Dev → Dev → Prop} (hR : Lenient R) {s s' : State} {t : Nat} {q : SeqId}
    (h : execWaitTime t q s = .next s') : R (s.at_ t) s'.dev := by
  refine hR.runClk (fun d => hR.fetch d q.val _ (fun st d => ?_)) h
  split
  next setbt lateok _ w _ _ =>
    have hbase (d : Dev) : d.sameButDeep ((d.waited q.val).setBase q.val st setbt w) := fun _ _ => by
      simp only [Dev.setBase_kept, Dev.waited_kept]
    refine Lenient.ite _ (hR.trans (hR.same (hbase d)) (Lenient.ite _ ?_ (hR.stepMiss _ q.val subSTEP _))) (hR.same (fun _ _ => ?_))
    · exact hR.same (fun _ _ => Dev.done_kept _ q.val)
    · simp only [Dev.hold_kept, Dev.waited_kept]
  · exact hR.stepMiss d q.val subCONV none

theorem execWaitTimeComplete_kept {s s' : State} {t : Nat} {q : SeqId} (h : execWaitTimeComplete t q s = .next s') :
    s'.dev.kept W = (s.at_ t).kept W := by
  refine State.runClk_kept (fun d => ?_) h
  (repeat' split) <;> simp only [Dev.done_kept, Dev.setBase_kept]

theorem Lenient.waitEvent {R : Dev → Dev → Prop} (hR : Lenient R) (d : Dev) (q : Nat) (st : Step) (met : Dev → Bool) :
    R d (d.waitEvent q st met) := by
  refine hR.trans (hR.same (fun _ _ => Dev.kept_ite _ (d.waited_kept q) rfl)) (hR.timed _ q st subSTEP 0 (fun x d => ?_))
  exact hR.same (fun _ _ => Dev.kept_ite _ (d.done_kept q) (d.hold_kept q x x))

theorem execWaitRxdone_lenient {R : Dev → Dev → Prop} (hR : Lenient R) {s s' : State} {t : Nat} {q : SeqId}
    (h : execWaitRxdone t q s = .next s') : R (s.at_ t) s'.dev :=
  hR.runClk (fun d => hR.fetch d q.val _ (fun st d => hR.waitEvent d q.val st _)) h

theorem execWaitTxdone_lenient {R : Dev → Dev → Prop} (hR : Lenient R) {s s' : State} {t : Nat} {q : SeqId}
    (h : execWaitTxdone t q s = .next s') : R (s.at_ t) s'.dev :=
  hR.runClk (fun d => hR.fetch d q.val _ (fun st d => hR.waitEvent d q.val st _)) h

theorem execWaitGrant_lenient {R : Dev → Dev → Prop} (hR : Lenient R) {s s' : State} {t : Nat} {q : SeqId}
    (h : execWaitGrant t q s = .next s') : R (s.at_ t) s'.dev :=
  hR.runClk (fun d => hR.fetch d q.val _ (fun st d => hR.waitEvent d q.val st _)) h

theorem execWaitKey_lenient {R : Dev → Dev → Prop} (hR : Lenient R) {s s' : State} {t : Nat} {q : SeqId}
    (h : execWaitKey t q s = .next s') : R (s.at_ t) s'.dev :=
  hR.runClk (fun d => hR.fetch d q.val _ (fun st d => hR.waitEvent d q.val st _)) h

theorem execWaitFlagSet_lenient {R : Dev → Dev → Prop} (hR : Lenient R) {s s' : State} {t : Nat} {q : SeqId}
    (h : execWaitFlagSet t q s = .next s') : R (s.at_ t) s'.dev :=
  hR.runClk (fun d => hR.fetch d q.val _ (fun st d => hR.waitEvent d q.val st _)) h

theorem execWaitFlagClear_lenient {R : Dev → Dev → Prop} (hR : Lenient R) {s s' : State} {t : Nat} {q : SeqId}
    (h : execWaitFlagClear t q s = .next s') : R (s.at_ t) s'.dev :=
  hR.runClk (fun d => hR.fetch d q.val _ (fun st d => hR.waitEvent d q.val st _)) h

theorem execArmNode_lenient {R : Dev → Dev → Prop} (hR : Lenient R) {s s' : State} {t : Nat} {q : SeqId}
    (h : execArmNode t q s = .next s') : R (s.at_ t) s'.dev := by
  refine hR.timedStep (fun st x d _ _ => ?_) h
  split <;> simp only [Dev.done_kept, Dev.countRef_kept, Dev.entryParity_kept, Dev.modSq_kept, apply_ite (Dev.kept _), ite_self]

theorem Dev.pushPrmq_kept (d : Dev) (k : Nat) (e : PrmqEntry) : (d.pushPrmq k e).kept W = d.kept W := by
  simp only [Dev.pushPrmq, Dev.modCh_kept]

theorem Lenient.armSwap {R : Dev → Dev → Prop} (hR : Lenient R) (d : Dev) (q : Nat) (st : Step) (x : Nat) :
    R d (d.armSwap q st x) := by
  unfold Dev.armSwap
  dsimp only
  split
  · refine Lenient.ite _ (hR.stepMiss d q subSTEP _) (hR.same (fun _ _ => ?_))
    simp only [Dev.modSq_kept, Dev.done_kept, Dev.modCh_kept, apply_ite (Dev.kept _), ite_self]
  · exact hR.refl d

theorem execArmSwap_lenient {R : Dev → Dev → Prop} (hR : Lenient R) {s s' : State} {t : Nat} {q : SeqId}
    (h : execArmSwap t q s = .next s') : R (s.at_ t) s'.dev := by
  refine hR.runClk (fun d => ?_) h
  split
  · exact Lenient.ite _ (hR.armSwap d q.val _ _) (hR.refl d)
  · refine hR.fetch d q.val _ (fun st d => ?_)
    split
    · exact hR.stepMiss d q.val subCONV none
    · refine Lenient.ite _ (hR.same (fun _ _ => ?_)) (hR.armSwap d q.val st _)
      simp only [Dev.done_kept, Dev.countRef_kept]

theorem execArmPath_lenient {R : Dev → Dev → Prop} (hR : Lenient R) {s s' : State} {t : Nat} {q : SeqId}
    (h : execArmPath t q s = .next s') : R (s.at_ t) s'.dev := by
  refine hR.timedStep (fun st x d _ _ => ?_) h
  split <;> simp only [Dev.done_kept, Dev.countRef_kept, Dev.modSq_kept, apply_ite (Dev.kept _), ite_self]

theorem Dev.budgetDeny_kept (d : Dev) (chan seq : Option Nat) (step : Nat) (ao : Bool) :
    (d.budgetDeny chan seq step ao).kept W = d.kept W := by
  simp only [Dev.budgetDeny, Dev.cause_kept]

theorem Dev.budget_kept (d : Dev) (q : Nat) (r : BudgetReq) : (d.budget q r).kept W = d.kept W := by
  simp only [Dev.budget, Dev.modSq_kept, Dev.budgetDeny_kept, Dev.event_kept, Dev.inc_kept, apply_ite (Dev.kept W), ite_self]

theorem Lenient.budgetStep {R : Dev → Dev → Prop} (hR : Lenient R) (d : Dev) (q : Nat) (c : StepClass) (kind : BudgetKind) :
    R d (d.budgetStep q c kind) := by
  refine hR.fetch d q c (fun st d => hR.timed d q st subBUDGET 0 (fun x d => hR.same (fun _ _ => ?_)))
  split <;> simp only [Dev.done_kept, Dev.budget_kept]

theorem execBudgetTxslot_lenient {R : Dev → Dev → Prop} (hR : Lenient R) {s s' : State} {t : Nat} {q : SeqId}
    (h : execBudgetTxslot t q s = .next s') : R (s.at_ t) s'.dev :=
  hR.runClk (fun d => hR.budgetStep d q.val .budgetTxslot .txslot) h

theorem execBudgetIter_lenient {R : Dev → Dev → Prop} (hR : Lenient R) {s s' : State} {t : Nat} {q : SeqId}
    (h : execBudgetIter t q s = .next s') : R (s.at_ t) s'.dev :=
  hR.runClk (fun d => hR.budgetStep d q.val .budgetIter .iter) h

theorem execBudgetBringup_lenient {R : Dev → Dev → Prop} (hR : Lenient R) {s s' : State} {t : Nat} {q : SeqId}
    (h : execBudgetBringup t q s = .next s') : R (s.at_ t) s'.dev :=
  hR.runClk (fun d => hR.budgetStep d q.val .budgetBringup .bringup) h

theorem execStart_kept {s s' : State} {t : Nat} {q : SeqId} (h : execStart t q s = .next s') :
    s'.dev.kept W = (s.at_ t).kept W := by
  refine State.runClk_kept (fun d => ?_) h
  simp only [Dev.writeSqCtl_kept, apply_ite (Dev.kept W), ite_self]

theorem execStop_kept {s s' : State} {t : Nat} {q : SeqId} (h : execStop t q s = .next s') :
    s'.dev.kept W = (s.at_ t).kept W := by
  refine State.runClk_kept (fun d => ?_) h
  simp only [Dev.writeSqCtl_kept, apply_ite (Dev.kept W), ite_self]

theorem execClear_kept {s s' : State} {t : Nat} {q : SeqId} (h : execClear t q s = .next s') :
    s'.dev.kept W = (s.at_ t).kept W := by
  refine State.runClk_kept (fun d => ?_) h
  simp only [Dev.writeSqCtl_kept, apply_ite (Dev.kept W), ite_self]

theorem Lenient.writePflag {R : Dev → Dev → Prop} (hR : Lenient R) (d : Dev) (p set clr : Nat) : R d (d.writePflag p set clr) := by
  refine hR.trans (hR.same (fun _ _ => ?_)) (hR.wakeFlags _ p)
  simp only [Dev.setPairFlags_kept]

theorem execPfset_lenient {R : Dev → Dev → Prop} (hR : Lenient R) {s s' : State} {t : Nat} {k : ChanId} {mask : BitVec 3}
    (h : execPfset t k mask s = .next s') : R (s.at_ t) s'.dev :=
  hR.runClk (fun d => Lenient.ite _ (hR.writePflag d k.val mask.toNat 0) (hR.refl d)) h

theorem execPfclr_lenient {R : Dev → Dev → Prop} (hR : Lenient R) {s s' : State} {t : Nat} {k : ChanId} {mask : BitVec 3}
    (h : execPfclr t k mask s = .next s') : R (s.at_ t) s'.dev :=
  hR.runClk (fun d => Lenient.ite _ (hR.writePflag d k.val 0 mask.toNat) (hR.refl d)) h

theorem Dev.writeLive_kept (d : Dev) (q : Nat) (v : Word32) : (d.writeLive q v).kept W = d.kept W := by
  simp only [Dev.writeLive, Dev.setWord_kept, apply_ite (Dev.kept W)]
  (repeat' split) <;> simp only [Dev.setWord_kept, Dev.wr_kept, Dev.raise_kept, Dev.modSq_kept]

theorem execSqLiveWrite_kept {s s' : State} {t : Nat} {q : SeqId} {v : Word32} (h : execSqLiveWrite t q v s = .next s') :
    s'.dev.kept W = (s.at_ t).kept W := by
  refine State.runClk_kept (fun d => ?_) h
  simp only [Dev.writeLive_kept, apply_ite (Dev.kept W), ite_self]

end Sys2Proof.Machine
end

section
/-! PROOFS. What a frame tracks is left alone: samples, jobs, palettes and links. -/

namespace Sys2Proof.Machine

open Sys2Proof

variable {W : Watch}

/-! ### Samples -/

theorem Dev.setTrim_kept (d : Dev) (k at_ : Nat) (v : Int) : (d.setTrim k at_ v).kept W = d.kept W := by
  simp only [Dev.setTrim, Dev.wrS_kept, Dev.modCh_kept]

theorem Dev.runTx_kept (d : Dev) (m : Nat) (e : Nat) : (d.runTx m e).kept W = d.kept W := by
  unfold Dev.runTx
  split <;> simp only [Dev.inc_kept, Dev.raise_kept, Dev.modCh_kept, apply_ite (Dev.kept W), ite_self]

theorem Dev.primeTx_kept (d : Dev) (m : Nat) (t : Nat) : (d.primeTx m t).kept W = d.kept W := by
  simp only [Dev.primeTx, Dev.modCh_kept]

theorem Dev.clearRx_kept (d : Dev) (k e : Nat) : (d.clearRx k e).kept W = d.kept W := by
  simp only [Dev.clearRx, Dev.modCh_kept]

theorem Dev.clearTx_kept (d : Dev) (k e : Nat) : (d.clearTx k e).kept W = d.kept W := by
  simp only [Dev.clearTx, Dev.modCh_kept, Dev.runTx_kept]

theorem Dev.clearChains_kept (d : Dev) (k ts : Nat) : (d.clearChains k ts).kept W = d.kept W := by
  simp only [Dev.clearChains, Dev.clearRx_kept, Dev.clearTx_kept]

theorem Dev.emit_kept (d : Dev) (m : Nat) : (d.emit m).kept W = d.kept W := by
  simp only [Dev.emit, Dev.modCh_kept]

theorem Dev.feedMember_kept (d : Dev) (m first : Nat) (codes : List Int) : (d.feedMember m first codes).kept W = d.kept W := by
  simp only [Dev.feedMember, Dev.inc_kept, Dev.raise_kept, Dev.emit_kept, Dev.modCh_kept, apply_ite (Dev.kept W), ite_self]

theorem Dev.feedChains_kept (d : Dev) (k first : Nat) (codes : List (List Int)) :
    (d.feedChains k first codes).kept W = d.kept W := by
  simp only [Dev.feedChains, Dev.feedMember_kept, Dev.kept_foldl, implies_true]

theorem Dev.leaveChq_kept (d : Dev) (m n : Nat) : (d.leaveChq m n).kept W = d.kept W := by
  simp only [Dev.leaveChq, Dev.event_kept, Dev.modCh_kept, apply_ite (Dev.kept W), ite_self]

theorem Dev.takeChips_kept (d : Dev) (k : Nat) : (d.takeChips k).kept W = d.kept W := by
  simp only [Dev.takeChips, Dev.leaveChq_kept, Dev.modCh_kept, Dev.kept_foldl, implies_true, apply_ite (Dev.kept W), ite_self]

/-! ### Jobs of pages -/

theorem Dev.zeroStaging_kept (d : Dev) (src : Nat) : (d.zeroStaging src).kept W = d.kept W := by
  simp only [Dev.zeroStaging, Dev.resetRange_kept]

theorem Dev.freeLock_kept (d : Dev) (hlease : W.lease = false) : d.freeLock.kept W = d.kept W := by
  simp only [Dev.freeLock, Dev.wr_kept, hlease, Dev.kept_leaseEnd]

theorem Dev.expireLock_kept (d : Dev) (hlease : W.lease = false) : d.expireLock.kept W = d.kept W := by
  simp only [Dev.expireLock, Dev.zeroStaging_kept, Dev.freeLock_kept, hlease]

theorem Dev.lapseLock_kept (d : Dev) (hlease : W.lease = false) : d.lapseLock.kept W = d.kept W := by
  unfold Dev.lapseLock
  split <;> simp only [Dev.expireLock_kept, hlease, apply_ite (Dev.kept W), ite_self]

theorem Dev.endSession_kept (d : Dev) (n : Nat) (hlease : W.lease = false) : (d.endSession n).kept W = d.kept W := by
  unfold Dev.endSession
  split <;> simp only [Dev.expireLock_kept, Dev.zeroStaging_kept, hlease, Dev.kept_sessions, apply_ite (Dev.kept W), ite_self]

theorem Dev.endKeySessions_kept (d : Dev) (sa : Nat) (ph : Bool) (hlease : W.lease = false) :
    (d.endKeySessions sa ph).kept W = d.kept W := by
  simp only [Dev.endKeySessions, Dev.endSession_kept, hlease, Dev.kept_foldl, implies_true, apply_ite (Dev.kept W), ite_self]

theorem Dev.modJobs_kept (d : Dev) (p : Nat) (f : List Job → List Job) (hkeys : W.keys = false) :
    (d.modJobs p f).kept W = d.kept W := by
  simp only [Dev.modJobs, Dev.setPage_kept, hkeys]

theorem Dev.jobNotice_kept (d : Dev) (p : Nat) (r : JobDone) : (d.jobNotice p r).kept W = d.kept W := by
  simp only [Dev.jobNotice, Dev.notice_kept]

theorem Dev.ringPut_kept (d : Dev) (p : Nat) (r : JobDone) (hkeys : W.keys = false) : (d.ringPut p r).kept W = d.kept W := by
  simp only [Dev.ringPut, Dev.setPage_kept, Dev.raise_kept, hkeys, apply_ite (Dev.kept W), ite_self]

theorem Dev.finishJob_kept (d : Dev) (p : Nat) (j : Job) (status outlen : Nat) (hkeys : W.keys = false) (hdrbg : W.drbg = false)
    (hmasked : W.masked = false) :
    (d.finishJob p j status outlen).kept W = d.kept W := by
  simp only [Dev.finishJob, Dev.pipeEnd_kept, Dev.modJobs_kept, Dev.jobNotice_kept, Dev.ringPut_kept, hkeys, hdrbg, hmasked]

theorem Dev.runJob_kept (d : Dev) (p : Nat) (j : Job) (hassoc : W.assoc = false) (hkeys : W.keys = false)
    (hdrbg : W.drbg = false) (hmasked : W.masked = false) :
    (d.runJob p j).kept W = d.kept W := by
  have hbind := d.bindAsk_kept j.saidx j.phase 1 hkeys
  unfold Dev.runJob
  split
  · simp only [Dev.cause_kept, Dev.inc_kept, Dev.modJobs_kept, Dev.finishJob_kept, apply_ite (Dev.kept W), ite_self, hkeys,
      hdrbg, hmasked]
  · split
    next e he =>
      rw [he] at hbind
      simp only [Dev.event_kept, Dev.modJobs_kept, Dev.setSa_kept, apply_ite (Dev.kept W), ite_self, hbind, hassoc, hkeys]
    next e he =>
      rw [he] at hbind
      simp only [Dev.finishJob_kept, hbind, hkeys, hdrbg, hmasked]
    next x e _ _ he =>
      rw [he] at hbind
      exact hbind

theorem Dev.takeItem_kept (d : Dev) (p : Nat) (j : Job) (hassoc : W.assoc = false) (hkeys : W.keys = false)
    (hshallow : W.shallow = false) (hfree : W.free = false) (hdrbg : W.drbg = false) (hethOut : W.ethOut = false)
    (hmasked : W.masked = false) :
    (d.takeItem p j).kept W = d.kept W := by
  simp only [Dev.takeItem]
  split <;>
    simp only [Dev.pfcCheck_kept, Dev.popItem_kept, Dev.runJob_kept, Dev.modJobs_kept, hassoc, hkeys, hshallow, hfree, hdrbg,
      hethOut, hmasked, apply_ite (Dev.kept W), ite_self]

theorem Dev.startJobs_kept (d : Dev) (p : Nat) (hassoc : W.assoc = false) (hkeys : W.keys = false)
    (hshallow : W.shallow = false) (hfree : W.free = false) (hdrbg : W.drbg = false) (hethOut : W.ethOut = false)
    (hmasked : W.masked = false) :
    (d.startJobs p).kept W = d.kept W := by
  simp only [Dev.startJobs, Dev.runJob_kept, Dev.takeItem_kept, hassoc, hkeys, hshallow, hfree, hdrbg, hethOut, hmasked,
    Dev.kept_foldl, implies_true, apply_ite (Dev.kept W), ite_self]

theorem Dev.startAllJobs_kept (d : Dev) (hassoc : W.assoc = false) (hkeys : W.keys = false) (hshallow : W.shallow = false)
    (hfree : W.free = false) (hdrbg : W.drbg = false) (hethOut : W.ethOut = false) (hmasked : W.masked = false) :
    d.startAllJobs.kept W = d.kept W := by
  simp only [Dev.startAllJobs, Dev.startJobs_kept, hassoc, hkeys, hshallow, hfree, hdrbg, hethOut, hmasked, Dev.kept_foldl,
    implies_true]

theorem Dev.pushAllWaiting_kept (d : Dev) (hdeep : W.deep = false) : d.pushAllWaiting.kept W = d.kept W := by
  simp only [Dev.pushAllWaiting, Dev.pushWaiting_kept, Dev.setDq_kept, hdeep, Dev.kept_foldl, implies_true]

theorem execSectorEncryptDone_kept {s s' : State} {t : Nat} {q : Fin 1024} (hassoc : W.assoc = false) (hkeys : W.keys = false)
    (hshallow : W.shallow = false) (hdeep : W.deep = false) (hfree : W.free = false) (hdrbg : W.drbg = false)
    (hethOut : W.ethOut = false) (hmasked : W.masked = false) (h : execSectorEncryptDone t q s = .next s') :
    s'.dev.kept W = (s.at_ t).kept W := by
  refine State.runClk_kept (fun d => ?_) h
  simp only [Dev.pushWaiting_kept, Dev.setDq_kept, Dev.event_kept, Dev.encryptSector_kept, Dev.startAllJobs_kept,
    Dev.pushAllWaiting_kept, hassoc, hkeys, hshallow, hdeep, hfree, hdrbg, hethOut, hmasked, apply_ite (Dev.kept W), ite_self]

theorem execSectorDecryptDone_kept {s s' : State} {t : Nat} {q : Fin 1024} (hassoc : W.assoc = false) (hkeys : W.keys = false)
    (hshallow : W.shallow = false) (hdeep : W.deep = false) (hfree : W.free = false) (hdrbg : W.drbg = false)
    (hethOut : W.ethOut = false) (hmasked : W.masked = false) (h : execSectorDecryptDone t q s = .next s') :
    s'.dev.kept W = (s.at_ t).kept W := by
  refine State.runClk_kept (fun d => ?_) h
  simp only [Dev.startAllJobs_kept, Dev.pushAllWaiting_kept, Dev.setDq_kept, Dev.event_kept, hassoc, hkeys, hshallow, hdeep,
    hfree, hdrbg, hethOut, hmasked, apply_ite (Dev.kept W), ite_self]

/-! ### Palettes and the synchronising reset -/

theorem Dev.commitPalette_kept (d : Dev) (k : Nat) (b : Bool) : (d.commitPalette k b).kept W = d.kept W := by
  simp only [Dev.commitPalette, Dev.raise_kept, Dev.wr_kept, apply_ite (Dev.kept W), ite_self]

theorem execCommitA_kept {s s' : State} {t : Nat} {k : ChanId} (h : execCommitA t k s = .next s') :
    s'.dev.kept W = (s.at_ t).kept W := by
  refine State.runClk_kept (fun d => ?_) h
  simp only [Dev.commitPalette_kept, apply_ite (Dev.kept W), ite_self]

theorem execCommitB_kept {s s' : State} {t : Nat} {k : ChanId} (h : execCommitB t k s = .next s') :
    s'.dev.kept W = (s.at_ t).kept W := by
  refine State.runClk_kept (fun d => ?_) h
  simp only [Dev.commitPalette_kept, apply_ite (Dev.kept W), ite_self]

theorem Dev.exchange_kept (d : Dev) (k : Nat) : (d.exchange k).kept W = d.kept W := by
  simp only [Dev.exchange, Dev.wr_kept]

theorem Dev.startSwap_kept (d : Dev) (k rxAt txAt : Nat) (fade : Bool) (f : Nat) :
    (d.startSwap k rxAt txAt fade f).kept W = d.kept W := by
  simp only [Dev.startSwap, Dev.runTx_kept, Dev.clearTx_kept, Dev.modCh_kept, Dev.exchange_kept, Dev.wr_kept, Dev.clearRx_kept,
    apply_ite (Dev.kept W), ite_self]

theorem Dev.rejectSwap_kept (d : Dev) (k code : Nat) : (d.rejectSwap k code).kept W = d.kept W := by
  simp only [Dev.rejectSwap, Dev.raise_kept, Dev.inc_kept, Dev.wr_kept]

theorem Dev.returnCode_kept (d : Dev) (k q : Nat) : (d.returnCode k q).kept W = d.kept W := by
  simp only [Dev.returnCode, Dev.modSq_kept, apply_ite (Dev.kept W), ite_self]

theorem Dev.swapRequest_kept (d : Dev) (k at_ : Nat) (fade : Bool) (f : Nat) :
    (d.swapRequest k at_ fade f).kept W = d.kept W := by
  simp only [Dev.swapRequest, Dev.rejectSwap_kept, Dev.modCh_kept, Dev.wr_kept, Dev.startSwap_kept, apply_ite (Dev.kept W),
    ite_self]

theorem Lenient.lateEntry {R : Dev → Dev → Prop} (hR : Lenient R) (d : Dev) (k : Nat) (e : PrmqEntry) :
    R d (d.lateEntry k e) := by
  have hlate (x : Dev) (hx : d.sameButDeep x) :
      R d (if e.seq < 128 then x.lateMiss e.seq e.step subSLOT e.at_ else x.dlMiss subSLOT (some k) 0 0 (x.now - e.at_)) :=
    hR.trans (hR.same hx) (Lenient.ite _ (hR.lateMiss x _ _ _ _) (hR.same (fun _ _ => x.dlMiss_kept _ _ _ _ _)))
  unfold Dev.lateEntry
  split
  · exact hlate _ (fun _ _ => d.setTrim_kept k _ _)
  · exact hlate _ (fun _ _ => d.clearChains_kept k _)
  · exact hlate d (fun _ _ => rfl)

theorem Lenient.pullPrmq {R : Dev → Dev → Prop} (hR : Lenient R) (d : Dev) (k : Nat) : R d (d.pullPrmq k) := by
  refine hR.foldl (fun d e => Lenient.ite _ (hR.refl d) ?_) _ d
  refine hR.trans (hR.same (fun _ _ => d.modCh_kept k _)) (Lenient.ite _ (hR.lateEntry _ k e) ?_)
  exact hR.same (fun _ _ => Dev.modCh_kept _ k _)

theorem Dev.pullPrmq_kept (d : Dev) (k : Nat) (hdeep : W.deep = false) (hfree : W.free = false) :
    (d.pullPrmq k).kept W = d.kept W :=
  (lenient_kept hdeep hfree).pullPrmq d k

theorem Lenient.applyReset {R : Dev → Dev → Prop} (hR : Lenient R) (d : Dev) (k : Nat) : R d (d.applyReset k) := by
  refine Lenient.ite _ (hR.refl d) (hR.foldl (fun d e => hR.trans (hR.same (fun _ _ => ?_)) (hR.pullPrmq _ k)) _ d)
  simp only [Dev.clearChains_kept, Dev.modCh_kept]

theorem execPaletteSwap_lenient {R : Dev → Dev → Prop} (hR : Lenient R) {s s' : State} {t : Nat} {k : ChanId}
    (h : execPaletteSwap t k s = .next s') : R (s.at_ t) s'.dev := by
  refine hR.runClk (fun d => ?_) h
  split
  · exact hR.refl d
  · refine hR.trans ?_ (hR.pullPrmq _ k.val)
    refine hR.trans ?_ (hR.same (fun _ _ => Dev.returnCode_kept _ _ _))
    refine hR.trans (hR.same (fun _ _ => d.modCh_kept k.val _)) (hR.foldl (fun d m => ?_) _ _)
    refine hR.trans ?_ (hR.same (fun _ _ => Dev.swapRequest_kept _ _ _ _ _))
    exact Lenient.ite _ (hR.applyReset d m) (hR.refl d)

theorem Dev.endFade_kept (d : Dev) (k : Nat) : (d.endFade k).kept W = d.kept W := by
  simp only [Dev.endFade, Dev.wr_kept]

theorem execFadeEnd_kept {s s' : State} {t : Nat} {k : ChanId} (h : execFadeEnd t k s = .next s') :
    s'.dev.kept W = (s.at_ t).kept W := by
  refine State.runClk_kept (fun d => ?_) h
  dsimp only
  (repeat' split) <;> simp only [Dev.endFade_kept, Dev.startSwap_kept, Dev.modCh_kept, Dev.wr_kept]

theorem Lenient.syncReset {R : Dev → Dev → Prop} (hR : Lenient R) (d : Dev) : R d d.syncReset := by
  unfold Dev.syncReset
  split
  · refine Lenient.ite _ (hR.trans (hR.same (fun _ _ => d.kept_syncAt none)) ?_) (hR.refl d)
    exact hR.foldl (fun d k => hR.applyReset d k) _ _
  · exact hR.refl d

theorem Dev.syncAccept_kept (d : Dev) (cmd : Bool) : (d.syncAccept cmd).kept W = d.kept W := by
  refine (Dev.kept_foldl (fun d k => d.pushPrmq_kept k _) _ _).trans ((Dev.kept_syncAt _ _).trans ?_)
  simp only [Dev.wr64_kept, Dev.wr_kept]

theorem Dev.dropResets_kept (d : Dev) : d.dropResets.kept W = d.kept W := by rfl

theorem Lenient.syncEvent {R : Dev → Dev → Prop} (hR : Lenient R) (d : Dev) (cmd : Bool) : R d (d.syncEvent cmd) := by
  have hdue : R d (if d.mains.refclk then d.syncReset else d) := Lenient.ite _ (hR.syncReset d) (hR.refl d)
  refine hR.trans hdue (hR.same (fun _ _ => ?_))
  simp only [Dev.syncEvent]
  split <;> simp only [Dev.syncAccept_kept, Dev.inc_kept, Dev.dropResets_kept, apply_ite (Dev.kept _), ite_self]

theorem execSampleSync_lenient {R : Dev → Dev → Prop} (hR : Lenient R) {s s' : State} {t : Nat}
    (h : execSampleSync t s = .next s') : R (s.at_ t) s'.dev :=
  hR.run (fun d => hR.syncEvent d false) h

theorem execSync_lenient {R : Dev → Dev → Prop} (hR : Lenient R) {s s' : State} {t : Nat} (h : execSync t s = .next s') :
    R (s.at_ t) s'.dev :=
  hR.runClk (fun d => hR.syncEvent d true) h

theorem execSyncReset_lenient {R : Dev → Dev → Prop} (hR : Lenient R) {s s' : State} {t : Nat}
    (h : execSyncReset t s = .next s') : R (s.at_ t) s'.dev :=
  hR.runClk (fun d => hR.syncReset d) h

/-! ### Links -/

theorem Dev.nodeLost_kept (d : Dev) (k i : Nat) : (d.nodeLost k i).kept W = d.kept W := by
  simp only [Dev.nodeLost, Dev.modLf_kept, Dev.raise_kept, Dev.wr_kept]

theorem Dev.unjoin_kept (d : Dev) (k : Nat) : (d.unjoin k).kept W = d.kept W := by
  simp only [Dev.unjoin, Dev.modLf_kept, Dev.wr_kept, Dev.raise_kept]

theorem Dev.joinAbandon_kept (d : Dev) (i : Nat) (hassoc : W.assoc = false) : (d.joinAbandon i).kept W = d.kept W := by
  simp only [Dev.joinAbandon, Dev.wr_kept, Dev.makeAbsent_kept, hassoc]

theorem Dev.exchangeFail_kept (d : Dev) (k i : Nat) (hassoc : W.assoc = false) : (d.exchangeFail k i).kept W = d.kept W := by
  simp only [Dev.exchangeFail, Dev.wr_kept, Dev.pushHist_kept, Dev.nodeLost_kept, Dev.joinAbandon_kept, hassoc,
    apply_ite (Dev.kept W), ite_self]

theorem Dev.exchangeOk_kept (d : Dev) (i : Nat) : (d.exchangeOk i).kept W = d.kept W := by
  simp only [Dev.exchangeOk, Dev.pushHist_kept, Dev.wr_kept]

theorem Dev.exchangeDone_kept (d : Dev) (k i : Nat) (ok : Bool) (hassoc : W.assoc = false) :
    (d.exchangeDone k i ok).kept W = d.kept W := by
  simp only [Dev.exchangeDone, Dev.modLf_kept, Dev.exchangeOk_kept, Dev.exchangeFail_kept, Dev.wr_kept, hassoc,
    apply_ite (Dev.kept W), ite_self]

theorem Dev.ackTo_kept (d : Dev) (k i a : Nat) (hdeep : W.deep = false) : (d.ackTo k i a).kept W = d.kept W := by
  simp only [Dev.ackTo, Dev.release_kept, Dev.wr_kept, Dev.followRd_kept, hdeep, apply_ite (Dev.kept W), ite_self]

theorem Dev.tagTail_kept (d : Dev) (q i : Nat) (via : Bool) (hshallow : W.shallow = false) :
    (d.tagTail q i via).kept W = d.kept W := by
  simp only [Dev.tagTail]
  split <;> simp only [Dev.setSh_kept, hshallow]

theorem Dev.deliver_kept (d : Dev) (k i : Nat) (via : Bool) (u : Unit_) (hshallow : W.shallow = false) (hfree : W.free = false)
    :
    (d.deliver k i via u).kept W = d.kept W := by
  simp only [Dev.deliver, Dev.pfcCheck_kept, Dev.pushContent_kept, Dev.tagTail_kept, hshallow, hfree, apply_ite (Dev.kept W),
    ite_self]

theorem Dev.acceptUnit_kept (d : Dev) (k i : Nat) (via : Bool) (u : Unit_) (hshallow : W.shallow = false)
    (hfree : W.free = false) :
    (d.acceptUnit k i via u).kept W = d.kept W := by
  simp only [Dev.acceptUnit, Dev.deliver_kept, Dev.wr_kept, Dev.inc_kept, hshallow, hfree, apply_ite (Dev.kept W), ite_self]

theorem Dev.stageTo_kept (d : Dev) (k words : Nat) (hfree : W.free = false) : (d.stageTo k words).kept W = d.kept W := by
  refine (Dev.pfcCheck_kept _).trans (Dev.kept_foldl (fun d _ => ?_) _ d)
  dsimp only
  split
  · exact (Dev.modCh_kept _ _ _).trans ((Dev.kept_free _ _ hfree).trans (d.ripen_kept hfree))
  · exact d.ripen_kept hfree

theorem Dev.acceptUnits_kept (d : Dev) (k i typ : Nat) (via : Bool) (m : List Byte) (hshallow : W.shallow = false)
    (hfree : W.free = false) :
    (d.acceptUnits k i typ via m).kept W = d.kept W := by
  simp only [Dev.acceptUnits, Dev.stageTo_kept, Dev.acceptUnit_kept, Dev.cause_kept, Dev.raise_kept, hshallow, hfree,
    Dev.kept_foldl, implies_true, apply_ite (Dev.kept W), ite_self]

theorem Dev.neighbourParity_kept (d : Dev) (k : Nat) : (d.neighbourParity k).kept W = d.kept W := by
  simp only [Dev.neighbourParity, Dev.entryParity_kept, Dev.kept_foldl, implies_true]

end Sys2Proof.Machine
end

section
/-! PROOFS. What a frame tracks is left alone: transmission. -/

namespace Sys2Proof.Machine

open Sys2Proof

variable {W : Watch}

theorem Dev.drawSlot_kept (d : Dev) (k : Nat) (hdrbg : W.drbg = false) : (d.drawSlot k).kept W = d.kept W := by
  unfold Dev.drawSlot
  split <;> simp only [Dev.draw_kept, Dev.modLf_kept, hdrbg, apply_ite (Dev.kept W), ite_self]

theorem Dev.rewindOld_kept (d : Dev) (i q : Nat) (hdeep : W.deep = false) : (d.rewindOld i q).kept W = d.kept W := by
  simp only [Dev.rewindOld, Dev.followRd_kept, Dev.rewindHead_kept, hdeep, apply_ite (Dev.kept W), ite_self]

theorem Dev.takeDeep_kept (d : Dev) (k i room : Nat) (hdeep : W.deep = false) :
    (d.takeDeep k i room).2.2.kept W = d.kept W := by
  unfold Dev.takeDeep
  split <;>
    simp only [Dev.markDeep_kept, Dev.rewindOld_kept, Dev.moveRd_kept, Dev.deepFetch_kept, Dev.raiseHwm_kept, Dev.cause_kept,
      Dev.raise_kept, Dev.inc_kept, Dev.rewriteWord_kept, Dev.setDq_kept, Dev.followRd_kept, Dev.unjoin_kept, Dev.nodeLost_kept,
      hdeep, Dev.kept_foldl, implies_true, apply_ite (Dev.kept W), ite_self]

theorem Dev.takeShallow_kept (d : Dev) (i room : Nat) (hshallow : W.shallow = false) :
    (d.takeShallow i room).2.2.kept W = d.kept W := by
  simp only [Dev.takeShallow]
  (repeat' split) <;> simp only [Dev.detachSh_kept, Dev.inc_kept, hshallow]

theorem Dev.takeUnits_kept (d : Dev) (k i typ room : Nat) (hshallow : W.shallow = false) (hdeep : W.deep = false) :
    (d.takeUnits k i typ room).2.2.kept W = d.kept W := by
  unfold Dev.takeUnits
  split <;> simp only [Dev.takeDeep_kept, Dev.takeShallow_kept, hshallow, hdeep]

theorem Dev.lineFrame_kept (d : Dev) (i typ src ver : Nat) (f : Form) (anchor : Nat) (msg : List Byte) :
    (d.lineFrame i typ src ver f anchor msg).2.kept W = d.kept W := by
  simp only [Dev.lineFrame, Dev.setFctr_kept]

theorem Dev.nest_kept (d : Dev) (k h : Nat) (f : Form) (x : Draft) : (d.nest k h f x).2.kept W = d.kept W := by
  simp only [Dev.nest, Dev.lineFrame_kept, Dev.kept_draws]

theorem Dev.nestAll_kept (d : Dev) (k : Nat) (f : Form) (l : List Nat) (x : Draft) :
    (d.nestAll k f l x).2.kept W = d.kept W := by
  induction l generalizing d x with
  | nil => rfl
  | cons h l ih => exact (ih (d.nest k h f x).2 (d.nest k h f x).1).trans (d.nest_kept k h f x)

theorem Dev.draft_kept (d : Dev) (k : Nat) (p : TxPlan) (t room : Nat) (hshallow : W.shallow = false) (hdeep : W.deep = false)
    (hdrbg : W.drbg = false) :
    (d.draft k p t room).2.2.kept W = d.kept W := by
  simp only [Dev.draft, apply_ite Prod.fst]
  (repeat' split) <;>
    simp only [Dev.takeUnits_kept, Dev.neighbourParity_kept, Dev.draw_kept, Dev.modLf_kept, hshallow, hdeep, hdrbg,
      Dev.kept_draws]

theorem Dev.capLevels_kept (d : Dev) (k : Nat) (lvl : Int) (deg : Nat) : (d.capLevels k lvl deg).2.kept W = d.kept W := by
  simp only [Dev.capLevels, Dev.raise_kept, Dev.kept_foldl, implies_true, apply_ite (Dev.kept W), ite_self]

theorem Dev.placeJob_kept (d : Dev) (q k : Nat) (x : TxJob) : (d.placeJob q k x).kept W = d.kept W := by
  simp only [Dev.placeJob, Dev.modCh_kept, Dev.done_kept, Dev.modSq_kept]

theorem Dev.askedOf_kept (d : Dev) (k : Nat) (l : List Nat) : (d.askedOf k l).kept W = d.kept W := by
  simp only [Dev.askedOf, Dev.modLf_kept]

theorem Dev.issueTx_kept (d : Dev) (q k : Nat) (p : TxPlan) (t : Nat) (g : SlotGrant) (hshallow : W.shallow = false)
    (hdeep : W.deep = false) (hdrbg : W.drbg = false) :
    (d.issueTx q k p t g).kept W = d.kept W := by
  simp only [Dev.issueTx, Dev.capLevels_kept, Dev.placeJob_kept, Dev.draft_kept, Dev.nestAll_kept, Dev.askedOf_kept,
    Dev.event_kept, Dev.setFctr_kept, hshallow, hdeep, hdrbg, apply_ite (Dev.kept W), ite_self]
  (repeat' split) <;> simp only [Dev.capLevels_kept, Dev.placeJob_kept]

theorem Dev.beaconLost_kept (d : Dev) (q k step late : Nat) : (d.beaconLost q k step late).kept W = d.kept W := by
  simp only [Dev.beaconLost, Dev.missFlags_kept, Dev.dlMiss_kept, apply_ite (Dev.kept W), ite_self]

theorem Dev.pollLost_kept (d : Dev) (k : Nat) (i : Option Nat) (hassoc : W.assoc = false) :
    (d.pollLost k i).kept W = d.kept W := by
  unfold Dev.pollLost
  split <;> simp only [Dev.exchangeFail_kept, hassoc, apply_ite (Dev.kept W), ite_self]

theorem Dev.unsent_kept (d : Dev) (q k code : Nat) (hassoc : W.assoc = false) : (d.unsent q k code).kept W = d.kept W := by
  unfold Dev.unsent
  split <;> simp only [Dev.beaconLost_kept, Dev.pollLost_kept, hassoc, apply_ite (Dev.kept W), ite_self]

theorem Dev.closeTx_kept (d : Dev) (q k code : Nat) (hdeep : W.deep = false) (hfree : W.free = false) :
    (d.closeTx q k code).kept W = d.kept W := by
  simp only [Dev.closeTx, Dev.countRef_kept, Dev.raise_kept, Dev.commitTx_kept, Dev.done_kept, Dev.unpin_kept, hdeep, hfree,
    apply_ite (Dev.kept W), ite_self]

theorem Dev.endTx_kept (d : Dev) (q k code : Nat) (hassoc : W.assoc = false) (hdeep : W.deep = false) (hfree : W.free = false) :
    (d.endTx q k code).kept W = d.kept W := by
  simp only [Dev.endTx, Dev.closeTx_kept, Dev.unsent_kept, hassoc, hdeep, hfree]

theorem Dev.endForm_kept (d : Dev) (q k typ : Nat) (hassoc : W.assoc = false) (hdeep : W.deep = false) (hfree : W.free = false)
    :
    (d.endForm q k typ).kept W = d.kept W := by
  simp only [Dev.endForm, Dev.closeTx_kept, Dev.unsent_kept, hassoc, hdeep, hfree, apply_ite (Dev.kept W), ite_self]

theorem Dev.missTx_kept (d : Dev) (q k sub : Nat) (deadline : Option Nat) (hassoc : W.assoc = false) (hdeep : W.deep = false)
    (hfree : W.free = false) :
    (d.missTx q k sub deadline).kept W = d.kept W := by
  simp only [Dev.missTx, Dev.commitTx_kept, Dev.stepMiss_kept, Dev.unpin_kept, Dev.modSq_kept, Dev.unsent_kept, hassoc, hdeep,
    hfree]

theorem Dev.noteLock_kept (d : Dev) (k : Nat) : (d.noteLock k).kept W = d.kept W := by
  simp only [Dev.noteLock, Dev.cause_kept, apply_ite (Dev.kept W), ite_self]

theorem Dev.tryTx_kept (d : Dev) (q k : Nat) (p : TxPlan) (t : Nat) (hassoc : W.assoc = false) (hkeys : W.keys = false)
    (hshallow : W.shallow = false) (hdeep : W.deep = false) (hfree : W.free = false) (hdrbg : W.drbg = false) :
    (d.tryTx q k p t).kept W = d.kept W := by
  simp only [Dev.tryTx, Dev.endTx_kept, Dev.missTx_kept, hassoc, hdeep, hfree, apply_ite (Dev.kept W)]
  (repeat' split) <;>
    simp only [Dev.endTx_kept, Dev.hold_kept, Dev.budgetDeny_kept, Dev.bindAsk_kept, Dev.abortStarted_kept, Dev.issueTx_kept,
      hassoc, hkeys, hshallow, hdeep, hfree, hdrbg, Dev.kept_foldl, implies_true, apply_ite (Dev.kept W), ite_self]

theorem Dev.useGap_kept {d e : Dev} {k typ n : Nat} (h : d.useGap k typ = some (n, e)) : e.kept W = d.kept W := by
  unfold Dev.useGap at h
  split at h
  · cases h
  · split_ifs at h <;> cases h <;> exact d.modCh_kept k _

theorem Dev.memberEntry_kept (d : Dev) (q : Nat) : (d.memberEntry q).kept W = d.kept W := by
  simp only [Dev.memberEntry, Dev.raise_kept, apply_ite (Dev.kept W), ite_self]

theorem Dev.endTxBad_kept (d : Dev) (q k typ fsel : Nat) (via : Bool) (hassoc : W.assoc = false) (hdeep : W.deep = false)
    (hfree : W.free = false) :
    (d.endTxBad q k typ fsel via).kept W = d.kept W := by
  simp only [Dev.endTxBad, Dev.endTx_kept, Dev.entryParity_kept, hassoc, hdeep, hfree, Dev.kept_foldl, implies_true]

theorem Dev.txStep_kept (d : Dev) (q : Nat) (st : Step) (typ fsel : Nat) (via : Bool) (lenmax : Nat) (gap : Bool)
    (hassoc : W.assoc = false) (hkeys : W.keys = false) (hshallow : W.shallow = false) (hdeep : W.deep = false)
    (hfree : W.free = false) (hdrbg : W.drbg = false) :
    (d.txStep q st typ fsel via lenmax gap).kept W = d.kept W := by
  unfold Dev.txStep
  dsimp only
  split
  · simp only [Dev.endTx_kept, Dev.memberEntry_kept, hassoc, hdeep, hfree]
  next n e hgap =>
    have he : e.kept W = d.kept W := by
      split at hgap
      · exact Dev.useGap_kept hgap
      · cases hgap; rfl
    (repeat' split) <;>
      simp only [Dev.endTx_kept, Dev.memberEntry_kept, Dev.missTx_kept, Dev.endTxBad_kept, Dev.endForm_kept, Dev.wfReject_kept,
        Dev.drawSlot_kept, Dev.tryTx_kept, he, hassoc, hkeys, hshallow, hdeep, hfree, hdrbg]

theorem Dev.retryTx_kept (d : Dev) (q : Nat) (hassoc : W.assoc = false) (hkeys : W.keys = false) (hshallow : W.shallow = false)
    (hdeep : W.deep = false) (hfree : W.free = false) (hdrbg : W.drbg = false) :
    (d.retryTx q).kept W = d.kept W := by
  simp only [Dev.retryTx]
  (repeat' split) <;>
    simp only [Dev.noteLock_kept, Dev.endTxBad_kept, Dev.endTx_kept, Dev.tryTx_kept, hassoc, hkeys, hshallow, hdeep, hfree,
      hdrbg]

theorem Dev.retryAll_kept (d : Dev) (hassoc : W.assoc = false) (hkeys : W.keys = false) (hshallow : W.shallow = false)
    (hdeep : W.deep = false) (hfree : W.free = false) (hdrbg : W.drbg = false) :
    d.retryAll.kept W = d.kept W := by
  simp only [Dev.retryAll, Dev.retryTx_kept, hassoc, hkeys, hshallow, hdeep, hfree, hdrbg, Dev.kept_foldl, implies_true]

theorem execTx_kept {s s' : State} {t : Nat} {q : SeqId} (hassoc : W.assoc = false) (hkeys : W.keys = false)
    (hshallow : W.shallow = false) (hdeep : W.deep = false) (hfree : W.free = false) (hdrbg : W.drbg = false)
    (h : execTx t q s = .next s') :
    s'.dev.kept W = (s.at_ t).kept W := by
  refine State.runClk_kept (fun d => Dev.kept_ite _ ?_ ?_) h
  · exact d.asBefore_kept _ (fun d => d.retryTx_kept q.val hassoc hkeys hshallow hdeep hfree hdrbg)
  · refine d.fetch_kept q.val _ _ hdeep hfree (fun st d => ?_)
    split <;> simp only [Dev.txStep_kept, Dev.noteLock_kept, hassoc, hkeys, hshallow, hdeep, hfree, hdrbg]

theorem Dev.switchTx_kept (d : Dev) (m t fin : Nat) : (d.switchTx m t fin).kept W = d.kept W := by
  simp only [Dev.switchTx, Dev.modCh_kept]

theorem Dev.switchRx_kept (d : Dev) (m e : Nat) : (d.switchRx m e).kept W = d.kept W := by
  simp only [Dev.switchRx, Dev.modCh_kept]

theorem Dev.pollSent_kept (d : Dev) (k i : Nat) : (d.pollSent k i).kept W = d.kept W := by
  simp only [Dev.pollSent, Dev.modLf_kept, Dev.wr_kept, apply_ite (Dev.kept W), ite_self]

theorem Dev.joinAccSent_kept (d : Dev) (k i : Nat) (m : JoinAccMsg) (hassoc : W.assoc = false) :
    (d.joinAccSent k i m).kept W = d.kept W := by
  simp only [Dev.joinAccSent, Dev.modLf_kept, Dev.wr_kept, Dev.adoptSession_kept, hassoc, apply_ite (Dev.kept W), ite_self]

theorem Dev.frameSent_kept (d : Dev) (k : Nat) (x : TxJob) (hassoc : W.assoc = false) :
    (d.frameSent k x).kept W = d.kept W := by
  unfold Dev.frameSent
  (repeat' split) <;> simp only [Dev.pollSent_kept, Dev.modLf_kept, Dev.wr_kept, Dev.inc_kept, Dev.joinAccSent_kept, hassoc]

theorem Dev.windowsAfter_kept (d : Dev) (k e : Nat) : (d.windowsAfter k e).kept W = d.kept W := by
  simp only [Dev.windowsAfter, Dev.modCh_kept]

theorem Dev.finishTx_kept (d : Dev) (k : Nat) (x : TxJob) (code e : Nat) (hassoc : W.assoc = false) (hkeys : W.keys = false)
    (hdeep : W.deep = false) (hfree : W.free = false) (hdrbg : W.drbg = false) (hmasked : W.masked = false) :
    (d.finishTx k x code e).kept W = d.kept W := by
  simp only [Dev.finishTx, Dev.runTx_kept, Dev.modCh_kept, Dev.windowsAfter_kept, Dev.switchRx_kept, Dev.pipeEnd_kept,
    Dev.freeJob_kept, Dev.event_kept, Dev.frameSent_kept, Dev.sentUnder_kept, Dev.unmark_kept, Dev.pollLost_kept,
    Dev.beaconLost_kept, Dev.commitTx_kept, hassoc, hkeys, hdeep, hfree, hdrbg, hmasked, Dev.kept_bwSum, Dev.kept_foldl,
    implies_true, apply_ite (Dev.kept W), ite_self]

theorem execTransmissionEnd_kept {s s' : State} {t : Nat} {k : ChanId} (hassoc : W.assoc = false) (hkeys : W.keys = false)
    (hdeep : W.deep = false) (hfree : W.free = false) (hdrbg : W.drbg = false) (hmasked : W.masked = false)
    (h : execTransmissionEnd t k s = .next s') :
    s'.dev.kept W = (s.at_ t).kept W := by
  refine State.runClk_kept (fun d => ?_) h
  split <;> simp only [Dev.finishTx_kept, hassoc, hkeys, hdeep, hfree, hdrbg, hmasked]

theorem Dev.cutTx_kept (d : Dev) (k : Nat) (hassoc : W.assoc = false) (hkeys : W.keys = false) (hdeep : W.deep = false)
    (hfree : W.free = false) (hdrbg : W.drbg = false) (hmasked : W.masked = false) :
    (d.cutTx k).kept W = d.kept W := by
  unfold Dev.cutTx
  split <;> simp only [Dev.finishTx_kept, hassoc, hkeys, hdeep, hfree, hdrbg, hmasked]

theorem execDriverOvercurrent_kept {s s' : State} {t : Nat} {k : ChanId} (hassoc : W.assoc = false) (hkeys : W.keys = false)
    (hdeep : W.deep = false) (hfree : W.free = false) (hdrbg : W.drbg = false) (hmasked : W.masked = false)
    (h : execDriverOvercurrent t k s = .next s') :
    s'.dev.kept W = (s.at_ t).kept W := by
  refine State.runClk_kept (fun d => ?_) h
  simp only [Dev.raise_kept, Dev.setCh_kept, Dev.cutTx_kept, Dev.cause_kept, hassoc, hkeys, hdeep, hfree, hdrbg, hmasked,
    apply_ite (Dev.kept W), ite_self]

theorem Dev.dropDrivers_kept (d : Dev) (p : Nat → Bool) (hassoc : W.assoc = false) (hkeys : W.keys = false)
    (hdeep : W.deep = false) (hfree : W.free = false) (hdrbg : W.drbg = false) (hmasked : W.masked = false) :
    (d.dropDrivers p).kept W = d.kept W := by
  simp only [Dev.dropDrivers, Dev.modCh_kept, Dev.cutTx_kept, hassoc, hkeys, hdeep, hfree, hdrbg, hmasked, Dev.kept_foldl,
    implies_true, apply_ite (Dev.kept W), ite_self]

theorem execVhvFeLow_kept {s s' : State} {t : Nat} {die : DieId} (hassoc : W.assoc = false) (hkeys : W.keys = false)
    (hdeep : W.deep = false) (hfree : W.free = false) (hgov : W.gov = false) (hdrbg : W.drbg = false)
    (hmasked : W.masked = false) (h : execVhvFeLow t die s = .next s') :
    s'.dev.kept W = (s.at_ t).kept W :=
  State.run_kept (fun d => (Dev.dropDrivers_kept _ _ hassoc hkeys hdeep hfree hdrbg hmasked).trans (d.kept_gov _ hgov)) h

theorem execVhvFeRestored_kept {s s' : State} {t : Nat} {die : DieId} (hgov : W.gov = false)
    (h : execVhvFeRestored t die s = .next s') :
    s'.dev.kept W = (s.at_ t).kept W :=
  State.run_kept (fun d => d.kept_gov _ hgov) h

theorem execVddFeOutOfRange_kept {s s' : State} {t : Nat} (hassoc : W.assoc = false) (hkeys : W.keys = false)
    (hdeep : W.deep = false) (hfree : W.free = false) (hgov : W.gov = false) (hdrbg : W.drbg = false)
    (hmasked : W.masked = false) (h : execVddFeOutOfRange t s = .next s') :
    s'.dev.kept W = (s.at_ t).kept W :=
  State.run_kept (fun d => (Dev.dropDrivers_kept _ _ hassoc hkeys hdeep hfree hdrbg hmasked).trans (d.kept_gov _ hgov)) h

end Sys2Proof.Machine
end

section
/-! PROOFS. What a frame tracks is left alone: reception. -/

namespace Sys2Proof.Machine

open Sys2Proof

variable {W : Watch}

theorem Dev.modLock_kept (d : Dev) (k : Nat) (f : RxLock → RxLock) : (d.modLock k f).kept W = d.kept W := by
  simp only [Dev.modLock, Dev.modCh_kept]

theorem Dev.putWin_kept (d : Dev) (k : Nat) (w w' : RxWin) : (d.putWin k w w').kept W = d.kept W := by
  simp only [Dev.putWin, Dev.modCh_kept]

theorem Dev.aqTo_kept (d : Dev) (k st : Nat) : (d.aqTo k st).kept W = d.kept W := by
  simp only [Dev.aqTo, Dev.wr_kept]

theorem Dev.applyGain_kept (d : Dev) (m g : Nat) : (d.applyGain m g).kept W = d.kept W := by
  simp only [Dev.applyGain, Dev.raise_kept, Dev.modCh_kept, apply_ite (Dev.kept W), ite_self]

theorem Dev.idleGain_kept (d : Dev) (m : Nat) : (d.idleGain m).kept W = d.kept W := by
  simp only [Dev.idleGain, Dev.applyGain_kept]

theorem Dev.restGain_kept (d : Dev) (m : Nat) : (d.restGain m).kept W = d.kept W := by
  simp only [Dev.restGain, Dev.idleGain_kept, apply_ite (Dev.kept W), ite_self]

theorem Dev.pushTrim_kept (d : Dev) (k : Nat) (v : Int) : (d.pushTrim k v).kept W = d.kept W := by
  simp only [Dev.pushTrim, Dev.pushPrmq_kept]

theorem Dev.trimHome_kept (d : Dev) (k : Nat) : (d.trimHome k).kept W = d.kept W := by
  simp only [Dev.trimHome, Dev.pushTrim_kept]

theorem Dev.startCodeword_kept (d : Dev) : d.startCodeword.kept W = d.kept W := by
  unfold Dev.startCodeword
  split
  · rfl
  · refine Dev.kept_ite _ rfl ((Dev.modCh_kept _ _ _).trans ?_)
    rfl

theorem Dev.startPool_kept (d : Dev) : d.startPool.kept W = d.kept W := by
  simp only [Dev.startPool, Dev.startCodeword_kept, Dev.kept_foldl, implies_true]

theorem Dev.dropPool_kept (d : Dev) (k stamp : Nat) : (d.dropPool k stamp).kept W = d.kept W :=
  Dev.kept_ite _ ((Dev.startPool_kept _).trans (d.kept_pools _ _)) rfl

theorem Dev.inPlace_kept (d : Dev) (k : Nat) (o : RxLock) (rest : List RxLock) (f : Dev → Dev) (hf : ∀ d,
    (f d).kept W = d.kept W) :
    (d.inPlace k o rest f).kept W = d.kept W := by
  simp only [Dev.inPlace, Dev.setCh_kept, Dev.aqTo_kept, Dev.modCh_kept, hf]

theorem Dev.onOldest_kept (d : Dev) (k : Nat) (f : Dev → Dev) (hf : ∀ d, (f d).kept W = d.kept W) :
    (d.onOldest k f).kept W = d.kept W := by
  unfold Dev.onOldest
  split
  · exact hf d
  · exact d.inPlace_kept k _ _ f hf

theorem Dev.onFrame_kept (d : Dev) (k : Nat) (p : RxLock → Bool) (f : Dev → Dev) (hf : ∀ d, (f d).kept W = d.kept W) :
    (d.onFrame k p f).kept W = d.kept W := by
  unfold Dev.onFrame
  split
  · exact d.inPlace_kept k _ _ f hf
  · exact Dev.kept_ite _ (hf d) rfl
  · rfl

theorem Dev.signalQuality_kept (d : Dev) (k : Nat) (l : RxLock) : (d.signalQuality k l).kept W = d.kept W := by
  simp only [Dev.signalQuality, Dev.wr_kept, Dev.wrS_kept, apply_ite (Dev.kept W), ite_self]

theorem Dev.frameQuality_kept (d : Dev) (k : Nat) (l : RxLock) : (d.frameQuality k l).kept W = d.kept W := by
  simp only [Dev.frameQuality, Dev.signalQuality_kept, Dev.wr_kept]

theorem Dev.abortItems_kept (d : Dev) (k : Nat) (tag : Bool) (hshallow : W.shallow = false) (hfree : W.free = false) :
    (d.abortItems k tag).kept W = d.kept W := by
  simp only [Dev.abortItems, Dev.inc_kept, Dev.abortTail_kept, hshallow, hfree, Dev.kept_foldl, implies_true,
    apply_ite (Dev.kept W), ite_self]

theorem Dev.abortHandOn_kept (d : Dev) (k : Nat) (tag : Bool) (hshallow : W.shallow = false) (hfree : W.free = false) :
    (d.abortHandOn k tag).kept W = d.kept W := by
  simp only [Dev.abortHandOn, Dev.modCh_kept, Dev.zeroCells_kept, Dev.abortItems_kept, hshallow, hfree, apply_ite (Dev.kept W),
    ite_self]

theorem Dev.endHandOn_kept (d : Dev) (k : Nat) (hshallow : W.shallow = false) (hfree : W.free = false) :
    (d.endHandOn k).kept W = d.kept W := by
  simp only [Dev.endHandOn, Dev.abortItems_kept, Dev.pfcCheck_kept, Dev.modCh_kept, Dev.returnCells_kept, hshallow, hfree,
    apply_ite (Dev.kept W), ite_self]

theorem Dev.handUnits_kept (d : Dev) (k stamp i typ n : Nat) (plain : List Byte) (hshallow : W.shallow = false)
    (hfree : W.free = false) :
    (d.handUnits k stamp i typ n plain).kept W = d.kept W := by
  simp only [Dev.handUnits]
  split <;>
    simp only [Dev.modCh_kept, Dev.stageTo_kept, Dev.pfcCheck_kept, Dev.pushShallow_kept, Dev.tagTail_kept, hshallow, hfree,
      Dev.kept_foldl, implies_true, apply_ite (Dev.kept W), ite_self]

theorem Dev.handOn_kept (d : Dev) (k : Nat) (hshallow : W.shallow = false) (hfree : W.free = false) :
    (d.handOn k).kept W = d.kept W := by
  unfold Dev.handOn
  (repeat' split) <;> simp only [Dev.handUnits_kept, hshallow, hfree]

theorem Dev.settleExchange_kept (d : Dev) (k entry : Nat) (ok : Bool) (hassoc : W.assoc = false) :
    (d.settleExchange k entry ok).kept W = d.kept W := by
  unfold Dev.settleExchange
  (repeat' split) <;> simp only [Dev.modLf_kept, Dev.exchangeDone_kept, hassoc, apply_ite (Dev.kept W), ite_self]

theorem Dev.commitWin_kept (d : Dev) (k : Nat) (w : RxWin) (code : Nat) (poll : Bool) (hassoc : W.assoc = false)
    (hdeep : W.deep = false) (hfree : W.free = false) (hdrbg : W.drbg = false) (hmasked : W.masked = false) :
    (d.commitWin k w code poll).kept W = d.kept W := by
  simp only [Dev.commitWin, Dev.modCh_kept, Dev.modLf_kept, Dev.aqTo_kept, Dev.restGain_kept, Dev.cutFlags_kept,
    Dev.settleExchange_kept, Dev.countRx_kept, Dev.commitRx_kept, hassoc, hdeep, hfree, Dev.kept_foldl, implies_true,
    apply_ite (Dev.kept W), ite_self]
  split <;>
    simp only [Dev.trimHome_kept, Dev.frameQuality_kept, Dev.signalQuality_kept, Dev.dropPool_kept, Dev.modCh_kept,
      Dev.pipeEnd_kept, hdrbg, hmasked, apply_ite (Dev.kept W), ite_self]

theorem Dev.endRx_kept (d : Dev) (q k : Nat) (hdeep : W.deep = false) (hfree : W.free = false) :
    (d.endRx q k).kept W = d.kept W := by
  simp only [Dev.endRx, Dev.commitRx_kept, Dev.done_kept, Dev.countRef_kept, hdeep, hfree]

theorem Dev.issueRx_kept (d : Dev) (q k : Nat) (p : RxPlan) (o close : Nat) : (d.issueRx q k p o close).kept W = d.kept W := by
  simp only [Dev.issueRx, Dev.modCh_kept, Dev.done_kept, Dev.kept_foldl, implies_true]

theorem Dev.tryRx_kept (d : Dev) (q k : Nat) (p : RxPlan) (o close : Nat) (hdeep : W.deep = false) (hfree : W.free = false) :
    (d.tryRx q k p o close).kept W = d.kept W := by
  simp only [Dev.tryRx, Dev.stepMiss_kept, Dev.endRx_kept, Dev.raise_kept, Dev.hold_kept, Dev.modSq_kept, Dev.issueRx_kept,
    hdeep, hfree, apply_ite (Dev.kept W), ite_self]

theorem Dev.rxStep_kept (d : Dev) (q : Nat) (st : Step) (wlen kh sync : Nat) (gsrc : Bool) (gain : Nat) (gap : Bool)
    (hdeep : W.deep = false) (hfree : W.free = false) :
    (d.rxStep q st wlen kh sync gsrc gain gap).kept W = d.kept W := by
  simp only [Dev.rxStep]
  (repeat' split) <;>
    simp only [Dev.endRx_kept, Dev.memberEntry_kept, Dev.stepMiss_kept, Dev.entryParity_kept, Dev.modCh_kept, Dev.wfReject_kept,
      Dev.tryRx_kept, hdeep, hfree]

theorem Dev.retryRx_kept (d : Dev) (q : Nat) (hdeep : W.deep = false) (hfree : W.free = false) :
    (d.retryRx q).kept W = d.kept W := by
  simp only [Dev.retryRx]
  (repeat' split) <;> simp only [Dev.tryRx_kept, Dev.endRx_kept, hdeep, hfree]

theorem execRx_kept {s s' : State} {t : Nat} {q : SeqId} (hdeep : W.deep = false) (hfree : W.free = false)
    (h : execRx t q s = .next s') :
    s'.dev.kept W = (s.at_ t).kept W := by
  refine State.runClk_kept (fun d => Dev.kept_ite _ (d.retryRx_kept q.val hdeep hfree) ?_) h
  refine d.fetch_kept q.val _ _ hdeep hfree (fun st d => ?_)
  split <;> simp only [Dev.rxStep_kept, hdeep, hfree]

theorem Dev.dropOpening_kept (d : Dev) (k o : Nat) (hdeep : W.deep = false) (hfree : W.free = false) :
    (d.dropOpening k o).kept W = d.kept W := by
  simp only [Dev.dropOpening, Dev.pullPrmq_kept, Dev.modCh_kept, hdeep, hfree, Dev.kept_foldl, implies_true]

theorem Dev.openGains_kept (d : Dev) (k : Nat) (w : RxWin) : (d.openGains k w).kept W = d.kept W := by
  simp only [Dev.openGains, Dev.applyGain_kept, Dev.kept_foldl, implies_true]

theorem Dev.openWindow_kept (d : Dev) (k : Nat) (w : RxWin) (hdeep : W.deep = false) (hfree : W.free = false) :
    (d.openWindow k w).kept W = d.kept W := by
  simp only [Dev.openWindow, Dev.openGains_kept, Dev.dropOpening_kept, Dev.putWin_kept, Dev.raise_kept, Dev.lateMiss_kept,
    Dev.aqTo_kept, hdeep, hfree, apply_ite (Dev.kept W), ite_self]

theorem execWindowOpen_kept {s s' : State} {t : Nat} {k : ChanId} (hdeep : W.deep = false) (hfree : W.free = false)
    (h : execWindowOpen t k s = .next s') :
    s'.dev.kept W = (s.at_ t).kept W := by
  refine State.runClk_kept (fun d => ?_) h
  split <;> simp only [Dev.openWindow_kept, hdeep, hfree]

theorem Dev.estimate_kept (d : Dev) (k n : Nat) : (d.estimate k n).kept W = d.kept W := by
  unfold Dev.estimate
  split <;> simp only [Dev.wrS_kept, Dev.raise_kept, Dev.pushTrim_kept, Dev.modLock_kept, apply_ite (Dev.kept W), ite_self]

theorem Dev.lockFrame_kept (d : Dev) (k : Nat) (w : RxWin) (stamp : Nat) (c : Corr) (ss : Int) :
    (d.lockFrame k w stamp c ss).kept W = d.kept W := by
  simp only [Dev.lockFrame, Dev.aqTo_kept, Dev.putWin_kept, Dev.modCh_kept]

theorem Dev.noiseChip_kept (d : Dev) (k : Nat) (c : Col) : (d.noiseChip k c).kept W = d.kept W := by
  simp only [Dev.noiseChip, Dev.modCh_kept, apply_ite (Dev.kept W), ite_self]

theorem Dev.sentinelChip_kept (d : Dev) (k n : Nat) (c : Col) : (d.sentinelChip k n c).kept W = d.kept W := by
  unfold Dev.sentinelChip
  split <;> simp only [Dev.modCh_kept]

theorem Dev.preambleChip_kept (d : Dev) (k n : Nat) (c : Col) : (d.preambleChip k n c).kept W = d.kept W := by
  unfold Dev.preambleChip
  (repeat' split) <;> simp only [Dev.modLock_kept, Dev.estimate_kept]

theorem Dev.syncChip_kept (d : Dev) (k n : Nat) (c : Col) : (d.syncChip k n c).kept W = d.kept W := by
  simp only [Dev.syncChip, Dev.modLock_kept]

theorem Dev.headerChip_kept (d : Dev) (k kh : Nat) (c : Col) : (d.headerChip k kh c).kept W = d.kept W := by
  unfold Dev.headerChip
  split <;> simp only [Dev.modLock_kept, Dev.inc_kept, apply_ite (Dev.kept W), ite_self]

theorem Dev.payloadTake_kept (d : Dev) (k kh : Nat) (c : Col) : (d.payloadTake k kh c).kept W = d.kept W := by
  simp only [Dev.payloadTake, Dev.modLock_kept]

theorem Dev.takeCol_kept (d : Dev) (k : Nat) (c : Col) : (d.takeCol k c).kept W = d.kept W := by
  unfold Dev.takeCol
  (repeat' split) <;>
    simp only [Dev.sentinelChip_kept, Dev.modCh_kept, Dev.preambleChip_kept, Dev.syncChip_kept, Dev.headerChip_kept,
      Dev.payloadTake_kept, Dev.noiseChip_kept, apply_ite (Dev.kept W), ite_self]

theorem Dev.examine_kept (d : Dev) (k : Nat) : (d.examine k).kept W = d.kept W := by
  simp only [Dev.examine, Dev.takeCol_kept, Dev.modCh_kept, Dev.kept_foldl, implies_true, apply_ite (Dev.kept W), ite_self]

theorem Dev.cutFrameIn_kept (d : Dev) (k : Nat) (hassoc : W.assoc = false) (hshallow : W.shallow = false)
    (hdeep : W.deep = false) (hfree : W.free = false) (hdrbg : W.drbg = false) (hmasked : W.masked = false) :
    (d.cutFrameIn k).kept W = d.kept W := by
  unfold Dev.cutFrameIn
  split <;> simp only [Dev.commitWin_kept, Dev.abortHandOn_kept, hassoc, hshallow, hdeep, hfree, hdrbg, hmasked]

theorem Dev.overrun_kept (d : Dev) (k m : Nat) (hassoc : W.assoc = false) (hshallow : W.shallow = false)
    (hdeep : W.deep = false) (hfree : W.free = false) (hdrbg : W.drbg = false) (hmasked : W.masked = false) :
    (d.overrun k m).kept W = d.kept W := by
  simp only [Dev.overrun, Dev.cutFrameIn_kept, Dev.causes_kept, Dev.modCh_kept, hassoc, hshallow, hdeep, hfree, hdrbg, hmasked,
    apply_ite (Dev.kept W), ite_self]

theorem Dev.intake_kept (d : Dev) (k : Nat) (f : Feed) (hassoc : W.assoc = false) (hshallow : W.shallow = false)
    (hdeep : W.deep = false) (hfree : W.free = false) (hdrbg : W.drbg = false) (hmasked : W.masked = false) :
    (d.intake k f).kept W = d.kept W := by
  simp only [Dev.intake, Dev.feedChains_kept, Dev.overrun_kept, Dev.examine_kept, Dev.takeChips_kept, hassoc, hshallow, hdeep,
    hfree, hdrbg, hmasked, Dev.kept_foldl, implies_true, apply_ite (Dev.kept W), ite_self]

theorem execPreambleDetection_kept {s s' : State} {t : Nat} {k : ChanId} {f : Feed} (hassoc : W.assoc = false)
    (hshallow : W.shallow = false) (hdeep : W.deep = false) (hfree : W.free = false) (hdrbg : W.drbg = false)
    (hmasked : W.masked = false) (h : execPreambleDetection t k f s = .next s') :
    s'.dev.kept W = (s.at_ t).kept W := by
  refine State.runClk_kept (fun d => ?_) h
  dsimp only
  (repeat' split) <;>
    simp only [Dev.intake_kept, Dev.modCh_kept, Dev.event_kept, Dev.inc_kept, Dev.estimate_kept, Dev.lockFrame_kept, hassoc,
      hshallow, hdeep, hfree, hdrbg, hmasked]

theorem execTrimApply_kept {s s' : State} {t : Nat} {k : ChanId} (hdeep : W.deep = false) (hfree : W.free = false)
    (h : execTrimApply t k s = .next s') :
    s'.dev.kept W = (s.at_ t).kept W := by
  refine State.runClk_kept (fun d => ?_) h
  (repeat' split) <;> simp only [Dev.modCh_kept, Dev.pullPrmq_kept, Dev.setTrim_kept, hdeep, hfree]

theorem execSignReversal_kept {s s' : State} {t : Nat} {k : ChanId} {f : Feed} (hassoc : W.assoc = false)
    (hshallow : W.shallow = false) (hdeep : W.deep = false) (hfree : W.free = false) (hdrbg : W.drbg = false)
    (hmasked : W.masked = false) (h : execSignReversal t k f s = .next s') :
    s'.dev.kept W = (s.at_ t).kept W := by
  refine State.runClk_kept (fun d => ?_) h
  dsimp only
  (repeat' split) <;>
    simp only [Dev.intake_kept, Dev.aqTo_kept, Dev.modLock_kept, hassoc, hshallow, hdeep, hfree, hdrbg, hmasked]

theorem Dev.takeCandidate_kept (d : Dev) (k : Nat) (w : RxWin) (c : Candidate) : (d.takeCandidate k w c).kept W = d.kept W := by
  unfold Dev.takeCandidate
  split <;>
    simp only [Dev.estimate_kept, Dev.lockFrame_kept, Dev.dropPool_kept, Dev.inc_kept, Dev.trimHome_kept,
      Dev.signalQuality_kept]

theorem Dev.searchOrEnd_kept (d : Dev) (k : Nat) (w : RxWin) (code : Nat) (hassoc : W.assoc = false) (hdeep : W.deep = false)
    (hfree : W.free = false) (hdrbg : W.drbg = false) (hmasked : W.masked = false) :
    (d.searchOrEnd k w code).kept W = d.kept W := by
  unfold Dev.searchOrEnd
  split <;>
    simp only [Dev.modCh_kept, Dev.trimHome_kept, Dev.putWin_kept, Dev.signalQuality_kept, Dev.aqTo_kept, Dev.commitWin_kept,
      hassoc, hdeep, hfree, hdrbg, hmasked, apply_ite (Dev.kept W), ite_self]

theorem Dev.failFrame_kept (d : Dev) (k : Nat) (code : Nat) (hassoc : W.assoc = false) (hdeep : W.deep = false)
    (hfree : W.free = false) (hdrbg : W.drbg = false) (hmasked : W.masked = false) :
    (d.failFrame k code).kept W = d.kept W := by
  unfold Dev.failFrame
  (repeat' split) <;> simp only [Dev.takeCandidate_kept, Dev.searchOrEnd_kept, hassoc, hdeep, hfree, hdrbg, hmasked]

theorem execSyncReversalTimeout_kept {s s' : State} {t : Nat} {k : ChanId} {f : Feed} (hassoc : W.assoc = false)
    (hshallow : W.shallow = false) (hdeep : W.deep = false) (hfree : W.free = false) (hdrbg : W.drbg = false)
    (hmasked : W.masked = false) (h : execSyncReversalTimeout t k f s = .next s') :
    s'.dev.kept W = (s.at_ t).kept W := by
  refine State.runClk_kept (fun d => ?_) h
  dsimp only
  (repeat' split) <;> simp only [Dev.intake_kept, Dev.failFrame_kept, hassoc, hshallow, hdeep, hfree, hdrbg, hmasked]

theorem execSyncWordDecision_kept {s s' : State} {t : Nat} {k : ChanId} {f : Feed} (hassoc : W.assoc = false)
    (hshallow : W.shallow = false) (hdeep : W.deep = false) (hfree : W.free = false) (hdrbg : W.drbg = false)
    (hmasked : W.masked = false) (h : execSyncWordDecision t k f s = .next s') :
    s'.dev.kept W = (s.at_ t).kept W := by
  refine State.runClk_kept (fun d => ?_) h
  dsimp only
  (repeat' split) <;>
    simp only [Dev.intake_kept, Dev.modLock_kept, Dev.wrS_kept, Dev.aqTo_kept, Dev.failFrame_kept, Dev.syncFail_kept, hassoc,
      hshallow, hdeep, hfree, hdrbg, hmasked]

theorem Dev.joinGate_kept (d : Dev) (k src : Nat) : (d.joinGate k src).2.kept W = d.kept W := by
  simp only [Dev.joinGate]
  (repeat' split) <;> simp only [Dev.modLf_kept, Dev.inc_kept, Dev.raise_kept]

theorem Dev.judgeHeader_kept (d : Dev) (k : Nat) (w : RxWin) (h : BitVec 96) : (d.judgeHeader k w h).2.kept W = d.kept W := by
  have hgate := d.joinGate_kept (W := W) k (hdrSrc h)
  unfold Dev.judgeHeader
  split
  · exact d.inc_kept _ _
  split
  · rfl
  split
  · simp only [Dev.inc_kept, Dev.raise_kept]
  split
  · rfl
  split
  · rfl
  split
  · split
    next e he =>
      rw [he] at hgate
      split <;> exact hgate
    next e he =>
      rw [he] at hgate
      exact hgate
  · split
    · rfl
    · exact d.entryParity_kept k _

theorem Dev.headerOutcome_kept (d : Dev) (k : Nat) (w : RxWin) (l : RxLock) (hdr : BitVec 96) (hassoc : W.assoc = false)
    (hdeep : W.deep = false) (hfree : W.free = false) (hdrbg : W.drbg = false) (hmasked : W.masked = false) :
    (d.headerOutcome k w l hdr).kept W = d.kept W := by
  simp only [Dev.headerOutcome, Dev.failFrame_kept, Dev.inc_kept, hassoc, hdeep, hfree, hdrbg, hmasked, apply_ite (Dev.kept W)]
  (repeat' split) <;>
    simp only [Dev.failFrame_kept, Dev.neighbourHeard_kept, Dev.judgeHeader_kept, Dev.aqTo_kept, Dev.modLock_kept,
      Dev.hdrInvalid_kept, Dev.searchOrEnd_kept, hassoc, hdeep, hfree, hdrbg, hmasked]

theorem execHeaderDecode_kept {s s' : State} {t : Nat} {k : ChanId} {f : Feed} (hassoc : W.assoc = false)
    (hshallow : W.shallow = false) (hdeep : W.deep = false) (hfree : W.free = false) (hdrbg : W.drbg = false)
    (hmasked : W.masked = false) (h : execHeaderDecode t k f s = .next s') :
    s'.dev.kept W = (s.at_ t).kept W := by
  refine State.runClk_kept (fun d => ?_) h
  dsimp only
  (repeat' split) <;> simp only [Dev.intake_kept, Dev.headerOutcome_kept, hassoc, hshallow, hdeep, hfree, hdrbg, hmasked]

theorem execSentinelCandidate_kept {s s' : State} {t : Nat} {k : ChanId} {f : Feed} (hassoc : W.assoc = false)
    (hshallow : W.shallow = false) (hdeep : W.deep = false) (hfree : W.free = false) (hdrbg : W.drbg = false)
    (hmasked : W.masked = false) (h : execSentinelCandidate t k f s = .next s') :
    s'.dev.kept W = (s.at_ t).kept W := by
  refine State.runClk_kept (fun d => ?_) h
  dsimp only
  (repeat' split) <;>
    simp only [Dev.intake_kept, Dev.modCh_kept, Dev.inc_kept, Dev.raise_kept, Dev.takeCandidate_kept, Dev.abortHandOn_kept,
      hassoc, hshallow, hdeep, hfree, hdrbg, hmasked]

theorem Dev.endFrame_kept (d : Dev) (k code : Nat) (poll : Bool) (hassoc : W.assoc = false) (hdeep : W.deep = false)
    (hfree : W.free = false) (hdrbg : W.drbg = false) (hmasked : W.masked = false) :
    (d.endFrame k code poll).kept W = d.kept W := by
  unfold Dev.endFrame
  split <;> simp only [Dev.commitWin_kept, hassoc, hdeep, hfree, hdrbg, hmasked]

theorem Dev.muxSymbol_kept (d : Dev) (k kh : Nat) (l : RxLock) (cols : List Col) :
    (d.muxSymbol k kh l cols).1.kept W = d.kept W := by
  simp only [Dev.muxSymbol, Dev.inc_kept, Dev.raise_kept, Dev.modLock_kept, apply_ite (Dev.kept W), ite_self,
    apply_ite Prod.fst]

theorem Dev.tineSymbol_kept (d : Dev) (k kh t : Nat) (l : RxLock) (cols : List Col) :
    (d.tineSymbol k kh t l cols).1.kept W = d.kept W := by
  simp only [Dev.tineSymbol, Dev.modLock_kept, Dev.inc_kept, apply_ite (Dev.kept W), ite_self, apply_ite Prod.fst]

theorem Dev.symbolDone_kept (d : Dev) (k kh : Nat) (l : RxLock) : (d.symbolDone k kh l).kept W = d.kept W := by
  simp only [Dev.symbolDone, Dev.modLock_kept, Dev.aqTo_kept, Dev.trimHome_kept, apply_ite (Dev.kept W), ite_self]
  split <;> simp only [Dev.muxSymbol_kept, Dev.tineSymbol_kept]

theorem execPayloadSymbol_kept {s s' : State} {t : Nat} {k : ChanId} {f : Feed} (hassoc : W.assoc = false)
    (hshallow : W.shallow = false) (hdeep : W.deep = false) (hfree : W.free = false) (hdrbg : W.drbg = false)
    (hmasked : W.masked = false) (h : execPayloadSymbol t k f s = .next s') :
    s'.dev.kept W = (s.at_ t).kept W := by
  refine State.runClk_kept (fun d => ?_) h
  dsimp only
  (repeat' split) <;> simp only [Dev.intake_kept, Dev.symbolDone_kept, hassoc, hshallow, hdeep, hfree, hdrbg, hmasked]

theorem Dev.onUnissued_kept (d : Dev) (k : Nat) (f : Dev → Dev) (hf : ∀ d, (f d).kept W = d.kept W) :
    (d.onUnissued k f).kept W = d.kept W := by
  unfold Dev.onUnissued
  split
  · exact Dev.kept_ite _ (d.onOldest_kept k f hf) (hf d)
  · exact hf d

theorem Dev.overtake_kept (d : Dev) (k : Nat) (bits : Nat) : (d.overtake k bits).kept W = d.kept W := by
  unfold Dev.overtake
  split <;> simp only [Dev.modLock_kept, Dev.inc_kept, Dev.raise_kept, Dev.kept_pool, apply_ite (Dev.kept W), ite_self]

theorem Dev.issueBlock_kept (d : Dev) (k : Nat) : (d.issueBlock k).kept W = d.kept W := by
  unfold Dev.issueBlock
  split <;> simp only [Dev.modLock_kept, Dev.startPool_kept, Dev.overtake_kept, Dev.kept_pool, apply_ite (Dev.kept W), ite_self]

theorem execInterleaverBlockComplete_kept {s s' : State} {t : Nat} {k : ChanId} (h : execInterleaverBlockComplete t k s = .next
    s') :
    s'.dev.kept W = (s.at_ t).kept W :=
  State.runClk_kept (fun d => d.onUnissued_kept k.val _ (fun d => d.issueBlock_kept k.val)) h

theorem Dev.firstCodeword_kept (d : Dev) (k i fctr : Nat) (ph : Bool) (hassoc : W.assoc = false) (hkeys : W.keys = false)
    (hshallow : W.shallow = false) (hdeep : W.deep = false) (hfree : W.free = false) (hdrbg : W.drbg = false)
    (hmasked : W.masked = false) :
    (d.firstCodeword k i fctr ph).kept W = d.kept W := by
  simp only [Dev.firstCodeword, Dev.endFrame_kept, Dev.abortHandOn_kept, Dev.inc_kept, Dev.abortStarted_kept, Dev.modLock_kept,
    hassoc, hshallow, hdeep, hfree, hdrbg, hmasked, apply_ite (Dev.kept W)]
  (repeat' split) <;> simp only [Dev.modLock_kept, Dev.bindAsk_kept, Dev.event_kept, hkeys]

theorem Dev.codewordDone_kept (d : Dev) (k : Nat) (cap : Nat) (r : Nat × Bool × List Byte) (hassoc : W.assoc = false)
    (hkeys : W.keys = false) (hshallow : W.shallow = false) (hdeep : W.deep = false) (hfree : W.free = false)
    (hdrbg : W.drbg = false) (hmasked : W.masked = false) :
    (d.codewordDone k cap r).kept W = d.kept W := by
  unfold Dev.codewordDone
  (repeat' split) <;>
    simp only [Dev.event_kept, Dev.modLock_kept, Dev.inc_kept, Dev.startPool_kept, Dev.handOn_kept, Dev.firstCodeword_kept,
      hassoc, hkeys, hshallow, hdeep, hfree, hdrbg, hmasked, Dev.kept_poolBusy]

theorem Dev.decodeNext_kept (d : Dev) (k : Nat) (hassoc : W.assoc = false) (hkeys : W.keys = false)
    (hshallow : W.shallow = false) (hdeep : W.deep = false) (hfree : W.free = false) (hdrbg : W.drbg = false)
    (hmasked : W.masked = false) :
    (d.decodeNext k).kept W = d.kept W := by
  unfold Dev.decodeNext
  split <;> simp only [Dev.codewordDone_kept, hassoc, hkeys, hshallow, hdeep, hfree, hdrbg, hmasked]

theorem execCodewordDecode_kept {s s' : State} {t : Nat} {k : ChanId} (hassoc : W.assoc = false) (hkeys : W.keys = false)
    (hshallow : W.shallow = false) (hdeep : W.deep = false) (hfree : W.free = false) (hdrbg : W.drbg = false)
    (hmasked : W.masked = false) (h : execCodewordDecode t k s = .next s') :
    s'.dev.kept W = (s.at_ t).kept W :=
  State.runClk_kept (fun d => d.onOldest_kept k.val _
    (fun d => d.decodeNext_kept k.val hassoc hkeys hshallow hdeep hfree hdrbg hmasked)) h

theorem Dev.acceptFrame_kept (d : Dev) (k i : Nat) (h : BitVec 96) (l : RxLock) (via : Bool) (msg : List Byte) :
    (d.acceptFrame k i h l via msg).kept W = d.kept W := by
  simp only [Dev.acceptFrame, Dev.modCh_kept, apply_ite (Dev.kept W), ite_self]

theorem Dev.passFrame_kept (d : Dev) (k sa fctr : Nat) (ph : Bool) (hassoc : W.assoc = false) (hkeys : W.keys = false) :
    (d.passFrame k sa fctr ph).kept W = d.kept W := by
  simp only [Dev.passFrame, Dev.setSa_kept, Dev.acceptedUnder_kept, hassoc, hkeys, apply_ite (Dev.kept W), ite_self]

theorem Dev.bwRx_kept (d : Dev) (k n : Nat) : (d.bwRx k n).kept W = d.kept W := by rfl

theorem Dev.failCrc_kept (d : Dev) (k : Nat) (hassoc : W.assoc = false) (hshallow : W.shallow = false) (hdeep : W.deep = false)
    (hfree : W.free = false) (hdrbg : W.drbg = false) (hmasked : W.masked = false) :
    (d.failCrc k).kept W = d.kept W := by
  simp only [Dev.failCrc, Dev.endFrame_kept, Dev.abortHandOn_kept, Dev.plCrc_kept, hassoc, hshallow, hdeep, hfree, hdrbg,
    hmasked]

theorem Dev.lineVerdict_kept (d : Dev) (k i : Nat) (h : BitVec 96) (l : RxLock) (b : List Byte) (hassoc : W.assoc = false)
    (hkeys : W.keys = false) (hshallow : W.shallow = false) (hdeep : W.deep = false) (hfree : W.free = false)
    (hdrbg : W.drbg = false) (hmasked : W.masked = false) :
    (d.lineVerdict k i h l b).kept W = d.kept W := by
  unfold Dev.lineVerdict
  (repeat' split) <;>
    simp only [Dev.endFrame_kept, Dev.abortHandOn_kept, Dev.inc_kept, Dev.tagFail_kept, Dev.event_kept, Dev.bwRx_kept,
      Dev.passFrame_kept, Dev.acceptFrame_kept, hassoc, hkeys, hshallow, hdeep, hfree, hdrbg, hmasked]

theorem Dev.dropNested_kept (d : Dev) (k : Nat) : (d.dropNested k).kept W = d.kept W := by
  simp only [Dev.dropNested, Dev.modLf_kept]

theorem Dev.loseNested_kept (d : Dev) (k : Nat) (hassoc : W.assoc = false) : (d.loseNested k).kept W = d.kept W := by
  simp only [Dev.loseNested, Dev.exchangeDone_kept, Dev.dropNested_kept, hassoc, Dev.kept_foldl, implies_true]

theorem Dev.passNested_kept (d : Dev) (k i : Nat) (hassoc : W.assoc = false) : (d.passNested k i).kept W = d.kept W := by
  simp only [Dev.passNested, Dev.exchangeDone_kept, Dev.dropNested_kept, hassoc, Dev.kept_foldl, implies_true]

theorem Dev.upVerdict_kept (d : Dev) (k : Nat) (f : List Byte) (hassoc : W.assoc = false) (hkeys : W.keys = false) :
    (d.upVerdict k f).kept W = d.kept W := by
  simp only [Dev.upVerdict, Dev.loseNested_kept, Dev.hdrInvalid_kept, hassoc, apply_ite (Dev.kept W)]
  (repeat' split) <;>
    simp only [Dev.loseNested_kept, Dev.hdrInvalid_kept, Dev.joinGate_kept, Dev.inc_kept, Dev.raise_kept, Dev.modLf_kept,
      Dev.bindAsk_kept, Dev.tagFail_kept, Dev.event_kept, Dev.acceptFrame_kept, Dev.passNested_kept, Dev.passFrame_kept,
      Dev.modCh_kept, hassoc, hkeys]

theorem Dev.judgeFrame_kept (d : Dev) (k : Nat) (hassoc : W.assoc = false) (hkeys : W.keys = false)
    (hshallow : W.shallow = false) (hdeep : W.deep = false) (hfree : W.free = false) (hdrbg : W.drbg = false)
    (hmasked : W.masked = false) :
    (d.judgeFrame k).kept W = d.kept W := by
  unfold Dev.judgeFrame
  (repeat' split) <;>
    simp only [Dev.failCrc_kept, Dev.lineVerdict_kept, Dev.modLf_kept, Dev.endFrame_kept, hassoc, hkeys, hshallow, hdeep, hfree,
      hdrbg, hmasked, apply_ite (Dev.kept W), ite_self]

theorem execTagVerdict_kept {s s' : State} {t : Nat} {k : ChanId} {up : Bool} (hassoc : W.assoc = false)
    (hkeys : W.keys = false) (hshallow : W.shallow = false) (hdeep : W.deep = false) (hfree : W.free = false)
    (hdrbg : W.drbg = false) (hmasked : W.masked = false) (h : execTagVerdict t k up s = .next s') :
    s'.dev.kept W = (s.at_ t).kept W := by
  refine State.runClk_kept (fun d => ?_) h
  split
  · split
    · exact Dev.kept_ite _ (d.upVerdict_kept k.val _ hassoc hkeys) rfl
    · rfl
  · exact d.onOldest_kept k.val _ (fun d => d.judgeFrame_kept k.val hassoc hkeys hshallow hdeep hfree hdrbg hmasked)

theorem Dev.missFrame_kept (d : Dev) (k : Nat) (p : RxLock → Bool) (hassoc : W.assoc = false) (hdeep : W.deep = false)
    (hfree : W.free = false) (hdrbg : W.drbg = false) (hmasked : W.masked = false) :
    (d.missFrame k p).kept W = d.kept W :=
  d.onFrame_kept k p _ (fun d => (Dev.endFrame_kept _ k _ _ hassoc hdeep hfree hdrbg hmasked).trans (d.inc_kept _ _))

theorem execKeywaitExpiry_kept {s s' : State} {t : Nat} {k : ChanId} (hassoc : W.assoc = false) (hdeep : W.deep = false)
    (hfree : W.free = false) (hdrbg : W.drbg = false) (hmasked : W.masked = false) (h : execKeywaitExpiry t k s = .next s') :
    s'.dev.kept W = (s.at_ t).kept W := by
  refine State.runClk_kept (fun d => ?_) h
  simp only [Dev.missFrame_kept, Dev.loseNested_kept, Dev.inc_kept, hassoc, hdeep, hfree, hdrbg, hmasked,
    apply_ite (Dev.kept W), ite_self]

theorem execResponseWindowCommit_kept {s s' : State} {t : Nat} {k : ChanId} (hassoc : W.assoc = false) (hdeep : W.deep = false)
    (hfree : W.free = false) (hdrbg : W.drbg = false) (hmasked : W.masked = false)
    (h : execResponseWindowCommit t k s = .next s') :
    s'.dev.kept W = (s.at_ t).kept W := by
  refine State.runClk_kept (fun d => ?_) h
  split <;>
    simp only [Dev.putWin_kept, Dev.commitWin_kept, hassoc, hdeep, hfree, hdrbg, hmasked, apply_ite (Dev.kept W), ite_self]

theorem Dev.blankWindow_kept (d : Dev) (k : Nat) (hassoc : W.assoc = false) (hshallow : W.shallow = false)
    (hdeep : W.deep = false) (hfree : W.free = false) (hdrbg : W.drbg = false) (hmasked : W.masked = false) :
    (d.blankWindow k).kept W = d.kept W := by
  simp only [Dev.blankWindow, Dev.cutFrameIn_kept, Dev.raise_kept, Dev.setCh_kept, hassoc, hshallow, hdeep, hfree, hdrbg,
    hmasked, apply_ite (Dev.kept W), ite_self]

theorem execTransmitEntry_kept {s s' : State} {t : Nat} {k : ChanId} (hassoc : W.assoc = false) (hkeys : W.keys = false)
    (hshallow : W.shallow = false) (hdeep : W.deep = false) (hfree : W.free = false) (hdrbg : W.drbg = false)
    (hmasked : W.masked = false) (h : execTransmitEntry t k s = .next s') :
    s'.dev.kept W = (s.at_ t).kept W := by
  refine State.runClk_kept (fun d => ?_) h
  split <;>
    simp only [Dev.modCh_kept, Dev.retryAll_kept, Dev.pullPrmq_kept, Dev.blankWindow_kept, Dev.primeTx_kept, Dev.switchTx_kept,
      hassoc, hkeys, hshallow, hdeep, hfree, hdrbg, hmasked, Dev.kept_foldl, implies_true]

theorem execNoiseFloorMeasurement_kept {s s' : State} {t : Nat} {k : ChanId} {f : Feed} (hassoc : W.assoc = false)
    (hshallow : W.shallow = false) (hdeep : W.deep = false) (hfree : W.free = false) (hdrbg : W.drbg = false)
    (hmasked : W.masked = false) (h : execNoiseFloorMeasurement t k f s = .next s') :
    s'.dev.kept W = (s.at_ t).kept W := by
  refine State.runClk_kept (fun d => ?_) h
  dsimp only
  (repeat' split) <;>
    simp only [Dev.intake_kept, Dev.noiseFloor_kept, Dev.modCh_kept, hassoc, hshallow, hdeep, hfree, hdrbg, hmasked]

theorem execNfAgeExpiry_kept {s s' : State} {t : Nat} {k : ChanId} (h : execNfAgeExpiry t k s = .next s') :
    s'.dev.kept W = (s.at_ t).kept W := by
  refine State.runClk_kept (fun d => ?_) h
  simp only [Dev.wr_kept, apply_ite (Dev.kept W), ite_self]

end Sys2Proof.Machine
end

section
/-! PROOFS. What a frame tracks is left alone: messages, ports, the governor, records and management. -/

namespace Sys2Proof.Machine

open Sys2Proof

variable {W : Watch}

/-! ### Messages -/

theorem Dev.takeAccepted_kept {d e : Dev} {k typ : Nat} {a : Accepted} (h : d.takeAccepted k typ = some (a, e)) :
    e.kept W = d.kept W := by
  unfold Dev.takeAccepted at h
  split at h
  · split_ifs at h
    cases h
    exact d.modCh_kept k _
  · cases h

theorem Dev.checkBlock_kept (d : Dev) (k : Nat) (a : Accepted) : (d.checkBlock k a).kept W = d.kept W := by
  simp only [Dev.checkBlock, Dev.raise_kept, apply_ite (Dev.kept W), ite_self]

theorem Dev.announce_kept (d : Dev) (k : Nat) (b : BeaconMsg) : (d.announce k b).kept W = d.kept W := by
  simp only [Dev.announce, Dev.modLf_kept, apply_ite (Dev.kept W), ite_self]

theorem Dev.moveHofs_kept (d : Dev) (k o : Nat) : (d.moveHofs k o).kept W = d.kept W := by
  simp only [Dev.moveHofs, Dev.raise_kept, Dev.wr_kept]

theorem Dev.oddBeacon_kept (d : Dev) (k : Nat) : (d.oddBeacon k).kept W = d.kept W := by
  simp only [Dev.oddBeacon, Dev.inc_kept, Dev.raise_kept]

theorem Dev.takeBeaconTime_kept (d : Dev) (k : Nat) (a : Accepted) (b : BeaconMsg) :
    (d.takeBeaconTime k a b).kept W = d.kept W := by
  simp only [Dev.takeBeaconTime, Dev.oddBeacon_kept, Dev.modLf_kept, Dev.moveHofs_kept, apply_ite (Dev.kept W), ite_self]

theorem Dev.takeBeacon_kept (d : Dev) (k : Nat) (a : Accepted) (b : BeaconMsg) : (d.takeBeacon k a b).kept W = d.kept W := by
  simp only [Dev.takeBeacon, Dev.oddBeacon_kept, Dev.announce_kept, Dev.modLf_kept, Dev.moveHofs_kept, apply_ite (Dev.kept W),
    ite_self]

theorem execBeacon_kept {s s' : State} {t : Nat} {k : ChanId} (h : execBeacon t k s = .next s') :
    s'.dev.kept W = (s.at_ t).kept W := by
  refine State.runClk_kept (fun d => ?_) h
  split
  · rfl
  next a e he =>
    refine Eq.trans ?_ (Dev.takeAccepted_kept he)
    dsimp only
    (repeat' split) <;> simp only [Dev.takeBeacon_kept, Dev.takeBeaconTime_kept, Dev.checkBlock_kept]

theorem Dev.readReply_kept (d : Dev) (k : Nat) (a : Accepted) (hshallow : W.shallow = false) (hdeep : W.deep = false)
    (hfree : W.free = false) :
    (d.readReply k a).kept W = d.kept W := by
  unfold Dev.readReply
  split <;> simp only [Dev.ackTo_kept, Dev.endHandOn_kept, Dev.acceptUnits_kept, hshallow, hdeep, hfree]

theorem Dev.heardHead_kept (d : Dev) (k : Nat) : (d.heardHead k).kept W = d.kept W := by
  simp only [Dev.heardHead, Dev.modLf_kept]

theorem execPoll_kept {s s' : State} {t : Nat} {k : ChanId} (hshallow : W.shallow = false) (hdeep : W.deep = false)
    (hfree : W.free = false) (h : execPoll t k s = .next s') :
    s'.dev.kept W = (s.at_ t).kept W := by
  refine State.runClk_kept (fun d => ?_) h
  split
  · rfl
  next a e he =>
    refine Eq.trans ?_ (Dev.takeAccepted_kept he)
    dsimp only
    (repeat' split) <;>
      simp only [Dev.endHandOn_kept, Dev.readReply_kept, Dev.heardHead_kept, Dev.modCh_kept, hshallow, hdeep, hfree]

theorem Dev.cutRelay_kept (d : Dev) (k : Nat) (a : Accepted) (p : PollMsg) : (d.cutRelay k a p).kept W = d.kept W := by
  simp only [Dev.cutRelay, Dev.raise_kept, Dev.modLf_kept, Dev.modCh_kept, apply_ite (Dev.kept W), ite_self]

theorem execRelay_kept {s s' : State} {t : Nat} {k : ChanId} (hshallow : W.shallow = false) (hdeep : W.deep = false)
    (hfree : W.free = false) (h : execRelay t k s = .next s') :
    s'.dev.kept W = (s.at_ t).kept W := by
  refine State.runClk_kept (fun d => ?_) h
  split
  · rfl
  next a e he =>
    refine Eq.trans ?_ (Dev.takeAccepted_kept he)
    dsimp only
    (repeat' split) <;>
      simp only [Dev.endHandOn_kept, Dev.readReply_kept, Dev.heardHead_kept, Dev.cutRelay_kept, Dev.raise_kept, Dev.modLf_kept,
        Dev.modCh_kept, hshallow, hdeep, hfree]

theorem Dev.confirmJoin_kept (d : Dev) (k i : Nat) (hcopy : W.copy = false) : (d.confirmJoin k i).kept W = d.kept W := by
  simp only [Dev.confirmJoin]
  (repeat' split) <;> simp only [Dev.wr_kept, Dev.makeActive_kept, Dev.edited_kept, Dev.modLf_kept, Dev.copyEntry_kept, hcopy]

theorem Dev.upwardFrame_kept (d : Dev) (k : Nat) (path : List Nat) (up : List Byte) (hassoc : W.assoc = false) :
    (d.upwardFrame k path up).kept W = d.kept W := by
  simp only [Dev.upwardFrame, Dev.modLf_kept, Dev.exchangeDone_kept, hassoc, Dev.kept_foldl, implies_true,
    apply_ite (Dev.kept W), ite_self]

theorem Dev.respActive_kept (d : Dev) (k : Nat) (a : Accepted) (hassoc : W.assoc = false) (hshallow : W.shallow = false)
    (hdeep : W.deep = false) (hfree : W.free = false) :
    (d.respActive k a).kept W = d.kept W := by
  unfold Dev.respActive
  (repeat' split) <;>
    simp only [Dev.readReply_kept, Dev.wr_kept, Dev.wrS_kept, Dev.modLf_kept, Dev.upwardFrame_kept, Dev.exchangeDone_kept,
      hassoc, hshallow, hdeep, hfree]

theorem execResp_kept {s s' : State} {t : Nat} {k : ChanId} (hassoc : W.assoc = false) (hshallow : W.shallow = false)
    (hdeep : W.deep = false) (hfree : W.free = false) (hcopy : W.copy = false) (h : execResp t k s = .next s') :
    s'.dev.kept W = (s.at_ t).kept W := by
  refine State.runClk_kept (fun d => ?_) h
  split
  · rfl
  next a e he =>
    refine Eq.trans ?_ (Dev.takeAccepted_kept he)
    simp only [Dev.endHandOn_kept, Dev.respActive_kept, Dev.confirmJoin_kept, Dev.joinAbandon_kept, Dev.raise_kept,
      apply_ite (Dev.kept W), ite_self, hassoc, hshallow, hdeep, hfree, hcopy]

theorem execJoinreq_kept {s s' : State} {t : Nat} {k : ChanId} (h : execJoinreq t k s = .next s') :
    s'.dev.kept W = (s.at_ t).kept W := by
  refine State.runClk_kept (fun d => ?_) h
  split
  · rfl
  next a e he =>
    refine Eq.trans ?_ (Dev.takeAccepted_kept he)
    simp only [Dev.modLf_kept, Dev.checkBlock_kept, apply_ite (Dev.kept W), ite_self]

theorem Dev.joinFailed_kept (d : Dev) (k : Nat) (hdrbg : W.drbg = false) : (d.joinFailed k).kept W = d.kept W := by
  simp only [Dev.joinFailed, Dev.modLf_kept, Dev.wr_kept]
  split <;> simp only [Dev.draw_kept, hdrbg]

theorem Dev.joined_kept (d : Dev) (k i : Nat) (m : JoinAccMsg) (hassoc : W.assoc = false) :
    (d.joined k i m).kept W = d.kept W := by
  simp only [Dev.joined, Dev.adoptSession_kept, Dev.wr_kept, Dev.modLf_kept, hassoc]

theorem execJoinacc_kept {s s' : State} {t : Nat} {k : ChanId} (hassoc : W.assoc = false) (hdrbg : W.drbg = false)
    (h : execJoinacc t k s = .next s') :
    s'.dev.kept W = (s.at_ t).kept W := by
  refine State.runClk_kept (fun d => ?_) h
  split
  · rfl
  next a e he =>
    refine Eq.trans ?_ (Dev.takeAccepted_kept he)
    dsimp only
    (repeat' split) <;>
      simp only [Dev.joined_kept, Dev.wr_kept, Dev.joinFailed_kept, Dev.checkBlock_kept, hassoc, hdrbg]

theorem execDiscoveryWindowEnd_kept {s s' : State} {t : Nat} {k : ChanId} (hdrbg : W.drbg = false)
    (h : execDiscoveryWindowEnd t k s = .next s') :
    s'.dev.kept W = (s.at_ t).kept W := by
  refine State.runClk_kept (fun d => ?_) h
  dsimp only
  (repeat' split) <;> simp only [Dev.modLf_kept, Dev.joinFailed_kept, hdrbg]

theorem execNodeLost_kept {s s' : State} {t : Nat} {index : NodeAddr} (h : execNodeLost t index s = .next s') :
    s'.dev.kept W = (s.at_ t).kept W := by
  refine State.runClk_kept (fun d => ?_) h
  simp only [Dev.nodeLost_kept, apply_ite (Dev.kept W), ite_self]

theorem execJoinAbandon_kept {s s' : State} {t : Nat} {index : NodeAddr} (hassoc : W.assoc = false)
    (h : execJoinAbandon t index s = .next s') :
    s'.dev.kept W = (s.at_ t).kept W := by
  refine State.runClk_kept (fun d => ?_) h
  simp only [Dev.joinAbandon_kept, hassoc, apply_ite (Dev.kept W), ite_self]

theorem execOutstationLoss_kept {s s' : State} {t : Nat} {k : ChanId} (h : execOutstationLoss t k s = .next s') :
    s'.dev.kept W = (s.at_ t).kept W := by
  refine State.runClk_kept (fun d => ?_) h
  simp only [Dev.unjoin_kept, apply_ite (Dev.kept W), ite_self]

/-! ### Ports -/

theorem Dev.uplinkNotice_kept (d : Dev) (code p : Nat) : (d.uplinkNotice code p).kept W = d.kept W := by
  simp only [Dev.uplinkNotice, Dev.notice_kept]

theorem Dev.upFail_kept (d : Dev) : d.upFail.kept W = d.kept W := by
  simp only [Dev.upFail, Dev.cause_kept]

theorem Dev.portLost_kept (d : Dev) (p : Nat) (hshallow : W.shallow = false) (hfree : W.free = false)
    (hethOut : W.ethOut = false) :
    (d.portLost p).kept W = d.kept W := by
  have hcut (d : Dev) (l : List Nat) : (l.foldl Dev.cutFrame d).kept W = d.kept W :=
    Dev.kept_foldl (fun d q => d.cutFrame_kept q hshallow hfree hethOut) l d
  simp only [Dev.portLost, Dev.upFail_kept, Dev.uplinkNotice_kept, Dev.raise_kept, hcut, Dev.kept_links, Dev.wr_kept,
    apply_ite (Dev.kept W), ite_self]

theorem Dev.linkLoss_kept (d : Dev) (p : Nat) (flag : Field) (hshallow : W.shallow = false) (hfree : W.free = false)
    (hethOut : W.ethOut = false) :
    (d.linkLoss p flag).kept W = d.kept W := by
  simp only [Dev.linkLoss, Dev.portLost_kept, Dev.wr_kept, Dev.raise_kept, hshallow, hfree, hethOut]

theorem execLossOfSignal_kept {s s' : State} {t : Nat} {p : PortId} {lane : Fin 8} (hshallow : W.shallow = false)
    (hfree : W.free = false) (hethOut : W.ethOut = false) (h : execLossOfSignal t p lane s = .next s') :
    s'.dev.kept W = (s.at_ t).kept W := by
  refine State.run_kept (fun d => ?_) h
  simp only [Dev.linkLoss_kept, Dev.wr_kept, hshallow, hfree, hethOut, apply_ite (Dev.kept W), ite_self]

theorem execLossOfAlignment_kept {s s' : State} {t : Nat} {p : PortId} {hiser : Bool} (hshallow : W.shallow = false)
    (hfree : W.free = false) (hethOut : W.ethOut = false) (h : execLossOfAlignment t p hiser s = .next s') :
    s'.dev.kept W = (s.at_ t).kept W := by
  refine State.run_kept (fun d => ?_) h
  simp only [Dev.linkLoss_kept, Dev.wr_kept, hshallow, hfree, hethOut, apply_ite (Dev.kept W), ite_self]

theorem Dev.moveTo_kept (d : Dev) (p : Nat) (f : Nat → Bool) : (d.moveTo p f).2.kept W = d.kept W := by
  simp only [Dev.moveTo, Dev.wr_kept, Dev.kept_foldl, implies_true]

theorem Dev.failover_kept (d : Dev) (p : Nat) : (d.failover p).kept W = d.kept W := by
  simp only [Dev.failover, Dev.moveTo_kept, Dev.uplinkNotice_kept, Dev.raise_kept, apply_ite (Dev.kept W), ite_self]

theorem execPortUp_kept {s s' : State} {t : Nat} {p : PortId} (h : execPortUp t p s = .next s') :
    s'.dev.kept W = (s.at_ t).kept W := by
  refine State.run_kept (fun d => Dev.kept_ite _ ?_ rfl) h
  simp only [Dev.failover_kept, Dev.kept_linkUp, Dev.wr_kept]

theorem Dev.unsquelch_kept (d : Dev) (p : Nat) : (d.unsquelch p).kept W = d.kept W := by
  simp only [Dev.unsquelch, Dev.wr_kept, Dev.kept_linkWait, apply_ite (Dev.kept W), ite_self]

theorem Dev.squelch_kept (d : Dev) (p : Nat) (hshallow : W.shallow = false) (hfree : W.free = false)
    (hethOut : W.ethOut = false) :
    (d.squelch p).kept W = d.kept W := by
  simp only [Dev.squelch, Dev.wr_kept, Dev.linkLoss_kept, hshallow, hfree, hethOut, Dev.kept_linkWait, apply_ite (Dev.kept W),
    ite_self]

theorem execSquelchClear_kept {s s' : State} {t : Nat} {p : PortId} (h : execSquelchClear t p s = .next s') :
    s'.dev.kept W = (s.at_ t).kept W := by
  refine State.run_kept (fun d => ?_) h
  simp only [Dev.unsquelch_kept, apply_ite (Dev.kept W), ite_self]

theorem execSquelchSet_kept {s s' : State} {t : Nat} {p : PortId} (hshallow : W.shallow = false) (hfree : W.free = false)
    (hethOut : W.ethOut = false) (h : execSquelchSet t p s = .next s') :
    s'.dev.kept W = (s.at_ t).kept W := by
  refine State.run_kept (fun d => ?_) h
  simp only [Dev.squelch_kept, hshallow, hfree, hethOut, apply_ite (Dev.kept W), ite_self]

theorem execPortUpTimeout_kept {s s' : State} {t : Nat} {p : PortId} {sigdet : BitVec 8} (h : execPortUpTimeout t p sigdet s =
    .next s') :
    s'.dev.kept W = (s.at_ t).kept W := by
  refine State.run_kept (fun d => ?_) h
  split <;> simp only [Dev.raise_kept, Dev.wr_kept, apply_ite (Dev.kept W), ite_self]

theorem execFailholdExpiry_kept {s s' : State} {t : Nat} {p : PortId} (h : execFailholdExpiry t p s = .next s') :
    s'.dev.kept W = (s.at_ t).kept W := by
  refine State.runClk_kept (fun d => ?_) h
  simp only [Dev.failover_kept]

theorem execRevert_kept {s s' : State} {t : Nat} {p : PortId} (h : execRevert t p s = .next s') :
    s'.dev.kept W = (s.at_ t).kept W := by
  refine State.runClk_kept (fun d => ?_) h
  split <;>
    simp only [Dev.moveTo_kept, Dev.uplinkNotice_kept, Dev.raise_kept, Dev.kept_returning, apply_ite (Dev.kept W), ite_self]

theorem execPfcFrame_kept {s s' : State} {t : Nat} {p : PortId} {prio : Fin 8} {quanta : BitVec 16} (h : execPfcFrame t p prio
    quanta s = .next s') :
    s'.dev.kept W = (s.at_ t).kept W := by
  refine State.run_kept (fun d => Dev.kept_ite _ rfl (Dev.kept_ite _ ?_ (d.event_kept _ _ _ _))) h
  exact (Dev.kept_paused _ _).trans (d.event_kept _ _ _ _)

theorem execPauseExpiry_kept {s s' : State} {t : Nat} {p : PortId} {prio : Fin 8} (h : execPauseExpiry t p prio s = .next s') :
    s'.dev.kept W = (s.at_ t).kept W :=
  State.run_kept (fun d => Dev.kept_ite _ (d.kept_paused _) rfl) h

theorem Dev.fwDrop_kept (d : Dev) (code : Nat) : (d.fwDrop code).kept W = d.kept W := by
  simp only [Dev.fwDrop, Dev.wr_kept, Dev.inc_kept]

theorem execEgressFrameStart_kept {s s' : State} {t : Nat} {p : PortId} (hshallow : W.shallow = false)
    (hethOut : W.ethOut = false) (h : execEgressFrameStart t p s = .next s') :
    s'.dev.kept W = (s.at_ t).kept W := by
  refine State.runClk_kept (fun d => Dev.kept_ite _ rfl ?_) h
  split
  · rfl
  · simp only [Dev.event_kept, Dev.beginItem_kept, Dev.entryParity_kept, Dev.kept_egress, hshallow, hethOut]

/-! ### Budgets -/

theorem Dev.countDecision_kept (d : Dev) (o : BudgetOut) : (d.countDecision o).kept W = d.kept W := by
  unfold Dev.countDecision
  split <;> simp only [Dev.event_kept, Dev.inc_kept]

theorem Dev.decide_kept (d : Dev) (q : Nat) (r : BudgetReq) (o : BudgetOut) (g : Option SlotGrant) (hassoc : W.assoc = false)
    (hkeys : W.keys = false) (hshallow : W.shallow = false) (hdeep : W.deep = false) (hfree : W.free = false)
    (hdrbg : W.drbg = false) :
    (d.decide_ q r o g).kept W = d.kept W := by
  unfold Dev.decide_
  (repeat' split) <;>
    simp only [Dev.modSq_kept, Dev.countDecision_kept, Dev.budgetDeny_kept, Dev.retryTx_kept, Dev.wakeGrant_kept, hassoc, hkeys,
      hshallow, hdeep, hfree, hdrbg]

theorem Dev.setAllowance_kept (d : Dev) (k x charge : Nat) : (d.setAllowance k x charge).kept W = d.kept W := by
  simp only [Dev.setAllowance, Dev.wr_kept, Dev.modCh_kept]

theorem Dev.leaveGnt_kept (d : Dev) (q : Nat) (r : BudgetReq) (hassoc : W.assoc = false) (hkeys : W.keys = false)
    (hshallow : W.shallow = false) (hdeep : W.deep = false) (hfree : W.free = false) (hdrbg : W.drbg = false) :
    (d.leaveGnt q r).kept W = d.kept W := by
  unfold Dev.leaveGnt
  split <;>
    simp only [Dev.decide_kept, Dev.setAllowance_kept, hassoc, hkeys, hshallow, hdeep, hfree, hdrbg, apply_ite (Dev.kept W),
      ite_self]

theorem execRefclkSysRestored_kept {s s' : State} {t : Nat} (hassoc : W.assoc = false) (hkeys : W.keys = false)
    (hshallow : W.shallow = false) (hdeep : W.deep = false) (hfree : W.free = false) (htime : W.time = false)
    (hdrbg : W.drbg = false) (h : execRefclkSysRestored t s = .next s') :
    s'.dev.kept W = (s.at_ t).kept W := by
  refine State.run_kept (fun d => ?_) h
  simp only [Dev.refclkBack_kept, Dev.leaveGnt_kept, hassoc, hkeys, hshallow, hdeep, hfree, htime, hdrbg, Dev.kept_foldl,
    implies_true]

/-! ### Records and the lock -/

theorem Dev.drawPageKey_kept (d : Dev) (p : Nat) (hroot : W.root = false) (hdrbg : W.drbg = false) :
    (d.drawPageKey p).kept W = d.kept W := by
  have hkey := d.drawKey_kept hdrbg
  unfold Dev.drawPageKey
  split
  next k e he =>
    rw [he] at hkey
    refine Eq.trans ?_ hkey
    simp only [Dev.kept, tracked_false hroot, tracked_false hdrbg]

theorem Dev.keyWrite_kept (d : Dev) (src sa : Nat) (ph : Bool) (hassoc : W.assoc = false) (hdrbg : W.drbg = false) :
    (d.keyWrite src sa ph).2.kept W = d.kept W := by
  simp only [Dev.keyWrite, Dev.drawCtr_kept, Dev.setSa_kept, hassoc, hdrbg, apply_ite (Dev.kept W), ite_self,
    apply_ite Prod.snd]

theorem Dev.keyClear_kept (d : Dev) (sa : Nat) (ph : Bool) (hassoc : W.assoc = false) (hkeys : W.keys = false)
    (hshallow : W.shallow = false) (hfree : W.free = false) (hdrbg : W.drbg = false) (hlease : W.lease = false)
    (hethOut : W.ethOut = false) (hmasked : W.masked = false) :
    (d.keyClear sa ph).kept W = d.kept W := by
  simp only [Dev.keyClear, Dev.startAllJobs_kept, Dev.endKeySessions_kept, Dev.erasePhase_kept, hassoc, hkeys, hshallow, hfree,
    hdrbg, hlease, hethOut, hmasked]

theorem Dev.keyErase_kept (d : Dev) (sa : Nat) (ph : Bool) (hassoc : W.assoc = false) (hkeys : W.keys = false)
    (hshallow : W.shallow = false) (hfree : W.free = false) (hdrbg : W.drbg = false) (hlease : W.lease = false)
    (hethOut : W.ethOut = false) (hmasked : W.masked = false) :
    (d.keyErase sa ph).2.kept W = d.kept W := by
  simp only [Dev.keyErase, Dev.keyClear_kept, hassoc, hkeys, hshallow, hfree, hdrbg, hlease, hethOut, hmasked,
    apply_ite (Dev.kept W), ite_self, apply_ite Prod.snd]

theorem Dev.rollRecord_kept (d : Dev) (sa : Nat) (hassoc : W.assoc = false) (hkeys : W.keys = false) :
    (d.rollRecord sa).2.kept W = d.kept W := by
  simp only [Dev.rollRecord, Dev.setSa_kept, Dev.completeRoll_kept, Dev.mirrorPhase_kept, hassoc, hkeys, apply_ite (Dev.kept W),
    ite_self, apply_ite Prod.snd]

theorem Dev.queryRecord_kept (d : Dev) (src sa : Nat) : (d.queryRecord src sa).kept W = d.kept W := by
  simp only [Dev.queryRecord, Dev.wr_kept]

theorem Dev.createRecord_kept (d : Dev) (src sa kind : Nat) (hassoc : W.assoc = false) :
    (d.createRecord src sa kind).2.kept W = d.kept W := by
  simp only [Dev.createRecord, Dev.setSa_kept, hassoc, apply_ite (Dev.kept W), ite_self, apply_ite Prod.snd]

theorem Dev.removeRecord_kept (d : Dev) (sa : Nat) (hassoc : W.assoc = false) (hkeys : W.keys = false)
    (hshallow : W.shallow = false) (hfree : W.free = false) (hdrbg : W.drbg = false) (hlease : W.lease = false)
    (hethOut : W.ethOut = false) (hmasked : W.masked = false) :
    (d.removeRecord sa).kept W = d.kept W := by
  simp only [Dev.removeRecord, Dev.setSa_kept, Dev.keyClear_kept, hassoc, hkeys, hshallow, hfree, hdrbg, hlease, hethOut,
    hmasked]

theorem Dev.pageErase_kept (d : Dev) (p : Nat) (hassoc : W.assoc = false) (hkeys : W.keys = false)
    (hshallow : W.shallow = false) (hfree : W.free = false) (hroot : W.root = false) (hdrbg : W.drbg = false)
    (hlease : W.lease = false) (hethOut : W.ethOut = false) (hmasked : W.masked = false) :
    (d.pageErase p).kept W = d.kept W := by
  simp only [Dev.pageErase, Dev.drawPageKey_kept, Dev.removeRecord_kept, hassoc, hkeys, hshallow, hfree, hroot, hdrbg, hlease,
    hethOut, hmasked, Dev.kept_foldl, implies_true]

theorem Dev.recordEffect_kept (d : Dev) (src op sa : Nat) (ph : Bool) (kind : Nat) (hassoc : W.assoc = false)
    (hkeys : W.keys = false) (hshallow : W.shallow = false) (hfree : W.free = false) (hroot : W.root = false)
    (hdrbg : W.drbg = false) (hlease : W.lease = false) (hethOut : W.ethOut = false) (hmasked : W.masked = false) :
    (d.recordEffect src op sa ph kind).2.kept W = d.kept W := by
  unfold Dev.recordEffect
  (repeat' split) <;>
    simp only [Dev.hedge_kept, Dev.createRecord_kept, Dev.pageErase_kept, Dev.keyWrite_kept, Dev.keyErase_kept,
      Dev.rollRecord_kept, Dev.queryRecord_kept, Dev.removeRecord_kept, hassoc, hkeys, hshallow, hfree, hroot, hdrbg, hlease,
      hethOut, hmasked, apply_ite (Dev.kept W), ite_self, apply_ite Prod.snd]

theorem Dev.saRes_kept (d : Dev) (src res : Nat) : (d.saRes src res).kept W = d.kept W := by
  simp only [Dev.saRes, Dev.wr_kept]

theorem Dev.recordCommand_kept (d : Dev) (src op sa : Nat) (ph : Bool) (kind : Nat) (hassoc : W.assoc = false)
    (hkeys : W.keys = false) (hshallow : W.shallow = false) (hfree : W.free = false) (hroot : W.root = false)
    (hdrbg : W.drbg = false) (hlease : W.lease = false) (hethOut : W.ethOut = false) (hmasked : W.masked = false) :
    (d.recordCommand src op sa ph kind).kept W = d.kept W := by
  simp only [Dev.recordCommand, Dev.saRes_kept, Dev.wr_kept, Dev.zeroStaging_kept, Dev.recordEffect_kept, hassoc, hkeys,
    hshallow, hfree, hroot, hdrbg, hlease, hethOut, hmasked, Dev.kept_sa, apply_ite (Dev.kept W), ite_self]

theorem Dev.recordDone_kept (d : Dev) (src : Nat) (hkeys : W.keys = false) : (d.recordDone src).kept W = d.kept W := by
  unfold Dev.recordDone
  (repeat' split) <;> simp only [Dev.noteRewrite_kept, Dev.zeroStaging_kept, Dev.wr_kept, Dev.saRes_kept, hkeys, Dev.kept_sa]

theorem execKeywr_kept {s s' : State} {t : Nat} {src : Fin 17} {saidx : NodeAddr} {phase : Bool} (hassoc : W.assoc = false)
    (hkeys : W.keys = false) (hshallow : W.shallow = false) (hfree : W.free = false) (hroot : W.root = false)
    (hdrbg : W.drbg = false) (hlease : W.lease = false) (hethOut : W.ethOut = false) (hmasked : W.masked = false)
    (h : execKeywr t src saidx phase s = .next s') :
    s'.dev.kept W = (s.at_ t).kept W := by
  refine State.runClk_kept (fun d => ?_) h
  simp only [Dev.recordCommand_kept, hassoc, hkeys, hshallow, hfree, hroot, hdrbg, hlease, hethOut, hmasked]

theorem execKeyerase_kept {s s' : State} {t : Nat} {src : Fin 17} {saidx : NodeAddr} {phase : Bool} (hassoc : W.assoc = false)
    (hkeys : W.keys = false) (hshallow : W.shallow = false) (hfree : W.free = false) (hroot : W.root = false)
    (hdrbg : W.drbg = false) (hlease : W.lease = false) (hethOut : W.ethOut = false) (hmasked : W.masked = false)
    (h : execKeyerase t src saidx phase s = .next s') :
    s'.dev.kept W = (s.at_ t).kept W := by
  refine State.runClk_kept (fun d => ?_) h
  simp only [Dev.recordCommand_kept, hassoc, hkeys, hshallow, hfree, hroot, hdrbg, hlease, hethOut, hmasked]

theorem execRoll_kept {s s' : State} {t : Nat} {src : Fin 17} {saidx : NodeAddr} (hassoc : W.assoc = false)
    (hkeys : W.keys = false) (hshallow : W.shallow = false) (hfree : W.free = false) (hroot : W.root = false)
    (hdrbg : W.drbg = false) (hlease : W.lease = false) (hethOut : W.ethOut = false) (hmasked : W.masked = false)
    (h : execRoll t src saidx s = .next s') :
    s'.dev.kept W = (s.at_ t).kept W := by
  refine State.runClk_kept (fun d => ?_) h
  simp only [Dev.recordCommand_kept, hassoc, hkeys, hshallow, hfree, hroot, hdrbg, hlease, hethOut, hmasked]

theorem execQuery_kept {s s' : State} {t : Nat} {src : Fin 17} {saidx : NodeAddr} (hassoc : W.assoc = false)
    (hkeys : W.keys = false) (hshallow : W.shallow = false) (hfree : W.free = false) (hroot : W.root = false)
    (hdrbg : W.drbg = false) (hlease : W.lease = false) (hethOut : W.ethOut = false) (hmasked : W.masked = false)
    (h : execQuery t src saidx s = .next s') :
    s'.dev.kept W = (s.at_ t).kept W := by
  refine State.runClk_kept (fun d => ?_) h
  simp only [Dev.recordCommand_kept, hassoc, hkeys, hshallow, hfree, hroot, hdrbg, hlease, hethOut, hmasked]

theorem execCreate_kept {s s' : State} {t : Nat} {src : Fin 17} {saidx : NodeAddr} {kind : Fin 4} (hassoc : W.assoc = false)
    (hkeys : W.keys = false) (hshallow : W.shallow = false) (hfree : W.free = false) (hroot : W.root = false)
    (hdrbg : W.drbg = false) (hlease : W.lease = false) (hethOut : W.ethOut = false) (hmasked : W.masked = false)
    (h : execCreate t src saidx kind s = .next s') :
    s'.dev.kept W = (s.at_ t).kept W := by
  refine State.runClk_kept (fun d => ?_) h
  simp only [Dev.recordCommand_kept, hassoc, hkeys, hshallow, hfree, hroot, hdrbg, hlease, hethOut, hmasked]

theorem execDelete_kept {s s' : State} {t : Nat} {src : Fin 17} {saidx : NodeAddr} (hassoc : W.assoc = false)
    (hkeys : W.keys = false) (hshallow : W.shallow = false) (hfree : W.free = false) (hroot : W.root = false)
    (hdrbg : W.drbg = false) (hlease : W.lease = false) (hethOut : W.ethOut = false) (hmasked : W.masked = false)
    (h : execDelete t src saidx s = .next s') :
    s'.dev.kept W = (s.at_ t).kept W := by
  refine State.runClk_kept (fun d => ?_) h
  simp only [Dev.recordCommand_kept, hassoc, hkeys, hshallow, hfree, hroot, hdrbg, hlease, hethOut, hmasked]

theorem execPageerase_kept {s s' : State} {t : Nat} {src : Fin 17} (hassoc : W.assoc = false) (hkeys : W.keys = false)
    (hshallow : W.shallow = false) (hfree : W.free = false) (hroot : W.root = false) (hdrbg : W.drbg = false)
    (hlease : W.lease = false) (hethOut : W.ethOut = false) (hmasked : W.masked = false) (h : execPageerase t src s = .next s')
    :
    s'.dev.kept W = (s.at_ t).kept W := by
  refine State.runClk_kept (fun d => ?_) h
  simp only [Dev.recordCommand_kept, hassoc, hkeys, hshallow, hfree, hroot, hdrbg, hlease, hethOut, hmasked]

theorem execSaCommandDone_kept {s s' : State} {t : Nat} {src : Fin 17} (hkeys : W.keys = false)
    (h : execSaCommandDone t src s = .next s') :
    s'.dev.kept W = (s.at_ t).kept W := by
  refine State.runClk_kept (fun d => ?_) h
  simp only [Dev.recordDone_kept, hkeys]

theorem Dev.acquire_kept (d : Dev) (n : Nat) (hlease : W.lease = false) : (d.acquire n).kept W = d.kept W := by
  simp only [Dev.acquire, Dev.wr_kept, hlease, Dev.kept_leaseEnd, apply_ite (Dev.kept W), ite_self]

theorem Dev.releaseLock_kept (d : Dev) (n : Nat) (hlease : W.lease = false) : (d.releaseLock n).kept W = d.kept W := by
  simp only [Dev.releaseLock, Dev.freeLock_kept, hlease, apply_ite (Dev.kept W), ite_self]

theorem Dev.writeLock_kept (d : Dev) (n : Nat) (v : Word32) (hlease : W.lease = false) :
    (d.writeLock n v).kept W = d.kept W := by
  simp only [Dev.writeLock, Dev.lapseLock_kept, Dev.releaseLock_kept, Dev.acquire_kept, hlease, apply_ite (Dev.kept W),
    ite_self]

theorem execAcq_kept {s s' : State} {t : Nat} {sess : Fin 256} (hlease : W.lease = false) (h : execAcq t sess s = .next s') :
    s'.dev.kept W = (s.at_ t).kept W := by
  refine State.runClk_kept (fun d => ?_) h
  simp only [Dev.writeLock_kept, hlease, apply_ite (Dev.kept W), ite_self]

theorem execRel_kept {s s' : State} {t : Nat} {sess : Fin 256} (hlease : W.lease = false) (h : execRel t sess s = .next s') :
    s'.dev.kept W = (s.at_ t).kept W := by
  refine State.runClk_kept (fun d => ?_) h
  simp only [Dev.writeLock_kept, hlease, apply_ite (Dev.kept W), ite_self]

theorem execLeaseExpiry_kept {s s' : State} {t : Nat} (hlease : W.lease = false) (h : execLeaseExpiry t s = .next s') :
    s'.dev.kept W = (s.at_ t).kept W := by
  refine State.run_kept (fun d => ?_) h
  simp only [Dev.lapseLock_kept, hlease]

theorem Dev.writeJcfg_kept (d : Dev) (p : Nat) (v : Word32) : (d.writeJcfg p v).2.kept W = d.kept W := by
  simp only [Dev.writeJcfg, Dev.raise_kept, Dev.setWord_kept, apply_ite (Dev.kept W), ite_self, apply_ite Prod.snd]

theorem execJen_kept {s s' : State} {t : Nat} {p : PageId} (h : execJen t p s = .next s') :
    s'.dev.kept W = (s.at_ t).kept W := by
  refine State.runClk_kept (fun d => ?_) h
  simp only [Dev.writeJcfg_kept, apply_ite (Dev.kept W), ite_self]

theorem Dev.ringPop_kept (d : Dev) (p : Nat) (hkeys : W.keys = false) : (d.ringPop p).kept W = d.kept W := by
  simp only [Dev.ringPop, Dev.setPage_kept, hkeys]

theorem execPgJdone3Read_kept {s s' : State} {t : Nat} {p : PageId} (hkeys : W.keys = false)
    (h : execPgJdone3Read t p s = .next s') :
    s'.dev.kept W = (s.at_ t).kept W := by
  refine State.runClk_kept (fun d => ?_) h
  simp only [Dev.ringPop_kept, hkeys, apply_ite (Dev.kept W), ite_self]

/-! ### Management -/

theorem Dev.mgReceived_kept (d : Dev) (p n : Nat) : (d.mgReceived p n).kept W = d.kept W := by
  simp only [Dev.mgReceived, Dev.event_kept, Dev.kept_bwSum]

theorem Dev.mgSend_kept (d : Dev) (o : MgmtOut) : (d.mgSend o).kept W = d.kept W := by
  refine Dev.kept_ite _ rfl ((Dev.kept_mgtOut _ _ _).trans ?_)
  simp only [Dev.event_kept]

theorem Dev.mgTake_kept (d : Dev) (f : MgmtFrame) (act : Dev → Dev) (hact : ∀ d, (act d).kept W = d.kept W) :
    (d.mgTake f act).kept W = d.kept W := by
  simp only [Dev.mgTake, Dev.inc_kept, hact, apply_ite (Dev.kept W), ite_self]

theorem Dev.mgArrive_kept (d : Dev) (p : Nat) (f : MgmtFrame) (act : Dev → Dev) (hact : ∀ d, (act d).kept W = d.kept W) :
    (d.mgArrive p f act).kept W = d.kept W := by
  simp only [Dev.mgArrive, Dev.inc_kept, Dev.fwDrop_kept, Dev.mgTake_kept _ _ act hact, Dev.mgReceived_kept,
    apply_ite (Dev.kept W), ite_self]

theorem Dev.authFail_kept (d : Dev) : d.authFail.kept W = d.kept W := by
  simp only [Dev.authFail, Dev.mgRise_kept, Dev.inc_kept]

theorem Dev.mgKeyed_kept (d : Dev) (f : MgmtFrame) (tagOk : Bool) (act : Dev → Dev) (hact : ∀ d, (act d).kept W = d.kept W) :
    (d.mgKeyed f tagOk act).kept W = d.kept W := by
  simp only [Dev.mgKeyed, Dev.inc_kept, Dev.authFail_kept, hact, apply_ite (Dev.kept W), ite_self]

theorem Dev.modSession_kept (d : Dev) (n : Nat) (f : Session → Session) : (d.modSession n f).kept W = d.kept W := by
  simp only [Dev.modSession, Dev.kept_sessions]

theorem Dev.displace_kept (d : Dev) (prin : Nat) (hlease : W.lease = false) : (d.displace prin).kept W = d.kept W := by
  unfold Dev.displace
  split <;> simp only [Dev.endSession_kept, hlease]

theorem Dev.openSession_kept (d : Dev) (p : Nat) (mac : BitVec 48) (f : MgmtFrame) (hdrbg : W.drbg = false)
    (hlease : W.lease = false) :
    (d.openSession p mac f).kept W = d.kept W := by
  simp only [Dev.openSession, Dev.displace_kept, Dev.inc_kept, Dev.draw_kept, Dev.wr_kept, Dev.mgSend_kept, hdrbg, hlease,
    Dev.kept_sessions, apply_ite (Dev.kept W), ite_self]

theorem Dev.mgIdle_kept (d : Dev) (f : MgmtFrame) : (d.mgIdle f).kept W = d.kept W := by
  simp only [Dev.mgIdle, Dev.inc_kept, apply_ite (Dev.kept W), ite_self]

theorem Dev.mgOpen_kept (d : Dev) (p : Nat) (mac : BitVec 48) (f : MgmtFrame) (tagOk : Bool) (hdrbg : W.drbg = false)
    (hlease : W.lease = false) :
    (d.mgOpen p mac f tagOk).kept W = d.kept W :=
  Dev.kept_ite _ (d.mgIdle_kept f) (d.mgKeyed_kept f tagOk _ (fun d => d.openSession_kept p mac f hdrbg hlease))

theorem execOpenFrame_kept {s s' : State} {t : Nat} {p : PortId} {mac : BitVec 48} {f : MgmtFrame} {tagOk : Bool} (hdrbg :
    W.drbg = false) (hlease : W.lease = false) (h : execOpenFrame t p mac f tagOk s = .next s') :
    s'.dev.kept W = (s.at_ t).kept W :=
  State.run_kept (fun d => d.mgArrive_kept p.val f _ (fun d => d.mgOpen_kept p.val mac f tagOk hdrbg hlease)) h

theorem execSessionLapse_kept {s s' : State} {t : Nat} {sess : Fin 256} (hlease : W.lease = false)
    (h : execSessionLapse t sess s = .next s') :
    s'.dev.kept W = (s.at_ t).kept W := by
  refine State.runClk_kept (fun d => ?_) h
  split <;> simp only [Dev.endSession_kept, hlease, apply_ite (Dev.kept W), ite_self]

theorem execSessionIdleTimeout_kept {s s' : State} {t : Nat} {sess : Fin 256} (hlease : W.lease = false)
    (h : execSessionIdleTimeout t sess s = .next s') :
    s'.dev.kept W = (s.at_ t).kept W := by
  refine State.runClk_kept (fun d => ?_) h
  split <;> simp only [Dev.endSession_kept, hlease, apply_ite (Dev.kept W), ite_self]

theorem Dev.sendNotices_kept (d : Dev) (n : Nat) : (d.sendNotices n).kept W = d.kept W := by
  unfold Dev.sendNotices
  (repeat' split) <;> simp only [Dev.modSession_kept, Dev.mgSend_kept]

theorem execNoticeSend_kept {s s' : State} {t : Nat} (h : execNoticeSend t s = .next s') :
    s'.dev.kept W = (s.at_ t).kept W := by
  refine State.runClk_kept (fun d => ?_) h
  simp only [Dev.sendNotices_kept, Dev.kept_foldl, implies_true]

end Sys2Proof.Machine
end

section
/-! PROOFS. The frames of the families of commands. -/

namespace Sys2Proof.Machine

open Sys2Proof

variable {W : Watch}

/-! ### What a family keeps -/

/-- What a command of transmission keeps. -/
theorem transmissionCommands_kept (hassoc : W.assoc = false) (hkeys : W.keys = false) (hshallow : W.shallow = false) (hdeep
    : W.deep = false) (hfree : W.free = false) (htime : W.time = false) (hgov : W.gov = false) (hdrbg : W.drbg = false)
    (hmasked : W.masked = false) {c : Instr} {s s' : State} (hc : c.family = .transmission) (h : exec c s = .next s') :
    s'.dev.kept W = (s.at_ c.stamp).kept W := by
  cases c
  case transmitEntry => exact execTransmitEntry_kept hassoc hkeys hshallow hdeep hfree hdrbg hmasked h
  case transmissionEnd => exact execTransmissionEnd_kept hassoc hkeys hdeep hfree hdrbg hmasked h
  case driverOvercurrent => exact execDriverOvercurrent_kept hassoc hkeys hdeep hfree hdrbg hmasked h
  case vhvFeLow => exact execVhvFeLow_kept hassoc hkeys hdeep hfree hgov hdrbg hmasked h
  case vhvFeRestored => exact execVhvFeRestored_kept hgov h
  case tx => exact execTx_kept hassoc hkeys hshallow hdeep hfree hdrbg h
  case refclkSysRestored => exact execRefclkSysRestored_kept hassoc hkeys hshallow hdeep hfree htime hdrbg h
  case vddFeOutOfRange => exact execVddFeOutOfRange_kept hassoc hkeys hdeep hfree hgov hdrbg hmasked h
  all_goals cases hc

/-- What a command of mains time, palette commits and fade ends keeps. -/
theorem timingCommands_kept (htime : W.time = false) {c : Instr} {s s' : State} (hc : c.family = .timing) (h : exec c s =
    .next s') :
    s'.dev.kept W = (s.at_ c.stamp).kept W := by
  cases c
  case zeroCrossing => exact execZeroCrossing_kept htime h
  case cycleRecordFix => exact execCycleRecordFix_kept htime h
  case missedCycles => exact execMissedCycles_kept htime h
  case freerun => exact execFreerun_kept h
  case mtNowCycRead => exact execMtNowCycRead_kept h
  case commitA => exact execCommitA_kept h
  case commitB => exact execCommitB_kept h
  case fadeEnd => exact execFadeEnd_kept h
  all_goals cases hc

/-- What a command of reception keeps. -/
theorem receptionCommands_kept (hassoc : W.assoc = false) (hkeys : W.keys = false) (hshallow : W.shallow = false) (hdeep :
    W.deep = false) (hfree : W.free = false) (hdrbg : W.drbg = false) (hmasked : W.masked = false) {c : Instr} {s s' :
    State} (hc : c.family = .reception) (h : exec c s = .next s') :
    s'.dev.kept W = (s.at_ c.stamp).kept W := by
  cases c
  case responseWindowCommit => exact execResponseWindowCommit_kept hassoc hdeep hfree hdrbg hmasked h
  case windowOpen => exact execWindowOpen_kept hdeep hfree h
  case preambleDetection => exact execPreambleDetection_kept hassoc hshallow hdeep hfree hdrbg hmasked h
  case trimApply => exact execTrimApply_kept hdeep hfree h
  case signReversal => exact execSignReversal_kept hassoc hshallow hdeep hfree hdrbg hmasked h
  case syncReversalTimeout => exact execSyncReversalTimeout_kept hassoc hshallow hdeep hfree hdrbg hmasked h
  case syncWordDecision => exact execSyncWordDecision_kept hassoc hshallow hdeep hfree hdrbg hmasked h
  case headerDecode => exact execHeaderDecode_kept hassoc hshallow hdeep hfree hdrbg hmasked h
  case sentinelCandidate => exact execSentinelCandidate_kept hassoc hshallow hdeep hfree hdrbg hmasked h
  case payloadSymbol => exact execPayloadSymbol_kept hassoc hshallow hdeep hfree hdrbg hmasked h
  case interleaverBlockComplete => exact execInterleaverBlockComplete_kept h
  case codewordDecode => exact execCodewordDecode_kept hassoc hkeys hshallow hdeep hfree hdrbg hmasked h
  case tagVerdict => exact execTagVerdict_kept hassoc hkeys hshallow hdeep hfree hdrbg hmasked h
  case noiseFloorMeasurement => exact execNoiseFloorMeasurement_kept hassoc hshallow hdeep hfree hdrbg hmasked h
  case rx => exact execRx_kept hdeep hfree h
  case keywaitExpiry => exact execKeywaitExpiry_kept hassoc hdeep hfree hdrbg hmasked h
  all_goals cases hc

/-- What a command of Luafen messages keeps. -/
theorem messagesCommands_kept (hassoc : W.assoc = false) (hshallow : W.shallow = false) (hdeep : W.deep = false) (hfree :
    W.free = false) (hcopy : W.copy = false) (hdrbg : W.drbg = false) {c : Instr} {s s' : State} (hc : c.family = .messages)
    (h : exec c s = .next s') :
    s'.dev.kept W = (s.at_ c.stamp).kept W := by
  cases c
  case beacon => exact execBeacon_kept h
  case poll => exact execPoll_kept hshallow hdeep hfree h
  case resp => exact execResp_kept hassoc hshallow hdeep hfree hcopy h
  case relay => exact execRelay_kept hshallow hdeep hfree h
  case joinreq => exact execJoinreq_kept h
  case joinacc => exact execJoinacc_kept hassoc hdrbg h
  case nodeLost => exact execNodeLost_kept h
  case joinAbandon => exact execJoinAbandon_kept hassoc h
  case outstationLoss => exact execOutstationLoss_kept h
  case discoveryWindowEnd => exact execDiscoveryWindowEnd_kept hdrbg h
  all_goals cases hc

/-- What a command of the queues keeps. -/
theorem queuesCommands_kept (hshallow : W.shallow = false) (hdeep : W.deep = false) (hfree : W.free = false) (hethOut :
    W.ethOut = false) {c : Instr} {s s' : State} (hc : c.family = .queues) (h : exec c s = .next s') :
    s'.dev.kept W = (s.at_ c.stamp).kept W := by
  cases c
  case queuePush => exact execQueuePush_kept hshallow hdeep hfree h
  case queuePop => exact execQueuePop_kept hshallow hdeep hfree hethOut h
  case prune => exact execPrune_kept hshallow hfree hethOut h
  case flush => exact execFlush_kept hshallow hdeep hfree hethOut h
  case abort => exact execAbort_kept hshallow hdeep hfree h
  case zeroingDone => exact execZeroingDone_kept hshallow hfree h
  case queueEnable => exact execQueueEnable_kept hdeep hfree h
  case queueDisable => exact execQueueDisable_kept hshallow hdeep hfree hethOut h
  case half1Set => exact execHalf1Set_kept hfree h
  case half1Clear => exact execHalf1Clear_kept hfree h
  case pfcRepeat => exact execPfcRepeat_kept h
  all_goals cases hc

/-- What a command of the ends of sector operations keeps. -/
theorem sectorsCommands_kept (hassoc : W.assoc = false) (hkeys : W.keys = false) (hshallow : W.shallow = false) (hdeep :
    W.deep = false) (hfree : W.free = false) (hdrbg : W.drbg = false) (hethOut : W.ethOut = false) (hmasked : W.masked =
    false) {c : Instr} {s s' : State} (hc : c.family = .sectors) (h : exec c s = .next s') :
    s'.dev.kept W = (s.at_ c.stamp).kept W := by
  cases c
  case sectorEncryptDone => exact execSectorEncryptDone_kept hassoc hkeys hshallow hdeep hfree hdrbg hethOut hmasked h
  case sectorDecryptDone => exact execSectorDecryptDone_kept hassoc hkeys hshallow hdeep hfree hdrbg hethOut hmasked h
  all_goals cases hc

/-- What a command of the Ethernet ports keeps. -/
theorem linksCommands_kept (hshallow : W.shallow = false) (hfree : W.free = false) (hethOut : W.ethOut = false) {c : Instr}
    {s s' : State} (hc : c.family = .links) (h : exec c s = .next s') :
    s'.dev.kept W = (s.at_ c.stamp).kept W := by
  cases c
  case egressFrameStart => exact execEgressFrameStart_kept hshallow hethOut h
  case lossOfSignal => exact execLossOfSignal_kept hshallow hfree hethOut h
  case lossOfAlignment => exact execLossOfAlignment_kept hshallow hfree hethOut h
  case portUp => exact execPortUp_kept h
  case failholdExpiry => exact execFailholdExpiry_kept h
  case revert => exact execRevert_kept h
  case pfcFrame => exact execPfcFrame_kept h
  case pauseExpiry => exact execPauseExpiry_kept h
  case squelchClear => exact execSquelchClear_kept h
  case squelchSet => exact execSquelchSet_kept hshallow hfree hethOut h
  case portUpTimeout => exact execPortUpTimeout_kept h
  all_goals cases hc

/-- What a command of records, the lock and pages keeps. -/
theorem recordsCommands_kept (hassoc : W.assoc = false) (hkeys : W.keys = false) (hshallow : W.shallow = false) (hfree :
    W.free = false) (hroot : W.root = false) (hdrbg : W.drbg = false) (hlease : W.lease = false) (hethOut : W.ethOut =
    false) (hmasked : W.masked = false) {c : Instr} {s s' : State} (hc : c.family = .records) (h : exec c s = .next s') :
    s'.dev.kept W = (s.at_ c.stamp).kept W := by
  cases c
  case keywr => exact execKeywr_kept hassoc hkeys hshallow hfree hroot hdrbg hlease hethOut hmasked h
  case keyerase => exact execKeyerase_kept hassoc hkeys hshallow hfree hroot hdrbg hlease hethOut hmasked h
  case roll => exact execRoll_kept hassoc hkeys hshallow hfree hroot hdrbg hlease hethOut hmasked h
  case query => exact execQuery_kept hassoc hkeys hshallow hfree hroot hdrbg hlease hethOut hmasked h
  case create => exact execCreate_kept hassoc hkeys hshallow hfree hroot hdrbg hlease hethOut hmasked h
  case delete => exact execDelete_kept hassoc hkeys hshallow hfree hroot hdrbg hlease hethOut hmasked h
  case pageerase => exact execPageerase_kept hassoc hkeys hshallow hfree hroot hdrbg hlease hethOut hmasked h
  case saCommandDone => exact execSaCommandDone_kept hkeys h
  case acq => exact execAcq_kept hlease h
  case rel => exact execRel_kept hlease h
  case leaseExpiry => exact execLeaseExpiry_kept hlease h
  case jen => exact execJen_kept h
  case pgJdone3Read => exact execPgJdone3Read_kept hkeys h
  all_goals cases hc

/-- What a command of sessions keeps. -/
theorem sessionsCommands_kept (hdrbg : W.drbg = false) (hlease : W.lease = false) {c : Instr} {s s' : State} (hc : c.family
    = .sessions) (h : exec c s = .next s') :
    s'.dev.kept W = (s.at_ c.stamp).kept W := by
  cases c
  case openFrame => exact execOpenFrame_kept hdrbg hlease h
  case sessionLapse => exact execSessionLapse_kept hlease h
  case sessionIdleTimeout => exact execSessionIdleTimeout_kept hlease h
  case noticeSend => exact execNoticeSend_kept h
  all_goals cases hc

/-- What a command of the counters and the age of the noise floor keeps. -/
theorem countersCommands_kept {c : Instr} {s s' : State} (hc : c.family = .counters) (h : exec c s = .next s') :
    s'.dev.kept W = (s.at_ c.stamp).kept W := by
  cases c
  case windowBoundary => exact execWindowBoundary_kept h
  case wrapclr => exact execWrapclr_kept h
  case cntRdRead => exact execCntRdRead_kept h
  case counterSettingWrite => exact execCounterSettingWrite_kept h
  case wtCfgWrite => exact execWtCfgWrite_kept h
  case bwCfgWrite => exact execBwCfgWrite_kept h
  case nfAgeExpiry => exact execNfAgeExpiry_kept h
  all_goals cases hc

/-- A lenient relation holds between the device before and after a command of the sequencer family. -/
theorem stepCommands_lenient {R : Dev → Dev → Prop} (hR : Lenient R) {c : Instr} {s s' : State} (hc : c.family = .steps)
    (h : exec c s = .next s') : R (s.at_ c.stamp) s'.dev := by
  cases c
  case sampleSync => exact execSampleSync_lenient hR h
  case sync => exact execSync_lenient hR h
  case syncReset => exact execSyncReset_lenient hR h
  case paletteSwap => exact execPaletteSwap_lenient hR h
  case halt => exact execHalt_lenient hR h
  case waitTime => exact execWaitTime_lenient hR h
  case waitTimeComplete => exact hR.same (fun _ _ => execWaitTimeComplete_kept h)
  case waitRxdone => exact execWaitRxdone_lenient hR h
  case waitTxdone => exact execWaitTxdone_lenient hR h
  case waitGrant => exact execWaitGrant_lenient hR h
  case waitKey => exact execWaitKey_lenient hR h
  case waitFlagSet => exact execWaitFlagSet_lenient hR h
  case waitFlagClear => exact execWaitFlagClear_lenient hR h
  case armNode => exact execArmNode_lenient hR h
  case armSwap => exact execArmSwap_lenient hR h
  case armPath => exact execArmPath_lenient hR h
  case branch => exact execBranch_lenient hR h
  case loop => exact execLoop_lenient hR h
  case call => exact execCall_lenient hR h
  case ret => exact execRet_lenient hR h
  case budgetTxslot => exact execBudgetTxslot_lenient hR h
  case budgetIter => exact execBudgetIter_lenient hR h
  case budgetBringup => exact execBudgetBringup_lenient hR h
  case noteNotice => exact execNoteNotice_lenient hR h
  case noteEvent => exact execNoteEvent_lenient hR h
  case noteFlagSet => exact execNoteFlagSet_lenient hR h
  case noteFlagClear => exact execNoteFlagClear_lenient hR h
  case start => exact hR.same (fun _ _ => execStart_kept h)
  case stop => exact hR.same (fun _ _ => execStop_kept h)
  case clear => exact hR.same (fun _ _ => execClear_kept h)
  case pfset => exact execPfset_lenient hR h
  case pfclr => exact execPfclr_lenient hR h
  case sqLiveWrite => exact hR.same (fun _ _ => execSqLiveWrite_kept h)
  all_goals cases hc
/-! ### What an equality of the tracked parts says -/

section Extract
variable {d e : Dev} (h : e.kept W = d.kept W)
include h

theorem Dev.sameKeys_of_kept (hassoc : W.assoc = true) (hkeys : W.keys = true) : d.sameKeys e := by
  have hall := tracked_inj hkeys (congrArg Kept.keys h)
  simp only [Prod.mk.injEq] at hall
  obtain ⟨hcache, hfetches, hsa, hpages⟩ := hall
  exact ⟨tracked_inj hassoc (congrArg Kept.assoc h), hcache, hfetches, hsa, hpages⟩

theorem Dev.sameQueues_of_kept (hshallow : W.shallow = true) (hdeep : W.deep = true) (hfree : W.free = true) :
    d.sameQueues e := by
  have hall := tracked_inj hshallow (congrArg Kept.shallow h)
  simp only [Prod.mk.injEq] at hall
  obtain ⟨hsh, hzeroing⟩ := hall
  exact ⟨hsh, tracked_inj hdeep (congrArg Kept.deep h), tracked_inj hfree (congrArg Kept.free h), hzeroing⟩

theorem Dev.sameTables_of_kept (hcopy : W.copy = true) : d.sameTables e := by
  have hall := tracked_inj hcopy (congrArg Kept.copy h)
  simp only [Prod.mk.injEq] at hall
  obtain ⟨hcopies, hedits⟩ := hall
  exact ⟨hcopies, congrArg Kept.badParity h, hedits, congrArg Kept.shadow h⟩

theorem Dev.samePower_of_kept (hgov : W.gov = true) : d.samePower e :=
  ⟨tracked_inj hgov (congrArg Kept.gov h), congrArg Kept.restore h, congrArg Kept.loader h, congrArg Kept.alarmed h,
    congrArg Kept.inReset h⟩

theorem Dev.root_of_kept (hroot : W.root = true) :
    e.root = { d.root with drbg := e.root.drbg, generates := e.root.generates } := by
  have hcore := tracked_inj hroot (congrArg Kept.root h)
  calc e.root = { ({ e.root with drbg := none, generates := 0 } : Root) with
                  drbg := e.root.drbg, generates := e.root.generates } := rfl
    _ = _ := by rw [hcore]

theorem Dev.wholeRoot_of_kept (hroot : W.root = true) (hdrbg : W.drbg = true) : e.root = d.root := by
  have hall := tracked_inj hdrbg (congrArg Kept.drbg h)
  simp only [Prod.mk.injEq] at hall
  obtain ⟨hgen, hcount⟩ := hall
  rw [Dev.root_of_kept h hroot, hgen, hcount]

theorem Dev.time_of_kept (htime : W.time = true) : e.mains = d.mains ∧ e.now = d.now := by
  have hall := tracked_inj htime (congrArg Kept.time h)
  simp only [Prod.mk.injEq] at hall
  exact hall.symm

end Extract

/-! ### The cells of the free list -/

/-- Cells that the free list holds. -/
def Dev.listed (d : Dev) : Nat := (d.free.map Prod.snd).sum

/-- A cell appended to the runs adds one. -/
theorem appendCell_sum (l : List (Nat × Nat)) (c : Nat) :
    ((appendCell l c).map Prod.snd).sum = (l.map Prod.snd).sum + 1 := by
  induction l with
  | nil => rfl
  | cons r l ih =>
    cases l with
    | nil =>
      unfold appendCell
      split <;> simp
    | cons x l =>
      have hcons : appendCell (r :: x :: l) c = r :: appendCell (x :: l) c := rfl
      rw [hcons, List.map_cons, List.sum_cons, ih, List.map_cons (l := x :: l), List.sum_cons, Nat.add_assoc]

/-- Cells that ripen only add to the list. -/
theorem Dev.listed_ripen (d : Dev) : d.listed ≤ d.ripen.listed := by
  have hfold (cs : List Nat) (l : List (Nat × Nat)) : (l.map Prod.snd).sum ≤ ((cs.foldl appendCell l).map Prod.snd).sum := by
    induction cs generalizing l with
    | nil => exact le_rfl
    | cons c cs ih => exact (Nat.le_succ _).trans ((appendCell_sum l c).symm.le.trans (ih (appendCell l c)))
  exact hfold _ _

/-- Time alone moves no cell. -/
theorem Dev.advance_free (d : Dev) (t : Nat) : (d.advance t).free = d.free :=
  tracked_inj rfl (congrArg Kept.free (d.advance_kept (W := { time := false }) t rfl))

/-- That the free list loses no cell is a lenient relation. -/
theorem lenient_listed : Lenient (fun d e => d.listed ≤ e.listed) where
  same {d e} h := by
    have hfree : e.free = d.free := tracked_inj rfl (congrArg Kept.free (h { deep := false } rfl))
    exact (congrArg (fun l => (List.map Prod.snd l).sum) hfree).symm.le
  trans h k := Nat.le_trans h k
  cell d c := by
    unfold Dev.returnCell
    split
    · exact d.listed_ripen
    · exact le_rfl

/-! ### What each frame tracks -/

def sectorsWatch : Watch :=
  { assoc := false, keys := false, shallow := false, deep := false, free := false, drbg := false, ethOut := false, masked := false }

def queuesWatch : Watch := { shallow := false, deep := false, free := false, ethOut := false, time := false }

def stepsWatch : Watch := { deep := false, free := false, time := false }

def recordsWatch : Watch :=
  { assoc := false, keys := false, shallow := false, free := false, root := false, drbg := false, lease := false, ethOut := false,
    masked := false, time := false }

def linksWatch : Watch := { shallow := false, free := false, ethOut := false, time := false }

def sessionsWatch : Watch := { drbg := false, lease := false, time := false }

def receptionWatch : Watch :=
  { assoc := false, keys := false, shallow := false, deep := false, free := false, drbg := false, masked := false, time := false }

def messagesWatch : Watch :=
  { assoc := false, shallow := false, deep := false, free := false, copy := false, drbg := false, time := false }

def lineWatch : Watch := { receptionWatch with copy := false, gov := false }

/-! ### The obligations -/

/-- Settles O54: commands of mains time change nothing that a frame tracks but time, and the counters not even that. -/
theorem timingFrame : Obligations.TimingFrame := by
  unfold Obligations.TimingFrame
  intro c s s' hc h
  have hkept : s'.dev.kept { time := false } = s.dev.kept { time := false } := by
    refine Eq.trans ?_ (s.dev.advance_kept c.stamp rfl)
    rcases hc with hc | hc
    · exact timingCommands_kept rfl hc h
    · exact countersCommands_kept hc h
  exact ⟨Dev.sameKeys_of_kept hkept rfl rfl, Dev.sameQueues_of_kept hkept rfl rfl rfl, Dev.sameTables_of_kept hkept rfl,
    Dev.samePower_of_kept hkept rfl⟩

/-- Settles O55: the commands of the queues reach the queues, the free list and the ports' frames, the ends of sector operations
keys, the DRBG and masking too. -/
theorem queueFrame : Obligations.QueueFrame := by
  unfold Obligations.QueueFrame
  intro c s s' hc h
  have hwide {W : Watch} (hassoc : W.assoc = false) (hkeys : W.keys = false) (hshallow : W.shallow = false)
      (hdeep : W.deep = false) (hfree : W.free = false) (hdrbg : W.drbg = false) (hethOut : W.ethOut = false)
      (hmasked : W.masked = false) : s'.dev.kept W = (s.at_ c.stamp).kept W := by
    rcases hc with hc | hc
    · exact queuesCommands_kept hshallow hdeep hfree hethOut hc h
    · exact sectorsCommands_kept hassoc hkeys hshallow hdeep hfree hdrbg hethOut hmasked hc h
  have hkept : s'.dev.kept { sectorsWatch with time := false } = s.dev.kept { sectorsWatch with time := false } :=
    (hwide rfl rfl rfl rfl rfl rfl rfl rfl).trans (s.dev.advance_kept c.stamp rfl)
  obtain ⟨hmains, hnow⟩ := Dev.time_of_kept (hwide (W := sectorsWatch) rfl rfl rfl rfl rfl rfl rfl rfl) rfl
  refine ⟨Dev.sameTables_of_kept hkept rfl, Dev.samePower_of_kept hkept rfl, hmains, hnow, fun hq => ?_⟩
  have hqueues : s'.dev.kept queuesWatch = s.dev.kept queuesWatch :=
    (queuesCommands_kept rfl rfl rfl rfl hq h).trans (s.dev.advance_kept c.stamp rfl)
  exact ⟨Dev.sameKeys_of_kept hqueues rfl rfl, Dev.wholeRoot_of_kept hqueues rfl rfl⟩

/-- Settles O56: a command of a sequencer's family reaches the deep queues, and the free list only to return cells to it. -/
theorem stepFrame : Obligations.StepFrame := by
  unfold Obligations.StepFrame
  intro c s s' hc h
  have hkept : s'.dev.kept stepsWatch = s.dev.kept stepsWatch :=
    (stepCommands_lenient (lenient_kept rfl rfl) hc h).trans (s.dev.advance_kept c.stamp rfl)
  have hcells : s.dev.listed ≤ s'.dev.listed := by
    refine Nat.le_trans (Nat.le_of_eq ?_) (stepCommands_lenient lenient_listed hc h)
    exact (congrArg (fun l => (List.map Prod.snd l).sum) (Dev.advance_free s.dev c.stamp)).symm
  have hshallow := tracked_inj rfl (congrArg Kept.shallow hkept)
  simp only [Prod.mk.injEq] at hshallow
  obtain ⟨hsh, hzeroing⟩ := hshallow
  exact ⟨Dev.sameKeys_of_kept hkept rfl rfl, hsh, hzeroing, hcells, Dev.sameTables_of_kept hkept rfl,
    Dev.samePower_of_kept hkept rfl, Dev.wholeRoot_of_kept hkept rfl rfl⟩

/-- Settles O57: the commands of records, of the lock and of pages reach keys, the shallow queues, the root, the lease, the ports'
frames and masking. -/
theorem recordFrame : Obligations.RecordFrame := by
  unfold Obligations.RecordFrame
  intro c s s' hc h
  have hkept : s'.dev.kept recordsWatch = s.dev.kept recordsWatch :=
    (recordsCommands_kept rfl rfl rfl rfl rfl rfl rfl rfl rfl hc h).trans (s.dev.advance_kept c.stamp rfl)
  exact ⟨tracked_inj rfl (congrArg Kept.deep hkept), Dev.sameTables_of_kept hkept rfl, Dev.samePower_of_kept hkept rfl,
    congrArg Kept.engine hkept⟩

/-- Settles O58: the ports' commands reach the shallow queues, the free list and the ports' frames, the session commands the DRBG
and the lease. -/
theorem linkAndSessionFrame : Obligations.LinkAndSessionFrame := by
  unfold Obligations.LinkAndSessionFrame
  refine ⟨fun c s s' hc h => ?_, fun c s s' hc h => ?_⟩
  · have hkept : s'.dev.kept linksWatch = s.dev.kept linksWatch :=
      (linksCommands_kept rfl rfl rfl hc h).trans (s.dev.advance_kept c.stamp rfl)
    exact ⟨Dev.sameKeys_of_kept hkept rfl rfl, Dev.sameTables_of_kept hkept rfl, Dev.samePower_of_kept hkept rfl,
      Dev.wholeRoot_of_kept hkept rfl rfl, tracked_inj rfl (congrArg Kept.lease hkept), congrArg Kept.engine hkept⟩
  · have hkept : s'.dev.kept sessionsWatch = s.dev.kept sessionsWatch :=
      (sessionsCommands_kept rfl rfl hc h).trans (s.dev.advance_kept c.stamp rfl)
    exact ⟨Dev.sameKeys_of_kept hkept rfl rfl, Dev.sameQueues_of_kept hkept rfl rfl rfl, Dev.sameTables_of_kept hkept rfl,
      Dev.samePower_of_kept hkept rfl, tracked_inj rfl (congrArg Kept.ethOut hkept),
      tracked_inj rfl (congrArg Kept.masked hkept)⟩

/-- Settles O59: reception, messages and transmission reach neither the lease nor the ports' frames; reception leaves the governor
and the repair copy, the messages the governor and the key cache. -/
theorem lineFrame : Obligations.LineFrame := by
  unfold Obligations.LineFrame
  intro c s s' hc h
  have hreception (hr : c.family = .reception) : s'.dev.kept receptionWatch = s.dev.kept receptionWatch :=
    (receptionCommands_kept rfl rfl rfl rfl rfl rfl rfl hr h).trans (s.dev.advance_kept c.stamp rfl)
  have hmessages (hm : c.family = .messages) : s'.dev.kept messagesWatch = s.dev.kept messagesWatch :=
    (messagesCommands_kept rfl rfl rfl rfl rfl rfl hm h).trans (s.dev.advance_kept c.stamp rfl)
  have hkept : s'.dev.kept lineWatch = s.dev.kept lineWatch := by
    refine Eq.trans ?_ (s.dev.advance_kept c.stamp rfl)
    rcases hc with hc | hc | hc
    · exact receptionCommands_kept rfl rfl rfl rfl rfl rfl rfl hc h
    · exact messagesCommands_kept rfl rfl rfl rfl rfl rfl hc h
    · exact transmissionCommands_kept rfl rfl rfl rfl rfl rfl rfl rfl rfl hc h
  refine ⟨congrArg Kept.restore hkept, congrArg Kept.loader hkept, congrArg Kept.shadow hkept, congrArg Kept.badParity hkept,
    tracked_inj rfl (congrArg Kept.lease hkept), congrArg Kept.engine hkept, tracked_inj rfl (congrArg Kept.ethOut hkept),
    congrArg Kept.inReset hkept, fun hr => ?_, fun hm => ?_⟩
  · have hcopies := tracked_inj rfl (congrArg Kept.copy (hreception hr))
    simp only [Prod.mk.injEq] at hcopies
    obtain ⟨hcopy, _⟩ := hcopies
    exact ⟨Dev.root_of_kept (hreception hr) rfl, tracked_inj rfl (congrArg Kept.gov (hreception hr)), hcopy⟩
  · have hkeys := tracked_inj rfl (congrArg Kept.keys (hmessages hm))
    simp only [Prod.mk.injEq] at hkeys
    obtain ⟨hcache, _, _, hpages⟩ := hkeys
    exact ⟨tracked_inj rfl (congrArg Kept.gov (hmessages hm)), hcache, hpages⟩

end Sys2Proof.Machine
end

section
/-! PROOFS. The register words that a command leaves. -/

namespace Sys2Proof.Machine

open Sys2Proof

/-! ### From the device that a command makes to the state it leaves -/

/-- The words that say which domains are on. -/
def pdstatWords : List Nat := [A.GV_PDSTAT0, A.GV_PDSTAT0 + 4, A.GV_PDSTAT0 + 8]

theorem pdstat_mem {n : Nat} (h : n ≤ 79) : A.GV_PDSTAT0 + 4 * (n / 32) ∈ pdstatWords := by
  have hn : n / 32 = 0 ∨ n / 32 = 1 ∨ n / 32 = 2 := by omega
  rcases hn with hn | hn | hn <;> simp [pdstatWords, hn]

/-- The domain of a register word is on, or it has none. -/
def Dev.wordOn (d : Dev) (a : Nat) : Prop := regDomain a = 79 ∨ d.domOn (regDomain a) = true

section Leaves
variable {s s' : State} {t a : Nat} {f : Dev → Dev}

/-- A device that leaves a word and the words of the domains leaves it in the state too. -/
theorem Dev.word_settle_of_leaves {d e : Dev} (hon : d.wordOn a) (hpd : ∀ b ∈ pdstatWords, e.word b = d.word b)
    (ha : e.word a = d.word a) : e.settle.word a = d.word a := by
  have hdom : e.domOn (regDomain a) = d.domOn (regDomain a) := by
    unfold Dev.domOn
    rw [hpd _ (pdstat_mem (regDomain_le a))]
  refine (e.settle_word a ?_).trans ha
  rw [hdom]
  exact hon

/-- A command that always acts leaves the word that its effect leaves. -/
theorem State.run_word (hs : s.live) (hon : s.dev.wordOn a)
    (hf : ∀ b, b = a ∨ b ∈ pdstatWords → (f (s.at_ t)).word b = (s.at_ t).word b) (h : s.run t f = .next s') :
    s'.dev.word a = s.dev.word a := by
  have hto := State.run_awake f (d := s.at_ t) ⟨hs.1, rfl⟩
  obtain rfl : s' = s.to (f (s.at_ t)) := Host.Outcome.next.inj (h.symm.trans hto)
  have hadv (b : Nat) : (s.at_ t).word b = s.dev.word b := s.dev.advance_word t b
  exact Dev.word_settle_of_leaves hon (fun b hb => (hf b (.inr hb)).trans (hadv b)) ((hf a (.inl rfl)).trans (hadv a))

/-- So does one that acts while REFCLK_SYS is present. -/
theorem State.runClk_word (hs : s.live) (hon : s.dev.wordOn a)
    (hf : ∀ b, b = a ∨ b ∈ pdstatWords → (f (s.at_ t)).word b = (s.at_ t).word b) (h : s.runClk t f = .next s') :
    s'.dev.word a = s.dev.word a := by
  refine State.run_word hs hon (fun b hb => ?_) h
  split
  · exact hf b hb
  · rfl

end Leaves

/-! ### Words that an operation leaves -/

section Words
variable (d : Dev)

theorem Dev.raise_word (f : Field) {b : Nat} (h : b ≠ f.addr) : (d.raise f).word b = d.word b :=
  (d.hwNote f 1).word_wr_ne f 1 b h

/-- Pauses touch no register. -/
theorem Dev.sendPfc_word (n b : Nat) : (d.sendPfc n).word b = d.word b := by
  have hfold (l : List PfcOut) (d : Dev) : (l.foldl (fun d x => d.event 7 6 x.port 1) d).word b = d.word b := by
    induction l generalizing d with
    | nil => rfl
    | cons x l ih => exact (ih _).trans (congrArg (fun r => Tab.get (resetWord b) r b) (d.event_regs 7 6 x.port 1))
  exact hfold _ _

theorem Dev.pfcCheck_word (b : Nat) : d.pfcCheck.word b = d.word b := by
  unfold Dev.pfcCheck
  split
  · rfl
  split
  · exact d.sendPfc_word _ b
  split
  · exact d.sendPfc_word 0 b
  · rfl

theorem Dev.returnCell_word (c b : Nat) : (d.returnCell c).word b = d.word b := by
  unfold Dev.returnCell
  split <;> rfl

/-- A commit writes SC_STATUS of its channel. -/
theorem Dev.commitPalette_word (k : Nat) (second : Bool) {b : Nat} (h : b ≠ A.SC_STATUS k) :
    (d.commitPalette k second).word b = d.word b := by
  have hloaded : b ≠ (loadedField k second).addr := by cases second <;> exact h
  unfold Dev.commitPalette
  split
  · exact d.raise_word _ h
  split
  · exact d.word_wr_ne _ _ b hloaded
  · exact (Dev.raise_word _ _ h).trans (d.word_wr_ne _ _ b hloaded)

theorem Dev.freeLock_word {b : Nat} (h : b ≠ A.ADMIN_LOCK) : d.freeLock.word b = d.word b := d.word_wr_ne _ _ b h

theorem Dev.zeroStaging_word {b : Nat} (h : b < A.SA_KEY 16 0 ∨ A.SA_KEY 16 7 < b) :
    (d.zeroStaging 16).word b = d.word b := by
  refine Tab.get_filter _ _ _ _ (fun v => ?_)
  simp only [A.SA_KEY] at h
  simp only [Bool.not_eq_true', Bool.and_eq_false_iff, decide_eq_false_iff_not]
  omega

/-- A lease that has run out frees the lock and zeroes the staging of administration. -/
theorem Dev.lapseLock_word {b : Nat} (h : b ≠ A.ADMIN_LOCK) (hkey : b < A.SA_KEY 16 0 ∨ A.SA_KEY 16 7 < b) :
    d.lapseLock.word b = d.word b := by
  unfold Dev.lapseLock
  split
  · split
    · exact (Dev.zeroStaging_word _ hkey).trans (d.freeLock_word h)
    · rfl
  · rfl

theorem Dev.writeLock_word (n : Nat) (v : Word32) {b : Nat} (h : b ≠ A.ADMIN_LOCK)
    (hkey : b < A.SA_KEY 16 0 ∨ A.SA_KEY 16 7 < b) : (d.writeLock n v).word b = d.word b := by
  refine Eq.trans ?_ (d.lapseLock_word h hkey)
  unfold Dev.writeLock Dev.releaseLock Dev.acquire
  dsimp only
  split
  · rfl
  split
  · split
    · exact Dev.freeLock_word _ h
    · rfl
  split
  · split
    · exact Dev.word_wr_ne _ _ _ b h
    · rfl
  · rfl

theorem Dev.writeJcfg_word (p : Nat) (v : Word32) {b : Nat} (hj : b ≠ A.PG_JCFG p) (hcv : b ≠ A.CV_STATUS) :
    (d.writeJcfg p v).2.word b = d.word b := by
  unfold Dev.writeJcfg
  split
  · exact d.raise_word _ hcv
  · exact d.word_setWord_ne _ b _ hj

theorem Dev.latchNow_word {b : Nat} (hcyc : b ≠ A.MT_NOW_CYC) (hgrn : b ≠ A.MT_NOW_GRN) (hlo : b ≠ A.MT_NOW_NS_LO)
    (hhi : b ≠ A.MT_NOW_NS_HI) : d.latchNow.word b = d.word b :=
  calc d.latchNow.word b = _ := Dev.word_wr_ne _ F.MT_NOW_NS_HI_NS _ b hhi
    _ = _ := Dev.word_wr_ne _ F.MT_NOW_NS_LO_NS _ b hlo
    _ = _ := Dev.word_wr_ne _ F.MT_NOW_GRN_GRAIN _ b hgrn
    _ = d.word b := Dev.word_wr_ne _ F.MT_NOW_CYC_CYCLE _ b hcyc

end Words

/-! ### A decrypted sector for which nothing waits -/

/-- No push of a deep queue waits and no page has jobs. -/
def Dev.nothingWaits (d : Dev) : Prop := d.pages = [] ∧ ∀ e ∈ d.deep, e.2.waiting = []

/-- A deep queue is in the table or has its reset value. -/
theorem Dev.dq_waiting {d : Dev} (h : d.nothingWaits) (q : Nat) : (d.dq q).waiting = [] := by
  have hget (l : Tab Deep) (hl : ∀ e ∈ l, e.2.waiting = []) : (Tab.get {} l q).waiting = [] := by
    induction l with
    | nil => rfl
    | cons e l ih =>
      unfold Tab.get
      split
      · exact hl e List.mem_cons_self
      · exact ih (fun e he => hl e (List.mem_cons_of_mem _ he))
  exact hget d.deep h.2

/-- A queue stored without waiting pushes keeps it so. -/
theorem Dev.nothingWaits_setDq {d : Dev} (h : d.nothingWaits) (q : Nat) {x : Deep} (hx : x.waiting = []) :
    (d.setDq q x).nothingWaits := by
  refine ⟨h.1, fun e he => ?_⟩
  unfold Dev.setDq Tab.set at he
  dsimp only at he
  split at he
  · exact h.2 e (Tab.mem_del he)
  · rcases Tab.mem_put he with rfl | he
    · exact hx
    · exact h.2 e he

/-- Where nothing waits, no register is touched by what goes on after a sector operation. -/
theorem Dev.pushAllWaiting_leaves {d : Dev} (h : d.nothingWaits) :
    d.pushAllWaiting.nothingWaits ∧ d.pushAllWaiting.regs = d.regs := by
  have hfold (l : Tab Deep) (d e : Dev) (h : e.nothingWaits ∧ e.regs = d.regs) :
      (l.foldl (fun d e => (d.setDq e.1 { d.dq e.1 with waiting := [] }).pushWaiting e.1 (d.dq e.1).waiting) e).nothingWaits ∧
      (l.foldl (fun d e => (d.setDq e.1 { d.dq e.1 with waiting := [] }).pushWaiting e.1 (d.dq e.1).waiting) e).regs = d.regs := by
    induction l generalizing e with
    | nil => exact h
    | cons x l ih =>
      refine ih _ ?_
      dsimp only
      rw [Dev.dq_waiting h.1]
      exact ⟨Dev.nothingWaits_setDq h.1 x.1 rfl, h.2⟩
  exact hfold d.deep d d ⟨h, rfl⟩

theorem Dev.afterSector_regs {d : Dev} (h : d.nothingWaits) : d.pushAllWaiting.startAllJobs.regs = d.regs := by
  obtain ⟨⟨hpages, _⟩, hregs⟩ := Dev.pushAllWaiting_leaves h
  unfold Dev.startAllJobs
  rw [hpages]
  exact hregs

theorem Dev.nothingWaits_advance {d : Dev} (h : d.nothingWaits) (t : Nat) : (d.advance t).nothingWaits := by
  unfold Dev.advance
  split
  · exact h
  · exact h

/-- So the data that reach read staging leave every word. -/
theorem Dev.decrypted_word {d : Dev} (h : d.nothingWaits) (q : Nat) {x : Deep} (hx : x.waiting = []) (b : Nat) :
    ((d.event 8 0 1 256).setDq q x).pushAllWaiting.startAllJobs.word b = d.word b := by
  have he : (d.event 8 0 1 256).nothingWaits := by
    unfold Dev.nothingWaits
    rw [Dev.event_pages, Dev.event_deep]
    exact h
  have hregs : ((d.event 8 0 1 256).setDq q x).pushAllWaiting.startAllJobs.regs = d.regs :=
    (Dev.afterSector_regs (Dev.nothingWaits_setDq he q hx)).trans (d.event_regs 8 0 1 256)
  exact congrArg (fun r => Tab.get (resetWord b) r b) hregs

/-! ### The obligation -/

/-- The words of the domains lie apart from every register that these commands write. -/
theorem pdstat_apart {b : Nat} (hb : b ∈ pdstatWords) : b < 0x20000 := by
  simp only [pdstatWords, A.GV_PDSTAT0, blkGv, List.mem_cons, List.not_mem_nil, or_false] at hb
  omega

/-- A word apart from a register that a command writes, and the words of the domains, are apart from it. -/
theorem ne_of_apart {a b x : Nat} (hx : 0x20000 ≤ x) (ha : a ≠ x) (hb : b = a ∨ b ∈ pdstatWords) : b ≠ x := by
  rcases hb with rfl | hb
  · exact ha
  · exact ne_of_lt (Nat.lt_of_lt_of_le (pdstat_apart hb) hx)

/-- Settles O60: each command's effect leaves every word but those it names, and settling takes none of a domain that is on. -/
theorem registerFrame : Obligations.RegisterFrame := by
  unfold Obligations.RegisterFrame
  intro s t a hs hon
  have hlock (n : Nat) (v : Word32) (d : Dev) {b : Nat} (ha : a ≠ A.ADMIN_LOCK)
      (hkey : a < A.SA_KEY 16 0 ∨ A.SA_KEY 16 7 < a) (hb : b = a ∨ b ∈ pdstatWords) : (d.writeLock n v).word b = d.word b := by
    refine d.writeLock_word n v (ne_of_apart (by decide) ha hb) ?_
    rcases hb with rfl | hb
    · exact hkey
    · exact .inl (Nat.lt_of_lt_of_le (pdstat_apart hb) (by decide))
  refine ⟨fun k s' ha h => ?_, fun k s' ha h => ?_, fun s' h => ?_, fun q s' hpages hwait h => ?_, fun q s' ha h => ?_,
    fun s' h => ?_, fun p r s' h => ?_, fun p s' h => ?_, fun n s' ha hkey h => ?_, fun n s' ha hkey h => ?_,
    fun p s' hj hcv h => ?_, fun s' hcyc hgrn hlo hhi h => ?_⟩
  · have h : execCommitA t k s = .next s' := h
    refine State.runClk_word hs hon (fun b hb => ?_) h
    split
    · exact Dev.commitPalette_word _ k.val false (ne_of_apart (by simp only [A.SC_STATUS, chBase]; omega) ha hb)
    · rfl
  · have h : execCommitB t k s = .next s' := h
    refine State.runClk_word hs hon (fun b hb => ?_) h
    split
    · exact Dev.commitPalette_word _ k.val true (ne_of_apart (by simp only [A.SC_STATUS, chBase]; omega) ha hb)
    · rfl
  · have h : execZeroingDone t s = .next s' := h
    refine State.runClk_word hs hon (fun b _ => ?_) h
    split
    · exact (Dev.pfcCheck_word _ b).trans (Dev.returnCell_word _ _ b)
    · rfl
  · have h : execSectorDecryptDone t q s = .next s' := h
    have hnone : (s.at_ t).nothingWaits := Dev.nothingWaits_advance ⟨hpages, hwait⟩ t
    refine State.runClk_word hs hon (fun b _ => ?_) h
    dsimp only
    split
    · exact Dev.decrypted_word hnone _ (by exact Dev.dq_waiting hnone q.val) b
    · rfl
  · have h : execQueueEnable t (.shallow q) s = .next s' := h
    refine State.runClk_word hs hon (fun b hb => ?_) h
    split
    · refine (Dev.pfcCheck_word _ b).trans (Dev.word_wr_ne _ _ _ b ?_)
      exact ne_of_apart (by simp only [F.QS_CFG_EN, A.QS_CFG, blkCv]; omega) ha hb
    · rfl
  · have h : execPfcRepeat t s = .next s' := h
    refine State.runClk_word hs hon (fun b _ => ?_) h
    split
    · split
      · exact Dev.sendPfc_word _ _ b
      · rfl
    · exact Dev.pfcCheck_word _ b
  · have h : execPauseExpiry t p r s = .next s' := h
    refine State.run_word hs hon (fun b _ => ?_) h
    split <;> rfl
  · have h : execPgJdone3Read t p s = .next s' := h
    refine State.runClk_word hs hon (fun b _ => ?_) h
    split <;> rfl
  · have h : execAcq t n s = .next s' := h
    refine State.runClk_word hs hon (fun b hb => ?_) h
    split
    · exact hlock _ _ _ ha hkey hb
    · rfl
  · have h : execRel t n s = .next s' := h
    refine State.runClk_word hs hon (fun b hb => ?_) h
    split
    · exact hlock _ _ _ ha hkey hb
    · rfl
  · have h : execJen t p s = .next s' := h
    refine State.runClk_word hs hon (fun b hb => ?_) h
    split
    · exact Dev.writeJcfg_word _ p.val _ (ne_of_apart (by simp only [A.PG_JCFG, pgBase]; omega) hj hb)
        (ne_of_apart (by decide) hcv hb)
    · rfl
  · have h : execMtNowCycRead t s = .next s' := h
    exact State.runClk_word hs hon (fun b hb => Dev.latchNow_word _ (ne_of_apart (by decide) hcyc hb)
      (ne_of_apart (by decide) hgrn hb) (ne_of_apart (by decide) hlo hb) (ne_of_apart (by decide) hhi hb)) h

end Sys2Proof.Machine
end
